-- ==== Sys2Proof/Word.lean ====
section
/-! DEFINITION. The words the manual speaks of: bytes, 32-bit register words and 64-bit words (R3, R7). -/

namespace Sys2Proof

abbrev Byte := BitVec 8
abbrev Word := BitVec 32
abbrev DWord := BitVec 64

end Sys2Proof
end

