-- ==== Sys2Proof/Syntax.lean ====
section
/-! DEFINITION. The commands of the DM7400: one constructor for each row of the opcode table, with its operands, and
the types of those operands. A command is one whole and indivisible step of the part. Where a row stands for an
arrival from outside, or for the end of work whose content the spec leaves to a published standard or to the analog
world, the operands carry what arrives (log entry 3). -/

namespace Sys2Proof.Machine

/-- A requester: one stream of accesses whose order the node keeps track of (the list before R339). -/
inductive Requester where
  | seq (k : Nat)
  | mgmt (session : Nat)
  | spi
  | debug
  | boot
  | remote (node : Nat)
  | engine (e : Nat)
  deriving DecidableEq, Repr

/-- Who makes a register or memory access: its requester (order, R339) and its master ID (permission, R343). -/
structure Master where
  who : Requester
  id : Nat
  deriving DecidableEq, Repr

/-- An access width of register space (R3): one aligned 32-bit word, or an aligned 64-bit pair. -/
inductive Width where
  | w32 | w64
  deriving DecidableEq, Repr

/-- The time body of a time flit (R71). -/
structure TimeFlit where
  originNs : Nat
  originFrac : Nat
  correction : Nat
  rootNode : Nat
  rootPrio : Nat
  rootClass : Nat
  reverse : Bool
  claim : Bool
  utcValid : Bool
  preempt : Bool
  hops : Nat
  rootU : Nat
  epoch : Nat
  utcOffset : Nat
  seq : Nat
  echoSeq : Nat
  echoTurn : Nat
  senderNode : Nat
  senderPrio : Nat
  senderClass : Nat
  deriving DecidableEq, Repr

/-- The PTP messages the node receives and sends (R85). -/
inductive PtpKind where
  | announce | sync | followUp | delayReq | delayResp | pdelayReq | pdelayResp | pdelayRespFollowUp
  /-- Signaling and Management, which only a TRANSPARENT port passes on. -/
  | other
  deriving DecidableEq, Repr

/-- A PTP message: its type, its source, the domain, the sequence, its correction (2^-16 ns) and the time it carries (ns),
the port a response answers, and for an Announce the grandmaster's data set. -/
structure PtpMsg where
  kind : PtpKind
  source : Nat
  domain : Nat
  seqId : Nat
  twoStep : Bool
  correction : Int
  timestamp : Nat
  requester : Nat
  priority1 : Nat
  clockClass : Nat
  accuracy : Nat
  variance : Nat
  priority2 : Nat
  grandmaster : Nat
  stepsRemoved : Nat
  deriving DecidableEq, Repr

/-- A fabric flit (R97, R98): header fields, body as six 64-bit words, trailer fields. -/
structure Flit where
  type : Nat
  vc : Nat
  hops : Nat
  dest : Nat
  src : Nat
  label : Nat
  rt : Bool
  fi : Bool
  la : Bool
  cl : Bool
  bodyLen : Nat
  pktSeq : Nat
  body : List Nat
  txSeq : Nat
  ackSeq : Nat
  nak : Bool
  ccl : Bool
  cvc : Nat
  credits : Nat
  crc : Nat
  deriving DecidableEq, Repr

/-- The body of a CONFIG control flit (R96). -/
structure ConfigBody where
  port : Nat
  idValid : Bool
  node : Nat
  mode : Nat
  topo : Nat
  x : Nat
  y : Nat
  z : Nat
  serial : Nat
  deriving DecidableEq, Repr

/-- What a flow is keyed by (R109): its origin, its kind (span or stream), its ID and its part. -/
structure FlowKey where
  origin : Nat
  span : Bool
  id : Nat
  part : Nat
  deriving DecidableEq, Repr

/-- A flow control message (the layout before R109). -/
structure CtrlMsg where
  key : FlowKey
  vc : Nat
  label : Nat
  member : Nat
  refuser : Nat
  resv : Nat
  status : Nat
  deriving DecidableEq, Repr

/-- The witness record of a picture (R40). -/
structure Witness where
  capture : Nat
  uStamp : Nat
  frameNum : Nat
  pixelCrc : Nat
  cls : Nat
  repeats : Nat
  frozen : Bool
  gap : Bool
  continuity : Bool
  holdover : Bool
  srcNode : Nat
  streamId : Nat
  deriving DecidableEq, Repr

/-- A complete fabric slice (R99, R156): the four record words as received, the slice header, and the
bytes that arrived. -/
structure SliceIn where
  record : List Nat
  bytes : Nat
  index : Nat
  key : Bool
  last : Bool
  h264 : Bool
  data : List Nat
  deriving DecidableEq, Repr

/-- A complete span band-row (R118): the record words, the header words 4 and 5, and the bytes that arrived. -/
structure BandRow where
  record : List Nat
  spanId : Nat
  part : Nat
  row : Nat
  lines : Nat
  degraded : Bool
  lastRow : Bool
  fmt : Nat
  width : Nat
  bytes : Nat
  received : Nat
  unbroken : Bool
  deriving DecidableEq, Repr

/-- A remote memory request (R107): read or write, its tag, the node-local address, its length and write data. -/
structure MemReq where
  write : Bool
  tag : Nat
  addr : Nat
  len : Nat
  data : List Nat
  deriving DecidableEq, Repr

/-- A STATE announcement (R116). -/
structure StateMsg where
  origin : Nat
  mode : Nat
  seq : Nat
  serial : Nat
  deriving DecidableEq, Repr

/-- Where a management datagram comes from: an Ethernet port with MAC, address and UDP port of the sender, or a node. -/
inductive MgmtPeer where
  | eth (port mac addr udp : Nat)
  | fabric (node : Nat)
  deriving DecidableEq, Repr

/-- What the decoding of a slice met (R169): nothing, a header out of range, or an error in the slice data. -/
inductive SliceFault where
  | none | header | data
  deriving DecidableEq, Repr

/-- What an engine reports of the slice it has finished (R163 to R171): what the codec standards' syntax and arithmetic
give, which the spec does not restate. -/
structure SliceResult where
  /-- Luma lines that the picture's slices so far cover from the top without a gap, and whether in-loop filtering crosses
  the boundary below them. -/
  covered : Nat
  crosses : Bool
  /-- Luma samples and engine cycles of the slice. -/
  samples : Nat
  cycles : Nat
  fault : SliceFault
  /-- The pictures that the slice names as references, and those that it keeps for later ones, by picture order. -/
  refs : List Int
  keep : List Int
  /-- The decoded picture hash does not match (R168); an offset lay outside the context's region (R171). -/
  hashBad : Bool
  contain : Bool
  /-- Picture order and pic_output_flag of the picture; the waiting pictures that the output process now releases, and
  those that it drops (R164). -/
  poc : Int
  shown : Bool
  outputs : List Int
  discards : List Int
  deriving DecidableEq, Repr

/-- A DisplayPort sink's capabilities (R263): rates (bit 0 HBR2 to bit 3 UHBR13.5), lanes, DSC and its maximum slice width in pixels,
LTTPRs, and its detailed timing, if any: HTOTAL, HACTIVE, VTOTAL, VACTIVE and pixel rate in kHz. -/
structure Sink where
  rates : Nat
  lanes : Nat
  dsc : Bool
  sliceWidth : Nat
  lttpr : Bool
  timing : Option (List Nat)
  deriving DecidableEq, Repr

/-- What a scan's demodulators give (R284): the value (I, Q) of every node, t-major, the self value of every pin, and
each pin's raw self count. -/
structure ScanData where
  mutual_ : List (Int × Int)
  self_ : List (Int × Int)
  raws : List Nat
  deriving DecidableEq, Repr

/-- A wake source of SLEEP (R395). -/
inductive SleepSource where
  | gpio (pin : Nat)
  | proximity (group : Nat)
  | timer
  deriving DecidableEq, Repr

/-- What LOAD and the image check meet outside the part (R370, R337, R381): whether the flash answers SFDP by the rules
of R370, whether it runs 8D-8D-8D, its size and clock, whether each slot reads within 1 s (and the header within the
2 ms of R381), whether every DRAM channel trains, and how long the LOAD takes. -/
structure FlashIn where
  answers : Bool
  fast : Bool
  sizeLog2 : Nat
  mhz : Nat
  inTime : List Bool
  trains : Bool
  us : Nat
  deriving DecidableEq, Repr

/-- What one Badger slot brings (R436): the class and unit, whether real work made the Badger yield, whether the unit's
pass ends in this slot, whether it passes, the value found and the value stored, and for the scrubs the words read and
the single-bit errors corrected. -/
structure SlotResult where
  cls : Nat
  unit : Nat
  yielded : Bool
  ends : Bool
  passes : Bool
  observed : Nat
  expected : Nat
  words : Nat
  corrected : Nat
  deriving DecidableEq, Repr

/-- What the classes of PROVE find (R442): the failures as class, unit, value found and value stored, how long they
take, and the raw self counts and coupled pins of the touch self-test. -/
structure ProveIn where
  fails : List (Nat × Nat × Nat × Nat)
  ms : Nat
  raws : List Nat
  coupled : List Nat
  deriving DecidableEq, Repr

end Sys2Proof.Machine

namespace Sys2Proof

open Sys2Proof.Machine

/-- The commands. -/
inductive Instr where
  /-- REGISTER_WRITE (R2): a write of 32 or 64 bits at a node-local register-space address. -/
  | registerWrite (by_ : Master) (width : Width) (addr : Nat) (value : Nat)
  /-- LOW_WORD_READ (R4): a 32-bit read of a register word. -/
  | lowWordRead (by_ : Master) (addr : Nat)
  /-- CLOCK_FAULT (R14): the clock of a reference-derived island is out of its 5 % window. -/
  | clockFault (island : Nat)
  /-- BAND_SLOT_START (R209): the composition slot of band b starts. -/
  | bandSlotStart (band : Nat)
  /-- BAND_OVERRUN (R211): a pipe reaches its limit in strip k with these layers not blended. -/
  | bandOverrun (strip : Nat) (layers : List Nat)
  /-- CMP_FRAME_DONE (R229): the last band of a frame is written. -/
  | cmpFrameDone
  /-- TIME_FLIT_SEND (R71): the 1 µs slot of an ACTIVE fabric port's time flit. -/
  | timeFlitSend (port : Nat)
  /-- TIME_FLIT_RECEIVE (R74): a time flit (type TIME, R98) arrives now; `crcGood` is false where the lanes have damaged it
  so that its CRC fails, whatever its words are here. -/
  | timeFlitReceive (port : Nat) (flit : Flit) (crcGood : Bool)
  /-- TIME_SETTLED (R66): the offset has stayed within LOCK_WIN for LOCK_TIME. -/
  | timeSettled
  /-- TIME_HOLDOVER (R77): PARENT_LIMIT has passed without a usable flit on the parent port. -/
  | timeHoldover
  /-- ROOT_LOST (R77): ROOT_LIMIT has passed without a flit of the acting root. -/
  | rootLost
  /-- CLAIM (R78): the RANK × STEP wait of a candidate has passed. -/
  | claim
  /-- TIME_PARENT_CHANGE (R75): a port has offered fewer HOPS for 1 ms. -/
  | timeParentChange (port : Nat)
  /-- PREEMPT_CLAIM (R80): the candidate has been LOCKED to its own reference for 10 s. -/
  | preemptClaim
  /-- REF_PPS_EDGE (R83): a 1PPS edge that passed the glitch filter arrives now. -/
  | refPpsEdge
  /-- REF_F10M_GATE (R83): a 1 s gate of the 10 MHz input ends with a count. -/
  | refF10mGate (count : Nat)
  /-- TIME_REF_LOST (R83): MISS_LIMIT edges in a row are missing. -/
  | timeRefLost
  /-- PTP_MESSAGE_TIMER (R85): a message interval of a port expires. -/
  | ptpMessageTimer (port : Nat) (kind : PtpKind)
  /-- PULSE_ARM (R89): a write that sets TIME_PULSE_CTL.EN from 0 to 1. -/
  | pulseArm (k : Nat) (periodic polarity : Bool)
  /-- PULSE_EDGE (R89): pulse output k reaches the time of its next edge. -/
  | pulseEdge (k : Nat)
  /-- CAPTURE_EDGE (R90): an edge of capture input k outlasts the glitch filter. -/
  | captureEdge (k : Nat) (rising : Bool)
  /-- CAP_STAMP_READ (R90): a read of the low word of TIME_CAP_STAMP[k]. -/
  | capStampRead (by_ : Master) (k : Nat)
  /-- PORT_TRAIN (R95): the back-off of a DOWN port with EN set has passed. -/
  | portTrain (port : Nat)
  /-- TRAIN_FAIL (R95): no lock and deskew within 20 ms. -/
  | trainFail (port : Nat)
  /-- CONFIG_SEND (R96): the 10 µs interval of a port in CONFIG. -/
  | configSend (port : Nat)
  /-- CONFIG (R96): a CONFIG control flit is received. -/
  | config (port : Nat) (body : ConfigBody)
  /-- CONFIG_TIMEOUT (R95): 1 ms without a valid CONFIG exchange. -/
  | configTimeout (port : Nat)
  /-- FLIT_RECEIVE (R100): a non-time flit arrives. -/
  | flitReceive (port : Nat) (flit : Flit)
  /-- NAK (R100): a flit with NAK = 1 and this ACK_SEQ arrives. -/
  | nak (port : Nat) (ackSeq : Nat)
  /-- IDLE_LIMIT (R120): no valid flit for IDLE_LIMIT. -/
  | idleLimit (port : Nat)
  /-- RETRAIN (R95): a write of 1 to FAB_PORT_CTL.RETRAIN. -/
  | retrain (port : Nat)
  /-- PORT_DISABLE (R120): a write of 0 to FAB_PORT_CTL.EN. -/
  | portDisable (port : Nat)
  /-- MEM_REQ (R107): a remote request from node `origin` arrives. -/
  | memReq (origin : Nat) (req : MemReq)
  /-- MEM_RSP (R107): the response to a request of this node arrives. -/
  | memRsp (tag status : Nat) (data : List Nat)
  /-- MEM_TIMEOUT (R107): no response within MEM_TIMEOUT. -/
  | memTimeout (tag : Nat)
  /-- JOIN (R109). -/
  | join (port : Nat) (msg : CtrlMsg)
  /-- ACCEPT (R109). -/
  | accept (port : Nat) (msg : CtrlMsg)
  /-- REFUSE (R112). -/
  | refuse (port : Nat) (msg : CtrlMsg)
  /-- LEAVE (R112). -/
  | leave (port : Nat) (msg : CtrlMsg)
  /-- FLOW_DOWN (R122). -/
  | flowDown (port : Nat) (msg : CtrlMsg)
  /-- REJOIN (R122): the REJOIN interval of a flow not yet accepted has passed. -/
  | rejoin (key : FlowKey)
  /-- RESV_CHECK (R113): the 100 µs window of a port ends. -/
  | resvCheck (port : Nat)
  /-- STATE_FLOOD (R116): 1 s has passed since the last flood. -/
  | stateFlood
  /-- STATE (R116): a STATE flit arrives. -/
  | state (port : Nat) (msg : StateMsg)
  /-- PEER_UNKNOWN (R116): 3 s have passed without a STATE flit of the origin. -/
  | peerUnknown (origin : Nat)
  /-- DOORBELL (R99): a DOORBELL flit for this node arrives. -/
  | doorbell (index : Nat)
  /-- STREAM_SLICE_RECEIVE (R156): a fabric slice of a flow is complete. -/
  | streamSliceReceive (key : FlowKey) (slice : SliceIn)
  /-- SPAN_BAND_ROW_RECEIVE (R119): the flits of a band-row of a flow have arrived. -/
  | spanBandRowReceive (key : FlowKey) (row : BandRow)
  /-- ETH_FRAME_RECEIVE (R127): a frame arrives, its bytes from destination address to FCS; `full` when the receive
  buffer has no room (R22). -/
  | ethFrameReceive (port : Nat) (bytes : List Nat) (full : Bool)
  /-- AU_RELEASE_TIMEOUT (R132): 2 ms have passed since the last packet of an incomplete access unit. -/
  | auReleaseTimeout (port entry ts : Nat)
  /-- STREAM_SILENT (R134): an entry has released no access unit for its SILENCE limit. -/
  | streamSilent (port entry : Nat)
  /-- ETH_LINK (R148): the link goes up or down, with or without FEC lock. -/
  | ethLink (port : Nat) (up fecLock : Bool)
  /-- NEIGHBOUR_REQUEST (R128): a needed neighbour is missing, or due for refresh. -/
  | neighbourRequest (port addr : Nat)
  /-- NEIGHBOUR_EXPIRE (R128): 90 s since the neighbour's last reply. -/
  | neighbourExpire (port addr : Nat)
  /-- MEMBERSHIP_REPORT (R130): 500 ms after the first report of a membership. -/
  | membershipReport (port group : Nat)
  /-- RTCP_SR_SEND (R137): 1 s since the stream's last sender report. -/
  | rtcpSrSend (stream : Nat)
  /-- OPEN (R138). -/
  | openMgmt (peer : MgmtPeer) (key : Nat) (nonce : List Nat)
  /-- PROVE (R139). -/
  | prove (peer : MgmtPeer) (mac : List Nat)
  /-- MGMT_READ (R140): `tagGood` is the outcome of the datagram's TAG. -/
  | mgmtRead (session seq : Nat) (tagGood : Bool) (addr len : Nat)
  /-- MGMT_WRITE (R140). -/
  | mgmtWrite (session seq : Nat) (tagGood : Bool) (addr : Nat) (data : List Nat)
  /-- MGMT_FENCE (R140). -/
  | mgmtFence (session seq : Nat) (tagGood : Bool)
  /-- MGMT_PENDING (R140): with write data, the bits to clear, lowest source first. -/
  | mgmtPending (session seq : Nat) (tagGood : Bool) (data : Option (List Nat))
  /-- CLOSE (R141). -/
  | close (session seq : Nat) (tagGood : Bool)
  /-- MGMT_IDLE (R141). -/
  | mgmtIdle (session : Nat)
  /-- MGMT_LOCKOUT_END (R139). -/
  | mgmtLockoutEnd (peer : MgmtPeer)
  /-- CSI_FRAME_START (R144): a frame start short packet with its frame number. -/
  | csiFrameStart (port vc fnum : Nat)
  /-- CSI_LINE (R143): a line packet: its virtual channel, data type and payload, and its ECC and CRC checks. -/
  | csiLine (port vc dt : Nat) (data : List Nat) (good : Bool)
  /-- CSI_FRAME_END (R143). -/
  | csiFrameEnd (port vc : Nat)
  /-- CAP_SILENT (R145): no frame start for CAP_TIMING.SILENCE. -/
  | capSilent (port : Nat)
  /-- CAP_EN_WRITE (R145): a write that sets CAP_CTL.EN from 0 to 1. -/
  | capEnWrite (port : Nat)
  /-- SLICE_DECODED (R163): an engine finishes its slice of a context's picture. -/
  | sliceDecoded (engine ctx : Nat) (r : SliceResult)
  /-- WORK_LIMIT (R170): a picture's cycles exceed WORK_X times its nominal work. -/
  | workLimit (ctx : Nat)
  /-- CONTEXT_RESET_END (R155): one picture time has passed in RESET. -/
  | contextResetEnd (ctx : Nat)
  /-- ROW_CODED (R184): an engine finishes row `row` of a context's picture, with its bytes. -/
  | rowCoded (engine ctx row bytes : Nat)
  /-- ROW_LIMIT_REACHED (R192): a row's output reaches its byte limit. -/
  | rowLimitReached (ctx row : Nat)
  /-- SLICE_EMIT (R185): a done slice goes out, with its coded bytes and, on the picture's last slice, its statistics. -/
  | sliceEmit (ctx : Nat) (nals : List (List Nat))
  /-- ENC_KEY_REQ (R188). -/
  | encKeyReq (by_ : Master) (id : Nat)
  /-- ENC_LTR_REQ (R189). -/
  | encLtrReq (by_ : Master) (id : Nat)
  /-- LATCH_LINE (R216). -/
  | latchLine
  /-- APPLY_POINT (R219). -/
  | applyPoint
  /-- CMP_GROUP_COMMIT (R215). -/
  | cmpGroupCommit (by_ : Master) (group tag : Nat)
  /-- CMP_FENCE (R217): ones for the layers, bit n for layer n. -/
  | cmpFence (by_ : Master) (mask : Nat)
  /-- CMP_FENCE_CLR (R217). -/
  | cmpFenceClr (by_ : Master) (mask : Nat)
  /-- CMP_RECEIPT_READ (R220). -/
  | cmpReceiptRead (by_ : Master)
  /-- CMP_RELEASE_READ (R222). -/
  | cmpReleaseRead (by_ : Master)
  /-- CMP_READOUT_IN (R225): a 64-bit write, or one of 32 bits. -/
  | cmpReadoutIn (by_ : Master) (width : Width) (word : Nat)
  /-- READOUT_TIMEOUT (R226): the record of a master has been incomplete for 100 µs. -/
  | readoutTimeout (master : Nat)
  /-- FRAME_START (R255): the first active line of a frame starts now. -/
  | frameStart
  /-- VBLANK (R275): the first blanking line. -/
  | vblank
  /-- LUT_SWAP (R238). -/
  | lutSwap (by_ : Master) (tables : Nat)
  /-- LUT_SWAP_CHECKED (R238): the checks of a swap end. -/
  | lutSwapChecked
  /-- LUT_WINDOW_WRITE (R237): a write at an address in a table window. -/
  | lutWindowWrite (by_ : Master) (width : Width) (addr value : Nat)
  /-- LUT_ECC_FATAL (R240): in the active bank of table 0 (pre), 1 (cube) or 2 (post). -/
  | lutEccFatal (table : Nat)
  /-- SIG_OUT_COMPLETE (R245): region r's last pixel passes point 5; `errors` are the pixels (index in the region) that
  a fault of the path has changed, with the bits changed. -/
  | sigOutComplete (r : Nat) (errors : List (Nat × Nat))
  /-- HPD_PLUG (R265): a plug, with the sink read over AUX and the (rate, lanes, DSC) choices that train. -/
  | hpdPlug (sink : Sink) (trains : List (Nat × Nat × Bool))
  /-- HPD_UNPLUG (R265). -/
  | hpdUnplug
  /-- IRQ_HPD (R265): the status read reports loss of lock, or AUX fails, and the choices that train again. -/
  | irqHpd (lost auxFails : Bool) (trains : List (Nat × Nat × Bool))
  /-- DP_RETRY (R263): the back-off of a failed attempt expires. -/
  | dpRetry (trains : List (Nat × Nat × Bool))
  /-- AUX_GO (R266): a write of SCN_AUX_CTL with GO. -/
  | auxGo (by_ : Master) (value : Nat)
  /-- AUX_REPLY_TIMEOUT (R266). -/
  | auxReplyTimeout
  /-- AUX_REPLY (R266): a reply with its code (0 ACK, 1 NACK, 2 DEFER) and data; `fits` when length and code fit. -/
  | auxReply (code : Nat) (data : List Nat) (fits : Bool)
  /-- PANEL_STEP (R267): the wait of the present sequence step ends; the choices that train when a link is due. -/
  | panelStep (trains : List (Nat × Nat × Bool))
  /-- NO_HPD (R267). -/
  | noHpd
  /-- SCN_BL_WRITE (R261): a write of SCN_BL. -/
  | scnBlWrite (by_ : Master) (value : Nat)
  /-- FAULT_HOLD_END (R274). -/
  | faultHoldEnd
  /-- HPD_SHORT_PULSE (R265): a low pulse shorter than 0.5 ms. -/
  | hpdShortPulse
  /-- TCH_CYCLE_START (R280): a scan cycle starts by its schedule. -/
  | tchCycleStart
  /-- LISTEN_END (R288): the noise of the 8 frequencies. -/
  | listenEnd (noise : List Nat)
  /-- SCAN_END (R295): MUTUAL and SELF end with what was measured. -/
  | scanEnd (data : ScanData)
  /-- SCAN_LATE (R303). -/
  | scanLate
  /-- BASELINE_ADOPTED (R291): the unbaselined region that holds this node has been stable for 10 s. -/
  | baselineAdopted (node : Nat)
  /-- UNCONF_ADOPT (R292). -/
  | unconfAdopt (node : Nat)
  /-- STUCK_CONTACT (R293). -/
  | stuckContact (slot : Nat)
  /-- TCH_REBASE (R294): a write of a slot mask. -/
  | tchRebase (by_ : Master) (mask : Nat)
  /-- TCH_TEST_GO (R304): a write of TCH_TEST. -/
  | tchTestGo (by_ : Master)
  /-- TCH_TEST_DONE (R304): the raw self count of each pin, and the pins that couple to one they do not cross. -/
  | tchTestDone (raws : List Nat) (coupled : List Nat)
  /-- TCH_RX (R301): a CONTACT flit's four words. -/
  | tchRx (words : List Nat)
  /-- TCH_RX_SILENT (R301): an origin has sent nothing for RX_TIMEOUT. -/
  | tchRxSilent (origin : Nat)
  /-- TCH_REPORT_READ (R299). -/
  | tchReportRead (by_ : Master)
  /-- PROX_SAMPLE (R305): the oscillator count of a group. -/
  | proxSample (group count : Nat)
  /-- EVENT_ARRIVAL (R310): an event reaches the event controller. -/
  | eventArrival (source : Nat)
  /-- DELIVERY (R311): an edge of the sequencer clock with an eligible source and an available target. -/
  | delivery
  /-- NOP (R319): sequencer k issues the NOP action at its PC; the rows below likewise. -/
  | seqNop (k : Nat)
  /-- WRITE32 (R321). -/
  | seqWrite32 (k : Nat)
  /-- WRITE64 (R321). -/
  | seqWrite64 (k : Nat)
  /-- RMW (R321). -/
  | seqRmw (k : Nat)
  /-- POLL (R321): the first read of a POLL, or a further one 64 cycles after the last reply. -/
  | seqPoll (k : Nat)
  /-- POLL_TIMEOUT (R321): TIMEOUT µs have passed since the first read. -/
  | seqPollTimeout (k : Nat)
  /-- WAIT_EVENT (R321). -/
  | seqWaitEvent (k : Nat)
  /-- WAIT_EVENT_TIMEOUT (R321): TIMEOUT µs have passed. -/
  | seqWaitEventTimeout (k : Nat)
  /-- WAIT_TIME (R321). -/
  | seqWaitTime (k : Nat)
  /-- WAIT_TIME_EXPIRY (R321): the wait ends. -/
  | seqWaitTimeExpiry (k : Nat)
  /-- IF_BITS (R321). -/
  | seqIfBits (k : Nat)
  /-- JUMP (R321). -/
  | seqJump (k : Nat)
  /-- FENCE (R321). -/
  | seqFence (k : Nat)
  /-- SIGNAL (R321). -/
  | seqSignal (k : Nat)
  /-- COMMIT (R321). -/
  | seqCommit (k : Nat)
  /-- COPY (R321). -/
  | seqCopy (k : Nat)
  /-- LOG (R326). -/
  | seqLog (k : Nat)
  /-- YIELD (R323). -/
  | seqYield (k : Nat)
  /-- END (R315). -/
  | seqEnd (k : Nat)
  /-- RUN_LIMIT (R324): the run has lasted longer than SEQ_RUN_LIMIT. -/
  | seqRunLimit (k : Nat)
  /-- HOLDOFF_END (R316): the INTERVAL of a closed group has passed. -/
  | holdoffEnd (group : Nat)
  /-- EVC_PEND_WRITE (R312): a write to word w of EVC_PEND. -/
  | evcPendWrite (by_ : Master) (w value : Nat)
  /-- EVC_HOST_PEND_WRITE (R317): a write to word w of EVC_HOST_PEND[h]. -/
  | evcHostPendWrite (by_ : Master) (h w value : Nat)
  /-- EVC_DOORBELL (R331): a write to EVC_DOORBELL. -/
  | evcDoorbell (by_ : Master) (value : Nat)
  /-- SEQ_LOG_READ (R326): a read of the low word of SEQ_LOG. -/
  | seqLogRead (by_ : Master)
  /-- GPIO_EDGE (R327): a new level of an input has held for DEBOUNCE. -/
  | gpioEdge (pin : Nat) (level : Bool)
  /-- I2C_GO (R328): a write of SEQ_I2C_CTL with GO = 1. -/
  | i2cGo (by_ : Master) (value : Nat)
  /-- I2C_DONE (R328): the transfer ends on the bus: 0 all acknowledged, 1 address, 2 a data byte not acknowledged; the
  bytes read. -/
  | i2cDone (ack : Nat) (data : List Nat)
  /-- I2C_TIMEOUT (R328). -/
  | i2cTimeout
  /-- GATE_COMMIT (R346): a write of a rule number. -/
  | gateCommit (by_ : Master) (index : Nat)
  /-- GATE_SYNC_WRITE (R347). -/
  | gateSyncWrite (by_ : Master) (value : Nat)
  /-- GATE_SYNC_READ (R347): the read returns. -/
  | gateSyncRead (by_ : Master)
  /-- GATE_RECORD_READ (R352): a read of the low word of GATE_RECORD. -/
  | gateRecordRead (by_ : Master)
  /-- SYS_FENCE_READ (R340): the read returns. -/
  | sysFenceRead (by_ : Master)
  /-- CISTERN_FATAL (R335): a Pump read meets an uncorrectable error in the word at this window address. -/
  | cisternFatal (addr : Nat)
  /-- WRITE (R353): an SPI transaction; `whole` is false when SPI_CS_N rose within a byte or too early. -/
  | spiWrite (addr : Nat) (data : List Nat) (whole : Bool)
  /-- READ_REQ (R353). -/
  | spiReadReq (addr len : Nat) (whole : Bool)
  /-- STATUS (R353). -/
  | spiStatus
  /-- READ_DATA (R353). -/
  | spiReadData
  /-- SPI_CS_LIMIT (R354). -/
  | spiCsLimit
  /-- SPI_UNKNOWN_COMMAND (R354). -/
  | spiUnknownCommand (code : Nat)
  /-- COMPUTE (R363): a write of CHK_CH_CTL of channel c with GO = 1 and MODE 0; the rows below likewise. -/
  | chkCompute (by_ : Master) (c value : Nat)
  /-- CHECK (R363). -/
  | chkCheck (by_ : Master) (c value : Nat)
  /-- APPEND (R363). -/
  | chkAppend (by_ : Master) (c value : Nat)
  /-- CHECK_STRIP (R363). -/
  | chkCheckStrip (by_ : Master) (c value : Nat)
  /-- CHK_JOB_DONE (R365): the job of channel c ends. -/
  | chkJobDone (c : Nat)
  /-- LOAD (R380). -/
  | load (flash : FlashIn)
  /-- IMAGE_CHECK (R381). -/
  | imageCheck (flash : FlashIn)
  /-- FLASH_READ (R384): a write of CFG_FLASH_CTL with GO = 1 and OP 0, with this LEN; the rows below likewise. -/
  | flashRead (by_ : Master) (len : Nat)
  /-- FLASH_PROGRAM (R384). -/
  | flashProgram (by_ : Master) (len : Nat)
  /-- FLASH_ERASE (R384). -/
  | flashErase (by_ : Master)
  /-- FLASH_DONE (R384): the operation ends; `verified` is false when a PROGRAM reads back differently. -/
  | flashDone (verified : Bool)
  /-- FLASH_ERASE_TIMEOUT (R384). -/
  | flashEraseTimeout
  /-- SVC_NEW (R385): a write of CFG_SVC_CTL.NEW. -/
  | svcNew (by_ : Master)
  /-- SVC_VERIFY (R385): a write of CFG_SVC_CTL.VERIFY. -/
  | svcVerify (by_ : Master)
  /-- SVC_CHALLENGE_EXPIRY (R385): 60 s have passed since the challenge was made. -/
  | svcChallengeExpiry
  /-- REQUEST_LIVE (R390): a write of SYS_MODE_REQ; the rows below likewise. -/
  | requestLive (by_ : Master)
  /-- REQUEST_STANDBY (R393). -/
  | requestStandby (by_ : Master)
  /-- REQUEST_SLEEP (R394). -/
  | requestSleep (by_ : Master)
  /-- REQUEST_SERVICE (R396). -/
  | requestService (by_ : Master)
  /-- REQUEST_HALT (R397). -/
  | requestHalt (by_ : Master)
  /-- POR (R400). -/
  | por
  /-- RESET_N (R400): the pin has been low for at least 1 µs. -/
  | resetN
  /-- SYS_RESET_REQ (R401): a write to the register. -/
  | sysResetReq (by_ : Master) (value : Nat)
  /-- HOLD_END (R400): the condition of the reset class holds and its duration has passed. -/
  | holdEnd
  /-- SOFT_ETH (R403): a write of SYS_SOFT_RESET with this bit alone; the rows below likewise. -/
  | softEth (by_ : Master)
  /-- SOFT_CAP (R403). -/
  | softCap (by_ : Master)
  /-- SOFT_DEC (R403). -/
  | softDec (by_ : Master)
  /-- SOFT_ENC (R403). -/
  | softEnc (by_ : Master)
  /-- SOFT_TCH (R403). -/
  | softTch (by_ : Master)
  /-- SOFT_CHK (R403). -/
  | softChk (by_ : Master)
  /-- LEAVE_JOIN (R391): a cycle in which the node looks at the conditions. -/
  | leaveJoin
  /-- JOIN_LIMIT (R392): SYS_JOIN.LIMIT has passed since entry to JOIN. -/
  | joinLimit
  /-- WAKE_TIMER (R393): the raw counter is at or beyond SYS_WAKE_TIMER. -/
  | wakeTimer
  /-- SLEEP_ENTRY_DONE (R394). -/
  | sleepEntryDone
  /-- SLEEP_WAKE (R395). -/
  | sleepWake (source : SleepSource)
  /-- SYS_WDT_KICK (R404): a write to the register. -/
  | sysWdtKick (by_ : Master) (value : Nat)
  /-- SYS_WDT_WARN (R404): PERIOD / 2 has passed without a kick. -/
  | sysWdtWarn
  /-- WDT_EXPIRY (R405): PERIOD has passed without a kick. -/
  | wdtExpiry
  /-- WDT_COUNT_DROP (R405): 600 s have passed since a WDT reset. -/
  | wdtCountDrop
  /-- PWR_RAIL (R406): the voltage of a rail, in mV, has stayed on its side of the thresholds for DWELL. -/
  | pwrRail (rail mv : Nat)
  /-- PWR_STAGE_UP (R408): a rail has stayed LOW for STEP. -/
  | pwrStageUp
  /-- PWR_STAGE_DOWN (R408): RECOVER has passed with no rail low. -/
  | pwrStageDown
  /-- S5_DWELL (R413): a rail has stayed in CRIT for S5_DWELL. -/
  | s5Dwell
  /-- SAG_RESTART (R414): every watched monitor has stayed OK for RESTART. -/
  | sagRestart
  /-- PWR_THERMAL (R410): the hottest sensor has stayed at or above WARN for 1 s. -/
  | pwrThermal
  /-- THERMAL_CLEAR (R410): it has stayed below WARN − 5 °C for 10 s. -/
  | thermalClear
  /-- THERMAL_CRIT (R410): it has stayed at or above CRIT for 10 ms. -/
  | thermalCrit
  /-- PMC_WRAP (R418): event e's counter counts from 2^48 − 1. -/
  | pmcWrap (e : Nat)
  /-- PMC_SNAP (R422): a write of PMC_SNAP_CTL.GO = 1. -/
  | pmcSnap (by_ : Master) (value : Nat)
  /-- PMC_SW (R420): a write to the register. -/
  | pmcSw (by_ : Master) (value : Nat)
  /-- PMC_SAMP_READ (R424): a read of the low word of PMC_SAMP. -/
  | pmcSampRead (by_ : Master)
  /-- SENSOR_READ (R425): the 16 readings, in 1/8 °C. -/
  | sensorRead (readings : List Int)
  /-- TEL_RECORD (R426): wall time reaches a multiple of PERIOD. -/
  | telRecord
  /-- TROUBLE_LOG_WRITE (R431): the oldest queued entry is written. -/
  | troubleLogWrite
  /-- BADGER_SLOT (R436). -/
  | badgerSlot (r : SlotResult)
  /-- TST_PERIOD (R439): PERIOD seconds of running have passed. -/
  | tstPeriod
  /-- PROVE_TESTS (R442). -/
  | proveTests (r : ProveIn)
  /-- TST_RESULT_READ (R441): a read of the low word of TST_RESULT. -/
  | tstResultRead (by_ : Master)
  /-- TAP_RESET (R444). -/
  | tapReset
  /-- IDCODE (R444): the instruction is loaded; the rows below likewise. -/
  | idcode
  /-- SAMPLE_PRELOAD (R444). -/
  | samplePreload
  /-- EXTEST (R445). -/
  | extest
  /-- EXTEST_PULSE (R445). -/
  | extestPulse
  /-- EXTEST_TRAIN (R445). -/
  | extestTrain
  /-- CLAMP (R445). -/
  | clamp
  /-- HIGHZ (R445). -/
  | highz
  /-- BYPASS (R444): its code, or any code without a row. -/
  | bypass (code : Nat)
  /-- FUSE_READ (R444). -/
  | fuseRead
  /-- FUSE_PROG (R447): Update-DR with a key digest and its CRC. -/
  | fuseProg (digest crc : Nat)
  /-- DBG_FUSE_DONE (R447): the burn ends; what the fuse reads back. -/
  | dbgFuseDone (readback : Nat)
  /-- DBG_NOP (R446): Update-DR of DBG_ACCESS; the rows below likewise. -/
  | dbgNop
  /-- DBG_READ32 (R446). -/
  | dbgRead32 (addr : Nat)
  /-- DBG_WRITE32 (R446). -/
  | dbgWrite32 (addr data : Nat)
  /-- DBG_READ64 (R446). -/
  | dbgRead64 (addr : Nat)
  /-- DBG_WRITE64 (R446). -/
  | dbgWrite64 (addr data : Nat)
  /-- DBG_FENCE (R446). -/
  | dbgFence
  /-- DBG_ACCESS_DONE (R446): the running access completes. -/
  | dbgAccessDone
  /-- NO_ROOT_SEEN (R78): ROOT_LIMIT has passed since entry to JOIN with no usable flit of any root. -/
  | noRootSeen
  /-- PULSE_RETURN (R89): WIDTH ns have passed since the active edge of pulse output k. -/
  | pulseReturn (k : Nat)
  /-- TRAIN_LOCK (R95): a training port locks on `lanes` lanes at `rate` (1: 16 Gbit/s, 2: 32 Gbit/s). -/
  | trainLock (port lanes rate : Nat)
  /-- PTP_REFERENCE_LOST (R69): the PTP slave port loses its grandmaster after lock. -/
  | ptpReferenceLost
  /-- FLOW_SILENT (R122): a flow stops delivering with no FLOW_DOWN. -/
  | flowSilent (key : FlowKey)
  deriving DecidableEq, Repr

end Sys2Proof
end

