-- ==== Sys2Proof/WellFormed.lean ====
section
/-! DEFINITION. Which commands are well formed: the operands lie in the ranges that the spec gives them. A command that
is not well formed names nothing that the part has. -/

namespace Sys2Proof

open Sys2Proof.Machine

def isBytes (l : List Nat) : Bool := l.all fun b => b < 256

def isWord32 (v : Nat) : Bool := v < 2 ^ 32

def isNode (n : Nat) : Bool := n < 4096

/-- A value of the width of its write. -/
def fitsWidth (w : Width) (v : Nat) : Bool :=
  match w with
  | .w32 => v < 2 ^ 32
  | .w64 => v < 2 ^ 64

/-- Requesters and masters that the gate knows (R343). -/
def Machine.Master.wf (x : Master) : Bool :=
  x.id < 64 && (match x.who with
    | .seq k => k < 16
    | .mgmt k => k < 4
    | .remote n => isNode n
    | _ => true)

/-- A port of the fabric, or of Ethernet: each has 8. -/
def isPort (p : Nat) : Bool := p < 8

def Machine.Flit.wf (f : Flit) : Bool :=
  f.type < 16 && f.vc < 4 && f.hops < 64 && isNode f.dest && isNode f.src && f.label < 1024 && f.bodyLen < 64
    && f.pktSeq < 256 && f.body.length ≤ 6 && f.body.all (fun w => w < 2 ^ 64) && f.txSeq < 4096 && f.ackSeq < 4096
    && f.cvc < 4 && f.credits < 16 && isWord32 f.crc

def Machine.FlowKey.wf (k : FlowKey) : Bool := isNode k.origin && isWord32 k.id && k.part < 16

def Machine.CtrlMsg.wf (c : CtrlMsg) : Bool :=
  c.key.wf && c.vc < 4 && c.label < 1024 && isNode c.member && isNode c.refuser && c.resv < 65536 && c.status < 16

def Machine.MgmtPeer.wf : MgmtPeer → Bool
  | .eth p mac addr udp => isPort p && mac < 2 ^ 48 && addr < 2 ^ 128 && udp < 65536
  | .fabric n => isNode n

def Machine.MemReq.wf (q : MemReq) : Bool := q.tag < 256 && q.addr < 2 ^ 40 && q.len < 8192 && isBytes q.data

/-- The ranges of a command's operands. -/
def Instr.wf : Instr → Bool
  | .registerWrite b w a v => b.wf && a < 2 ^ 40 && fitsWidth w v
  | .lowWordRead b a => b.wf && a < 2 ^ 40
  | .clockFault i => i < 32
  | .bandSlotStart b => b < 256
  | .bandOverrun k ns => k < 8 && ns.all (fun n => n < 64)
  | .timeFlitSend p => isPort p
  | .timeFlitReceive p f _ => isPort p && f.wf && f.type = 1
  | .timeParentChange p => isPort p
  | .ptpMessageTimer p _ => isPort p
  | .pulseArm k _ _ => k < 8
  | .pulseEdge k => k < 8
  | .pulseReturn k => k < 8
  | .captureEdge k _ => k < 4
  | .capStampRead b k => b.wf && k < 4
  | .portTrain p => isPort p
  | .trainFail p => isPort p
  | .trainLock p l r => isPort p && l ≤ 4 && (r = 1 || r = 2)
  | .configSend p => isPort p
  | .config p c => isPort p && isNode c.node
  | .configTimeout p => isPort p
  | .flitReceive p f => isPort p && f.wf
  | .nak p a => isPort p && a < 4096
  | .idleLimit p => isPort p
  | .retrain p => isPort p
  | .portDisable p => isPort p
  | .memReq o q => isNode o && q.wf
  | .memRsp t st d => t < 256 && st < 16 && isBytes d
  | .memTimeout t => t < 256
  | .join p c => isPort p && c.wf
  | .accept p c => isPort p && c.wf
  | .refuse p c => isPort p && c.wf
  | .leave p c => isPort p && c.wf
  | .flowDown p c => isPort p && c.wf
  | .rejoin k => k.wf
  | .resvCheck p => isPort p
  | .state p c => isPort p && isNode c.origin && c.mode < 16
  | .peerUnknown o => isNode o
  | .doorbell i => i < 32
  | .streamSliceReceive k x => k.wf && isBytes x.data
  | .spanBandRowReceive k r => k.wf && 1 ≤ r.lines && r.lines ≤ 16
  | .flowSilent k => k.wf
  | .ethFrameReceive p l _ => isPort p && isBytes l
  | .auReleaseTimeout p e ts => isPort p && e < 64 && isWord32 ts
  | .streamSilent p e => isPort p && e < 64
  | .ethLink p _ _ => isPort p
  | .neighbourRequest p a => isPort p && a < 2 ^ 128
  | .neighbourExpire p a => isPort p && a < 2 ^ 128
  | .membershipReport p g => isPort p && g < 2 ^ 128
  | .rtcpSrSend s => isWord32 s
  | .openMgmt p k n => p.wf && k < 256 && isBytes n
  | .prove p m => p.wf && m.length = 32 && isBytes m
  | .mgmtRead k q _ a n => k < 4 && isWord32 q && a < 2 ^ 52 && n < 4096
  | .mgmtWrite k q _ a d => k < 4 && isWord32 q && a < 2 ^ 52 && isBytes d
  | .mgmtFence k q _ => k < 4 && isWord32 q
  | .mgmtPending k q _ d => k < 4 && isWord32 q && isBytes (d.getD [])
  | .close k q _ => k < 4 && isWord32 q
  | .mgmtIdle k => k < 4
  | .mgmtLockoutEnd p => p.wf
  | .csiFrameStart c v n => c < 2 && v < 4 && n < 65536
  | .csiLine c v t d _ => c < 2 && v < 4 && t < 64 && isBytes d
  | .csiFrameEnd c v => c < 2 && v < 4
  | .capSilent c => c < 2
  | .capEnWrite c => c < 2
  | .sliceDecoded e n _ => e < 24 && n < 64
  | .workLimit n => n < 64
  | .contextResetEnd n => n < 64
  | .rowCoded e n _ _ => e < 8 && n < 16
  | .rowLimitReached n _ => n < 16
  | .sliceEmit n nals => n < 16 && nals.all isBytes
  | .encKeyReq b v => b.wf && isWord32 v
  | .encLtrReq b v => b.wf && isWord32 v
  | .cmpGroupCommit b g t => b.wf && g < 8 && isWord32 t
  | .cmpFence b m => b.wf && m < 2 ^ 64
  | .cmpFenceClr b m => b.wf && m < 2 ^ 64
  | .cmpReadoutIn b w v => b.wf && fitsWidth w v
  | .readoutTimeout m => m < 64
  | .lutSwap b t => b.wf && t < 8
  | .lutWindowWrite b w a v => b.wf && a < 2 ^ 40 && fitsWidth w v
  | .lutEccFatal t => t < 3
  | .sigOutComplete r _ => r < 16
  | .auxGo b v => b.wf && isWord32 v
  | .auxReply c d _ => c < 3 && isBytes d
  | .scnBlWrite b v => b.wf && isWord32 v
  | .stuckContact k => k < 10
  | .tchRebase b m => b.wf && m < 1024
  | .tchRx ws => ws.length = 4 && ws.all (fun w => w < 2 ^ 64)
  | .tchRxSilent o => isNode o
  | .proxSample g n => g < 4 && isWord32 n
  | .eventArrival s => s < 512
  | .seqNop k => k < 16
  | .seqWrite32 k => k < 16
  | .seqWrite64 k => k < 16
  | .seqRmw k => k < 16
  | .seqPoll k => k < 16
  | .seqPollTimeout k => k < 16
  | .seqWaitEvent k => k < 16
  | .seqWaitEventTimeout k => k < 16
  | .seqWaitTime k => k < 16
  | .seqWaitTimeExpiry k => k < 16
  | .seqIfBits k => k < 16
  | .seqJump k => k < 16
  | .seqFence k => k < 16
  | .seqSignal k => k < 16
  | .seqCommit k => k < 16
  | .seqCopy k => k < 16
  | .seqLog k => k < 16
  | .seqYield k => k < 16
  | .seqEnd k => k < 16
  | .seqRunLimit k => k < 16
  | .holdoffEnd g => g < 32
  | .evcPendWrite b w v => b.wf && w < 16 && isWord32 v
  | .evcHostPendWrite b h w v => b.wf && h < 4 && w < 16 && isWord32 v
  | .evcDoorbell b v => b.wf && isWord32 v
  | .gpioEdge i _ => i < 16
  | .i2cGo b v => b.wf && isWord32 v
  | .i2cDone a d => a < 3 && isBytes d
  | .gateCommit b i => b.wf && i < 256
  | .gateSyncWrite b v => b.wf && isWord32 v
  | .cisternFatal a => a < 2 ^ 40
  | .spiWrite a d _ => a < 2 ^ 64 && isBytes d
  | .spiReadReq a n _ => a < 2 ^ 64 && n < 65536
  | .spiUnknownCommand c => c < 256
  | .chkCompute b c v => b.wf && c < 32 && isWord32 v
  | .chkCheck b c v => b.wf && c < 32 && isWord32 v
  | .chkAppend b c v => b.wf && c < 32 && isWord32 v
  | .chkCheckStrip b c v => b.wf && c < 32 && isWord32 v
  | .chkJobDone c => c < 32
  | .flashRead b n => b.wf && n < 512
  | .flashProgram b n => b.wf && n < 512
  | .sysResetReq b v => b.wf && isWord32 v
  | .sysWdtKick b v => b.wf && isWord32 v
  | .pwrRail r mv => r < 9 && mv < 65536
  | .pmcWrap e => e < 320
  | .pmcSnap b v => b.wf && isWord32 v
  | .pmcSw b v => b.wf && isWord32 v
  | .sensorRead l => l.length = 16
  | .bypass c => c < 256
  | .fuseProg d c => d < 2 ^ 384 && isWord32 c
  | .dbgFuseDone d => d < 2 ^ 384
  | .dbgRead32 a => a < 2 ^ 52
  | .dbgWrite32 a d => a < 2 ^ 52 && isWord32 d
  | .dbgRead64 a => a < 2 ^ 52
  | .dbgWrite64 a d => a < 2 ^ 52 && d < 2 ^ 64
  | .cmpReceiptRead b => b.wf
  | .cmpReleaseRead b => b.wf
  | .tchTestGo b => b.wf
  | .tchReportRead b => b.wf
  | .seqLogRead b => b.wf
  | .gateSyncRead b => b.wf
  | .gateRecordRead b => b.wf
  | .sysFenceRead b => b.wf
  | .flashErase b => b.wf
  | .svcNew b => b.wf
  | .svcVerify b => b.wf
  | .requestLive b => b.wf
  | .requestStandby b => b.wf
  | .requestSleep b => b.wf
  | .requestService b => b.wf
  | .requestHalt b => b.wf
  | .softEth b => b.wf
  | .softCap b => b.wf
  | .softDec b => b.wf
  | .softEnc b => b.wf
  | .softTch b => b.wf
  | .softChk b => b.wf
  | .pmcSampRead b => b.wf
  | .tstResultRead b => b.wf
  | .cmpFrameDone => true
  | .timeSettled => true
  | .timeHoldover => true
  | .rootLost => true
  | .claim => true
  | .preemptClaim => true
  | .refPpsEdge => true
  | .refF10mGate _ => true
  | .timeRefLost => true
  | .stateFlood => true
  | .latchLine => true
  | .applyPoint => true
  | .frameStart => true
  | .vblank => true
  | .lutSwapChecked => true
  | .hpdPlug _ _ => true
  | .hpdUnplug => true
  | .irqHpd _ _ _ => true
  | .dpRetry _ => true
  | .auxReplyTimeout => true
  | .panelStep _ => true
  | .noHpd => true
  | .faultHoldEnd => true
  | .hpdShortPulse => true
  | .tchCycleStart => true
  | .listenEnd l => l.length = 8
  | .scanEnd _ => true
  | .scanLate => true
  | .baselineAdopted _ => true
  | .unconfAdopt _ => true
  | .tchTestDone _ _ => true
  | .delivery => true
  | .i2cTimeout => true
  | .spiStatus => true
  | .spiReadData => true
  | .spiCsLimit => true
  | .load _ => true
  | .imageCheck _ => true
  | .flashDone _ => true
  | .flashEraseTimeout => true
  | .svcChallengeExpiry => true
  | .por => true
  | .resetN => true
  | .holdEnd => true
  | .leaveJoin => true
  | .joinLimit => true
  | .wakeTimer => true
  | .sleepEntryDone => true
  | .sleepWake _ => true
  | .sysWdtWarn => true
  | .wdtExpiry => true
  | .wdtCountDrop => true
  | .pwrStageUp => true
  | .pwrStageDown => true
  | .s5Dwell => true
  | .sagRestart => true
  | .pwrThermal => true
  | .thermalClear => true
  | .thermalCrit => true
  | .telRecord => true
  | .troubleLogWrite => true
  | .badgerSlot _ => true
  | .tstPeriod => true
  | .proveTests _ => true
  | .tapReset => true
  | .idcode => true
  | .samplePreload => true
  | .extest => true
  | .extestPulse => true
  | .extestTrain => true
  | .clamp => true
  | .highz => true
  | .fuseRead => true
  | .dbgNop => true
  | .dbgFence => true
  | .dbgAccessDone => true
  | .noRootSeen => true
  | .ptpReferenceLost => true

end Sys2Proof
end

