-- ==== Sys2Proof/Decode.lean ====
section
/-! DEFINITION. The command that a word spells. The block decodes no words: its commands are accesses, arrivals and
expiries, and no row of spec/opcode_table.json gives bits. -/

namespace Sys2Proof

/-- A row of the table that gives bits: their number, the mask and value that tell it, and its command. -/
structure TableRow where
  nbits : Nat
  mask : Nat
  value : Nat
  command : Nat → Instr

/-- The rows that give bits: none. -/
def tableRows : List TableRow := []

/-- The command that the nbits bits of w spell. -/
def decodeTableWord (nbits w : Nat) : Option Instr :=
  (tableRows.find? fun r => r.nbits = nbits && w &&& r.mask = r.value).map fun r => r.command w

end Sys2Proof
end

