-- ==== Sys2Proof/Config.lean ====
section
/-! DEFINITION. What an implementation of the DM7400 fixes and what the spec leaves open: constants without a
body, so that no claim can rest on a value of one. -/

namespace Sys2Proof

/-- The grade of the part: true for DM7400-GX0, false for DM7400-GA0 (R417: PWR_THERMAL's POR values). -/
opaque Config.gradeGX0 : Bool

/-- Free values, by the state's counter `freeIdx`. -/
opaque Config.freeWord : Nat → Nat

/-- Whether an access before GATE_SYNC sees a rule that a commit has replaced (R347). -/
opaque Config.seesOldRule : Nat → Bool

/-- The BLOCK number of a log entry about the SYS block, which R430 does not list. -/
opaque Config.sysLogBlock : Nat

/-- The rate at which the servo steers for an offset (R74: the law is the part's own). -/
opaque Config.servoRate : Nat → Int

/-- The fields of a MASTER port's Announce that R86 does not state. -/
opaque Config.ptpPriority1 : Nat
opaque Config.ptpAccuracy : Nat
opaque Config.ptpVariance : Nat
opaque Config.ptpPriority2 : Nat

/-- Residence of a PTP message in the part (R86). -/
opaque Config.ptpResidence : Nat → Nat

/-- Credits a receiver grants on a new link, by virtual channel × 2 + buffer class (R103). -/
opaque Config.fabCredits : Nat → Nat

/-- The destination address of the RTP and RTCP of an encoded stream (R128, R137), which no table of the spec holds. -/
opaque Config.rtpDest : Nat → Nat

/-- Units a member reserves for a flow, by ID and part (16 added for a span); the spec states no rule for them. -/
opaque Config.flowResv : Nat → Nat → Nat

/-- Pixel data of a decoded or captured picture, which the codec standards or the camera give: by picture and word. -/
opaque Config.pixels : Nat → Nat → Nat

/-- Frames per second of the camera on a CSI-2 port (R179). -/
opaque Config.captureFps : Nat → Nat

/-- Bytes of parameter sets and SEI that a context reserves in a picture (R192): by context, for a key picture and with
a picture hash. -/
opaque Config.encHeaderBytes : Nat → Bool → Bool → Nat

/-- The encoder's measurements of a CTU (R195), by picture and CTU, one word as the statistics entry lays it out. -/
opaque Config.ctuStats : Nat → Nat → Nat

/-- Whether a rounding that the spec leaves open goes up: by numerator and denominator of the exact value. -/
opaque Config.roundsUp : Nat → Nat → Bool

/-- The 12-bit value of an 8-bit colour component (R205). -/
opaque Config.expand8 : Nat → Nat

/-- A sample or a graphics pixel through the built-in filters (R204): what its taps read, by column and row. -/
opaque Config.filtered : List Nat → Nat → Nat → Nat

/-- The built-in treatment font (R224): whether a character covers a pixel of its cell, by height, column and row. -/
opaque Config.glyph : Nat → Nat → Nat → Nat → Bool

/-- The matrix of R205 by which R33 reduces the chroma of a layer with MATRIX 0: 1 to 3. -/
opaque Config.rgbMatrix : Nat

/-- The sum that the 4 × 4 ordered dither adds (R235), by column and row modulo 4. -/
opaque Config.ditherAdd : Nat → Nat → Nat

/-- A touch delta against a baseline of 0 (R284 divides by it). -/
opaque Config.deltaNoBaseline : Int → Int → Nat

/-- The one number that TCH_NODE.DRIFT shows of a complex drift. -/
opaque Config.driftShown : Int → Int → Nat

/-- Whether a card shows ink at a pixel (R271): by card, the low five digits of wall seconds, column and row. -/
opaque Config.cardInk : Nat → Nat → Nat → Nat → Bool

end Sys2Proof
end

