-- ==== Sys2Proof/Machine/Bits.lean ====
section
/-! DEFINITION. Bit fields of numbers, two's complement reading, little-endian bytes (R7) and saturating counts:
the helpers every chapter's encodings use. Bit 0 is the least significant bit (R7). -/

namespace Sys2Proof.Machine

/-- Bits [lo + w - 1 : lo] of a number. -/
def bits (v lo w : Nat) : Nat := (v >>> lo) % 2 ^ w

def bit (v i : Nat) : Bool := v.testBit i

/-- The number with bits [lo + w - 1 : lo] replaced by the low w bits of x. -/
def setBits (v lo w x : Nat) : Nat :=
  v - (bits v lo w <<< lo) + ((x % 2 ^ w) <<< lo)

/-- The number with bit i set. -/
def setBit (v i : Nat) : Nat := v ||| (1 <<< i)

/-- The number with bit i cleared. -/
def clearBit (v i : Nat) : Nat := if v.testBit i then v - (1 <<< i) else v

/-- The indices below n of the bits that are set. -/
def bitsSet (v n : Nat) : List Nat := (List.range n).filter (fun i => v.testBit i)

/-- The lowest set bit below n. -/
def lowestBit (v n : Nat) : Option Nat := (bitsSet v n).head?

def popCount (v n : Nat) : Nat := (bitsSet v n).length

/-- The signed value of a w-bit two's complement number. -/
def toSigned (v w : Nat) : Int := if v % 2 ^ w < 2 ^ (w - 1) then (v % 2 ^ w : Int) else (v % 2 ^ w : Int) - 2 ^ w

/-- The w-bit two's complement number of a signed value. -/
def ofSigned (x : Int) (w : Nat) : Nat := (x % (2 ^ w : Int)).toNat

/-- The signed value held to the range of a w-bit two's complement number. -/
def clampSigned (x : Int) (w : Nat) : Int := max (-(2 ^ (w - 1) : Int)) (min ((2 ^ (w - 1) : Int) - 1) x)

/-- Short stamps are compared by the sign of their 32-bit difference (Terms: short stamp). -/
def stampDiff (a b : Nat) : Int := toSigned (ofSigned ((a : Int) - b) 32) 32

/-- a saturating count of w bits, advanced by n. -/
def satAdd (v n w : Nat) : Nat := min (2 ^ w - 1) (v + n)

/-- Little-endian bytes of a number (R7). -/
def leBytes : Nat → Nat → List Byte
  | 0, _ => []
  | n + 1, v => BitVec.ofNat 8 v :: leBytes n (v / 256)

/-- The number that little-endian bytes spell (R7). -/
def ofLeBytes : List Byte → Nat
  | [] => 0
  | b :: bs => b.toNat + 256 * ofLeBytes bs

/-- Big-endian number, for fields of published protocols, which keep their own byte order (R7). -/
def ofBeBytes (l : List Byte) : Nat := l.foldl (fun a b => a * 256 + b.toNat) 0

def ceilDiv (a b : Nat) : Nat := (a + b - 1) / b

end Sys2Proof.Machine
end

