-- ==== Sys2Proof/Machine/CheckValues.lean ====
section
/-! DEFINITION. The check values of R358 to R360: the four algorithms, the fold step, and their byte orders. -/

namespace Sys2Proof.Machine

/-- The algorithms of R358, by POLY. -/
inductive CrcAlg where
  | crc32c | crc32 | crc16 | crc64
  deriving DecidableEq, Repr

def CrcAlg.ofPoly : Nat → CrcAlg
  | 0 => .crc32c | 1 => .crc32 | 2 => .crc16 | _ => .crc64

/-- Width in bytes. -/
def CrcAlg.bytes : CrcAlg → Nat
  | .crc32c => 4 | .crc32 => 4 | .crc16 => 2 | .crc64 => 8

/-- One bit of a reflected register; `poly` is the polynomial, bit-reversed. -/
def crcBitR (poly reg : Nat) : Nat := if reg % 2 = 1 then (reg / 2) ^^^ poly else reg / 2

/-- One bit of an unreflected register of w bits. -/
def crcBitN (w poly reg : Nat) : Nat :=
  if reg.testBit (w - 1) then ((reg * 2) ^^^ poly) % 2 ^ w else reg * 2 % 2 ^ w

def iter8 (f : Nat → Nat) (x : Nat) : Nat := f (f (f (f (f (f (f (f x)))))))

/-- One payload byte (the update step of R359). 0x82F63B78 and 0xEDB88320 are the polynomials 0x1EDC6F41 and
0x04C11DB7 of R358 with their 32 bits reversed. -/
def CrcAlg.step : CrcAlg → Nat → Nat → Nat
  | .crc32c, reg, b => iter8 (crcBitR 0x82F63B78) (reg ^^^ b)
  | .crc32, reg, b => iter8 (crcBitR 0xEDB88320) (reg ^^^ b)
  | .crc16, reg, b => iter8 (crcBitN 16 0x1021) (reg ^^^ (b <<< 8))
  | .crc64, reg, b => iter8 (crcBitN 64 0x42F0E1EBA9EA3693) (reg ^^^ (b <<< 56))

def CrcAlg.init : CrcAlg → Nat
  | .crc32c => 0xFFFFFFFF | .crc32 => 0xFFFFFFFF | .crc16 => 0xFFFF | .crc64 => 0

def CrcAlg.xorout : CrcAlg → Nat
  | .crc32c => 0xFFFFFFFF | .crc32 => 0xFFFFFFFF | .crc16 => 0 | .crc64 => 0

/-- The fold step of R359 with the 32-bit word w. -/
def CrcAlg.fold : CrcAlg → Nat → Nat → Nat
  | .crc16, reg, w => reg ^^^ ((w % 65536) ^^^ (w / 65536 % 65536))
  | _, reg, w => reg ^^^ (w % 2 ^ 32)

/-- The check value of a payload, with the fold word when the user of the channel calls for a fold (R359). -/
def checkValue (alg : CrcAlg) (fold : Option Nat) (payload : List Nat) : Nat :=
  let reg := match fold with
    | some w => alg.fold alg.init w
    | none => alg.init
  (payload.foldl alg.step reg) ^^^ alg.xorout

/-- CRC-32C with no fold. -/
def crc32c (payload : List Nat) : Nat := checkValue .crc32c none payload

/-- CRC-32C with w folded in first. -/
def crc32cFold (w : Nat) (payload : List Nat) : Nat := checkValue .crc32c (some w) payload

/-- n bytes of a number, least significant first, as numbers. -/
def natBytes : Nat → Nat → List Nat
  | 0, _ => []
  | n + 1, v => v % 256 :: natBytes n (v / 256)

/-- The number whose bytes, least significant first, are given. -/
def ofNatBytes : List Nat → Nat
  | [] => 0
  | b :: bs => b % 256 + 256 * ofNatBytes bs

/-- A check value as bytes: ORDER 0 least significant byte first, ORDER 1 most significant first (R360). -/
def crcBytes (alg : CrcAlg) (msbFirst : Bool) (v : Nat) : List Nat :=
  let l := natBytes alg.bytes v
  if msbFirst then l.reverse else l

/-- The value that bytes in ORDER spell (R360). -/
def ofCrcBytes (msbFirst : Bool) (l : List Nat) : Nat := ofNatBytes (if msbFirst then l.reverse else l)

/-- The bytes of 64-bit words, low byte first (R7). -/
def wordBytes (ws : List Nat) : List Nat := ws.flatMap (natBytes 8)

end Sys2Proof.Machine
end

