-- ==== Sys2Proof/Machine/Crypto.lean ====
section
/-! DEFINITION. The published algorithms that the spec names for authentication: SHA-256 and SHA-384 (FIPS 180-4),
HMAC-SHA-256 (FIPS 198-1), and the verification of ECDSA P-384 signatures (FIPS 186-5), on lists of byte values. -/

namespace Sys2Proof.Machine

/-! ### SHA-2 (FIPS 180-4), for words of w bits -/

def sha256K0 : List Nat := [
  0x428A2F98, 0x71374491, 0xB5C0FBCF, 0xE9B5DBA5, 0x3956C25B, 0x59F111F1, 0x923F82A4, 0xAB1C5ED5,
  0xD807AA98, 0x12835B01, 0x243185BE, 0x550C7DC3, 0x72BE5D74, 0x80DEB1FE, 0x9BDC06A7, 0xC19BF174,
  0xE49B69C1, 0xEFBE4786, 0x0FC19DC6, 0x240CA1CC, 0x2DE92C6F, 0x4A7484AA, 0x5CB0A9DC, 0x76F988DA,
  0x983E5152, 0xA831C66D, 0xB00327C8, 0xBF597FC7, 0xC6E00BF3, 0xD5A79147, 0x06CA6351, 0x14292967]

def sha256K1 : List Nat := [
  0x27B70A85, 0x2E1B2138, 0x4D2C6DFC, 0x53380D13, 0x650A7354, 0x766A0ABB, 0x81C2C92E, 0x92722C85,
  0xA2BFE8A1, 0xA81A664B, 0xC24B8B70, 0xC76C51A3, 0xD192E819, 0xD6990624, 0xF40E3585, 0x106AA070,
  0x19A4C116, 0x1E376C08, 0x2748774C, 0x34B0BCB5, 0x391C0CB3, 0x4ED8AA4A, 0x5B9CCA4F, 0x682E6FF3,
  0x748F82EE, 0x78A5636F, 0x84C87814, 0x8CC70208, 0x90BEFFFA, 0xA4506CEB, 0xBEF9A3F7, 0xC67178F2]

/-- Round constants of SHA-256. -/
def sha256K : List Nat := sha256K0 ++ sha256K1

def sha512K0 : List Nat := [
  0x428A2F98D728AE22, 0x7137449123EF65CD, 0xB5C0FBCFEC4D3B2F, 0xE9B5DBA58189DBBC,
  0x3956C25BF348B538, 0x59F111F1B605D019, 0x923F82A4AF194F9B, 0xAB1C5ED5DA6D8118,
  0xD807AA98A3030242, 0x12835B0145706FBE, 0x243185BE4EE4B28C, 0x550C7DC3D5FFB4E2,
  0x72BE5D74F27B896F, 0x80DEB1FE3B1696B1, 0x9BDC06A725C71235, 0xC19BF174CF692694,
  0xE49B69C19EF14AD2, 0xEFBE4786384F25E3, 0x0FC19DC68B8CD5B5, 0x240CA1CC77AC9C65,
  0x2DE92C6F592B0275, 0x4A7484AA6EA6E483, 0x5CB0A9DCBD41FBD4, 0x76F988DA831153B5,
  0x983E5152EE66DFAB, 0xA831C66D2DB43210, 0xB00327C898FB213F, 0xBF597FC7BEEF0EE4,
  0xC6E00BF33DA88FC2, 0xD5A79147930AA725, 0x06CA6351E003826F, 0x142929670A0E6E70]

def sha512K1 : List Nat := [
  0x27B70A8546D22FFC, 0x2E1B21385C26C926, 0x4D2C6DFC5AC42AED, 0x53380D139D95B3DF,
  0x650A73548BAF63DE, 0x766A0ABB3C77B2A8, 0x81C2C92E47EDAEE6, 0x92722C851482353B,
  0xA2BFE8A14CF10364, 0xA81A664BBC423001, 0xC24B8B70D0F89791, 0xC76C51A30654BE30,
  0xD192E819D6EF5218, 0xD69906245565A910, 0xF40E35855771202A, 0x106AA07032BBD1B8,
  0x19A4C116B8D2D0C8, 0x1E376C085141AB53, 0x2748774CDF8EEB99, 0x34B0BCB5E19B48A8,
  0x391C0CB3C5C95A63, 0x4ED8AA4AE3418ACB, 0x5B9CCA4F7763E373, 0x682E6FF3D6B2B8A3,
  0x748F82EE5DEFB2FC, 0x78A5636F43172F60, 0x84C87814A1F0AB72, 0x8CC702081A6439EC,
  0x90BEFFFA23631E28, 0xA4506CEBDE82BDE9, 0xBEF9A3F7B2C67915, 0xC67178F2E372532B]

def sha512K2 : List Nat := [
  0xCA273ECEEA26619C, 0xD186B8C721C0C207, 0xEADA7DD6CDE0EB1E, 0xF57D4F7FEE6ED178,
  0x06F067AA72176FBA, 0x0A637DC5A2C898A6, 0x113F9804BEF90DAE, 0x1B710B35131C471B,
  0x28DB77F523047D84, 0x32CAAB7B40C72493, 0x3C9EBE0A15C9BEBC, 0x431D67C49C100D4C,
  0x4CC5D4BECB3E42B6, 0x597F299CFC657E2A, 0x5FCB6FAB3AD6FAEC, 0x6C44198C4A475817]

/-- Round constants of SHA-384. -/
def sha512K : List Nat := sha512K0 ++ sha512K1 ++ sha512K2

def sha256H : List Nat := [
  0x6A09E667, 0xBB67AE85, 0x3C6EF372, 0xA54FF53A, 0x510E527F, 0x9B05688C, 0x1F83D9AB, 0x5BE0CD19]

def sha384H : List Nat := [
  0xCBBB9D5DC1059ED8, 0x629A292A367CD507, 0x9159015A3070DD17, 0x152FECD8F70E5939,
  0x67332667FFC00B31, 0x8EB44A8768581511, 0xDB0C2E0D64F98FA7, 0x47B5481DBEFA4FA4]

/-- Rotation and shift amounts of a SHA-2 function. -/
structure Sha where
  w : Nat
  bigS0 : List Nat
  bigS1 : List Nat
  s0 : List Nat
  s1 : List Nat
  k : List Nat
  h0 : List Nat
  out : Nat

def sha256P : Sha := ⟨32, [2, 13, 22], [6, 11, 25], [7, 18, 3], [17, 19, 10], sha256K, sha256H, 8⟩
def sha384P : Sha := ⟨64, [28, 34, 39], [14, 18, 41], [1, 8, 7], [19, 61, 6], sha512K, sha384H, 6⟩

def Sha.rot (p : Sha) (x n : Nat) : Nat := x >>> n ||| x <<< (p.w - n) % 2 ^ p.w

/-- Three rotations. -/
def Sha.big (p : Sha) (x : Nat) (r : List Nat) : Nat := (r.map (p.rot x)).foldl (· ^^^ ·) 0

/-- Two rotations and a shift. -/
def Sha.small (p : Sha) (x : Nat) (r : List Nat) : Nat :=
  p.rot x (r.getD 0 0) ^^^ p.rot x (r.getD 1 0) ^^^ x >>> r.getD 2 0

/-- The message schedule: n more words, newest first. -/
def Sha.schedule (p : Sha) : Nat → List Nat → List Nat
  | 0, ws => ws
  | n + 1, ws =>
    p.schedule n ((p.small (ws.getD 1 0) p.s1 + ws.getD 6 0 + p.small (ws.getD 14 0) p.s0 + ws.getD 15 0) % 2 ^ p.w
      :: ws)

def Sha.round (p : Sha) (st : List Nat) (kw : Nat × Nat) : List Nat :=
  match st with
  | [a, b, c, d, e, f, g, h] =>
    let ch := (e &&& f) ^^^ ((2 ^ p.w - 1 - e) &&& g)
    let maj := (a &&& b) ^^^ (a &&& c) ^^^ (b &&& c)
    let t1 := h + p.big e p.bigS1 + ch + kw.1 + kw.2
    let t2 := p.big a p.bigS0 + maj
    [(t1 + t2) % 2 ^ p.w, a, b, c, (d + t1) % 2 ^ p.w, e, f, g]
  | _ => st

def Sha.block (p : Sha) (h : List Nat) (ws : List Nat) : List Nat :=
  let sched := (p.schedule (p.k.length - 16) ws.reverse).reverse
  let st := (p.k.zip sched).foldl p.round h
  List.zipWith (fun a b => (a + b) % 2 ^ p.w) h st

/-- Big-endian words of n bytes. -/
def beWords (n : Nat) : Nat → List Nat → List Nat
  | 0, _ => []
  | k + 1, l => (l.take n).foldl (fun a b => a * 256 + b % 256) 0 :: beWords n k (l.drop n)

def Sha.blocks (p : Sha) : Nat → List Nat → List Nat → List Nat
  | 0, h, _ => h
  | n + 1, h, l => p.blocks n (p.block h (beWords (p.w / 8) 16 l)) (l.drop (2 * p.w))

/-- Bytes of a number, most significant first. -/
def beBytes (n v : Nat) : List Nat := (natBytes n v).reverse

def Sha.hash (p : Sha) (msg : List Nat) : List Nat :=
  let blk := 2 * p.w
  let len := msg.length
  let zeros := (2 * blk - 1 - p.w / 4 - len % blk) % blk
  let padded := msg ++ [0x80] ++ List.replicate zeros 0 ++ beBytes (p.w / 4) (8 * len)
  ((p.blocks (padded.length / blk) p.h0 padded).take p.out).flatMap (beBytes (p.w / 8))

def sha256 (msg : List Nat) : List Nat := sha256P.hash msg
def sha384 (msg : List Nat) : List Nat := sha384P.hash msg

/-- HMAC-SHA-256. -/
def hmac (key msg : List Nat) : List Nat :=
  let k := if 64 < key.length then sha256 key else key
  let k := k ++ List.replicate (64 - k.length) 0
  sha256 (k.map (· ^^^ 0x5C) ++ sha256 (k.map (· ^^^ 0x36) ++ msg))

/-! ### ECDSA over P-384 (FIPS 186-5) -/

def p384P : Nat := 2 ^ 384 - 2 ^ 128 - 2 ^ 96 + 2 ^ 32 - 1
def p384N : Nat :=
  0xFFFFFFFFFFFFFFFFFFFFFFFFFFFFFFFFFFFFFFFFFFFFFFFFC7634D81F4372DDF581A0DB248B0A77AECEC196ACCC52973
def p384B : Nat :=
  0xB3312FA7E23EE7E4988E056BE3F82D19181D9C6EFE8141120314088F5013875AC656398D8A2ED19D2A85C8EDD3EC2AEF
def p384Gx : Nat :=
  0xAA87CA22BE8B05378EB1C71EF320AD746E1D3B628BA79B9859F741E082542A385502F25DBF55296C3A545E3872760AB7
def p384Gy : Nat :=
  0x3617DE4A96262C6F5D9E98BF9292DC29F8F41DBD289A147CE9DA3113B5F0B8C00A60B1CE1D7E819D7A431D7C90EA0E5F

/-- b ^ e modulo m, over the low k bits of e. -/
def powMod (m : Nat) : Nat → Nat → Nat → Nat
  | 0, _, _ => 1 % m
  | k + 1, b, e =>
    let r := powMod m k (b * b % m) (e / 2)
    if e % 2 = 1 then r * b % m else r

/-- The inverse modulo a prime m. -/
def invMod (m x : Nat) : Nat := powMod m 384 (x % m) (m - 2)

/-- A point of P-384; none is the point at infinity. -/
abbrev EcPoint := Option (Nat × Nat)

def ecAdd (a b : EcPoint) : EcPoint :=
  match a, b with
  | none, q => q
  | q, none => q
  | some (x1, y1), some (x2, y2) =>
    let p := p384P
    if x1 = x2 ∧ (y1 + y2) % p = 0 then none
    else
      let l := if x1 = x2 then (3 * x1 * x1 + p - 3) * invMod p (2 * y1) % p
        else (y2 + p - y1) * invMod p (x2 + p - x1) % p
      let x3 := (l * l + 2 * p - x1 - x2) % p
      some (x3, (l * (x1 + p - x3) + p - y1) % p)

/-- k · q, over the low n bits of k. -/
def ecMul : Nat → Nat → EcPoint → EcPoint
  | 0, _, _ => none
  | n + 1, k, q =>
    let r := ecMul n (k / 2) (ecAdd q q)
    if k % 2 = 1 then ecAdd r q else r

def ofBe (l : List Nat) : Nat := l.foldl (fun a b => a * 256 + b % 256) 0

/-- The public key of a 97-byte SEC1 uncompressed point. -/
def ecKey (l : List Nat) : EcPoint :=
  let x := ofBe ((l.drop 1).take 48)
  let y := ofBe ((l.drop 49).take 48)
  if l.headD 0 = 4 ∧ x < p384P ∧ y < p384P ∧ (y * y) % p384P = (x * x * x + (p384P - 3) * x + p384B) % p384P then
    some (x, y) else none

/-- A 96-byte signature r, s over the SHA-384 digest of a message verifies under a 97-byte key. -/
def ecdsaVerify (key sig digest : List Nat) : Bool :=
  let r := ofBe (sig.take 48)
  let s := ofBe ((sig.drop 48).take 48)
  match ecKey key with
  | none => false
  | q =>
    if r = 0 ∨ p384N ≤ r ∨ s = 0 ∨ p384N ≤ s then false
    else
      let w := invMod p384N s
      let z := ofBe digest
      match ecAdd (ecMul 384 (z * w % p384N) (some (p384Gx, p384Gy))) (ecMul 384 (r * w % p384N) q) with
      | none => false
      | some (x, _) => x % p384N = r

end Sys2Proof.Machine
end

