-- ==== Sys2Proof/Machine/Bitstream.lean ====
section
/-! DEFINITION. What the node reads of coded video (R99, R151, R157, R165, R169): NAL units, the parameter sets' sizes and
limits, and the head of a slice header. The layouts are those of ITU-T H.265 and H.264, which the spec names and does not
restate (log entry 83). -/

namespace Sys2Proof.Machine

/-! ### NAL units -/

/-- The bytes of NAL units on a fabric flow: each behind a start code (log entry 82). -/
def nalStream (nals : List (List Nat)) : List Nat := nals.flatMap fun n => [0, 0, 0, 1] ++ n

/-- NAL units of a byte stream; bytes without a start code are one unit. `cur` is the unit in progress, last byte first,
and `zeros` the zero bytes behind it. -/
def splitNals : List Nat → List Nat → Nat → List (List Nat)
  | [], cur, zeros => [(List.replicate zeros 0 ++ cur).reverse]
  | b :: rest, cur, zeros =>
    if b = 0 then splitNals rest cur (zeros + 1)
    else if b = 1 && 2 ≤ zeros then cur.reverse :: splitNals rest [] 0
    else splitNals rest (b :: (List.replicate zeros 0 ++ cur)) 0

def streamNals (bytes : List Nat) : List (List Nat) := (splitNals bytes [] 0).filter fun n => !n.isEmpty

/-- The payload without the bytes that prevent start codes: a 3 after two zeros. -/
def unescape : List Nat → Nat → List Nat
  | [], _ => []
  | b :: rest, z =>
    if b = 3 && 2 ≤ z then unescape rest 0
    else b :: unescape rest (if b = 0 then z + 1 else 0)

/-- Bits of bytes, most significant first. -/
def msbBits (l : List Nat) : List Bool := l.flatMap fun b => (List.range 8).map fun i => b.testBit (7 - i)

/-- u(n) at the head of a bit list. -/
def uRead (n : Nat) (l : List Bool) : Nat × List Bool :=
  ((l.take n).foldl (fun a b => 2 * a + (if b then 1 else 0)) 0, l.drop n)

/-- ue(v) at the head of a bit list. -/
def ueRead (l : List Bool) : Nat × List Bool :=
  let z := (l.takeWhile (· = false)).length
  let (v, rest) := uRead z (l.drop (z + 1))
  (2 ^ z - 1 + v, rest)

/-- k values of ue(v). -/
def ueMany : Nat → List Bool → List Nat × List Bool
  | 0, l => ([], l)
  | k + 1, l =>
    let (v, l) := ueRead l
    let (vs, l) := ueMany k l
    (v :: vs, l)

def nalType (h264 : Bool) (nal : List Nat) : Nat := if h264 then nal.headD 0 % 32 else nal.headD 0 / 2 % 64

/-- The bits behind a NAL unit's header. -/
def nalBits (h264 : Bool) (nal : List Nat) : List Bool := msbBits (unescape (nal.drop (if h264 then 1 else 2)) 0)

/-- The header holds no forbidden bit, no layer but the base layer and a temporal ID (R169). -/
def nalHeaderOk (h264 : Bool) (nal : List Nat) : Bool :=
  nal.headD 0 < 128 && (h264 || (nal.headD 0 % 2 = 0 && nal.getD 1 0 / 8 = 0 && nal.getD 1 0 % 8 ≠ 0))

/-- A NAL unit with slice data. -/
def sliceNal (h264 : Bool) (nal : List Nat) : Bool :=
  let t := nalType h264 nal
  if h264 then t = 1 || t = 5 else t < 10 || (16 ≤ t && t ≤ 21)

/-! ### Parameter sets (R151, R162, R169) -/

/-- The values of a sequence parameter set that decide whether it lies in R151 and in a context's limits: its number, the
profile and level numbers of its standard, the coded size, the cropped rectangle, the chroma format (0 monochrome, 1 4:2:0,
2 4:2:2, 3 4:4:4), bit depths, DPB size, reordering, the coding block's side, and frames only. -/
structure SeqSet where
  id : Nat
  profile : Nat
  level : Nat
  width : Nat
  height : Nat
  cropX : Nat
  cropY : Nat
  cropW : Nat
  cropH : Nat
  chroma : Nat
  luma8 : Nat
  chroma8 : Nat
  dpb : Nat
  reorder : Nat
  ctb : Nat
  frames : Bool
  deriving DecidableEq, Repr

/-- A picture parameter set: its number, its sequence set's, and whether slices may be dependent segments. -/
structure PicSet where
  id : Nat
  seq : Nat
  dep : Bool
  deriving DecidableEq, Repr

/-- The flags and levels of the sub-layers of profile_tier_level. -/
def skipSubLayers (k : Nat) (l : List Bool) : List Bool :=
  if k = 0 then l
  else
    let flags := (List.range k).map fun i => (l.getD (2 * i) false, l.getD (2 * i + 1) false)
    l.drop (16 + flags.foldl (fun a f => a + (if f.1 then 88 else 0) + (if f.2 then 8 else 0)) 0)

/-- seq_parameter_set_rbsp of HEVC, as far as the coding block's size. -/
def hevcSeqSet (l : List Bool) : SeqSet :=
  let (sub, l) := uRead 3 (l.drop 4)
  let l := l.drop 1
  let (profile, l1) := uRead 5 (l.drop 3)
  let (level, l) := uRead 8 (l1.drop 80)
  let (id, l) := ueRead (skipSubLayers sub l)
  let (chroma, l) := ueRead l
  let l := if chroma = 3 then l.drop 1 else l
  let (w, l) := ueRead l
  let (h, l) := ueRead l
  let (win, l) := uRead 1 l
  let (o, l) := ueMany (4 * win) l
  let sx := if chroma = 1 || chroma = 2 then 2 else 1
  let sy := if chroma = 1 then 2 else 1
  let (ld, l) := ueRead l
  let (cd, l) := ueRead l
  let (_, l) := ueRead l
  let (all, l) := uRead 1 l
  let (ord, l) := ueMany (3 * (if all = 1 then sub + 1 else 1)) l
  let top := ord.drop (ord.length - 3)
  let (cb, l) := ueRead l
  let (diff, _) := ueRead l
  { id := id, profile := profile, level := level, width := w, height := h, cropX := sx * o.getD 0 0, cropY := sy * o.getD 2 0,
    cropW := w - sx * (o.getD 0 0 + o.getD 1 0), cropH := h - sy * (o.getD 2 0 + o.getD 3 0), chroma := chroma, luma8 := ld,
    chroma8 := cd, dpb := top.getD 0 0 + 1, reorder := top.getD 1 0, ctb := 2 ^ min 8 (cb + 3 + diff), frames := true }

/-- The profiles of H.264 whose sets carry a chroma format, with the level of every one read the same way. -/
def h264High (profile : Nat) : Bool := [100, 110, 122, 244, 44, 83, 86, 118, 128].contains profile

/-- One scaling list of H.264, of n coefficients. -/
def skipScaling : Nat → Int → Int → List Bool → List Bool
  | 0, _, _, l => l
  | n + 1, last, next, l =>
    if next = 0 then l
    else
      let (v, l) := ueRead l
      let d : Int := if v % 2 = 1 then ((v + 1) / 2 : Nat) else -((v / 2 : Nat) : Int)
      let next := (last + d + 256) % 256
      skipScaling n (if next = 0 then last else next) next l

/-- The eight scaling lists of H.264, or twelve for 4:4:4. -/
def skipLists : Nat → Nat → List Bool → List Bool
  | 0, _, l => l
  | k + 1, i, l =>
    let (present, l) := uRead 1 l
    skipLists k (i + 1) (if present = 1 then skipScaling (if i < 6 then 16 else 64) 8 8 l else l)

/-- The hypothetical reference decoder's parameters of H.264. -/
def skipHrd (l : List Bool) : List Bool :=
  let (cnt, l) := ueRead l
  let l := (List.range (cnt % 32 + 1)).foldl (fun l _ => (ueMany 2 l).2.drop 1) (l.drop 8)
  l.drop 20

/-- max_num_reorder_frames of H.264's VUI; `absent` where the VUI does not carry it. -/
def h264Reorder (absent : Nat) (l : List Bool) : Nat :=
  let flag (l : List Bool) : Bool × List Bool := (l.headD false, l.drop 1)
  let (vui, l) := flag l
  if !vui then absent
  else
    let (f, l) := flag l
    let l := if f then (if (uRead 8 l).1 = 255 then l.drop 40 else l.drop 8) else l
    let (f, l) := flag l
    let l := if f then l.drop 1 else l
    let (f, l) := flag l
    let l := if f then (if l.getD 4 false then l.drop 29 else l.drop 5) else l
    let (f, l) := flag l
    let l := if f then (ueMany 2 l).2 else l
    let (f, l) := flag l
    let l := if f then l.drop 65 else l
    let (nalHrd, l) := flag l
    let l := if nalHrd then skipHrd l else l
    let (vclHrd, l) := flag l
    let l := if vclHrd then skipHrd l else l
    let l := if nalHrd || vclHrd then l.drop 1 else l
    let (f, l) := flag (l.drop 1)
    if f then (ueMany 5 (l.drop 1)).1.getD 4 absent else absent

/-- seq_parameter_set_data of H.264. -/
def h264SeqSet (l : List Bool) : SeqSet :=
  let (profile, l) := uRead 8 l
  let set3 := l.getD 3 false
  -- Of the Baseline profile only the constrained part is decoded.
  let profile := if profile = 66 && !l.getD 1 false then 0 else profile
  let (level, l) := uRead 8 (l.drop 8)
  let (id, l) := ueRead l
  let high := h264High profile
  let (chroma, l) := if high then ueRead l else (1, l)
  let l := if high && chroma = 3 then l.drop 1 else l
  let (ld, l) := if high then ueRead l else (0, l)
  let (cd, l) := if high then ueRead l else (0, l)
  let l := if high then l.drop 1 else l
  let (mat, l) := if high then uRead 1 l else (0, l)
  let l := if mat = 1 then skipLists (if chroma = 3 then 12 else 8) 0 l else l
  let (_, l) := ueRead l
  let (poc, l) := ueRead l
  let l := if poc = 0 then (ueRead l).2
    else if poc = 1 then
      let l := (ueMany 2 (l.drop 1)).2
      let (n, l) := ueRead l
      (ueMany (n % 256) l).2
    else l
  let (refs, l) := ueRead l
  let (w, l) := ueRead (l.drop 1)
  let (h, l) := ueRead l
  let (frames, l) := uRead 1 l
  let l := if frames = 1 then l.drop 1 else l.drop 2
  let (crop, l) := uRead 1 l
  let (o, l) := ueMany (4 * crop) l
  let w := 16 * (w + 1)
  let h := 16 * (h + 1) * (2 - frames)
  let sx := if chroma = 1 || chroma = 2 then 2 else 1
  let sy := (if chroma = 1 then 2 else 1) * (2 - frames)
  let absent := if set3 && high then 0 else 16
  { id := id, profile := profile, level := level, width := w, height := h, cropX := sx * o.getD 0 0, cropY := sy * o.getD 2 0,
    cropW := w - sx * (o.getD 0 0 + o.getD 1 0), cropH := h - sy * (o.getD 2 0 + o.getD 3 0), chroma := chroma, luma8 := ld,
    chroma8 := cd, dpb := max 1 refs, reorder := h264Reorder absent l, ctb := 16, frames := frames = 1 }

def seqSetOf (h264 : Bool) (nal : List Nat) : SeqSet :=
  if h264 then h264SeqSet (nalBits true nal) else hevcSeqSet (nalBits false nal)

def picSetOf (h264 : Bool) (nal : List Nat) : PicSet :=
  let l := nalBits h264 nal
  let (id, l) := ueRead l
  let (seq, l) := ueRead l
  { id := id, seq := seq, dep := !h264 && l.headD false }

/-- The set's values lie in R151: profile and level, size, chroma, bit depth, and frames only. -/
def SeqSet.supported (s : SeqSet) (h264 : Bool) : Bool :=
  (if h264 then [66, 77, 100].contains s.profile && s.level ≤ 52 && s.id < 32 && s.chroma ≤ 1 && s.luma8 = 0 && s.chroma8 = 0
   else [1, 2, 4].contains s.profile && s.level ≤ 156 && s.id < 16 && s.chroma ≤ 2 && (s.luma8 = 0 || s.luma8 = 2)
    && s.chroma8 = s.luma8)
  && s.frames && 0 < s.width && s.width ≤ 4096 && 0 < s.height && s.height ≤ 2304 && s.width * s.height ≤ 8912896
  && 0 < s.cropW && 0 < s.cropH && s.cropX + s.cropW ≤ s.width && s.cropY + s.cropH ≤ s.height

/-- The set lies in a context's limits: MAX_W, MAX_H, MAX_DPB, and a chroma format and bit depth of its format code (R160,
R162). -/
def SeqSet.fits (s : SeqSet) (maxW maxH maxDpb fmt : Nat) : Bool :=
  s.width ≤ maxW && s.height ≤ maxH && s.dpb ≤ maxDpb && (if s.chroma = 2 then fmt % 2 = 1 else fmt % 2 = 0)
    && (s.luma8 = 0 || 2 ≤ fmt)

/-- Coding blocks of a picture: in a row, and in all. -/
def SeqSet.rowBlocks (s : SeqSet) : Nat := ceilDiv s.width (max 1 s.ctb)
def SeqSet.blocks (s : SeqSet) : Nat := s.rowBlocks * ceilDiv s.height (max 1 s.ctb)

/-! ### Slice headers (R157, R169) -/

/-- The head of a slice header: its picture parameter set, whether it is a dependent segment, and its address in coding
blocks. -/
structure SliceHead where
  pset : Nat
  dep : Bool
  addr : Nat
  deriving DecidableEq, Repr

/-- Bits of an address below n. -/
def addrBits (n : Nat) : Nat := if n ≤ 1 then 0 else Nat.log2 (n - 1) + 1

/-- The number of the picture parameter set that a slice refers to. -/
def sliceSet (h264 : Bool) (nal : List Nat) : Nat :=
  let l := nalBits h264 (nal.take 32)
  if h264 then (ueMany 3 l).1.getD 2 0
  else
    let t := nalType false nal
    (ueRead (l.drop (if 16 ≤ t && t ≤ 23 then 2 else 1))).1

/-- The head of a slice's header under its parameter sets. -/
def sliceHead (h264 : Bool) (p : PicSet) (s : SeqSet) (nal : List Nat) : SliceHead :=
  let l := nalBits h264 (nal.take 32)
  if h264 then ⟨p.id, false, (ueRead l).1⟩
  else
    let t := nalType false nal
    let first := l.headD false
    let (_, l) := ueRead (l.drop (if 16 ≤ t && t ≤ 23 then 2 else 1))
    if first then ⟨p.id, false, 0⟩
    else
      let dep := p.dep && l.headD false
      let l := if p.dep then l.drop 1 else l
      ⟨p.id, dep, (uRead (addrBits s.blocks) l).1⟩

/-! ### SEI messages (R165) -/

/-- A value of an SEI message head: bytes of 255 and a last byte. -/
def seiValue : List Nat → Nat → Nat × List Nat
  | [], acc => (acc, [])
  | b :: rest, acc => if b = 255 then seiValue rest (acc + 255) else (acc + b, rest)

/-- The messages of an SEI unit: type and payload. -/
def seiMessages : Nat → List Nat → List (Nat × List Nat)
  | 0, _ => []
  | k + 1, l =>
    if l.length < 2 || l = [128] then []
    else
      let (ty, l) := seiValue l 0
      let (n, l) := seiValue l 0
      (ty, l.take n) :: seiMessages k (l.drop n)

/-- An SEI unit of H.264 with a recovery point whose recovery_frame_cnt is 0. -/
def recoverySei (nal : List Nat) : Bool :=
  nalType true nal = 6 && (seiMessages nal.length (unescape (nal.drop 1) 0)).any fun x =>
    x.1 = 6 && (msbBits (x.2.take 1)).headD false

end Sys2Proof.Machine
end

