-- ==== Sys2Proof/Machine/Regs.lean ====
section
/-! DEFINITION. The register map of the DM7400: one name per register of the tables of R59, R93, R125,
R150, R176, R199, R231, R252, R277, R309, R331, R357, R369, R387, R417, R434 and R450, and the place of
every field in its register. A register that a heading splits into several words of different meaning has one
name per word (NAME_0, NAME_1, ...). -/

namespace Sys2Proof.Machine

/-- The registers, in the order of the spec's tables. -/
inductive Reg where
  | CMP_FRS_UBOUND | CMP_FRS_UNCERT | CMP_FRS_LABEL | CMP_FRS_COLOR_LATE | CMP_FRS_COLOR_STALE
  | CMP_FRS_COLOR_LOST | CMP_FRS_COLOR_INK | CMP_FRS_COLOR_PLATE | CMP_FRS_SUMMARY | CMP_FRS_CHANGED
  | CMP_FRS_TROUBLE | CMP_LAYER_FRS_CTL | CMP_LAYER_BUDGET | CMP_LAYER_STALE | CMP_LAYER_WITHDRAW
  | CMP_LAYER_BMAX | CMP_LAYER_AGE | CMP_LAYER_STATE | CMP_LAYER_UNCERT | CMP_LAYER_CAP_STAMP
  | CMP_LAYER_GFX_STAMP | TIME_RAW | TIME_WALL | TIME_WALL_FRAC | TIME_STATUS | TIME_RATE | TIME_OFFSET_ERR
  | TIME_UNCERT | TIME_ROOT_U | TIME_ROOT | TIME_EPOCH | TIME_UTC | TIME_ROOT_CFG | TIME_JUMP | TIME_SLEW
  | TIME_HOLD | TIME_LOCK | TIME_LOSS | TIME_CLAIM | TIME_FRAME_EPOCH | TIME_FRAME_PERIOD | TIME_REF_CFG
  | TIME_REF_DELAY | TIME_REF_TOD | TIME_TROUBLE | TIME_PTP_CFG | TIME_ETH_CTL | TIME_ETH_ASYM
  | TIME_FAB_ASYM | TIME_FAB_DELAY | TIME_PULSE_CTL | TIME_PULSE_WIDTH | TIME_PULSE_START
  | TIME_PULSE_PERIOD | TIME_CAP_CTL | TIME_CAP_STATUS | TIME_CAP_STAMP | FAB_PORT_CTL | FAB_PORT_STATUS
  | FAB_PORT_LIMITS | FAB_PORT_RESV | FAB_PORT_FLOWS | FAB_PORT_TROUBLE | FAB_FLOW_0 | FAB_FLOW_1
  | FAB_FLOW_2 | FAB_FLOW_3 | FAB_NODE_ID | FAB_NODE_TOPO | FAB_NODE_CFG | FAB_NODE_ADMIT
  | FAB_NODE_TROUBLE | FAB_NODE_REFUSALS | FAB_PEER_MODE | FAB_MCAST_0 | FAB_MCAST_LABELS_1
  | FAB_MCAST_LABELS_2 | FAB_MCAST_LABELS_3 | FAB_ROUTE | ETH_PORT_CTL | ETH_PORT_STATUS | ETH_MAC
  | ETH_IPV4 | ETH_IPV6 | ETH_LIMITS | ETH_TROUBLE | ETH_DROP | ETH_STREAM_CTL | ETH_STREAM_ID
  | ETH_STREAM_SRC | ETH_STREAM_DST | ETH_STREAM_UDP | ETH_STREAM_SSRC | ETH_STREAM_TIMES | ETH_STREAM_RATE
  | ETH_STREAM_STATUS | ETH_STREAM_LOSS | ETH_MGMT_CFG | ETH_MGMT_SESSION | CAP_CTL | CAP_GEOM | CAP_TIMING
  | CAP_ID | CAP_STATUS | CAP_FRAMES | CAP_DROPS | CAP_TROUBLE | DEC_ADMIT | DEC_ADMIT_LAST
  | DEC_ADMIT_LAST_ID | DEC_REFUSALS | DEC_POOL_BASE | DEC_POOL_SIZE | DEC_NODE_CAUSE | DEC_NODE_MASK
  | DEC_TROUBLE | DEC_ENGINE_BUSY | DEC_CTX_CFG | DEC_CTX_LIMITS | DEC_CTX_RATE | DEC_CTX_WORK
  | DEC_CTX_STATUS | DEC_CTX_STREAM | DEC_CTX_CAUSE | DEC_CTX_MASK | DEC_CTX_PICS | DEC_CTX_CONCEALED
  | DEC_CTX_FAULTS | DEC_CTX_SKIPPED | DEC_CTX_DROPPED | DEC_CTX_LAST_POC | DEC_CTX_BS | ENC_ADMIT
  | ENC_ADMIT_LAST | ENC_ADMIT_LAST_ID | ENC_REFUSALS | ENC_POOL_BASE | ENC_POOL_SIZE | ENC_KEY_REQ
  | ENC_LTR_REQ | ENC_KEY_DROPS | ENC_NODE_CAUSE | ENC_NODE_MASK | ENC_TROUBLE | ENC_ENGINE_BUSY
  | ENC_PRIV_RING_BASE | ENC_PRIV_RING_CTL | ENC_PRIV_RING_RD | ENC_PRIV_DROPS | ENC_PRIV_RING_WR
  | ENC_CTX_CFG | ENC_CTX_STREAM | ENC_CTX_GEOM | ENC_CTX_CROP | ENC_CTX_RC | ENC_CTX_PIC_CAP
  | ENC_CTX_WIN_CAP | ENC_CTX_WIN | ENC_CTX_KEY | ENC_CTX_LTR | ENC_CTX_STATUS | ENC_STAT | ENC_STAT_BYTES
  | ENC_STAT_BUDGET | ENC_STAT_FRAME | ENC_CTX_PICS | ENC_CTX_CAP_HITS | ENC_CTX_SKIPPED | ENC_CTX_KEYS
  | ENC_CTX_ROWS_STARVED | ENC_CTX_CAUSE | ENC_CTX_MASK | CMP_CTL | CMP_BG | CMP_LATCH | CMP_STATUS
  | CMP_LOAD_CAP | CMP_LOAD_PEAK | CMP_LEASES | CMP_OVERRUNS | CMP_FENCE | CMP_FENCE_CLR | CMP_BAND_MARK
  | CMP_TROUBLE | CMP_RECEIPT | CMP_RECEIPT_STATUS | CMP_RELEASE_STATUS | CMP_RELEASE | CMP_READOUT_IN
  | CMP_READOUT_DROPS | CMP_FONT | CMP_GROUP_COMMIT | CMP_GROUP_CFG | CMP_GROUP_STATUS | CMP_GROUP_RECEIPT
  | CMP_PLANE_CFG | CMP_PLANE_INK | CMP_FIELD_0 | CMP_FIELD_1 | CMP_LAYER_CTL | CMP_LAYER_SRC
  | CMP_LAYER_CROP_POS | CMP_LAYER_CROP_SIZE | CMP_LAYER_DST_POS | CMP_LAYER_DST_SIZE | CMP_LAYER_ALPHA
  | CMP_LAYER_BUF | CMP_LAYER_STRIDE | CMP_LAYER_STATUS | CMP_LAYER_FRAME | LUT_CTL | LUT_SWAP
  | LUT_CRC_PRE | LUT_CRC_CUBE | LUT_CRC_POST | LUT_SWAP_STATUS | LUT_SWAP_FRAME | LUT_TROUBLE
  | LUT_ECC_COUNT | LUT_WRITE_DROPS | LUT_PRE_WINDOW | LUT_CUBE_WINDOW | LUT_POST_WINDOW | SIG_CTL
  | SIG_CONTRAST | SIG_FAILED | SIG_PERSIST | SIG_TROUBLE | SIG_REGION_CTL | SIG_REGION_POS
  | SIG_REGION_SIZE | SIG_REGION_STATUS | SIG_REGION_CMP | SIG_REGION_OUT | SIG_REGION_FRAME | SIG_EXP_CMP
  | SIG_EXP_OUT | SIG_REGION_FAILS | SCN_CTL | SCN_STATUS | SCN_H | SCN_HSYNC | SCN_V | SCN_VSYNC
  | SCN_RATE | SCN_FRAME | SCN_START_TIME | SCN_FLIP_TIME | SCN_ALIGN | SCN_LAG | SCN_DSC | SCN_PANEL_UP
  | SCN_PANEL_DOWN | SCN_BL | SCN_BL_APPLIED | SCN_AUX_CTL | SCN_AUX_STATUS | SCN_AUX_DATA | SCN_TROUBLE
  | SCN_LINK_LOSSES | TCH_CTL | TCH_STATUS | TCH_GEOM | TCH_STEP | TCH_TIMING | TCH_PHASE | TCH_FREQ
  | TCH_HOP | TCH_THRESH_BARE | TCH_THRESH_GLOVE | TCH_FUSE | TCH_WATER | TCH_TRACK | TCH_BASE | TCH_BASE2
  | TCH_HOLD | TCH_MAP_O | TCH_MAP_SX | TCH_MAP_SY | TCH_MAP_CTL | TCH_ROUTE | TCH_CURSOR
  | TCH_CURSOR_COLOR | TCH_PROX_CFG | TCH_PROX_STATUS | TCH_PROX_COUNT | TCH_TEST | TCH_TEST_LIMITS
  | TCH_TEST_COUPLE | TCH_TEST_OPEN | TCH_TEST_SHORT | TCH_REPORT | TCH_REPORT_STATUS | TCH_REBASE
  | TCH_TROUBLE | TCH_OVERFLOWS | TCH_REJECTS | TCH_ADOPTIONS | TCH_RX_BAD | TCH_NOISE | TCH_CONTACT_0
  | TCH_CONTACT_1 | TCH_CONTACT_2 | TCH_CONTACT_3 | TCH_RX_0 | TCH_RX_1 | TCH_PIN | TCH_NODE_0 | TCH_NODE_1
  | EVC_CTL | EVC_STATUS | EVC_MERGES | EVC_TROUBLE | EVC_DOORBELL | EVC_HOST_FAB | EVC_HOLDOFF | EVC_PEND
  | EVC_MASK | EVC_MASK_SET | EVC_MASK_CLR | EVC_MERGED | EVC_RUNNING | EVC_HOST_PEND | EVC_PIN_MASK
  | EVC_SRC_0 | EVC_SRC_1 | EVC_SRC_2 | SEQ_CTL | SEQ_STATE | SEQ_ST | SEQ_RUN_LIMIT | SEQ_LAST | SEQ_FAULT
  | SEQ_RUNS | SEQ_MAX_RUN | SEQ_ENTRY_TIME | SEQ_TROUBLE | SEQ_ECC_COUNT | SEQ_LOG_STATUS | SEQ_LOG
  | SEQ_GPIO_DIR | SEQ_GPIO_OUT | SEQ_GPIO_OUT_SET | SEQ_GPIO_OUT_CLR | SEQ_GPIO_IN | SEQ_GPIO_CFG
  | SEQ_I2C_CFG | SEQ_I2C_CTL | SEQ_I2C_STATUS | SEQ_I2C_WDATA | SEQ_I2C_RDATA | SYS_FENCE | MEM_CFG
  | MEM_STATUS | MEM_ECC_CORR | MEM_ECC_FATAL | MEM_ECC_LAST | MEM_CIS_CORR | MEM_CIS_FATAL
  | MEM_DEV_POOL_BASE | MEM_DEV_POOL_SIZE | MEM_TROUBLE | MEM_SPI_CFG | MEM_SPI_DROPS | GATE_STAGE_BASE
  | GATE_STAGE_PAGES | GATE_STAGE_MASK | GATE_STAGE_ATTR | GATE_COMMIT | GATE_SYNC | GATE_TROUBLE
  | GATE_FAULTS | GATE_RECORD_STATUS | GATE_RECORD | GATE_MASTER_P | GATE_RULE_BASE | GATE_RULE_PAGES
  | GATE_RULE_MASK | GATE_RULE_ATTR | GATE_LEASE_BASE | GATE_LEASE_STATUS | CHK_TROUBLE | CHK_MISMATCH_SUM
  | CHK_CH_CTL | CHK_CH_FOLD | CHK_CH_ADDR | CHK_CH_LEN | CHK_CH_STATUS | CHK_CH_OUT_LEN | CHK_CH_VALUE
  | CHK_CH_EXPECT | CHK_CH_UNITS | CHK_CH_MISMATCH | CFG_STATUS | CFG_SLOT_STATUS | CFG_SLOT_SEQ
  | CFG_FAIL_AT | CFG_LOADED_CRC | CFG_SVN | CFG_LOAD_TIME | CFG_TROUBLE | CFG_FLASH_CTL | CFG_FLASH_ADDR
  | CFG_FLASH_STATUS | CFG_FLASH_INFO | CFG_FLASH_DATA | CFG_SVC_CTL | CFG_SVC_STATUS | CFG_SVC_CHALLENGE
  | CFG_SVC_TOKEN | SYS_MODE | SYS_MODE_REQ | SYS_MODE_TIME | SYS_TROUBLE | SYS_HALT | SYS_RESET_CAUSE
  | SYS_RESET_REQ | SYS_SOFT_RESET | SYS_JOIN | SYS_WDT_CFG | SYS_WDT_KICK | SYS_WDT_STATUS | SYS_WAKE_CFG
  | SYS_WAKE_STATUS | SYS_WAKE_TIMER | PWR_STATUS | PWR_SHED | PWR_SHED_TIME | PWR_THERMAL | PWR_TROUBLE
  | PWR_SAG_RECORD | PWR_RAIL_CFG | PWR_RAIL_STATUS | PWR_RAIL_MIN | PMC_CNT | PMC_SNAP | PMC_ARRIVALS
  | PMC_MODE | PMC_WRAPPED | PMC_SW | PMC_SW_LEVEL | PMC_SNAP_CTL | PMC_SNAP_STATUS | PMC_SNAP_TIME
  | PMC_SAMP_CTL | PMC_SAMP_PERIOD | PMC_SAMP_MASTERS | PMC_SAMP_STATUS | PMC_SAMP | PMC_TROUBLE | TEL_CFG
  | TEL_STATUS | TEL_TEMP | TEL_TROUBLE | TEL_LOG_STATUS | TEL_LOG_SEQ | TEL_LOG_POS | TEL_LAST | TST_CFG
  | TST_CLASS_EN | TST_STATUS | TST_COVER | TST_LATE | TST_FAILED | TST_ENGINES_OUT | TST_PIPES_FAILED
  | TST_EYE_CFG | TST_MARCH_FAIL | TST_TROUBLE | TST_RESULT_STATUS | TST_RESULT | TST_PROVE | TST_EYE
  | DBG_STATUS | DBG_TROUBLE | DBG_ACCESSES | DBG_LAST
  deriving DecidableEq, Repr

/-- A field: its register, its lowest bit and its width. -/
structure Field where
  reg : Reg
  lo : Nat
  width : Nat
  deriving DecidableEq, Repr

namespace F

/-! Fields of the CMP block (R231, R59). -/
abbrev CMP_FRS_UBOUND_BOUND : Field := ⟨.CMP_FRS_UBOUND, 0, 32⟩
abbrev CMP_FRS_UNCERT_U_NODE : Field := ⟨.CMP_FRS_UNCERT, 0, 32⟩
abbrev CMP_FRS_LABEL_HEIGHT : Field := ⟨.CMP_FRS_LABEL, 0, 8⟩
abbrev CMP_FRS_COLOR_LATE_RED : Field := ⟨.CMP_FRS_COLOR_LATE, 20, 10⟩
abbrev CMP_FRS_COLOR_LATE_GREEN : Field := ⟨.CMP_FRS_COLOR_LATE, 10, 10⟩
abbrev CMP_FRS_COLOR_LATE_BLUE : Field := ⟨.CMP_FRS_COLOR_LATE, 0, 10⟩
abbrev CMP_FRS_COLOR_STALE_RED : Field := ⟨.CMP_FRS_COLOR_STALE, 20, 10⟩
abbrev CMP_FRS_COLOR_STALE_GREEN : Field := ⟨.CMP_FRS_COLOR_STALE, 10, 10⟩
abbrev CMP_FRS_COLOR_STALE_BLUE : Field := ⟨.CMP_FRS_COLOR_STALE, 0, 10⟩
abbrev CMP_FRS_COLOR_LOST_RED : Field := ⟨.CMP_FRS_COLOR_LOST, 20, 10⟩
abbrev CMP_FRS_COLOR_LOST_GREEN : Field := ⟨.CMP_FRS_COLOR_LOST, 10, 10⟩
abbrev CMP_FRS_COLOR_LOST_BLUE : Field := ⟨.CMP_FRS_COLOR_LOST, 0, 10⟩
abbrev CMP_FRS_COLOR_INK_RED : Field := ⟨.CMP_FRS_COLOR_INK, 20, 10⟩
abbrev CMP_FRS_COLOR_INK_GREEN : Field := ⟨.CMP_FRS_COLOR_INK, 10, 10⟩
abbrev CMP_FRS_COLOR_INK_BLUE : Field := ⟨.CMP_FRS_COLOR_INK, 0, 10⟩
abbrev CMP_FRS_COLOR_PLATE_RED : Field := ⟨.CMP_FRS_COLOR_PLATE, 20, 10⟩
abbrev CMP_FRS_COLOR_PLATE_GREEN : Field := ⟨.CMP_FRS_COLOR_PLATE, 10, 10⟩
abbrev CMP_FRS_COLOR_PLATE_BLUE : Field := ⟨.CMP_FRS_COLOR_PLATE, 0, 10⟩
abbrev CMP_FRS_SUMMARY_LOST : Field := ⟨.CMP_FRS_SUMMARY, 24, 7⟩
abbrev CMP_FRS_SUMMARY_FROZEN : Field := ⟨.CMP_FRS_SUMMARY, 16, 7⟩
abbrev CMP_FRS_SUMMARY_STALE : Field := ⟨.CMP_FRS_SUMMARY, 8, 7⟩
abbrev CMP_FRS_SUMMARY_LATE : Field := ⟨.CMP_FRS_SUMMARY, 0, 7⟩
abbrev CMP_FRS_CHANGED_LAYER : Field := ⟨.CMP_FRS_CHANGED, 0, 64⟩
abbrev CMP_FRS_TROUBLE_LADDER : Field := ⟨.CMP_FRS_TROUBLE, 7, 1⟩
abbrev CMP_FRS_TROUBLE_LABEL_CLIPPED : Field := ⟨.CMP_FRS_TROUBLE, 6, 1⟩
abbrev CMP_FRS_TROUBLE_LIMIT_RAISED : Field := ⟨.CMP_FRS_TROUBLE, 5, 1⟩
abbrev CMP_FRS_TROUBLE_WITNESS_BELOW_MIN : Field := ⟨.CMP_FRS_TROUBLE, 4, 1⟩
abbrev CMP_FRS_TROUBLE_WITNESS_BAD : Field := ⟨.CMP_FRS_TROUBLE, 3, 1⟩
abbrev CMP_FRS_TROUBLE_FUTURE_STAMP : Field := ⟨.CMP_FRS_TROUBLE, 2, 1⟩
abbrev CMP_FRS_TROUBLE_U_LOST : Field := ⟨.CMP_FRS_TROUBLE, 1, 1⟩
abbrev CMP_FRS_TROUBLE_U_BOUND : Field := ⟨.CMP_FRS_TROUBLE, 0, 1⟩
abbrev CMP_LAYER_FRS_CTL_F : Field := ⟨.CMP_LAYER_FRS_CTL, 31, 1⟩
abbrev CMP_LAYER_FRS_CTL_CONTENT : Field := ⟨.CMP_LAYER_FRS_CTL, 24, 4⟩
abbrev CMP_LAYER_FRS_CTL_MIN_CLASS : Field := ⟨.CMP_LAYER_FRS_CTL, 16, 2⟩
abbrev CMP_LAYER_FRS_CTL_WITHDRAW_EN : Field := ⟨.CMP_LAYER_FRS_CTL, 8, 1⟩
abbrev CMP_LAYER_FRS_CTL_STATIC : Field := ⟨.CMP_LAYER_FRS_CTL, 0, 1⟩
abbrev CMP_LAYER_BUDGET_B : Field := ⟨.CMP_LAYER_BUDGET, 0, 32⟩
abbrev CMP_LAYER_STALE_S : Field := ⟨.CMP_LAYER_STALE, 0, 32⟩
abbrev CMP_LAYER_WITHDRAW_LIMIT : Field := ⟨.CMP_LAYER_WITHDRAW, 0, 32⟩
abbrev CMP_LAYER_BMAX_BMAX : Field := ⟨.CMP_LAYER_BMAX, 0, 32⟩
abbrev CMP_LAYER_AGE_AGE : Field := ⟨.CMP_LAYER_AGE, 0, 32⟩
abbrev CMP_LAYER_STATE_FRAMES : Field := ⟨.CMP_LAYER_STATE, 16, 16⟩
abbrev CMP_LAYER_STATE_FORCED_U : Field := ⟨.CMP_LAYER_STATE, 15, 1⟩
abbrev CMP_LAYER_STATE_NOT_COMMITTED : Field := ⟨.CMP_LAYER_STATE, 14, 1⟩
abbrev CMP_LAYER_STATE_UNVERIFIED : Field := ⟨.CMP_LAYER_STATE, 13, 1⟩
abbrev CMP_LAYER_STATE_DEGRADED : Field := ⟨.CMP_LAYER_STATE, 12, 1⟩
abbrev CMP_LAYER_STATE_CLASS : Field := ⟨.CMP_LAYER_STATE, 8, 2⟩
abbrev CMP_LAYER_STATE_REASON : Field := ⟨.CMP_LAYER_STATE, 4, 3⟩
abbrev CMP_LAYER_STATE_STATE : Field := ⟨.CMP_LAYER_STATE, 0, 3⟩
abbrev CMP_LAYER_UNCERT_U : Field := ⟨.CMP_LAYER_UNCERT, 0, 32⟩
abbrev CMP_LAYER_CAP_STAMP_CAPTURE : Field := ⟨.CMP_LAYER_CAP_STAMP, 0, 64⟩
abbrev CMP_LAYER_GFX_STAMP_STAMP : Field := ⟨.CMP_LAYER_GFX_STAMP, 0, 64⟩
abbrev CMP_CTL_EN : Field := ⟨.CMP_CTL, 31, 1⟩
abbrev CMP_CTL_MODE : Field := ⟨.CMP_CTL, 30, 1⟩
abbrev CMP_CTL_LEAD : Field := ⟨.CMP_CTL, 25, 5⟩
abbrev CMP_BG_COLOR : Field := ⟨.CMP_BG, 0, 30⟩
abbrev CMP_LATCH_APPLY : Field := ⟨.CMP_LATCH, 16, 12⟩
abbrev CMP_LATCH_LATCH_LINE : Field := ⟨.CMP_LATCH, 0, 12⟩
abbrev CMP_STATUS_BAND : Field := ⟨.CMP_STATUS, 24, 8⟩
abbrev CMP_STATUS_COMPOSING : Field := ⟨.CMP_STATUS, 23, 1⟩
abbrev CMP_STATUS_FRAME : Field := ⟨.CMP_STATUS, 0, 16⟩
abbrev CMP_LOAD_CAP_CAP : Field := ⟨.CMP_LOAD_CAP, 0, 32⟩
abbrev CMP_LOAD_PEAK_PEAK : Field := ⟨.CMP_LOAD_PEAK, 0, 32⟩
abbrev CMP_LEASES_USED : Field := ⟨.CMP_LEASES, 0, 7⟩
abbrev CMP_OVERRUNS_COUNT : Field := ⟨.CMP_OVERRUNS, 0, 32⟩
abbrev CMP_FENCE_LAYER : Field := ⟨.CMP_FENCE, 0, 64⟩
abbrev CMP_FENCE_CLR_LAYER : Field := ⟨.CMP_FENCE_CLR, 0, 64⟩
abbrev CMP_BAND_MARK_BAND : Field := ⟨.CMP_BAND_MARK, 0, 8⟩
abbrev CMP_TROUBLE_BAD_VALUE : Field := ⟨.CMP_TROUBLE, 7, 1⟩
abbrev CMP_TROUBLE_LEASE_HELD : Field := ⟨.CMP_TROUBLE, 6, 1⟩
abbrev CMP_TROUBLE_READOUT_BAD : Field := ⟨.CMP_TROUBLE, 5, 1⟩
abbrev CMP_TROUBLE_RECEIPT_LOST : Field := ⟨.CMP_TROUBLE, 4, 1⟩
abbrev CMP_TROUBLE_PARTIAL : Field := ⟨.CMP_TROUBLE, 3, 1⟩
abbrev CMP_TROUBLE_LEASE_FULL : Field := ⟨.CMP_TROUBLE, 2, 1⟩
abbrev CMP_TROUBLE_LOAD_REFUSED : Field := ⟨.CMP_TROUBLE, 1, 1⟩
abbrev CMP_TROUBLE_OVERRUN : Field := ⟨.CMP_TROUBLE, 0, 1⟩
abbrev CMP_RECEIPT_RECEIPT : Field := ⟨.CMP_RECEIPT, 0, 32⟩
abbrev CMP_RECEIPT_STATUS_DROPPED : Field := ⟨.CMP_RECEIPT_STATUS, 16, 16⟩
abbrev CMP_RECEIPT_STATUS_COUNT : Field := ⟨.CMP_RECEIPT_STATUS, 0, 5⟩
abbrev CMP_RELEASE_STATUS_COUNT : Field := ⟨.CMP_RELEASE_STATUS, 0, 6⟩
abbrev CMP_RELEASE_RELEASE : Field := ⟨.CMP_RELEASE, 0, 32⟩
abbrev CMP_READOUT_IN_WORD : Field := ⟨.CMP_READOUT_IN, 0, 64⟩
abbrev CMP_READOUT_DROPS_COUNT : Field := ⟨.CMP_READOUT_DROPS, 0, 32⟩
abbrev CMP_FONT_CELL_W : Field := ⟨.CMP_FONT, 24, 8⟩
abbrev CMP_FONT_CELL_H : Field := ⟨.CMP_FONT, 16, 8⟩
abbrev CMP_GROUP_COMMIT_TAG : Field := ⟨.CMP_GROUP_COMMIT, 0, 32⟩
abbrev CMP_GROUP_CFG_DEFER_LIMIT : Field := ⟨.CMP_GROUP_CFG, 0, 5⟩
abbrev CMP_GROUP_STATUS_PENDING : Field := ⟨.CMP_GROUP_STATUS, 31, 1⟩
abbrev CMP_GROUP_STATUS_STRAGGLERS : Field := ⟨.CMP_GROUP_STATUS, 30, 1⟩
abbrev CMP_GROUP_STATUS_DEFERRED : Field := ⟨.CMP_GROUP_STATUS, 24, 4⟩
abbrev CMP_GROUP_STATUS_MEMBERS : Field := ⟨.CMP_GROUP_STATUS, 16, 7⟩
abbrev CMP_GROUP_RECEIPT_RECEIPT : Field := ⟨.CMP_GROUP_RECEIPT, 0, 32⟩
abbrev CMP_PLANE_CFG_BG_EN : Field := ⟨.CMP_PLANE_CFG, 31, 1⟩
abbrev CMP_PLANE_CFG_BG : Field := ⟨.CMP_PLANE_CFG, 0, 30⟩
abbrev CMP_PLANE_INK_INK : Field := ⟨.CMP_PLANE_INK, 0, 30⟩
abbrev CMP_FIELD_0_EN : Field := ⟨.CMP_FIELD_0, 31, 1⟩
abbrev CMP_FIELD_0_ALIGN : Field := ⟨.CMP_FIELD_0, 29, 2⟩
abbrev CMP_FIELD_0_X : Field := ⟨.CMP_FIELD_0, 16, 13⟩
abbrev CMP_FIELD_0_Y : Field := ⟨.CMP_FIELD_0, 4, 12⟩
abbrev CMP_FIELD_1_ID : Field := ⟨.CMP_FIELD_1, 22, 10⟩
abbrev CMP_FIELD_1_COLS : Field := ⟨.CMP_FIELD_1, 16, 6⟩
abbrev CMP_FIELD_1_DECIMALS : Field := ⟨.CMP_FIELD_1, 12, 4⟩
abbrev CMP_FIELD_1_GROUP : Field := ⟨.CMP_FIELD_1, 9, 3⟩
abbrev CMP_FIELD_1_INK : Field := ⟨.CMP_FIELD_1, 6, 3⟩
abbrev CMP_LAYER_CTL_EN : Field := ⟨.CMP_LAYER_CTL, 31, 1⟩
abbrev CMP_LAYER_CTL_GROUP : Field := ⟨.CMP_LAYER_CTL, 28, 3⟩
abbrev CMP_LAYER_CTL_KIND : Field := ⟨.CMP_LAYER_CTL, 25, 3⟩
abbrev CMP_LAYER_CTL_ALPHA_MODE : Field := ⟨.CMP_LAYER_CTL, 23, 2⟩
abbrev CMP_LAYER_CTL_FENCE_MODE : Field := ⟨.CMP_LAYER_CTL, 21, 2⟩
abbrev CMP_LAYER_CTL_MATRIX : Field := ⟨.CMP_LAYER_CTL, 19, 2⟩
abbrev CMP_LAYER_CTL_FULL_RANGE : Field := ⟨.CMP_LAYER_CTL, 18, 1⟩
abbrev CMP_LAYER_CTL_NEAREST : Field := ⟨.CMP_LAYER_CTL, 17, 1⟩
abbrev CMP_LAYER_CTL_FMT : Field := ⟨.CMP_LAYER_CTL, 13, 4⟩
abbrev CMP_LAYER_SRC_SOURCE : Field := ⟨.CMP_LAYER_SRC, 0, 32⟩
abbrev CMP_LAYER_CROP_POS_CROP_X : Field := ⟨.CMP_LAYER_CROP_POS, 16, 16⟩
abbrev CMP_LAYER_CROP_POS_CROP_Y : Field := ⟨.CMP_LAYER_CROP_POS, 0, 16⟩
abbrev CMP_LAYER_CROP_SIZE_CROP_W : Field := ⟨.CMP_LAYER_CROP_SIZE, 16, 16⟩
abbrev CMP_LAYER_CROP_SIZE_CROP_H : Field := ⟨.CMP_LAYER_CROP_SIZE, 0, 16⟩
abbrev CMP_LAYER_DST_POS_DST_X : Field := ⟨.CMP_LAYER_DST_POS, 16, 16⟩
abbrev CMP_LAYER_DST_POS_DST_Y : Field := ⟨.CMP_LAYER_DST_POS, 0, 16⟩
abbrev CMP_LAYER_DST_SIZE_DST_W : Field := ⟨.CMP_LAYER_DST_SIZE, 16, 16⟩
abbrev CMP_LAYER_DST_SIZE_DST_H : Field := ⟨.CMP_LAYER_DST_SIZE, 0, 16⟩
abbrev CMP_LAYER_ALPHA_LA : Field := ⟨.CMP_LAYER_ALPHA, 0, 10⟩
abbrev CMP_LAYER_BUF_BUF : Field := ⟨.CMP_LAYER_BUF, 0, 64⟩
abbrev CMP_LAYER_STRIDE_STRIDE : Field := ⟨.CMP_LAYER_STRIDE, 0, 17⟩
abbrev CMP_LAYER_STATUS_ACTIVE : Field := ⟨.CMP_LAYER_STATUS, 31, 1⟩
abbrev CMP_LAYER_STATUS_LEASES : Field := ⟨.CMP_LAYER_STATUS, 29, 2⟩
abbrev CMP_LAYER_STATUS_PENDING : Field := ⟨.CMP_LAYER_STATUS, 28, 1⟩
abbrev CMP_LAYER_STATUS_PIC_SEQ : Field := ⟨.CMP_LAYER_STATUS, 0, 20⟩
abbrev CMP_LAYER_FRAME_FRAME : Field := ⟨.CMP_LAYER_FRAME, 0, 48⟩

/-! Fields of the TIME block (R93). -/
abbrev TIME_RAW_RAW : Field := ⟨.TIME_RAW, 0, 64⟩
abbrev TIME_WALL_NS : Field := ⟨.TIME_WALL, 0, 64⟩
abbrev TIME_WALL_FRAC_FRAC : Field := ⟨.TIME_WALL_FRAC, 0, 16⟩
abbrev TIME_STATUS_STATE : Field := ⟨.TIME_STATUS, 29, 3⟩
abbrev TIME_STATUS_IS_ROOT : Field := ⟨.TIME_STATUS, 28, 1⟩
abbrev TIME_STATUS_PARENT_VALID : Field := ⟨.TIME_STATUS, 27, 1⟩
abbrev TIME_STATUS_PARENT : Field := ⟨.TIME_STATUS, 24, 3⟩
abbrev TIME_STATUS_HOPS : Field := ⟨.TIME_STATUS, 0, 12⟩
abbrev TIME_RATE_RATE : Field := ⟨.TIME_RATE, 0, 40⟩
abbrev TIME_OFFSET_ERR_E : Field := ⟨.TIME_OFFSET_ERR, 0, 32⟩
abbrev TIME_UNCERT_U_NODE : Field := ⟨.TIME_UNCERT, 0, 32⟩
abbrev TIME_ROOT_U_ROOT_U : Field := ⟨.TIME_ROOT_U, 0, 32⟩
abbrev TIME_ROOT_NODE : Field := ⟨.TIME_ROOT, 20, 12⟩
abbrev TIME_ROOT_PRIO : Field := ⟨.TIME_ROOT, 12, 8⟩
abbrev TIME_ROOT_CLASS : Field := ⟨.TIME_ROOT, 10, 2⟩
abbrev TIME_EPOCH_EPOCH : Field := ⟨.TIME_EPOCH, 0, 32⟩
abbrev TIME_UTC_VALID : Field := ⟨.TIME_UTC, 16, 1⟩
abbrev TIME_UTC_OFFSET : Field := ⟨.TIME_UTC, 0, 16⟩
abbrev TIME_ROOT_CFG_CANDIDATE : Field := ⟨.TIME_ROOT_CFG, 31, 1⟩
abbrev TIME_ROOT_CFG_PREEMPT : Field := ⟨.TIME_ROOT_CFG, 30, 1⟩
abbrev TIME_ROOT_CFG_REF_SEL : Field := ⟨.TIME_ROOT_CFG, 28, 2⟩
abbrev TIME_ROOT_CFG_RANK : Field := ⟨.TIME_ROOT_CFG, 24, 4⟩
abbrev TIME_ROOT_CFG_PRIO : Field := ⟨.TIME_ROOT_CFG, 16, 8⟩
abbrev TIME_JUMP_THRESHOLD : Field := ⟨.TIME_JUMP, 0, 32⟩
abbrev TIME_SLEW_MAX_PPM : Field := ⟨.TIME_SLEW, 0, 8⟩
abbrev TIME_HOLD_DRIFT : Field := ⟨.TIME_HOLD, 0, 32⟩
abbrev TIME_LOCK_LOCK_TIME : Field := ⟨.TIME_LOCK, 16, 16⟩
abbrev TIME_LOCK_LOCK_WIN : Field := ⟨.TIME_LOCK, 0, 16⟩
abbrev TIME_LOSS_ROOT_LIMIT : Field := ⟨.TIME_LOSS, 16, 16⟩
abbrev TIME_LOSS_PARENT_LIMIT : Field := ⟨.TIME_LOSS, 0, 16⟩
abbrev TIME_CLAIM_STEP : Field := ⟨.TIME_CLAIM, 0, 16⟩
abbrev TIME_FRAME_EPOCH_EPOCH : Field := ⟨.TIME_FRAME_EPOCH, 0, 64⟩
abbrev TIME_FRAME_PERIOD_NS : Field := ⟨.TIME_FRAME_PERIOD, 16, 32⟩
abbrev TIME_FRAME_PERIOD_FRAC : Field := ⟨.TIME_FRAME_PERIOD, 0, 16⟩
abbrev TIME_REF_CFG_PPS_WIN : Field := ⟨.TIME_REF_CFG, 24, 8⟩
abbrev TIME_REF_CFG_MISS_LIMIT : Field := ⟨.TIME_REF_CFG, 16, 8⟩
abbrev TIME_REF_CFG_F10M_WIN : Field := ⟨.TIME_REF_CFG, 8, 8⟩
abbrev TIME_REF_CFG_F10M_EN : Field := ⟨.TIME_REF_CFG, 1, 1⟩
abbrev TIME_REF_CFG_PPS_EN : Field := ⟨.TIME_REF_CFG, 0, 1⟩
abbrev TIME_REF_DELAY_DELAY : Field := ⟨.TIME_REF_DELAY, 0, 32⟩
abbrev TIME_REF_TOD_TOD : Field := ⟨.TIME_REF_TOD, 0, 64⟩
abbrev TIME_TROUBLE_BAD_VALUE : Field := ⟨.TIME_TROUBLE, 8, 1⟩
abbrev TIME_TROUBLE_PULSE_MISSED : Field := ⟨.TIME_TROUBLE, 7, 1⟩
abbrev TIME_TROUBLE_CAP_OVERFLOW : Field := ⟨.TIME_TROUBLE, 6, 1⟩
abbrev TIME_TROUBLE_LINK_DELAY_BAD : Field := ⟨.TIME_TROUBLE, 5, 1⟩
abbrev TIME_TROUBLE_DOMAIN_CLASH : Field := ⟨.TIME_TROUBLE, 4, 1⟩
abbrev TIME_TROUBLE_REF_LOST : Field := ⟨.TIME_TROUBLE, 3, 1⟩
abbrev TIME_TROUBLE_ROOT_LOST : Field := ⟨.TIME_TROUBLE, 2, 1⟩
abbrev TIME_TROUBLE_HOLDOVER : Field := ⟨.TIME_TROUBLE, 1, 1⟩
abbrev TIME_TROUBLE_JUMP_REFUSED : Field := ⟨.TIME_TROUBLE, 0, 1⟩
abbrev TIME_PTP_CFG_DOMAIN : Field := ⟨.TIME_PTP_CFG, 16, 8⟩
abbrev TIME_PTP_CFG_PROFILE : Field := ⟨.TIME_PTP_CFG, 12, 4⟩
abbrev TIME_ETH_CTL_ROLE : Field := ⟨.TIME_ETH_CTL, 0, 3⟩
abbrev TIME_ETH_ASYM_ASYM : Field := ⟨.TIME_ETH_ASYM, 0, 32⟩
abbrev TIME_FAB_ASYM_ASYM : Field := ⟨.TIME_FAB_ASYM, 0, 32⟩
abbrev TIME_FAB_DELAY_DELAY : Field := ⟨.TIME_FAB_DELAY, 0, 32⟩
abbrev TIME_PULSE_CTL_EN : Field := ⟨.TIME_PULSE_CTL, 31, 1⟩
abbrev TIME_PULSE_CTL_PERIODIC : Field := ⟨.TIME_PULSE_CTL, 30, 1⟩
abbrev TIME_PULSE_CTL_POLARITY : Field := ⟨.TIME_PULSE_CTL, 29, 1⟩
abbrev TIME_PULSE_WIDTH_WIDTH : Field := ⟨.TIME_PULSE_WIDTH, 0, 32⟩
abbrev TIME_PULSE_START_START : Field := ⟨.TIME_PULSE_START, 0, 64⟩
abbrev TIME_PULSE_PERIOD_PERIOD : Field := ⟨.TIME_PULSE_PERIOD, 0, 48⟩
abbrev TIME_CAP_CTL_EN : Field := ⟨.TIME_CAP_CTL, 31, 1⟩
abbrev TIME_CAP_CTL_EDGE : Field := ⟨.TIME_CAP_CTL, 29, 2⟩
abbrev TIME_CAP_CTL_FILTER : Field := ⟨.TIME_CAP_CTL, 16, 10⟩
abbrev TIME_CAP_CTL_DEAD : Field := ⟨.TIME_CAP_CTL, 0, 16⟩
abbrev TIME_CAP_STATUS_DROPPED : Field := ⟨.TIME_CAP_STATUS, 16, 16⟩
abbrev TIME_CAP_STATUS_HEAD_RISING : Field := ⟨.TIME_CAP_STATUS, 5, 1⟩
abbrev TIME_CAP_STATUS_COUNT : Field := ⟨.TIME_CAP_STATUS, 0, 5⟩
abbrev TIME_CAP_STAMP_STAMP : Field := ⟨.TIME_CAP_STAMP, 0, 64⟩

/-! Fields of the FAB block (R125). -/
abbrev FAB_PORT_CTL_EN : Field := ⟨.FAB_PORT_CTL, 31, 1⟩
abbrev FAB_PORT_CTL_RETRAIN : Field := ⟨.FAB_PORT_CTL, 30, 1⟩
abbrev FAB_PORT_CTL_RATE_MAX : Field := ⟨.FAB_PORT_CTL, 28, 2⟩
abbrev FAB_PORT_CTL_WIDTH_MIN : Field := ⟨.FAB_PORT_CTL, 25, 3⟩
abbrev FAB_PORT_STATUS_STATE : Field := ⟨.FAB_PORT_STATUS, 29, 3⟩
abbrev FAB_PORT_STATUS_RATE : Field := ⟨.FAB_PORT_STATUS, 27, 2⟩
abbrev FAB_PORT_STATUS_WIDTH : Field := ⟨.FAB_PORT_STATUS, 24, 3⟩
abbrev FAB_PORT_STATUS_PEER_PORT : Field := ⟨.FAB_PORT_STATUS, 21, 3⟩
abbrev FAB_PORT_STATUS_PEER_ID_VALID : Field := ⟨.FAB_PORT_STATUS, 20, 1⟩
abbrev FAB_PORT_STATUS_PEER_NODE : Field := ⟨.FAB_PORT_STATUS, 8, 12⟩
abbrev FAB_PORT_STATUS_PEER_MODE : Field := ⟨.FAB_PORT_STATUS, 4, 4⟩
abbrev FAB_PORT_LIMITS_IDLE_LIMIT : Field := ⟨.FAB_PORT_LIMITS, 16, 16⟩
abbrev FAB_PORT_LIMITS_REPLAY_LIMIT : Field := ⟨.FAB_PORT_LIMITS, 8, 8⟩
abbrev FAB_PORT_RESV_LIMIT : Field := ⟨.FAB_PORT_RESV, 16, 16⟩
abbrev FAB_PORT_RESV_USED : Field := ⟨.FAB_PORT_RESV, 0, 16⟩
abbrev FAB_PORT_FLOWS_USED : Field := ⟨.FAB_PORT_FLOWS, 0, 11⟩
abbrev FAB_PORT_TROUBLE_BAD_VALUE : Field := ⟨.FAB_PORT_TROUBLE, 7, 1⟩
abbrev FAB_PORT_TROUBLE_TOPO_MISMATCH : Field := ⟨.FAB_PORT_TROUBLE, 6, 1⟩
abbrev FAB_PORT_TROUBLE_NO_ROUTE : Field := ⟨.FAB_PORT_TROUBLE, 5, 1⟩
abbrev FAB_PORT_TROUBLE_MALFORMED : Field := ⟨.FAB_PORT_TROUBLE, 4, 1⟩
abbrev FAB_PORT_TROUBLE_REPLAY_LIMIT : Field := ⟨.FAB_PORT_TROUBLE, 3, 1⟩
abbrev FAB_PORT_TROUBLE_IDLE_LIMIT : Field := ⟨.FAB_PORT_TROUBLE, 2, 1⟩
abbrev FAB_PORT_TROUBLE_TRAIN_FAIL : Field := ⟨.FAB_PORT_TROUBLE, 1, 1⟩
abbrev FAB_PORT_TROUBLE_LINK_DOWN : Field := ⟨.FAB_PORT_TROUBLE, 0, 1⟩
abbrev FAB_FLOW_0_VALID : Field := ⟨.FAB_FLOW_0, 31, 1⟩
abbrev FAB_FLOW_0_LOCAL : Field := ⟨.FAB_FLOW_0, 30, 1⟩
abbrev FAB_FLOW_0_GROUPED : Field := ⟨.FAB_FLOW_0, 29, 1⟩
abbrev FAB_FLOW_0_VC : Field := ⟨.FAB_FLOW_0, 27, 2⟩
abbrev FAB_FLOW_0_OUT_PORT : Field := ⟨.FAB_FLOW_0, 24, 3⟩
abbrev FAB_FLOW_0_OUT_LABEL : Field := ⟨.FAB_FLOW_0, 14, 10⟩
abbrev FAB_FLOW_0_GROUP : Field := ⟨.FAB_FLOW_0, 0, 8⟩
abbrev FAB_FLOW_1_ORIGIN : Field := ⟨.FAB_FLOW_1, 20, 12⟩
abbrev FAB_FLOW_1_PART : Field := ⟨.FAB_FLOW_1, 16, 4⟩
abbrev FAB_FLOW_1_KIND : Field := ⟨.FAB_FLOW_1, 15, 1⟩
abbrev FAB_FLOW_2_ID : Field := ⟨.FAB_FLOW_2, 0, 32⟩
abbrev FAB_FLOW_3_RESV : Field := ⟨.FAB_FLOW_3, 16, 16⟩
abbrev FAB_NODE_ID_VALID : Field := ⟨.FAB_NODE_ID, 31, 1⟩
abbrev FAB_NODE_ID_SOURCE : Field := ⟨.FAB_NODE_ID, 30, 1⟩
abbrev FAB_NODE_ID_NODE : Field := ⟨.FAB_NODE_ID, 0, 12⟩
abbrev FAB_NODE_TOPO_MODE : Field := ⟨.FAB_NODE_TOPO, 30, 2⟩
abbrev FAB_NODE_TOPO_X : Field := ⟨.FAB_NODE_TOPO, 25, 5⟩
abbrev FAB_NODE_TOPO_Y : Field := ⟨.FAB_NODE_TOPO, 20, 5⟩
abbrev FAB_NODE_TOPO_Z : Field := ⟨.FAB_NODE_TOPO, 15, 5⟩
abbrev FAB_NODE_CFG_REJOIN : Field := ⟨.FAB_NODE_CFG, 16, 16⟩
abbrev FAB_NODE_CFG_MEM_TIMEOUT : Field := ⟨.FAB_NODE_CFG, 0, 16⟩
abbrev FAB_NODE_ADMIT_LAST_STATUS : Field := ⟨.FAB_NODE_ADMIT, 28, 4⟩
abbrev FAB_NODE_ADMIT_LAST_REFUSER : Field := ⟨.FAB_NODE_ADMIT, 16, 12⟩
abbrev FAB_NODE_ADMIT_GROUPS : Field := ⟨.FAB_NODE_ADMIT, 0, 9⟩
abbrev FAB_NODE_TROUBLE_BAD_VALUE : Field := ⟨.FAB_NODE_TROUBLE, 5, 1⟩
abbrev FAB_NODE_TROUBLE_RESV_BROKEN : Field := ⟨.FAB_NODE_TROUBLE, 4, 1⟩
abbrev FAB_NODE_TROUBLE_GROUP_FULL : Field := ⟨.FAB_NODE_TROUBLE, 3, 1⟩
abbrev FAB_NODE_TROUBLE_FLOW_FULL : Field := ⟨.FAB_NODE_TROUBLE, 2, 1⟩
abbrev FAB_NODE_TROUBLE_ID_CLASH : Field := ⟨.FAB_NODE_TROUBLE, 1, 1⟩
abbrev FAB_NODE_TROUBLE_NO_ID : Field := ⟨.FAB_NODE_TROUBLE, 0, 1⟩
abbrev FAB_NODE_REFUSALS_COUNT : Field := ⟨.FAB_NODE_REFUSALS, 0, 32⟩
abbrev FAB_PEER_MODE_MODES : Field := ⟨.FAB_PEER_MODE, 0, 32⟩
abbrev FAB_MCAST_0_VALID : Field := ⟨.FAB_MCAST_0, 31, 1⟩
abbrev FAB_MCAST_0_LOCAL : Field := ⟨.FAB_MCAST_0, 30, 1⟩
abbrev FAB_MCAST_0_PORTS : Field := ⟨.FAB_MCAST_0, 22, 8⟩
abbrev FAB_MCAST_LABELS_1_LABELS : Field := ⟨.FAB_MCAST_LABELS_1, 0, 32⟩
abbrev FAB_MCAST_LABELS_2_LABELS : Field := ⟨.FAB_MCAST_LABELS_2, 0, 32⟩
abbrev FAB_MCAST_LABELS_3_LABELS : Field := ⟨.FAB_MCAST_LABELS_3, 0, 16⟩
abbrev FAB_ROUTE_ALT_VALID : Field := ⟨.FAB_ROUTE, 7, 1⟩
abbrev FAB_ROUTE_ALT : Field := ⟨.FAB_ROUTE, 4, 3⟩
abbrev FAB_ROUTE_VALID : Field := ⟨.FAB_ROUTE, 3, 1⟩
abbrev FAB_ROUTE_PORT : Field := ⟨.FAB_ROUTE, 0, 3⟩

/-! Fields of the ETH block (R150). -/
abbrev ETH_PORT_CTL_EN : Field := ⟨.ETH_PORT_CTL, 31, 1⟩
abbrev ETH_PORT_CTL_RATE : Field := ⟨.ETH_PORT_CTL, 30, 1⟩
abbrev ETH_PORT_CTL_FEC : Field := ⟨.ETH_PORT_CTL, 28, 2⟩
abbrev ETH_PORT_CTL_VLAN_EN : Field := ⟨.ETH_PORT_CTL, 27, 1⟩
abbrev ETH_PORT_CTL_MAX_FRAME : Field := ⟨.ETH_PORT_CTL, 12, 14⟩
abbrev ETH_PORT_CTL_VID : Field := ⟨.ETH_PORT_CTL, 0, 12⟩
abbrev ETH_PORT_STATUS_LINK : Field := ⟨.ETH_PORT_STATUS, 31, 1⟩
abbrev ETH_PORT_STATUS_FEC_LOCK : Field := ⟨.ETH_PORT_STATUS, 30, 1⟩
abbrev ETH_PORT_STATUS_GROUPS : Field := ⟨.ETH_PORT_STATUS, 0, 7⟩
abbrev ETH_MAC_MAC : Field := ⟨.ETH_MAC, 0, 48⟩
abbrev ETH_IPV4_IPV4 : Field := ⟨.ETH_IPV4, 0, 32⟩
abbrev ETH_IPV6_IPV6 : Field := ⟨.ETH_IPV6, 0, 32⟩
abbrev ETH_LIMITS_ECHO_RATE : Field := ⟨.ETH_LIMITS, 16, 16⟩
abbrev ETH_LIMITS_ARP_RATE : Field := ⟨.ETH_LIMITS, 0, 16⟩
abbrev ETH_TROUBLE_BAD_VALUE : Field := ⟨.ETH_TROUBLE, 3, 1⟩
abbrev ETH_TROUBLE_MGMT_AUTH : Field := ⟨.ETH_TROUBLE, 2, 1⟩
abbrev ETH_TROUBLE_GROUPS_FULL : Field := ⟨.ETH_TROUBLE, 1, 1⟩
abbrev ETH_TROUBLE_LINK_DOWN : Field := ⟨.ETH_TROUBLE, 0, 1⟩
abbrev ETH_DROP_COUNT : Field := ⟨.ETH_DROP, 0, 32⟩
abbrev ETH_STREAM_CTL_EN : Field := ⟨.ETH_STREAM_CTL, 31, 1⟩
abbrev ETH_STREAM_CTL_CLASS_CFG : Field := ⟨.ETH_STREAM_CTL, 29, 2⟩
abbrev ETH_STREAM_CTL_WALL_TIMED : Field := ⟨.ETH_STREAM_CTL, 28, 1⟩
abbrev ETH_STREAM_CTL_MUX : Field := ⟨.ETH_STREAM_CTL, 27, 1⟩
abbrev ETH_STREAM_CTL_FWD : Field := ⟨.ETH_STREAM_CTL, 26, 1⟩
abbrev ETH_STREAM_CTL_CODEC : Field := ⟨.ETH_STREAM_CTL, 25, 1⟩
abbrev ETH_STREAM_CTL_LEAP_SRC : Field := ⟨.ETH_STREAM_CTL, 24, 1⟩
abbrev ETH_STREAM_CTL_PT : Field := ⟨.ETH_STREAM_CTL, 16, 7⟩
abbrev ETH_STREAM_CTL_EXT_ID : Field := ⟨.ETH_STREAM_CTL, 8, 8⟩
abbrev ETH_STREAM_ID_ID : Field := ⟨.ETH_STREAM_ID, 0, 32⟩
abbrev ETH_STREAM_SRC_SRC_ADDR : Field := ⟨.ETH_STREAM_SRC, 0, 32⟩
abbrev ETH_STREAM_DST_DST_ADDR : Field := ⟨.ETH_STREAM_DST, 0, 32⟩
abbrev ETH_STREAM_UDP_UDP_PORT : Field := ⟨.ETH_STREAM_UDP, 16, 16⟩
abbrev ETH_STREAM_SSRC_SSRC : Field := ⟨.ETH_STREAM_SSRC, 0, 32⟩
abbrev ETH_STREAM_TIMES_SILENCE : Field := ⟨.ETH_STREAM_TIMES, 16, 16⟩
abbrev ETH_STREAM_TIMES_REPORT : Field := ⟨.ETH_STREAM_TIMES, 8, 8⟩
abbrev ETH_STREAM_TIMES_LEAP : Field := ⟨.ETH_STREAM_TIMES, 0, 8⟩
abbrev ETH_STREAM_RATE_MAX_RATE : Field := ⟨.ETH_STREAM_RATE, 16, 16⟩
abbrev ETH_STREAM_RATE_SENDER_ERR : Field := ⟨.ETH_STREAM_RATE, 0, 16⟩
abbrev ETH_STREAM_STATUS_STATE : Field := ⟨.ETH_STREAM_STATUS, 29, 3⟩
abbrev ETH_STREAM_STATUS_CLASS_NOW : Field := ⟨.ETH_STREAM_STATUS, 27, 2⟩
abbrev ETH_STREAM_STATUS_SR_VALID : Field := ⟨.ETH_STREAM_STATUS, 26, 1⟩
abbrev ETH_STREAM_STATUS_CONTEXT : Field := ⟨.ETH_STREAM_STATUS, 16, 6⟩
abbrev ETH_STREAM_LOSS_AU_LOSS : Field := ⟨.ETH_STREAM_LOSS, 0, 32⟩
abbrev ETH_MGMT_CFG_PORT : Field := ⟨.ETH_MGMT_CFG, 16, 16⟩
abbrev ETH_MGMT_CFG_IDLE : Field := ⟨.ETH_MGMT_CFG, 0, 16⟩
abbrev ETH_MGMT_SESSION_VALID : Field := ⟨.ETH_MGMT_SESSION, 31, 1⟩
abbrev ETH_MGMT_SESSION_FABRIC : Field := ⟨.ETH_MGMT_SESSION, 30, 1⟩
abbrev ETH_MGMT_SESSION_PORT : Field := ⟨.ETH_MGMT_SESSION, 27, 3⟩
abbrev ETH_MGMT_SESSION_KEY : Field := ⟨.ETH_MGMT_SESSION, 24, 3⟩
abbrev ETH_MGMT_SESSION_MASTER : Field := ⟨.ETH_MGMT_SESSION, 18, 6⟩
abbrev ETH_MGMT_SESSION_NODE : Field := ⟨.ETH_MGMT_SESSION, 0, 12⟩

/-! Fields of the CAP block (R150). -/
abbrev CAP_CTL_EN : Field := ⟨.CAP_CTL, 31, 1⟩
abbrev CAP_CTL_LANES : Field := ⟨.CAP_CTL, 28, 3⟩
abbrev CAP_CTL_VC : Field := ⟨.CAP_CTL, 26, 2⟩
abbrev CAP_CTL_DT : Field := ⟨.CAP_CTL, 20, 6⟩
abbrev CAP_CTL_POOL_FMT : Field := ⟨.CAP_CTL, 16, 4⟩
abbrev CAP_CTL_FROZEN_N : Field := ⟨.CAP_CTL, 8, 8⟩
abbrev CAP_CTL_FNUM_CHECK : Field := ⟨.CAP_CTL, 7, 1⟩
abbrev CAP_GEOM_WIDTH : Field := ⟨.CAP_GEOM, 16, 16⟩
abbrev CAP_GEOM_HEIGHT : Field := ⟨.CAP_GEOM, 0, 16⟩
abbrev CAP_TIMING_SILENCE : Field := ⟨.CAP_TIMING, 16, 16⟩
abbrev CAP_TIMING_STAMP_ADJ : Field := ⟨.CAP_TIMING, 0, 16⟩
abbrev CAP_ID_ID : Field := ⟨.CAP_ID, 0, 32⟩
abbrev CAP_STATUS_STATE : Field := ⟨.CAP_STATUS, 30, 2⟩
abbrev CAP_STATUS_REPEATS : Field := ⟨.CAP_STATUS, 16, 8⟩
abbrev CAP_STATUS_FROZEN : Field := ⟨.CAP_STATUS, 15, 1⟩
abbrev CAP_FRAMES_FRAME_NUM : Field := ⟨.CAP_FRAMES, 0, 64⟩
abbrev CAP_DROPS_COUNT : Field := ⟨.CAP_DROPS, 0, 32⟩
abbrev CAP_TROUBLE_BAD_VALUE : Field := ⟨.CAP_TROUBLE, 3, 1⟩
abbrev CAP_TROUBLE_OVERFLOW : Field := ⟨.CAP_TROUBLE, 2, 1⟩
abbrev CAP_TROUBLE_FORMAT : Field := ⟨.CAP_TROUBLE, 1, 1⟩
abbrev CAP_TROUBLE_CONTINUITY : Field := ⟨.CAP_TROUBLE, 0, 1⟩

/-! Fields of the DEC block (R176). -/
abbrev DEC_ADMIT_LIMIT : Field := ⟨.DEC_ADMIT, 16, 16⟩
abbrev DEC_ADMIT_USED : Field := ⟨.DEC_ADMIT, 0, 13⟩
abbrev DEC_ADMIT_LAST_STATUS : Field := ⟨.DEC_ADMIT_LAST, 28, 4⟩
abbrev DEC_ADMIT_LAST_CONTEXTS : Field := ⟨.DEC_ADMIT_LAST, 0, 7⟩
abbrev DEC_ADMIT_LAST_ID_ID : Field := ⟨.DEC_ADMIT_LAST_ID, 0, 32⟩
abbrev DEC_REFUSALS_COUNT : Field := ⟨.DEC_REFUSALS, 0, 32⟩
abbrev DEC_POOL_BASE_BASE : Field := ⟨.DEC_POOL_BASE, 0, 64⟩
abbrev DEC_POOL_SIZE_SIZE : Field := ⟨.DEC_POOL_SIZE, 0, 64⟩
abbrev DEC_NODE_CAUSE_TROUBLE : Field := ⟨.DEC_NODE_CAUSE, 1, 1⟩
abbrev DEC_NODE_CAUSE_REFUSED : Field := ⟨.DEC_NODE_CAUSE, 0, 1⟩
abbrev DEC_NODE_MASK_TROUBLE : Field := ⟨.DEC_NODE_MASK, 1, 1⟩
abbrev DEC_NODE_MASK_REFUSED : Field := ⟨.DEC_NODE_MASK, 0, 1⟩
abbrev DEC_TROUBLE_BAD_VALUE : Field := ⟨.DEC_TROUBLE, 4, 1⟩
abbrev DEC_TROUBLE_CONTAIN : Field := ⟨.DEC_TROUBLE, 3, 1⟩
abbrev DEC_TROUBLE_CONTEXT_RESET : Field := ⟨.DEC_TROUBLE, 2, 1⟩
abbrev DEC_TROUBLE_WORK_LIMIT : Field := ⟨.DEC_TROUBLE, 1, 1⟩
abbrev DEC_TROUBLE_ADMIT_REFUSED : Field := ⟨.DEC_TROUBLE, 0, 1⟩
abbrev DEC_ENGINE_BUSY_BUSY : Field := ⟨.DEC_ENGINE_BUSY, 0, 24⟩
abbrev DEC_CTX_CFG_VALID : Field := ⟨.DEC_CTX_CFG, 31, 1⟩
abbrev DEC_CTX_CFG_CODEC : Field := ⟨.DEC_CTX_CFG, 30, 1⟩
abbrev DEC_CTX_CFG_ESS : Field := ⟨.DEC_CTX_CFG, 28, 2⟩
abbrev DEC_CTX_CFG_FMT : Field := ⟨.DEC_CTX_CFG, 24, 4⟩
abbrev DEC_CTX_CFG_MAX_DPB : Field := ⟨.DEC_CTX_CFG, 19, 5⟩
abbrev DEC_CTX_CFG_START_ANY : Field := ⟨.DEC_CTX_CFG, 18, 1⟩
abbrev DEC_CTX_LIMITS_MAX_W : Field := ⟨.DEC_CTX_LIMITS, 16, 16⟩
abbrev DEC_CTX_LIMITS_MAX_H : Field := ⟨.DEC_CTX_LIMITS, 0, 16⟩
abbrev DEC_CTX_RATE_DECLARED : Field := ⟨.DEC_CTX_RATE, 16, 16⟩
abbrev DEC_CTX_RATE_MEASURED : Field := ⟨.DEC_CTX_RATE, 0, 16⟩
abbrev DEC_CTX_WORK_WORK_X : Field := ⟨.DEC_CTX_WORK, 28, 4⟩
abbrev DEC_CTX_WORK_FAULT_LIMIT : Field := ⟨.DEC_CTX_WORK, 20, 8⟩
abbrev DEC_CTX_WORK_BACKLOG : Field := ⟨.DEC_CTX_WORK, 16, 4⟩
abbrev DEC_CTX_WORK_TARGET : Field := ⟨.DEC_CTX_WORK, 0, 16⟩
abbrev DEC_CTX_STATUS_STATE : Field := ⟨.DEC_CTX_STATUS, 29, 3⟩
abbrev DEC_CTX_STATUS_CONCEALING : Field := ⟨.DEC_CTX_STATUS, 28, 1⟩
abbrev DEC_CTX_STATUS_LAST_FAULT : Field := ⟨.DEC_CTX_STATUS, 24, 4⟩
abbrev DEC_CTX_STATUS_QUEUED : Field := ⟨.DEC_CTX_STATUS, 16, 8⟩
abbrev DEC_CTX_STATUS_CONSEC_FAULTS : Field := ⟨.DEC_CTX_STATUS, 8, 8⟩
abbrev DEC_CTX_STREAM_ID : Field := ⟨.DEC_CTX_STREAM, 0, 32⟩
abbrev DEC_CTX_CAUSE_SLICE : Field := ⟨.DEC_CTX_CAUSE, 7, 1⟩
abbrev DEC_CTX_CAUSE_SKIPPED : Field := ⟨.DEC_CTX_CAUSE, 6, 1⟩
abbrev DEC_CTX_CAUSE_NEED_KEY : Field := ⟨.DEC_CTX_CAUSE, 5, 1⟩
abbrev DEC_CTX_CAUSE_STATE : Field := ⟨.DEC_CTX_CAUSE, 4, 1⟩
abbrev DEC_CTX_CAUSE_RESET : Field := ⟨.DEC_CTX_CAUSE, 3, 1⟩
abbrev DEC_CTX_CAUSE_FAULT : Field := ⟨.DEC_CTX_CAUSE, 2, 1⟩
abbrev DEC_CTX_CAUSE_CONCEALED : Field := ⟨.DEC_CTX_CAUSE, 1, 1⟩
abbrev DEC_CTX_CAUSE_PIC_DONE : Field := ⟨.DEC_CTX_CAUSE, 0, 1⟩
abbrev DEC_CTX_MASK_SLICE : Field := ⟨.DEC_CTX_MASK, 7, 1⟩
abbrev DEC_CTX_MASK_SKIPPED : Field := ⟨.DEC_CTX_MASK, 6, 1⟩
abbrev DEC_CTX_MASK_NEED_KEY : Field := ⟨.DEC_CTX_MASK, 5, 1⟩
abbrev DEC_CTX_MASK_STATE : Field := ⟨.DEC_CTX_MASK, 4, 1⟩
abbrev DEC_CTX_MASK_RESET : Field := ⟨.DEC_CTX_MASK, 3, 1⟩
abbrev DEC_CTX_MASK_FAULT : Field := ⟨.DEC_CTX_MASK, 2, 1⟩
abbrev DEC_CTX_MASK_CONCEALED : Field := ⟨.DEC_CTX_MASK, 1, 1⟩
abbrev DEC_CTX_MASK_PIC_DONE : Field := ⟨.DEC_CTX_MASK, 0, 1⟩
abbrev DEC_CTX_PICS_DECODED : Field := ⟨.DEC_CTX_PICS, 0, 64⟩
abbrev DEC_CTX_CONCEALED_COUNT : Field := ⟨.DEC_CTX_CONCEALED, 0, 32⟩
abbrev DEC_CTX_FAULTS_COUNT : Field := ⟨.DEC_CTX_FAULTS, 0, 32⟩
abbrev DEC_CTX_SKIPPED_COUNT : Field := ⟨.DEC_CTX_SKIPPED, 0, 32⟩
abbrev DEC_CTX_DROPPED_COUNT : Field := ⟨.DEC_CTX_DROPPED, 0, 32⟩
abbrev DEC_CTX_LAST_POC_POC : Field := ⟨.DEC_CTX_LAST_POC, 0, 32⟩
abbrev DEC_CTX_BS_BS_KIB : Field := ⟨.DEC_CTX_BS, 12, 20⟩

/-! Fields of the ENC block (R199). -/
abbrev ENC_ADMIT_LIMIT : Field := ⟨.ENC_ADMIT, 16, 16⟩
abbrev ENC_ADMIT_USED : Field := ⟨.ENC_ADMIT, 0, 12⟩
abbrev ENC_ADMIT_LAST_STATUS : Field := ⟨.ENC_ADMIT_LAST, 28, 4⟩
abbrev ENC_ADMIT_LAST_CONTEXTS : Field := ⟨.ENC_ADMIT_LAST, 0, 5⟩
abbrev ENC_ADMIT_LAST_ID_ID : Field := ⟨.ENC_ADMIT_LAST_ID, 0, 32⟩
abbrev ENC_REFUSALS_COUNT : Field := ⟨.ENC_REFUSALS, 0, 32⟩
abbrev ENC_POOL_BASE_BASE : Field := ⟨.ENC_POOL_BASE, 0, 64⟩
abbrev ENC_POOL_SIZE_SIZE : Field := ⟨.ENC_POOL_SIZE, 0, 64⟩
abbrev ENC_KEY_REQ_ID : Field := ⟨.ENC_KEY_REQ, 0, 32⟩
abbrev ENC_LTR_REQ_ID : Field := ⟨.ENC_LTR_REQ, 0, 32⟩
abbrev ENC_KEY_DROPS_COUNT : Field := ⟨.ENC_KEY_DROPS, 0, 32⟩
abbrev ENC_NODE_CAUSE_TROUBLE : Field := ⟨.ENC_NODE_CAUSE, 1, 1⟩
abbrev ENC_NODE_CAUSE_REFUSED : Field := ⟨.ENC_NODE_CAUSE, 0, 1⟩
abbrev ENC_NODE_MASK_TROUBLE : Field := ⟨.ENC_NODE_MASK, 1, 1⟩
abbrev ENC_NODE_MASK_REFUSED : Field := ⟨.ENC_NODE_MASK, 0, 1⟩
abbrev ENC_TROUBLE_BAD_VALUE : Field := ⟨.ENC_TROUBLE, 3, 1⟩
abbrev ENC_TROUBLE_CAPTURE_LOST : Field := ⟨.ENC_TROUBLE, 2, 1⟩
abbrev ENC_TROUBLE_CAP_HIT : Field := ⟨.ENC_TROUBLE, 1, 1⟩
abbrev ENC_TROUBLE_ADMIT_REFUSED : Field := ⟨.ENC_TROUBLE, 0, 1⟩
abbrev ENC_ENGINE_BUSY_BUSY : Field := ⟨.ENC_ENGINE_BUSY, 0, 8⟩
abbrev ENC_PRIV_RING_BASE_BASE : Field := ⟨.ENC_PRIV_RING_BASE, 0, 64⟩
abbrev ENC_PRIV_RING_CTL_SIZE : Field := ⟨.ENC_PRIV_RING_CTL, 16, 16⟩
abbrev ENC_PRIV_RING_RD_RD : Field := ⟨.ENC_PRIV_RING_RD, 0, 32⟩
abbrev ENC_PRIV_DROPS_COUNT : Field := ⟨.ENC_PRIV_DROPS, 0, 32⟩
abbrev ENC_PRIV_RING_WR_WR : Field := ⟨.ENC_PRIV_RING_WR, 0, 32⟩
abbrev ENC_CTX_CFG_VALID : Field := ⟨.ENC_CTX_CFG, 31, 1⟩
abbrev ENC_CTX_CFG_STATE : Field := ⟨.ENC_CTX_CFG, 29, 2⟩
abbrev ENC_CTX_CFG_ESS : Field := ⟨.ENC_CTX_CFG, 28, 1⟩
abbrev ENC_CTX_CFG_PRIV : Field := ⟨.ENC_CTX_CFG, 27, 1⟩
abbrev ENC_CTX_CFG_MAIN10 : Field := ⟨.ENC_CTX_CFG, 26, 1⟩
abbrev ENC_CTX_CFG_PORT : Field := ⟨.ENC_CTX_CFG, 25, 1⟩
abbrev ENC_CTX_CFG_START : Field := ⟨.ENC_CTX_CFG, 24, 1⟩
abbrev ENC_CTX_CFG_HASH : Field := ⟨.ENC_CTX_CFG, 23, 1⟩
abbrev ENC_CTX_CFG_ROWS : Field := ⟨.ENC_CTX_CFG, 20, 3⟩
abbrev ENC_CTX_CFG_SCALE : Field := ⟨.ENC_CTX_CFG, 17, 3⟩
abbrev ENC_CTX_CFG_DIV : Field := ⟨.ENC_CTX_CFG, 13, 4⟩
abbrev ENC_CTX_STREAM_ID : Field := ⟨.ENC_CTX_STREAM, 0, 32⟩
abbrev ENC_CTX_GEOM_WIDTH : Field := ⟨.ENC_CTX_GEOM, 16, 16⟩
abbrev ENC_CTX_GEOM_HEIGHT : Field := ⟨.ENC_CTX_GEOM, 0, 16⟩
abbrev ENC_CTX_CROP_CROP_X : Field := ⟨.ENC_CTX_CROP, 16, 16⟩
abbrev ENC_CTX_CROP_CROP_Y : Field := ⟨.ENC_CTX_CROP, 0, 16⟩
abbrev ENC_CTX_RC_QTARGET : Field := ⟨.ENC_CTX_RC, 24, 7⟩
abbrev ENC_CTX_RC_QMAX : Field := ⟨.ENC_CTX_RC, 16, 7⟩
abbrev ENC_CTX_RC_QMIN : Field := ⟨.ENC_CTX_RC, 8, 7⟩
abbrev ENC_CTX_RC_QSTEP : Field := ⟨.ENC_CTX_RC, 0, 4⟩
abbrev ENC_CTX_PIC_CAP_PIC_CAP : Field := ⟨.ENC_CTX_PIC_CAP, 0, 32⟩
abbrev ENC_CTX_WIN_CAP_WIN_CAP : Field := ⟨.ENC_CTX_WIN_CAP, 0, 32⟩
abbrev ENC_CTX_WIN_WIN_PICS : Field := ⟨.ENC_CTX_WIN, 0, 8⟩
abbrev ENC_CTX_KEY_TYPE : Field := ⟨.ENC_CTX_KEY, 31, 1⟩
abbrev ENC_CTX_KEY_GOP : Field := ⟨.ENC_CTX_KEY, 16, 15⟩
abbrev ENC_CTX_KEY_HOLD : Field := ⟨.ENC_CTX_KEY, 0, 16⟩
abbrev ENC_CTX_LTR_LTR_PERIOD : Field := ⟨.ENC_CTX_LTR, 16, 16⟩
abbrev ENC_CTX_LTR_HELD : Field := ⟨.ENC_CTX_LTR, 4, 2⟩
abbrev ENC_CTX_LTR_REFRESH : Field := ⟨.ENC_CTX_LTR, 0, 1⟩
abbrev ENC_CTX_STATUS_Q_NOW : Field := ⟨.ENC_CTX_STATUS, 24, 7⟩
abbrev ENC_CTX_STATUS_WIN_USED : Field := ⟨.ENC_CTX_STATUS, 0, 24⟩
abbrev ENC_STAT_CAP_HIT : Field := ⟨.ENC_STAT, 31, 1⟩
abbrev ENC_STAT_KEY : Field := ⟨.ENC_STAT, 30, 1⟩
abbrev ENC_STAT_REFRESH : Field := ⟨.ENC_STAT, 29, 1⟩
abbrev ENC_STAT_LTR_MARK : Field := ⟨.ENC_STAT, 28, 1⟩
abbrev ENC_STAT_ROWS_STARVED : Field := ⟨.ENC_STAT, 18, 6⟩
abbrev ENC_STAT_ROWS_LOST : Field := ⟨.ENC_STAT, 12, 6⟩
abbrev ENC_STAT_QP : Field := ⟨.ENC_STAT, 0, 7⟩
abbrev ENC_STAT_BYTES_BYTES : Field := ⟨.ENC_STAT_BYTES, 0, 32⟩
abbrev ENC_STAT_BUDGET_BUDGET : Field := ⟨.ENC_STAT_BUDGET, 0, 32⟩
abbrev ENC_STAT_FRAME_FRAME_NUM : Field := ⟨.ENC_STAT_FRAME, 0, 32⟩
abbrev ENC_CTX_PICS_CODED : Field := ⟨.ENC_CTX_PICS, 0, 64⟩
abbrev ENC_CTX_CAP_HITS_COUNT : Field := ⟨.ENC_CTX_CAP_HITS, 0, 32⟩
abbrev ENC_CTX_SKIPPED_COUNT : Field := ⟨.ENC_CTX_SKIPPED, 0, 32⟩
abbrev ENC_CTX_KEYS_COUNT : Field := ⟨.ENC_CTX_KEYS, 0, 32⟩
abbrev ENC_CTX_ROWS_STARVED_COUNT : Field := ⟨.ENC_CTX_ROWS_STARVED, 0, 32⟩
abbrev ENC_CTX_CAUSE_STATS_DROPPED : Field := ⟨.ENC_CTX_CAUSE, 7, 1⟩
abbrev ENC_CTX_CAUSE_ROWS_LOST : Field := ⟨.ENC_CTX_CAUSE, 6, 1⟩
abbrev ENC_CTX_CAUSE_STATE : Field := ⟨.ENC_CTX_CAUSE, 5, 1⟩
abbrev ENC_CTX_CAUSE_SKIPPED : Field := ⟨.ENC_CTX_CAUSE, 4, 1⟩
abbrev ENC_CTX_CAUSE_KEY_DONE : Field := ⟨.ENC_CTX_CAUSE, 3, 1⟩
abbrev ENC_CTX_CAUSE_CAP_HIT : Field := ⟨.ENC_CTX_CAUSE, 2, 1⟩
abbrev ENC_CTX_CAUSE_PIC_DONE : Field := ⟨.ENC_CTX_CAUSE, 1, 1⟩
abbrev ENC_CTX_CAUSE_SLICE : Field := ⟨.ENC_CTX_CAUSE, 0, 1⟩
abbrev ENC_CTX_MASK_STATS_DROPPED : Field := ⟨.ENC_CTX_MASK, 7, 1⟩
abbrev ENC_CTX_MASK_ROWS_LOST : Field := ⟨.ENC_CTX_MASK, 6, 1⟩
abbrev ENC_CTX_MASK_STATE : Field := ⟨.ENC_CTX_MASK, 5, 1⟩
abbrev ENC_CTX_MASK_SKIPPED : Field := ⟨.ENC_CTX_MASK, 4, 1⟩
abbrev ENC_CTX_MASK_KEY_DONE : Field := ⟨.ENC_CTX_MASK, 3, 1⟩
abbrev ENC_CTX_MASK_CAP_HIT : Field := ⟨.ENC_CTX_MASK, 2, 1⟩
abbrev ENC_CTX_MASK_PIC_DONE : Field := ⟨.ENC_CTX_MASK, 1, 1⟩
abbrev ENC_CTX_MASK_SLICE : Field := ⟨.ENC_CTX_MASK, 0, 1⟩

/-! Fields of the LUT block (R252). -/
abbrev LUT_CTL_PRE_EN : Field := ⟨.LUT_CTL, 31, 1⟩
abbrev LUT_CTL_CUBE_EN : Field := ⟨.LUT_CTL, 30, 1⟩
abbrev LUT_CTL_POST_EN : Field := ⟨.LUT_CTL, 29, 1⟩
abbrev LUT_CTL_DITHER : Field := ⟨.LUT_CTL, 28, 1⟩
abbrev LUT_CTL_FORCED_BYPASS : Field := ⟨.LUT_CTL, 27, 1⟩
abbrev LUT_CTL_ACTIVE : Field := ⟨.LUT_CTL, 24, 3⟩
abbrev LUT_SWAP_TABLES : Field := ⟨.LUT_SWAP, 0, 3⟩
abbrev LUT_CRC_PRE_CRC : Field := ⟨.LUT_CRC_PRE, 0, 32⟩
abbrev LUT_CRC_CUBE_CRC : Field := ⟨.LUT_CRC_CUBE, 0, 32⟩
abbrev LUT_CRC_POST_CRC : Field := ⟨.LUT_CRC_POST, 0, 32⟩
abbrev LUT_SWAP_STATUS_PENDING : Field := ⟨.LUT_SWAP_STATUS, 31, 1⟩
abbrev LUT_SWAP_STATUS_CHECKING : Field := ⟨.LUT_SWAP_STATUS, 30, 1⟩
abbrev LUT_SWAP_STATUS_LAST : Field := ⟨.LUT_SWAP_STATUS, 0, 4⟩
abbrev LUT_SWAP_FRAME_FRAME : Field := ⟨.LUT_SWAP_FRAME, 0, 48⟩
abbrev LUT_TROUBLE_BAD_VALUE : Field := ⟨.LUT_TROUBLE, 3, 1⟩
abbrev LUT_TROUBLE_ECC_FATAL : Field := ⟨.LUT_TROUBLE, 2, 1⟩
abbrev LUT_TROUBLE_SWAP_REFUSED : Field := ⟨.LUT_TROUBLE, 1, 1⟩
abbrev LUT_TROUBLE_WRITE_DROPPED : Field := ⟨.LUT_TROUBLE, 0, 1⟩
abbrev LUT_ECC_COUNT_COUNT : Field := ⟨.LUT_ECC_COUNT, 0, 32⟩
abbrev LUT_WRITE_DROPS_COUNT : Field := ⟨.LUT_WRITE_DROPS, 0, 32⟩
abbrev LUT_PRE_WINDOW_ENTRY : Field := ⟨.LUT_PRE_WINDOW, 0, 12⟩
abbrev LUT_CUBE_WINDOW_R : Field := ⟨.LUT_CUBE_WINDOW, 0, 12⟩
abbrev LUT_CUBE_WINDOW_G : Field := ⟨.LUT_CUBE_WINDOW, 16, 12⟩
abbrev LUT_CUBE_WINDOW_B : Field := ⟨.LUT_CUBE_WINDOW, 32, 12⟩
abbrev LUT_POST_WINDOW_ENTRY : Field := ⟨.LUT_POST_WINDOW, 0, 12⟩

/-! Fields of the SIG block (R252). -/
abbrev SIG_CTL_EN : Field := ⟨.SIG_CTL, 31, 1⟩
abbrev SIG_CTL_SUSPENDED : Field := ⟨.SIG_CTL, 30, 1⟩
abbrev SIG_CONTRAST_MIN : Field := ⟨.SIG_CONTRAST, 0, 10⟩
abbrev SIG_FAILED_REGION : Field := ⟨.SIG_FAILED, 0, 16⟩
abbrev SIG_PERSIST_REGION : Field := ⟨.SIG_PERSIST, 0, 16⟩
abbrev SIG_TROUBLE_BAD_VALUE : Field := ⟨.SIG_TROUBLE, 2, 1⟩
abbrev SIG_TROUBLE_GUARD_PERSIST : Field := ⟨.SIG_TROUBLE, 1, 1⟩
abbrev SIG_TROUBLE_GUARD_FAIL : Field := ⟨.SIG_TROUBLE, 0, 1⟩
abbrev SIG_REGION_CTL_EN : Field := ⟨.SIG_REGION_CTL, 31, 1⟩
abbrev SIG_REGION_CTL_BYPASS : Field := ⟨.SIG_REGION_CTL, 30, 1⟩
abbrev SIG_REGION_CTL_CMP_EXP : Field := ⟨.SIG_REGION_CTL, 29, 1⟩
abbrev SIG_REGION_CTL_MATCH : Field := ⟨.SIG_REGION_CTL, 28, 1⟩
abbrev SIG_REGION_CTL_OUT_EXP : Field := ⟨.SIG_REGION_CTL, 27, 1⟩
abbrev SIG_REGION_CTL_ESCALATE : Field := ⟨.SIG_REGION_CTL, 26, 1⟩
abbrev SIG_REGION_CTL_CMP_VALID : Field := ⟨.SIG_REGION_CTL, 22, 4⟩
abbrev SIG_REGION_CTL_OUT_VALID : Field := ⟨.SIG_REGION_CTL, 18, 4⟩
abbrev SIG_REGION_CTL_FAIL_LIMIT : Field := ⟨.SIG_REGION_CTL, 14, 4⟩
abbrev SIG_REGION_CTL_LAYER : Field := ⟨.SIG_REGION_CTL, 0, 6⟩
abbrev SIG_REGION_POS_X : Field := ⟨.SIG_REGION_POS, 16, 16⟩
abbrev SIG_REGION_POS_Y : Field := ⟨.SIG_REGION_POS, 0, 16⟩
abbrev SIG_REGION_SIZE_W : Field := ⟨.SIG_REGION_SIZE, 16, 16⟩
abbrev SIG_REGION_SIZE_H : Field := ⟨.SIG_REGION_SIZE, 0, 16⟩
abbrev SIG_REGION_STATUS_CMP_FAIL : Field := ⟨.SIG_REGION_STATUS, 31, 1⟩
abbrev SIG_REGION_STATUS_OUT_FAIL : Field := ⟨.SIG_REGION_STATUS, 30, 1⟩
abbrev SIG_REGION_STATUS_CAUSE : Field := ⟨.SIG_REGION_STATUS, 27, 3⟩
abbrev SIG_REGION_STATUS_MATCH_IDX : Field := ⟨.SIG_REGION_STATUS, 25, 2⟩
abbrev SIG_REGION_STATUS_CONSEC : Field := ⟨.SIG_REGION_STATUS, 0, 8⟩
abbrev SIG_REGION_CMP_SIG : Field := ⟨.SIG_REGION_CMP, 0, 32⟩
abbrev SIG_REGION_OUT_SIG : Field := ⟨.SIG_REGION_OUT, 0, 32⟩
abbrev SIG_REGION_FRAME_FRAME : Field := ⟨.SIG_REGION_FRAME, 0, 48⟩
abbrev SIG_EXP_CMP_EXP : Field := ⟨.SIG_EXP_CMP, 0, 32⟩
abbrev SIG_EXP_OUT_EXP : Field := ⟨.SIG_EXP_OUT, 0, 32⟩
abbrev SIG_REGION_FAILS_COUNT : Field := ⟨.SIG_REGION_FAILS, 0, 32⟩

/-! Fields of the SCN block (R277). -/
abbrev SCN_CTL_EN : Field := ⟨.SCN_CTL, 31, 1⟩
abbrev SCN_CTL_DSC_EN : Field := ⟨.SCN_CTL, 30, 1⟩
abbrev SCN_CTL_RATE_MAX : Field := ⟨.SCN_CTL, 28, 2⟩
abbrev SCN_CTL_RATE_MIN : Field := ⟨.SCN_CTL, 26, 2⟩
abbrev SCN_CTL_LANES_MIN : Field := ⟨.SCN_CTL, 23, 3⟩
abbrev SCN_CTL_BPC10 : Field := ⟨.SCN_CTL, 22, 1⟩
abbrev SCN_CTL_STANDBY_OFF : Field := ⟨.SCN_CTL, 21, 1⟩
abbrev SCN_CTL_FAULT_HOLD : Field := ⟨.SCN_CTL, 0, 16⟩
abbrev SCN_STATUS_PANEL : Field := ⟨.SCN_STATUS, 29, 3⟩
abbrev SCN_STATUS_CARD : Field := ⟨.SCN_STATUS, 26, 3⟩
abbrev SCN_STATUS_ALIGNED : Field := ⟨.SCN_STATUS, 25, 1⟩
abbrev SCN_STATUS_HPD : Field := ⟨.SCN_STATUS, 24, 1⟩
abbrev SCN_STATUS_FALLBACK : Field := ⟨.SCN_STATUS, 23, 1⟩
abbrev SCN_STATUS_RATE : Field := ⟨.SCN_STATUS, 20, 3⟩
abbrev SCN_STATUS_LANES : Field := ⟨.SCN_STATUS, 17, 3⟩
abbrev SCN_STATUS_DSC : Field := ⟨.SCN_STATUS, 16, 1⟩
abbrev SCN_H_HTOTAL : Field := ⟨.SCN_H, 16, 16⟩
abbrev SCN_H_HACTIVE : Field := ⟨.SCN_H, 0, 16⟩
abbrev SCN_HSYNC_HPOL : Field := ⟨.SCN_HSYNC, 31, 1⟩
abbrev SCN_HSYNC_HFP : Field := ⟨.SCN_HSYNC, 16, 13⟩
abbrev SCN_HSYNC_HSYNC : Field := ⟨.SCN_HSYNC, 0, 13⟩
abbrev SCN_V_VTOTAL : Field := ⟨.SCN_V, 16, 16⟩
abbrev SCN_V_VACTIVE : Field := ⟨.SCN_V, 0, 16⟩
abbrev SCN_VSYNC_VPOL : Field := ⟨.SCN_VSYNC, 31, 1⟩
abbrev SCN_VSYNC_VFP : Field := ⟨.SCN_VSYNC, 16, 12⟩
abbrev SCN_VSYNC_VSYNC : Field := ⟨.SCN_VSYNC, 0, 12⟩
abbrev SCN_RATE_KHZ : Field := ⟨.SCN_RATE, 0, 32⟩
abbrev SCN_FRAME_N : Field := ⟨.SCN_FRAME, 0, 48⟩
abbrev SCN_START_TIME_START : Field := ⟨.SCN_START_TIME, 0, 64⟩
abbrev SCN_FLIP_TIME_FLIP : Field := ⟨.SCN_FLIP_TIME, 0, 64⟩
abbrev SCN_ALIGN_E : Field := ⟨.SCN_ALIGN, 0, 32⟩
abbrev SCN_LAG_LAG : Field := ⟨.SCN_LAG, 0, 32⟩
abbrev SCN_DSC_BPP : Field := ⟨.SCN_DSC, 16, 8⟩
abbrev SCN_DSC_SLICES : Field := ⟨.SCN_DSC, 12, 4⟩
abbrev SCN_DSC_SLICE_H : Field := ⟨.SCN_DSC, 0, 12⟩
abbrev SCN_PANEL_UP_T_HPD : Field := ⟨.SCN_PANEL_UP, 16, 16⟩
abbrev SCN_PANEL_UP_T_VIDEO_BL : Field := ⟨.SCN_PANEL_UP, 0, 16⟩
abbrev SCN_PANEL_DOWN_T_BL_VIDEO : Field := ⟨.SCN_PANEL_DOWN, 21, 11⟩
abbrev SCN_PANEL_DOWN_T_LINK_VDD : Field := ⟨.SCN_PANEL_DOWN, 11, 10⟩
abbrev SCN_PANEL_DOWN_T_OFF : Field := ⟨.SCN_PANEL_DOWN, 0, 11⟩
abbrev SCN_BL_SYNC : Field := ⟨.SCN_BL, 31, 1⟩
abbrev SCN_BL_DUTY : Field := ⟨.SCN_BL, 16, 12⟩
abbrev SCN_BL_FREQ : Field := ⟨.SCN_BL, 0, 16⟩
abbrev SCN_BL_APPLIED_FRAME : Field := ⟨.SCN_BL_APPLIED, 0, 48⟩
abbrev SCN_AUX_CTL_GO : Field := ⟨.SCN_AUX_CTL, 31, 1⟩
abbrev SCN_AUX_CTL_OP : Field := ⟨.SCN_AUX_CTL, 29, 2⟩
abbrev SCN_AUX_CTL_LEN : Field := ⟨.SCN_AUX_CTL, 24, 5⟩
abbrev SCN_AUX_CTL_ADDR : Field := ⟨.SCN_AUX_CTL, 0, 20⟩
abbrev SCN_AUX_STATUS_RESULT : Field := ⟨.SCN_AUX_STATUS, 28, 4⟩
abbrev SCN_AUX_STATUS_COUNT : Field := ⟨.SCN_AUX_STATUS, 0, 5⟩
abbrev SCN_AUX_DATA_DATA : Field := ⟨.SCN_AUX_DATA, 0, 32⟩
abbrev SCN_TROUBLE_BAD_VALUE : Field := ⟨.SCN_TROUBLE, 6, 1⟩
abbrev SCN_TROUBLE_AUX_FAIL : Field := ⟨.SCN_TROUBLE, 5, 1⟩
abbrev SCN_TROUBLE_ALIGN_LOST : Field := ⟨.SCN_TROUBLE, 4, 1⟩
abbrev SCN_TROUBLE_NO_HPD : Field := ⟨.SCN_TROUBLE, 3, 1⟩
abbrev SCN_TROUBLE_NO_FIT : Field := ⟨.SCN_TROUBLE, 2, 1⟩
abbrev SCN_TROUBLE_TRAIN_FAIL : Field := ⟨.SCN_TROUBLE, 1, 1⟩
abbrev SCN_TROUBLE_LINK_LOST : Field := ⟨.SCN_TROUBLE, 0, 1⟩
abbrev SCN_LINK_LOSSES_COUNT : Field := ⟨.SCN_LINK_LOSSES, 0, 32⟩

/-! Fields of the TCH block (R309). -/
abbrev TCH_CTL_EN : Field := ⟨.TCH_CTL, 31, 1⟩
abbrev TCH_CTL_GLOVE : Field := ⟨.TCH_CTL, 30, 1⟩
abbrev TCH_CTL_RATE : Field := ⟨.TCH_CTL, 28, 2⟩
abbrev TCH_CTL_FAB_EN : Field := ⟨.TCH_CTL, 27, 1⟩
abbrev TCH_CTL_DOWN_CYCLES : Field := ⟨.TCH_CTL, 24, 3⟩
abbrev TCH_CTL_UP_CYCLES : Field := ⟨.TCH_CTL, 21, 3⟩
abbrev TCH_STATUS_STATE : Field := ⟨.TCH_STATUS, 29, 3⟩
abbrev TCH_STATUS_OVERFLOW : Field := ⟨.TCH_STATUS, 28, 1⟩
abbrev TCH_STATUS_NOISY : Field := ⟨.TCH_STATUS, 27, 1⟩
abbrev TCH_STATUS_WATER : Field := ⟨.TCH_STATUS, 26, 1⟩
abbrev TCH_STATUS_DEGRADED : Field := ⟨.TCH_STATUS, 25, 1⟩
abbrev TCH_STATUS_UNBASELINED : Field := ⟨.TCH_STATUS, 24, 1⟩
abbrev TCH_STATUS_CONTACTS : Field := ⟨.TCH_STATUS, 20, 4⟩
abbrev TCH_STATUS_FREQ : Field := ⟨.TCH_STATUS, 17, 3⟩
abbrev TCH_STATUS_CYCLE : Field := ⟨.TCH_STATUS, 0, 16⟩
abbrev TCH_GEOM_TX_COUNT : Field := ⟨.TCH_GEOM, 16, 7⟩
abbrev TCH_GEOM_RX_COUNT : Field := ⟨.TCH_GEOM, 0, 7⟩
abbrev TCH_STEP_BARE : Field := ⟨.TCH_STEP, 16, 16⟩
abbrev TCH_STEP_GLOVE : Field := ⟨.TCH_STEP, 0, 16⟩
abbrev TCH_TIMING_SETTLE : Field := ⟨.TCH_TIMING, 24, 8⟩
abbrev TCH_TIMING_LISTEN : Field := ⟨.TCH_TIMING, 12, 12⟩
abbrev TCH_PHASE_NS : Field := ⟨.TCH_PHASE, 0, 32⟩
abbrev TCH_FREQ_EN : Field := ⟨.TCH_FREQ, 31, 1⟩
abbrev TCH_FREQ_HZ : Field := ⟨.TCH_FREQ, 0, 19⟩
abbrev TCH_HOP_NOISE_HIGH : Field := ⟨.TCH_HOP, 20, 12⟩
abbrev TCH_HOP_NOISE_MAX : Field := ⟨.TCH_HOP, 8, 12⟩
abbrev TCH_HOP_HOP_COUNT : Field := ⟨.TCH_HOP, 4, 4⟩
abbrev TCH_THRESH_BARE_ON : Field := ⟨.TCH_THRESH_BARE, 16, 16⟩
abbrev TCH_THRESH_BARE_OFF : Field := ⟨.TCH_THRESH_BARE, 0, 16⟩
abbrev TCH_THRESH_GLOVE_ON : Field := ⟨.TCH_THRESH_GLOVE, 16, 16⟩
abbrev TCH_THRESH_GLOVE_OFF : Field := ⟨.TCH_THRESH_GLOVE, 0, 16⟩
abbrev TCH_FUSE_SELF_MIN : Field := ⟨.TCH_FUSE, 16, 16⟩
abbrev TCH_FUSE_Q_RATIO : Field := ⟨.TCH_FUSE, 8, 8⟩
abbrev TCH_WATER_NEG : Field := ⟨.TCH_WATER, 16, 16⟩
abbrev TCH_WATER_NODES : Field := ⟨.TCH_WATER, 0, 16⟩
abbrev TCH_TRACK_DIST : Field := ⟨.TCH_TRACK, 16, 16⟩
abbrev TCH_BASE_DRIFT_SHIFT : Field := ⟨.TCH_BASE, 28, 4⟩
abbrev TCH_BASE_STABLE_TOL : Field := ⟨.TCH_BASE, 0, 16⟩
abbrev TCH_BASE2_RELEASE_MARGIN : Field := ⟨.TCH_BASE2, 16, 16⟩
abbrev TCH_BASE2_UNCONF_TIME : Field := ⟨.TCH_BASE2, 0, 16⟩
abbrev TCH_HOLD_MINUTES : Field := ⟨.TCH_HOLD, 0, 16⟩
abbrev TCH_MAP_O_OX : Field := ⟨.TCH_MAP_O, 16, 16⟩
abbrev TCH_MAP_O_OY : Field := ⟨.TCH_MAP_O, 0, 16⟩
abbrev TCH_MAP_SX_SX : Field := ⟨.TCH_MAP_SX, 0, 32⟩
abbrev TCH_MAP_SY_SY : Field := ⟨.TCH_MAP_SY, 0, 32⟩
abbrev TCH_MAP_CTL_SWAP : Field := ⟨.TCH_MAP_CTL, 31, 1⟩
abbrev TCH_ROUTE_RX_TIMEOUT : Field := ⟨.TCH_ROUTE, 16, 16⟩
abbrev TCH_ROUTE_DEST : Field := ⟨.TCH_ROUTE, 0, 12⟩
abbrev TCH_CURSOR_REMOTE : Field := ⟨.TCH_CURSOR, 31, 1⟩
abbrev TCH_CURSOR_SIZE : Field := ⟨.TCH_CURSOR, 16, 8⟩
abbrev TCH_CURSOR_NODE : Field := ⟨.TCH_CURSOR, 0, 12⟩
abbrev TCH_CURSOR_COLOR_COLOR : Field := ⟨.TCH_CURSOR_COLOR, 0, 30⟩
abbrev TCH_PROX_CFG_GROUP_EN : Field := ⟨.TCH_PROX_CFG, 28, 4⟩
abbrev TCH_PROX_CFG_RATE : Field := ⟨.TCH_PROX_CFG, 20, 8⟩
abbrev TCH_PROX_CFG_DEBOUNCE : Field := ⟨.TCH_PROX_CFG, 16, 4⟩
abbrev TCH_PROX_CFG_THRESH : Field := ⟨.TCH_PROX_CFG, 0, 16⟩
abbrev TCH_PROX_STATUS_DETECT : Field := ⟨.TCH_PROX_STATUS, 28, 4⟩
abbrev TCH_PROX_COUNT_COUNT : Field := ⟨.TCH_PROX_COUNT, 0, 32⟩
abbrev TCH_TEST_GO : Field := ⟨.TCH_TEST, 31, 1⟩
abbrev TCH_TEST_PASS : Field := ⟨.TCH_TEST, 30, 1⟩
abbrev TCH_TEST_LIMITS_OPEN_MIN : Field := ⟨.TCH_TEST_LIMITS, 16, 16⟩
abbrev TCH_TEST_LIMITS_SHORT_MAX : Field := ⟨.TCH_TEST_LIMITS, 0, 16⟩
abbrev TCH_TEST_COUPLE_COUPLE_MAX : Field := ⟨.TCH_TEST_COUPLE, 0, 16⟩
abbrev TCH_TEST_OPEN_PINS : Field := ⟨.TCH_TEST_OPEN, 0, 32⟩
abbrev TCH_TEST_SHORT_PINS : Field := ⟨.TCH_TEST_SHORT, 0, 32⟩
abbrev TCH_REPORT_REPORT : Field := ⟨.TCH_REPORT, 0, 32⟩
abbrev TCH_REPORT_STATUS_DROPPED : Field := ⟨.TCH_REPORT_STATUS, 16, 16⟩
abbrev TCH_REPORT_STATUS_COUNT : Field := ⟨.TCH_REPORT_STATUS, 0, 7⟩
abbrev TCH_REBASE_SLOT : Field := ⟨.TCH_REBASE, 0, 10⟩
abbrev TCH_TROUBLE_BAD_VALUE : Field := ⟨.TCH_TROUBLE, 11, 1⟩
abbrev TCH_TROUBLE_RX_BAD : Field := ⟨.TCH_TROUBLE, 10, 1⟩
abbrev TCH_TROUBLE_FIFO_FULL : Field := ⟨.TCH_TROUBLE, 9, 1⟩
abbrev TCH_TROUBLE_RX_SILENT : Field := ⟨.TCH_TROUBLE, 8, 1⟩
abbrev TCH_TROUBLE_SCAN_LATE : Field := ⟨.TCH_TROUBLE, 7, 1⟩
abbrev TCH_TROUBLE_SCAN_DROPPED : Field := ⟨.TCH_TROUBLE, 6, 1⟩
abbrev TCH_TROUBLE_PIN_FAULT : Field := ⟨.TCH_TROUBLE, 5, 1⟩
abbrev TCH_TROUBLE_NOISY : Field := ⟨.TCH_TROUBLE, 4, 1⟩
abbrev TCH_TROUBLE_REBASED : Field := ⟨.TCH_TROUBLE, 3, 1⟩
abbrev TCH_TROUBLE_ADOPTED : Field := ⟨.TCH_TROUBLE, 2, 1⟩
abbrev TCH_TROUBLE_STUCK : Field := ⟨.TCH_TROUBLE, 1, 1⟩
abbrev TCH_TROUBLE_OVERFLOW : Field := ⟨.TCH_TROUBLE, 0, 1⟩
abbrev TCH_OVERFLOWS_COUNT : Field := ⟨.TCH_OVERFLOWS, 0, 32⟩
abbrev TCH_REJECTS_COUNT : Field := ⟨.TCH_REJECTS, 0, 32⟩
abbrev TCH_ADOPTIONS_COUNT : Field := ⟨.TCH_ADOPTIONS, 0, 32⟩
abbrev TCH_RX_BAD_COUNT : Field := ⟨.TCH_RX_BAD, 0, 32⟩
abbrev TCH_NOISE_NOISE : Field := ⟨.TCH_NOISE, 0, 32⟩
abbrev TCH_CONTACT_0_ACTIVE : Field := ⟨.TCH_CONTACT_0, 31, 1⟩
abbrev TCH_CONTACT_0_STUCK : Field := ⟨.TCH_CONTACT_0, 30, 1⟩
abbrev TCH_CONTACT_0_ID : Field := ⟨.TCH_CONTACT_0, 0, 8⟩
abbrev TCH_CONTACT_1_X : Field := ⟨.TCH_CONTACT_1, 16, 16⟩
abbrev TCH_CONTACT_1_Y : Field := ⟨.TCH_CONTACT_1, 0, 16⟩
abbrev TCH_CONTACT_2_HELD : Field := ⟨.TCH_CONTACT_2, 0, 32⟩
abbrev TCH_CONTACT_3_STRENGTH : Field := ⟨.TCH_CONTACT_3, 0, 16⟩
abbrev TCH_RX_0_VALID : Field := ⟨.TCH_RX_0, 31, 1⟩
abbrev TCH_RX_0_ORIGIN : Field := ⟨.TCH_RX_0, 16, 12⟩
abbrev TCH_RX_0_CYCLE : Field := ⟨.TCH_RX_0, 0, 16⟩
abbrev TCH_RX_1_GAPS : Field := ⟨.TCH_RX_1, 0, 32⟩
abbrev TCH_PIN_ROLE : Field := ⟨.TCH_PIN, 30, 2⟩
abbrev TCH_PIN_INDEX : Field := ⟨.TCH_PIN, 24, 6⟩
abbrev TCH_PIN_PROX_EN : Field := ⟨.TCH_PIN, 23, 1⟩
abbrev TCH_PIN_PROX_GROUP : Field := ⟨.TCH_PIN, 21, 2⟩
abbrev TCH_PIN_FAULT : Field := ⟨.TCH_PIN, 20, 1⟩
abbrev TCH_PIN_SELF_RAW : Field := ⟨.TCH_PIN, 0, 16⟩
abbrev TCH_NODE_0_DELTA : Field := ⟨.TCH_NODE_0, 16, 16⟩
abbrev TCH_NODE_0_DRIFT : Field := ⟨.TCH_NODE_0, 0, 16⟩
abbrev TCH_NODE_1_UNBASELINED : Field := ⟨.TCH_NODE_1, 1, 1⟩
abbrev TCH_NODE_1_FROZEN : Field := ⟨.TCH_NODE_1, 0, 1⟩

/-! Fields of the EVC block (R331). -/
abbrev EVC_CTL_EN : Field := ⟨.EVC_CTL, 31, 1⟩
abbrev EVC_STATUS_RUNNING : Field := ⟨.EVC_STATUS, 16, 5⟩
abbrev EVC_STATUS_LAST_SRC : Field := ⟨.EVC_STATUS, 0, 9⟩
abbrev EVC_MERGES_COUNT : Field := ⟨.EVC_MERGES, 0, 32⟩
abbrev EVC_TROUBLE_BAD_VALUE : Field := ⟨.EVC_TROUBLE, 1, 1⟩
abbrev EVC_TROUBLE_MERGED : Field := ⟨.EVC_TROUBLE, 0, 1⟩
abbrev EVC_DOORBELL_BELL : Field := ⟨.EVC_DOORBELL, 0, 32⟩
abbrev EVC_HOST_FAB_EN : Field := ⟨.EVC_HOST_FAB, 31, 1⟩
abbrev EVC_HOST_FAB_BELL : Field := ⟨.EVC_HOST_FAB, 16, 5⟩
abbrev EVC_HOST_FAB_NODE : Field := ⟨.EVC_HOST_FAB, 0, 12⟩
abbrev EVC_HOLDOFF_OPEN : Field := ⟨.EVC_HOLDOFF, 31, 1⟩
abbrev EVC_HOLDOFF_INTERVAL : Field := ⟨.EVC_HOLDOFF, 0, 20⟩
abbrev EVC_PEND_BITS : Field := ⟨.EVC_PEND, 0, 32⟩
abbrev EVC_MASK_BITS : Field := ⟨.EVC_MASK, 0, 32⟩
abbrev EVC_MASK_SET_BITS : Field := ⟨.EVC_MASK_SET, 0, 32⟩
abbrev EVC_MASK_CLR_BITS : Field := ⟨.EVC_MASK_CLR, 0, 32⟩
abbrev EVC_MERGED_BITS : Field := ⟨.EVC_MERGED, 0, 32⟩
abbrev EVC_RUNNING_BITS : Field := ⟨.EVC_RUNNING, 0, 32⟩
abbrev EVC_HOST_PEND_BITS : Field := ⟨.EVC_HOST_PEND, 0, 32⟩
abbrev EVC_PIN_MASK_BITS : Field := ⟨.EVC_PIN_MASK, 0, 32⟩
abbrev EVC_SRC_0_EN : Field := ⟨.EVC_SRC_0, 31, 1⟩
abbrev EVC_SRC_0_HOST : Field := ⟨.EVC_SRC_0, 27, 4⟩
abbrev EVC_SRC_0_GROUP_EN : Field := ⟨.EVC_SRC_0, 26, 1⟩
abbrev EVC_SRC_0_GROUP : Field := ⟨.EVC_SRC_0, 21, 5⟩
abbrev EVC_SRC_0_TARGET : Field := ⟨.EVC_SRC_0, 0, 16⟩
abbrev EVC_SRC_1_VECTOR : Field := ⟨.EVC_SRC_1, 0, 17⟩
abbrev EVC_SRC_2_RESUME_VALID : Field := ⟨.EVC_SRC_2, 31, 1⟩
abbrev EVC_SRC_2_RESUME : Field := ⟨.EVC_SRC_2, 0, 17⟩

/-! Fields of the SEQ block (R331). -/
abbrev SEQ_CTL_EN : Field := ⟨.SEQ_CTL, 31, 1⟩
abbrev SEQ_STATE_STATE : Field := ⟨.SEQ_STATE, 29, 3⟩
abbrev SEQ_STATE_PRIV : Field := ⟨.SEQ_STATE, 28, 1⟩
abbrev SEQ_STATE_SRC : Field := ⟨.SEQ_STATE, 17, 9⟩
abbrev SEQ_STATE_PC : Field := ⟨.SEQ_STATE, 0, 17⟩
abbrev SEQ_ST_ST : Field := ⟨.SEQ_ST, 28, 4⟩
abbrev SEQ_ST_OP : Field := ⟨.SEQ_ST, 24, 4⟩
abbrev SEQ_RUN_LIMIT_LIMIT : Field := ⟨.SEQ_RUN_LIMIT, 0, 32⟩
abbrev SEQ_LAST_LAST : Field := ⟨.SEQ_LAST, 0, 64⟩
abbrev SEQ_FAULT_CODE : Field := ⟨.SEQ_FAULT, 28, 4⟩
abbrev SEQ_FAULT_SRC : Field := ⟨.SEQ_FAULT, 17, 9⟩
abbrev SEQ_FAULT_PC : Field := ⟨.SEQ_FAULT, 0, 17⟩
abbrev SEQ_RUNS_RUNS : Field := ⟨.SEQ_RUNS, 0, 64⟩
abbrev SEQ_MAX_RUN_MAX : Field := ⟨.SEQ_MAX_RUN, 0, 32⟩
abbrev SEQ_ENTRY_TIME_TIME : Field := ⟨.SEQ_ENTRY_TIME, 0, 64⟩
abbrev SEQ_TROUBLE_FAULTED : Field := ⟨.SEQ_TROUBLE, 16, 16⟩
abbrev SEQ_TROUBLE_BAD_VALUE : Field := ⟨.SEQ_TROUBLE, 2, 1⟩
abbrev SEQ_TROUBLE_I2C_FAIL : Field := ⟨.SEQ_TROUBLE, 1, 1⟩
abbrev SEQ_TROUBLE_LOG_FULL : Field := ⟨.SEQ_TROUBLE, 0, 1⟩
abbrev SEQ_ECC_COUNT_COUNT : Field := ⟨.SEQ_ECC_COUNT, 0, 32⟩
abbrev SEQ_LOG_STATUS_DROPPED : Field := ⟨.SEQ_LOG_STATUS, 16, 16⟩
abbrev SEQ_LOG_STATUS_COUNT : Field := ⟨.SEQ_LOG_STATUS, 0, 9⟩
abbrev SEQ_LOG_ENTRY : Field := ⟨.SEQ_LOG, 0, 32⟩
abbrev SEQ_GPIO_DIR_DIR : Field := ⟨.SEQ_GPIO_DIR, 0, 16⟩
abbrev SEQ_GPIO_OUT_OUT : Field := ⟨.SEQ_GPIO_OUT, 0, 16⟩
abbrev SEQ_GPIO_OUT_SET_SET : Field := ⟨.SEQ_GPIO_OUT_SET, 0, 16⟩
abbrev SEQ_GPIO_OUT_CLR_CLR : Field := ⟨.SEQ_GPIO_OUT_CLR, 0, 16⟩
abbrev SEQ_GPIO_IN_IN : Field := ⟨.SEQ_GPIO_IN, 0, 16⟩
abbrev SEQ_GPIO_CFG_EDGE : Field := ⟨.SEQ_GPIO_CFG, 30, 2⟩
abbrev SEQ_GPIO_CFG_OD : Field := ⟨.SEQ_GPIO_CFG, 29, 1⟩
abbrev SEQ_GPIO_CFG_DEBOUNCE : Field := ⟨.SEQ_GPIO_CFG, 0, 16⟩
abbrev SEQ_I2C_CFG_SPEED : Field := ⟨.SEQ_I2C_CFG, 30, 2⟩
abbrev SEQ_I2C_CFG_TIMEOUT : Field := ⟨.SEQ_I2C_CFG, 0, 16⟩
abbrev SEQ_I2C_CTL_GO : Field := ⟨.SEQ_I2C_CTL, 31, 1⟩
abbrev SEQ_I2C_CTL_BLOCK : Field := ⟨.SEQ_I2C_CTL, 30, 1⟩
abbrev SEQ_I2C_CTL_ADDR : Field := ⟨.SEQ_I2C_CTL, 20, 7⟩
abbrev SEQ_I2C_CTL_WLEN : Field := ⟨.SEQ_I2C_CTL, 15, 5⟩
abbrev SEQ_I2C_CTL_RLEN : Field := ⟨.SEQ_I2C_CTL, 10, 5⟩
abbrev SEQ_I2C_STATUS_RESULT : Field := ⟨.SEQ_I2C_STATUS, 28, 4⟩
abbrev SEQ_I2C_STATUS_COUNT : Field := ⟨.SEQ_I2C_STATUS, 0, 5⟩
abbrev SEQ_I2C_WDATA_DATA : Field := ⟨.SEQ_I2C_WDATA, 0, 32⟩
abbrev SEQ_I2C_RDATA_DATA : Field := ⟨.SEQ_I2C_RDATA, 0, 32⟩

/-! Fields of the SYS block (R357, R417). -/
abbrev SYS_FENCE_FAULT : Field := ⟨.SYS_FENCE, 0, 1⟩
abbrev SYS_MODE_MODE : Field := ⟨.SYS_MODE, 28, 4⟩
abbrev SYS_MODE_PREV : Field := ⟨.SYS_MODE, 24, 4⟩
abbrev SYS_MODE_STAGE : Field := ⟨.SYS_MODE, 21, 3⟩
abbrev SYS_MODE_REQ_STATUS : Field := ⟨.SYS_MODE, 19, 2⟩
abbrev SYS_MODE_REQ_TARGET : Field := ⟨.SYS_MODE_REQ, 0, 4⟩
abbrev SYS_MODE_TIME_TIME : Field := ⟨.SYS_MODE_TIME, 0, 64⟩
abbrev SYS_TROUBLE_CLOCK : Field := ⟨.SYS_TROUBLE, 31, 1⟩
abbrev SYS_TROUBLE_WDT : Field := ⟨.SYS_TROUBLE, 30, 1⟩
abbrev SYS_TROUBLE_JOIN_LIMIT : Field := ⟨.SYS_TROUBLE, 29, 1⟩
abbrev SYS_TROUBLE_HALT : Field := ⟨.SYS_TROUBLE, 28, 1⟩
abbrev SYS_TROUBLE_BAD_VALUE : Field := ⟨.SYS_TROUBLE, 27, 1⟩
abbrev SYS_TROUBLE_BLOCKS : Field := ⟨.SYS_TROUBLE, 0, 21⟩
abbrev SYS_HALT_CAUSE : Field := ⟨.SYS_HALT, 28, 4⟩
abbrev SYS_HALT_DETAIL : Field := ⟨.SYS_HALT, 0, 12⟩
abbrev SYS_RESET_CAUSE_CLASS : Field := ⟨.SYS_RESET_CAUSE, 29, 3⟩
abbrev SYS_RESET_CAUSE_BY_NODE : Field := ⟨.SYS_RESET_CAUSE, 16, 12⟩
abbrev SYS_RESET_REQ_KEY : Field := ⟨.SYS_RESET_REQ, 16, 16⟩
abbrev SYS_RESET_REQ_NODE : Field := ⟨.SYS_RESET_REQ, 0, 1⟩
abbrev SYS_SOFT_RESET_DOMAIN : Field := ⟨.SYS_SOFT_RESET, 0, 6⟩
abbrev SYS_JOIN_LIMIT : Field := ⟨.SYS_JOIN, 20, 12⟩
abbrev SYS_WDT_CFG_EN : Field := ⟨.SYS_WDT_CFG, 31, 1⟩
abbrev SYS_WDT_CFG_MAX : Field := ⟨.SYS_WDT_CFG, 27, 4⟩
abbrev SYS_WDT_CFG_PERIOD : Field := ⟨.SYS_WDT_CFG, 0, 16⟩
abbrev SYS_WDT_KICK_VALUE : Field := ⟨.SYS_WDT_KICK, 0, 16⟩
abbrev SYS_WDT_STATUS_SEQ : Field := ⟨.SYS_WDT_STATUS, 16, 16⟩
abbrev SYS_WDT_STATUS_COUNT : Field := ⟨.SYS_WDT_STATUS, 12, 4⟩
abbrev SYS_WDT_STATUS_BAD_KICKS : Field := ⟨.SYS_WDT_STATUS, 0, 12⟩
abbrev SYS_WAKE_CFG_TOUCH : Field := ⟨.SYS_WAKE_CFG, 31, 1⟩
abbrev SYS_WAKE_CFG_TIMER : Field := ⟨.SYS_WAKE_CFG, 30, 1⟩
abbrev SYS_WAKE_CFG_GPIO : Field := ⟨.SYS_WAKE_CFG, 0, 16⟩
abbrev SYS_WAKE_STATUS_SOURCE : Field := ⟨.SYS_WAKE_STATUS, 28, 4⟩
abbrev SYS_WAKE_STATUS_INDEX : Field := ⟨.SYS_WAKE_STATUS, 0, 4⟩
abbrev SYS_WAKE_TIMER_RAW : Field := ⟨.SYS_WAKE_TIMER, 0, 64⟩

/-! Fields of the MEM block (R357). -/
abbrev MEM_CFG_CAP : Field := ⟨.MEM_CFG, 28, 4⟩
abbrev MEM_CFG_RATE : Field := ⟨.MEM_CFG, 26, 2⟩
abbrev MEM_CFG_RANKS2 : Field := ⟨.MEM_CFG, 25, 1⟩
abbrev MEM_CFG_INLINE_ECC : Field := ⟨.MEM_CFG, 24, 1⟩
abbrev MEM_STATUS_TRAINED : Field := ⟨.MEM_STATUS, 31, 1⟩
abbrev MEM_STATUS_VISIBLE : Field := ⟨.MEM_STATUS, 0, 24⟩
abbrev MEM_ECC_CORR_COUNT : Field := ⟨.MEM_ECC_CORR, 0, 32⟩
abbrev MEM_ECC_FATAL_COUNT : Field := ⟨.MEM_ECC_FATAL, 0, 32⟩
abbrev MEM_ECC_LAST_ADDR : Field := ⟨.MEM_ECC_LAST, 0, 64⟩
abbrev MEM_CIS_CORR_COUNT : Field := ⟨.MEM_CIS_CORR, 0, 32⟩
abbrev MEM_CIS_FATAL_COUNT : Field := ⟨.MEM_CIS_FATAL, 0, 32⟩
abbrev MEM_DEV_POOL_BASE_BASE : Field := ⟨.MEM_DEV_POOL_BASE, 0, 64⟩
abbrev MEM_DEV_POOL_SIZE_SIZE : Field := ⟨.MEM_DEV_POOL_SIZE, 0, 64⟩
abbrev MEM_TROUBLE_BAD_VALUE : Field := ⟨.MEM_TROUBLE, 3, 1⟩
abbrev MEM_TROUBLE_SPI_DROP : Field := ⟨.MEM_TROUBLE, 2, 1⟩
abbrev MEM_TROUBLE_CISTERN_FATAL : Field := ⟨.MEM_TROUBLE, 1, 1⟩
abbrev MEM_TROUBLE_ECC_FATAL : Field := ⟨.MEM_TROUBLE, 0, 1⟩
abbrev MEM_SPI_CFG_EN : Field := ⟨.MEM_SPI_CFG, 31, 1⟩
abbrev MEM_SPI_CFG_LIMIT : Field := ⟨.MEM_SPI_CFG, 0, 16⟩
abbrev MEM_SPI_DROPS_COUNT : Field := ⟨.MEM_SPI_DROPS, 0, 32⟩

/-! Fields of the GATE block (R357). -/
abbrev GATE_STAGE_BASE_BASE : Field := ⟨.GATE_STAGE_BASE, 12, 28⟩
abbrev GATE_STAGE_PAGES_PAGES : Field := ⟨.GATE_STAGE_PAGES, 0, 28⟩
abbrev GATE_STAGE_MASK_MASK : Field := ⟨.GATE_STAGE_MASK, 0, 64⟩
abbrev GATE_STAGE_ATTR_EN : Field := ⟨.GATE_STAGE_ATTR, 31, 1⟩
abbrev GATE_STAGE_ATTR_LOCK : Field := ⟨.GATE_STAGE_ATTR, 2, 1⟩
abbrev GATE_STAGE_ATTR_W : Field := ⟨.GATE_STAGE_ATTR, 1, 1⟩
abbrev GATE_STAGE_ATTR_R : Field := ⟨.GATE_STAGE_ATTR, 0, 1⟩
abbrev GATE_COMMIT_INDEX : Field := ⟨.GATE_COMMIT, 0, 8⟩
abbrev GATE_SYNC_GEN : Field := ⟨.GATE_SYNC, 0, 32⟩
abbrev GATE_TROUBLE_BAD_VALUE : Field := ⟨.GATE_TROUBLE, 4, 1⟩
abbrev GATE_TROUBLE_RECORD_LOST : Field := ⟨.GATE_TROUBLE, 3, 1⟩
abbrev GATE_TROUBLE_LOCKED_WRITE : Field := ⟨.GATE_TROUBLE, 2, 1⟩
abbrev GATE_TROUBLE_IMPRECISE : Field := ⟨.GATE_TROUBLE, 1, 1⟩
abbrev GATE_TROUBLE_FAULT : Field := ⟨.GATE_TROUBLE, 0, 1⟩
abbrev GATE_FAULTS_COUNT : Field := ⟨.GATE_FAULTS, 0, 32⟩
abbrev GATE_RECORD_STATUS_DROPPED : Field := ⟨.GATE_RECORD_STATUS, 16, 16⟩
abbrev GATE_RECORD_STATUS_COUNT : Field := ⟨.GATE_RECORD_STATUS, 0, 5⟩
abbrev GATE_RECORD_RECORD : Field := ⟨.GATE_RECORD, 0, 32⟩
abbrev GATE_MASTER_P_P : Field := ⟨.GATE_MASTER_P, 0, 64⟩
abbrev GATE_RULE_BASE_BASE : Field := ⟨.GATE_RULE_BASE, 12, 28⟩
abbrev GATE_RULE_PAGES_PAGES : Field := ⟨.GATE_RULE_PAGES, 0, 28⟩
abbrev GATE_RULE_MASK_MASK : Field := ⟨.GATE_RULE_MASK, 0, 64⟩
abbrev GATE_RULE_ATTR_EN : Field := ⟨.GATE_RULE_ATTR, 31, 1⟩
abbrev GATE_RULE_ATTR_LOCK : Field := ⟨.GATE_RULE_ATTR, 2, 1⟩
abbrev GATE_RULE_ATTR_W : Field := ⟨.GATE_RULE_ATTR, 1, 1⟩
abbrev GATE_RULE_ATTR_R : Field := ⟨.GATE_RULE_ATTR, 0, 1⟩
abbrev GATE_LEASE_BASE_BASE : Field := ⟨.GATE_LEASE_BASE, 12, 28⟩
abbrev GATE_LEASE_STATUS_VALID : Field := ⟨.GATE_LEASE_STATUS, 31, 1⟩
abbrev GATE_LEASE_STATUS_PAGES : Field := ⟨.GATE_LEASE_STATUS, 6, 22⟩
abbrev GATE_LEASE_STATUS_LAYER : Field := ⟨.GATE_LEASE_STATUS, 0, 6⟩

/-! Fields of the CHK block (R369). -/
abbrev CHK_TROUBLE_BAD_VALUE : Field := ⟨.CHK_TROUBLE, 2, 1⟩
abbrev CHK_TROUBLE_GATE_FAULT : Field := ⟨.CHK_TROUBLE, 1, 1⟩
abbrev CHK_TROUBLE_MISMATCH : Field := ⟨.CHK_TROUBLE, 0, 1⟩
abbrev CHK_MISMATCH_SUM_CHANNEL : Field := ⟨.CHK_MISMATCH_SUM, 0, 32⟩
abbrev CHK_CH_CTL_GO : Field := ⟨.CHK_CH_CTL, 31, 1⟩
abbrev CHK_CH_CTL_MODE : Field := ⟨.CHK_CH_CTL, 28, 3⟩
abbrev CHK_CH_CTL_POLY : Field := ⟨.CHK_CH_CTL, 26, 2⟩
abbrev CHK_CH_CTL_FOLD_EN : Field := ⟨.CHK_CH_CTL, 25, 1⟩
abbrev CHK_CH_CTL_ORDER : Field := ⟨.CHK_CH_CTL, 24, 1⟩
abbrev CHK_CH_CTL_BOUND : Field := ⟨.CHK_CH_CTL, 23, 1⟩
abbrev CHK_CH_CTL_OWN_EN : Field := ⟨.CHK_CH_CTL, 22, 1⟩
abbrev CHK_CH_CTL_OWNER : Field := ⟨.CHK_CH_CTL, 16, 6⟩
abbrev CHK_CH_FOLD_W : Field := ⟨.CHK_CH_FOLD, 0, 32⟩
abbrev CHK_CH_ADDR_ADDR : Field := ⟨.CHK_CH_ADDR, 0, 40⟩
abbrev CHK_CH_LEN_LEN : Field := ⟨.CHK_CH_LEN, 0, 32⟩
abbrev CHK_CH_STATUS_RESULT : Field := ⟨.CHK_CH_STATUS, 28, 4⟩
abbrev CHK_CH_OUT_LEN_OUT_LEN : Field := ⟨.CHK_CH_OUT_LEN, 0, 32⟩
abbrev CHK_CH_VALUE_VALUE : Field := ⟨.CHK_CH_VALUE, 0, 64⟩
abbrev CHK_CH_EXPECT_EXPECT : Field := ⟨.CHK_CH_EXPECT, 0, 64⟩
abbrev CHK_CH_UNITS_UNITS : Field := ⟨.CHK_CH_UNITS, 0, 64⟩
abbrev CHK_CH_MISMATCH_COUNT : Field := ⟨.CHK_CH_MISMATCH, 0, 32⟩

/-! Fields of the CFG block (R387). -/
abbrev CFG_STATUS_PHASE : Field := ⟨.CFG_STATUS, 28, 4⟩
abbrev CFG_STATUS_SLOT : Field := ⟨.CFG_STATUS, 27, 1⟩
abbrev CFG_STATUS_FALLBACK : Field := ⟨.CFG_STATUS, 26, 1⟩
abbrev CFG_STATUS_SKIPPED : Field := ⟨.CFG_STATUS, 25, 1⟩
abbrev CFG_STATUS_CAUSE : Field := ⟨.CFG_STATUS, 8, 8⟩
abbrev CFG_SLOT_STATUS_TRIED : Field := ⟨.CFG_SLOT_STATUS, 31, 1⟩
abbrev CFG_SLOT_STATUS_VALID : Field := ⟨.CFG_SLOT_STATUS, 30, 1⟩
abbrev CFG_SLOT_STATUS_CAUSE : Field := ⟨.CFG_SLOT_STATUS, 8, 8⟩
abbrev CFG_SLOT_SEQ_SEQ : Field := ⟨.CFG_SLOT_SEQ, 0, 32⟩
abbrev CFG_FAIL_AT_TABLE : Field := ⟨.CFG_FAIL_AT, 24, 8⟩
abbrev CFG_FAIL_AT_ENTRY : Field := ⟨.CFG_FAIL_AT, 0, 24⟩
abbrev CFG_LOADED_CRC_CRC : Field := ⟨.CFG_LOADED_CRC, 0, 32⟩
abbrev CFG_SVN_CUSTOMER_SET : Field := ⟨.CFG_SVN, 31, 1⟩
abbrev CFG_SVN_IMAGE : Field := ⟨.CFG_SVN, 8, 7⟩
abbrev CFG_SVN_MIN : Field := ⟨.CFG_SVN, 0, 7⟩
abbrev CFG_LOAD_TIME_US : Field := ⟨.CFG_LOAD_TIME, 0, 32⟩
abbrev CFG_TROUBLE_BAD_VALUE : Field := ⟨.CFG_TROUBLE, 4, 1⟩
abbrev CFG_TROUBLE_SVC_LOCKOUT : Field := ⟨.CFG_TROUBLE, 3, 1⟩
abbrev CFG_TROUBLE_FLASH_FAIL : Field := ⟨.CFG_TROUBLE, 2, 1⟩
abbrev CFG_TROUBLE_WDT_RELOAD : Field := ⟨.CFG_TROUBLE, 1, 1⟩
abbrev CFG_TROUBLE_FALLBACK : Field := ⟨.CFG_TROUBLE, 0, 1⟩
abbrev CFG_FLASH_CTL_GO : Field := ⟨.CFG_FLASH_CTL, 31, 1⟩
abbrev CFG_FLASH_CTL_OP : Field := ⟨.CFG_FLASH_CTL, 28, 3⟩
abbrev CFG_FLASH_CTL_LEN : Field := ⟨.CFG_FLASH_CTL, 0, 9⟩
abbrev CFG_FLASH_ADDR_ADDR : Field := ⟨.CFG_FLASH_ADDR, 0, 29⟩
abbrev CFG_FLASH_STATUS_RESULT : Field := ⟨.CFG_FLASH_STATUS, 28, 4⟩
abbrev CFG_FLASH_INFO_MODE : Field := ⟨.CFG_FLASH_INFO, 24, 8⟩
abbrev CFG_FLASH_INFO_SIZE_LOG2 : Field := ⟨.CFG_FLASH_INFO, 16, 8⟩
abbrev CFG_FLASH_INFO_MHZ : Field := ⟨.CFG_FLASH_INFO, 0, 16⟩
abbrev CFG_FLASH_DATA_DATA : Field := ⟨.CFG_FLASH_DATA, 0, 32⟩
abbrev CFG_SVC_CTL_NEW : Field := ⟨.CFG_SVC_CTL, 31, 1⟩
abbrev CFG_SVC_CTL_VERIFY : Field := ⟨.CFG_SVC_CTL, 30, 1⟩
abbrev CFG_SVC_STATUS_RESULT : Field := ⟨.CFG_SVC_STATUS, 28, 4⟩
abbrev CFG_SVC_STATUS_REJECTS : Field := ⟨.CFG_SVC_STATUS, 24, 2⟩
abbrev CFG_SVC_CHALLENGE_CHALLENGE : Field := ⟨.CFG_SVC_CHALLENGE, 0, 32⟩
abbrev CFG_SVC_TOKEN_TOKEN : Field := ⟨.CFG_SVC_TOKEN, 0, 32⟩

/-! Fields of the PWR block (R417). -/
abbrev PWR_STATUS_STAGE : Field := ⟨.PWR_STATUS, 29, 3⟩
abbrev PWR_STATUS_RAIL : Field := ⟨.PWR_STATUS, 24, 4⟩
abbrev PWR_STATUS_TEMP : Field := ⟨.PWR_STATUS, 16, 8⟩
abbrev PWR_SHED_FLOOR : Field := ⟨.PWR_SHED, 29, 3⟩
abbrev PWR_SHED_RESTART : Field := ⟨.PWR_SHED, 0, 16⟩
abbrev PWR_SHED_TIME_STEP : Field := ⟨.PWR_SHED_TIME, 24, 8⟩
abbrev PWR_SHED_TIME_S5_DWELL : Field := ⟨.PWR_SHED_TIME, 16, 8⟩
abbrev PWR_SHED_TIME_RECOVER : Field := ⟨.PWR_SHED_TIME, 0, 16⟩
abbrev PWR_THERMAL_WARN : Field := ⟨.PWR_THERMAL, 24, 8⟩
abbrev PWR_THERMAL_CRIT : Field := ⟨.PWR_THERMAL, 16, 8⟩
abbrev PWR_TROUBLE_BAD_VALUE : Field := ⟨.PWR_TROUBLE, 5, 1⟩
abbrev PWR_TROUBLE_THERMAL : Field := ⟨.PWR_TROUBLE, 4, 1⟩
abbrev PWR_TROUBLE_POWER_HALT : Field := ⟨.PWR_TROUBLE, 3, 1⟩
abbrev PWR_TROUBLE_SHED : Field := ⟨.PWR_TROUBLE, 2, 1⟩
abbrev PWR_TROUBLE_CRIT : Field := ⟨.PWR_TROUBLE, 1, 1⟩
abbrev PWR_TROUBLE_SAG : Field := ⟨.PWR_TROUBLE, 0, 1⟩
abbrev PWR_SAG_RECORD_VALID : Field := ⟨.PWR_SAG_RECORD, 31, 1⟩
abbrev PWR_SAG_RECORD_RAIL : Field := ⟨.PWR_SAG_RECORD, 27, 4⟩
abbrev PWR_SAG_RECORD_MIN_MV : Field := ⟨.PWR_SAG_RECORD, 0, 16⟩
abbrev PWR_RAIL_CFG_T1_PM : Field := ⟨.PWR_RAIL_CFG, 24, 8⟩
abbrev PWR_RAIL_CFG_T2_PM : Field := ⟨.PWR_RAIL_CFG, 16, 8⟩
abbrev PWR_RAIL_CFG_HYST_PM : Field := ⟨.PWR_RAIL_CFG, 11, 5⟩
abbrev PWR_RAIL_CFG_DWELL : Field := ⟨.PWR_RAIL_CFG, 0, 11⟩
abbrev PWR_RAIL_STATUS_STATE : Field := ⟨.PWR_RAIL_STATUS, 30, 2⟩
abbrev PWR_RAIL_STATUS_WATCHED : Field := ⟨.PWR_RAIL_STATUS, 29, 1⟩
abbrev PWR_RAIL_STATUS_MV : Field := ⟨.PWR_RAIL_STATUS, 0, 16⟩
abbrev PWR_RAIL_MIN_MIN_MV : Field := ⟨.PWR_RAIL_MIN, 0, 16⟩

/-! Fields of the PMC block (R434). -/
abbrev PMC_CNT_COUNT : Field := ⟨.PMC_CNT, 0, 48⟩
abbrev PMC_SNAP_SNAP : Field := ⟨.PMC_SNAP, 0, 48⟩
abbrev PMC_ARRIVALS_ARRIVALS : Field := ⟨.PMC_ARRIVALS, 0, 32⟩
abbrev PMC_MODE_LEVEL : Field := ⟨.PMC_MODE, 0, 32⟩
abbrev PMC_WRAPPED_WRAPPED : Field := ⟨.PMC_WRAPPED, 0, 32⟩
abbrev PMC_SW_PULSE : Field := ⟨.PMC_SW, 0, 16⟩
abbrev PMC_SW_LEVEL_LEVEL : Field := ⟨.PMC_SW_LEVEL, 0, 16⟩
abbrev PMC_SNAP_CTL_GO : Field := ⟨.PMC_SNAP_CTL, 31, 1⟩
abbrev PMC_SNAP_CTL_SRC_EN : Field := ⟨.PMC_SNAP_CTL, 30, 1⟩
abbrev PMC_SNAP_CTL_SRC : Field := ⟨.PMC_SNAP_CTL, 0, 9⟩
abbrev PMC_SNAP_STATUS_SEQ : Field := ⟨.PMC_SNAP_STATUS, 0, 32⟩
abbrev PMC_SNAP_TIME_TIME : Field := ⟨.PMC_SNAP_TIME, 0, 64⟩
abbrev PMC_SAMP_CTL_EN : Field := ⟨.PMC_SAMP_CTL, 31, 1⟩
abbrev PMC_SAMP_CTL_STOP : Field := ⟨.PMC_SAMP_CTL, 30, 1⟩
abbrev PMC_SAMP_CTL_SEQ_MASK : Field := ⟨.PMC_SAMP_CTL, 0, 16⟩
abbrev PMC_SAMP_PERIOD_ACT : Field := ⟨.PMC_SAMP_PERIOD, 16, 16⟩
abbrev PMC_SAMP_PERIOD_MEM : Field := ⟨.PMC_SAMP_PERIOD, 0, 16⟩
abbrev PMC_SAMP_MASTERS_MASTERS : Field := ⟨.PMC_SAMP_MASTERS, 0, 64⟩
abbrev PMC_SAMP_STATUS_DROPPED : Field := ⟨.PMC_SAMP_STATUS, 16, 16⟩
abbrev PMC_SAMP_STATUS_COUNT : Field := ⟨.PMC_SAMP_STATUS, 0, 13⟩
abbrev PMC_SAMP_RECORD : Field := ⟨.PMC_SAMP, 0, 32⟩
abbrev PMC_TROUBLE_BAD_VALUE : Field := ⟨.PMC_TROUBLE, 1, 1⟩
abbrev PMC_TROUBLE_SAMP_LOST : Field := ⟨.PMC_TROUBLE, 0, 1⟩

/-! Fields of the TEL block (R434). -/
abbrev TEL_CFG_EN : Field := ⟨.TEL_CFG, 31, 1⟩
abbrev TEL_CFG_FULL_EVERY : Field := ⟨.TEL_CFG, 23, 8⟩
abbrev TEL_CFG_PERIOD : Field := ⟨.TEL_CFG, 0, 16⟩
abbrev TEL_STATUS_SEQ : Field := ⟨.TEL_STATUS, 16, 16⟩
abbrev TEL_TEMP_FAILED : Field := ⟨.TEL_TEMP, 31, 1⟩
abbrev TEL_TEMP_TEMP : Field := ⟨.TEL_TEMP, 0, 16⟩
abbrev TEL_TROUBLE_BAD_VALUE : Field := ⟨.TEL_TROUBLE, 2, 1⟩
abbrev TEL_TROUBLE_LOG_DROPPED : Field := ⟨.TEL_TROUBLE, 1, 1⟩
abbrev TEL_TROUBLE_SENSOR_FAIL : Field := ⟨.TEL_TROUBLE, 0, 1⟩
abbrev TEL_LOG_STATUS_DROPPED : Field := ⟨.TEL_LOG_STATUS, 16, 16⟩
abbrev TEL_LOG_STATUS_QUEUED : Field := ⟨.TEL_LOG_STATUS, 0, 7⟩
abbrev TEL_LOG_SEQ_SEQ : Field := ⟨.TEL_LOG_SEQ, 0, 32⟩
abbrev TEL_LOG_POS_POS : Field := ⟨.TEL_LOG_POS, 0, 20⟩
abbrev TEL_LAST_RECORD : Field := ⟨.TEL_LAST, 0, 32⟩

/-! Fields of the TST block (R450). -/
abbrev TST_CFG_EN : Field := ⟨.TST_CFG, 31, 1⟩
abbrev TST_CFG_PERIOD : Field := ⟨.TST_CFG, 12, 17⟩
abbrev TST_CFG_FAIL_LIMIT : Field := ⟨.TST_CFG, 8, 4⟩
abbrev TST_CLASS_EN_CLASS : Field := ⟨.TST_CLASS_EN, 1, 11⟩
abbrev TST_STATUS_SEQ : Field := ⟨.TST_STATUS, 16, 16⟩
abbrev TST_STATUS_PAUSED : Field := ⟨.TST_STATUS, 15, 1⟩
abbrev TST_COVER_CLASS : Field := ⟨.TST_COVER, 0, 16⟩
abbrev TST_LATE_CLASS : Field := ⟨.TST_LATE, 0, 16⟩
abbrev TST_FAILED_CLASS : Field := ⟨.TST_FAILED, 0, 16⟩
abbrev TST_ENGINES_OUT_ENC : Field := ⟨.TST_ENGINES_OUT, 24, 8⟩
abbrev TST_ENGINES_OUT_DEC : Field := ⟨.TST_ENGINES_OUT, 0, 24⟩
abbrev TST_PIPES_FAILED_LUT_PATH : Field := ⟨.TST_PIPES_FAILED, 8, 1⟩
abbrev TST_PIPES_FAILED_PIPES : Field := ⟨.TST_PIPES_FAILED, 0, 8⟩
abbrev TST_EYE_CFG_MIN : Field := ⟨.TST_EYE_CFG, 0, 8⟩
abbrev TST_MARCH_FAIL_ADDR : Field := ⟨.TST_MARCH_FAIL, 0, 64⟩
abbrev TST_TROUBLE_BAD_VALUE : Field := ⟨.TST_TROUBLE, 8, 1⟩
abbrev TST_TROUBLE_RESULT_LOST : Field := ⟨.TST_TROUBLE, 7, 1⟩
abbrev TST_TROUBLE_ACTION_CRC : Field := ⟨.TST_TROUBLE, 6, 1⟩
abbrev TST_TROUBLE_LUT_CRC : Field := ⟨.TST_TROUBLE, 5, 1⟩
abbrev TST_TROUBLE_AFE : Field := ⟨.TST_TROUBLE, 4, 1⟩
abbrev TST_TROUBLE_MARCH : Field := ⟨.TST_TROUBLE, 3, 1⟩
abbrev TST_TROUBLE_EYE : Field := ⟨.TST_TROUBLE, 2, 1⟩
abbrev TST_TROUBLE_KAT : Field := ⟨.TST_TROUBLE, 1, 1⟩
abbrev TST_TROUBLE_COVERAGE : Field := ⟨.TST_TROUBLE, 0, 1⟩
abbrev TST_RESULT_STATUS_DROPPED : Field := ⟨.TST_RESULT_STATUS, 16, 16⟩
abbrev TST_RESULT_STATUS_COUNT : Field := ⟨.TST_RESULT_STATUS, 0, 7⟩
abbrev TST_RESULT_RECORD : Field := ⟨.TST_RESULT, 0, 32⟩
abbrev TST_PROVE_PASSED : Field := ⟨.TST_PROVE, 31, 1⟩
abbrev TST_PROVE_DETAIL : Field := ⟨.TST_PROVE, 16, 12⟩
abbrev TST_PROVE_MS : Field := ⟨.TST_PROVE, 0, 16⟩
abbrev TST_EYE_VALID : Field := ⟨.TST_EYE, 31, 1⟩
abbrev TST_EYE_MARGIN : Field := ⟨.TST_EYE, 0, 8⟩

/-! Fields of the DBG block (R450). -/
abbrev DBG_STATUS_ENABLED : Field := ⟨.DBG_STATUS, 31, 1⟩
abbrev DBG_STATUS_SCAN_HOLD : Field := ⟨.DBG_STATUS, 30, 1⟩
abbrev DBG_STATUS_IR : Field := ⟨.DBG_STATUS, 0, 8⟩
abbrev DBG_TROUBLE_BAD_VALUE : Field := ⟨.DBG_TROUBLE, 4, 1⟩
abbrev DBG_TROUBLE_ACCESS_FAULT : Field := ⟨.DBG_TROUBLE, 3, 1⟩
abbrev DBG_TROUBLE_FUSE_FAIL : Field := ⟨.DBG_TROUBLE, 2, 1⟩
abbrev DBG_TROUBLE_SCAN_REFUSED : Field := ⟨.DBG_TROUBLE, 1, 1⟩
abbrev DBG_TROUBLE_LOCKED_HIT : Field := ⟨.DBG_TROUBLE, 0, 1⟩
abbrev DBG_ACCESSES_COUNT : Field := ⟨.DBG_ACCESSES, 0, 32⟩
abbrev DBG_LAST_ADDR : Field := ⟨.DBG_LAST, 0, 52⟩

end F

end Sys2Proof.Machine
end

