-- ==== Sys2Proof/Machine/RegMap.lean ====
section
/-! DEFINITION. The rows of the spec's register tables: where each register lies (offset from its block's base,
R333, and the strides of its indices), the type of each field (R2), its word for the other resets (R5) and the
range its row states (R10, R11); and the value of each register after power-on reset (the POR column). -/

namespace Sys2Proof.Machine

/-- The types of R2. -/
inductive FType where
  | rw | ro | wo | w1c | w1s | sc
  deriving DecidableEq, Repr

/-- The entry of the "Other resets" column (R5). -/
inductive ResetWord where
  | reset | load | sticky | kept
  /-- PIN, SAG, SLP: Load; WDT, FAB, SOFT: Kept. -/
  | loadPin
  /-- PIN, SAG, SLP: Reset; WDT, FAB, SOFT: Kept. -/
  | resetPin
  /-- PIN, WDT, FAB, SAG, SOFT: Load; SLP: Kept. -/
  | loadNotSlp
  /-- SLP: Kept; others: Reset. -/
  | resetNotSlp
  /-- A gate rule: as `loadPin`, and a locked rule 8 to 255 is Kept under every class but POR (R348, R402). -/
  | gateRule
  deriving DecidableEq, Repr

/-- The range a field's row states by itself; a range that names another field is in `crossOk`. -/
inductive FRange where
  | any
  | between (lo hi : Nat)
  | oneOf (values : List Nat)
  deriving DecidableEq, Repr

def FRange.holds : FRange → Nat → Bool
  | .any, _ => true
  | .between lo hi, v => lo ≤ v && v ≤ hi
  | .oneOf vs, v => vs.contains v

/-- The blocks of R333 that hold registers. -/
inductive Block where
  | sys | pwr | cfg | evc | seq | gate | pmc | time | chk | tst | tel | fab | eth | cap | dec | enc | cmp | lut | sig | scn | tch | mem | dbg
  deriving DecidableEq, Repr

/-- The node-local address of each block's first register (R333). -/
def Block.base : Block → Nat
  | .sys => 0x0
  | .pwr => 0x10000
  | .cfg => 0x20000
  | .evc => 0x30000
  | .seq => 0x40000
  | .gate => 0x60000
  | .pmc => 0x70000
  | .time => 0x80000
  | .chk => 0x90000
  | .tst => 0xA0000
  | .tel => 0xB0000
  | .fab => 0x100000
  | .eth => 0x200000
  | .cap => 0x300000
  | .dec => 0x400000
  | .enc => 0x500000
  | .cmp => 0x600000
  | .lut => 0x700000
  | .sig => 0x780000
  | .scn => 0x800000
  | .tch => 0x900000
  | .mem => 0xA00000
  | .dbg => 0xB00000

/-- The bit of SYS_TROUBLE.BLOCKS of each block (R417): PMC shares TEL's bit; SYS has none of its own. -/
def Block.troubleBit : Block → Option Nat
  | .time => some 0 | .fab => some 1 | .eth => some 2 | .cap => some 3 | .dec => some 4 | .enc => some 5
  | .cmp => some 6 | .lut => some 7 | .sig => some 8 | .scn => some 9 | .tch => some 10 | .evc => some 11
  | .seq => some 12 | .gate => some 13 | .mem => some 14 | .chk => some 15 | .cfg => some 16 | .pwr => some 17
  | .tst => some 18 | .tel => some 19 | .pmc => some 19 | .dbg => some 20 | .sys => none

structure FieldDesc where
  field : Field
  ty : FType
  rst : ResetWord
  range : FRange
  deriving DecidableEq, Repr

/-- A register: its block, its offset in it, its index dimensions (count, stride), whether it is a 64-bit pair
(R3), and its fields. -/
structure RegDesc where
  reg : Reg
  block : Block
  off : Nat
  dims : List (Nat × Nat)
  pair : Bool
  fields : List FieldDesc
  deriving DecidableEq, Repr

def regs_cmp_0 : List RegDesc := [
  ⟨.CMP_FRS_UBOUND, .cmp, 0x40000, [], false, [
    ⟨F.CMP_FRS_UBOUND_BOUND, .rw, .load, .between 1 1000000⟩]⟩,
  ⟨.CMP_FRS_UNCERT, .cmp, 0x40004, [], false, [
    ⟨F.CMP_FRS_UNCERT_U_NODE, .ro, .reset, .any⟩]⟩,
  ⟨.CMP_FRS_LABEL, .cmp, 0x40008, [], false, [
    ⟨F.CMP_FRS_LABEL_HEIGHT, .rw, .load, .between 16 64⟩]⟩,
  ⟨.CMP_FRS_COLOR_LATE, .cmp, 0x40010, [], false, [
    ⟨F.CMP_FRS_COLOR_LATE_RED, .rw, .load, .any⟩,
    ⟨F.CMP_FRS_COLOR_LATE_GREEN, .rw, .load, .any⟩,
    ⟨F.CMP_FRS_COLOR_LATE_BLUE, .rw, .load, .any⟩]⟩,
  ⟨.CMP_FRS_COLOR_STALE, .cmp, 0x40014, [], false, [
    ⟨F.CMP_FRS_COLOR_STALE_RED, .rw, .load, .any⟩,
    ⟨F.CMP_FRS_COLOR_STALE_GREEN, .rw, .load, .any⟩,
    ⟨F.CMP_FRS_COLOR_STALE_BLUE, .rw, .load, .any⟩]⟩,
  ⟨.CMP_FRS_COLOR_LOST, .cmp, 0x40018, [], false, [
    ⟨F.CMP_FRS_COLOR_LOST_RED, .rw, .load, .any⟩,
    ⟨F.CMP_FRS_COLOR_LOST_GREEN, .rw, .load, .any⟩,
    ⟨F.CMP_FRS_COLOR_LOST_BLUE, .rw, .load, .any⟩]⟩,
  ⟨.CMP_FRS_COLOR_INK, .cmp, 0x4001C, [], false, [
    ⟨F.CMP_FRS_COLOR_INK_RED, .rw, .load, .any⟩,
    ⟨F.CMP_FRS_COLOR_INK_GREEN, .rw, .load, .any⟩,
    ⟨F.CMP_FRS_COLOR_INK_BLUE, .rw, .load, .any⟩]⟩,
  ⟨.CMP_FRS_COLOR_PLATE, .cmp, 0x40020, [], false, [
    ⟨F.CMP_FRS_COLOR_PLATE_RED, .rw, .load, .any⟩,
    ⟨F.CMP_FRS_COLOR_PLATE_GREEN, .rw, .load, .any⟩,
    ⟨F.CMP_FRS_COLOR_PLATE_BLUE, .rw, .load, .any⟩]⟩,
  ⟨.CMP_FRS_SUMMARY, .cmp, 0x40024, [], false, [
    ⟨F.CMP_FRS_SUMMARY_LOST, .ro, .reset, .any⟩,
    ⟨F.CMP_FRS_SUMMARY_FROZEN, .ro, .reset, .any⟩,
    ⟨F.CMP_FRS_SUMMARY_STALE, .ro, .reset, .any⟩,
    ⟨F.CMP_FRS_SUMMARY_LATE, .ro, .reset, .any⟩]⟩,
  ⟨.CMP_FRS_CHANGED, .cmp, 0x40028, [], true, [
    ⟨F.CMP_FRS_CHANGED_LAYER, .w1c, .reset, .any⟩]⟩,
  ⟨.CMP_FRS_TROUBLE, .cmp, 0x40030, [], false, [
    ⟨F.CMP_FRS_TROUBLE_LADDER, .w1c, .sticky, .any⟩,
    ⟨F.CMP_FRS_TROUBLE_LABEL_CLIPPED, .w1c, .sticky, .any⟩,
    ⟨F.CMP_FRS_TROUBLE_LIMIT_RAISED, .w1c, .sticky, .any⟩,
    ⟨F.CMP_FRS_TROUBLE_WITNESS_BELOW_MIN, .w1c, .sticky, .any⟩,
    ⟨F.CMP_FRS_TROUBLE_WITNESS_BAD, .w1c, .sticky, .any⟩,
    ⟨F.CMP_FRS_TROUBLE_FUTURE_STAMP, .w1c, .sticky, .any⟩,
    ⟨F.CMP_FRS_TROUBLE_U_LOST, .w1c, .sticky, .any⟩,
    ⟨F.CMP_FRS_TROUBLE_U_BOUND, .w1c, .sticky, .any⟩]⟩,
  ⟨.CMP_LAYER_FRS_CTL, .cmp, 0x41000, [(64, 0x40)], false, [
    ⟨F.CMP_LAYER_FRS_CTL_F, .rw, .load, .any⟩,
    ⟨F.CMP_LAYER_FRS_CTL_CONTENT, .rw, .load, .between 0 5⟩,
    ⟨F.CMP_LAYER_FRS_CTL_MIN_CLASS, .rw, .load, .between 0 2⟩,
    ⟨F.CMP_LAYER_FRS_CTL_WITHDRAW_EN, .rw, .load, .any⟩,
    ⟨F.CMP_LAYER_FRS_CTL_STATIC, .ro, .load, .any⟩]⟩]

def regs_cmp_1 : List RegDesc := [
  ⟨.CMP_LAYER_BUDGET, .cmp, 0x41004, [(64, 0x40)], false, [
    ⟨F.CMP_LAYER_BUDGET_B, .rw, .load, .between 1000 600000000⟩]⟩,
  ⟨.CMP_LAYER_STALE, .cmp, 0x41008, [(64, 0x40)], false, [
    ⟨F.CMP_LAYER_STALE_S, .rw, .load, .between 0 3600000000⟩]⟩,
  ⟨.CMP_LAYER_WITHDRAW, .cmp, 0x4100C, [(64, 0x40)], false, [
    ⟨F.CMP_LAYER_WITHDRAW_LIMIT, .rw, .load, .any⟩]⟩,
  ⟨.CMP_LAYER_BMAX, .cmp, 0x41010, [(64, 0x40)], false, [
    ⟨F.CMP_LAYER_BMAX_BMAX, .ro, .load, .between 0 600000000⟩]⟩,
  ⟨.CMP_LAYER_AGE, .cmp, 0x41014, [(64, 0x40)], false, [
    ⟨F.CMP_LAYER_AGE_AGE, .ro, .reset, .any⟩]⟩,
  ⟨.CMP_LAYER_STATE, .cmp, 0x41018, [(64, 0x40)], false, [
    ⟨F.CMP_LAYER_STATE_FRAMES, .ro, .reset, .any⟩,
    ⟨F.CMP_LAYER_STATE_FORCED_U, .ro, .reset, .any⟩,
    ⟨F.CMP_LAYER_STATE_NOT_COMMITTED, .ro, .reset, .any⟩,
    ⟨F.CMP_LAYER_STATE_UNVERIFIED, .ro, .reset, .any⟩,
    ⟨F.CMP_LAYER_STATE_DEGRADED, .ro, .reset, .any⟩,
    ⟨F.CMP_LAYER_STATE_CLASS, .ro, .reset, .any⟩,
    ⟨F.CMP_LAYER_STATE_REASON, .ro, .reset, .any⟩,
    ⟨F.CMP_LAYER_STATE_STATE, .ro, .reset, .any⟩]⟩,
  ⟨.CMP_LAYER_UNCERT, .cmp, 0x4101C, [(64, 0x40)], false, [
    ⟨F.CMP_LAYER_UNCERT_U, .ro, .reset, .any⟩]⟩,
  ⟨.CMP_LAYER_CAP_STAMP, .cmp, 0x41020, [(64, 0x40)], true, [
    ⟨F.CMP_LAYER_CAP_STAMP_CAPTURE, .ro, .reset, .any⟩]⟩,
  ⟨.CMP_LAYER_GFX_STAMP, .cmp, 0x41028, [(64, 0x40)], true, [
    ⟨F.CMP_LAYER_GFX_STAMP_STAMP, .rw, .load, .any⟩]⟩,
  ⟨.CMP_CTL, .cmp, 0x0, [], false, [
    ⟨F.CMP_CTL_EN, .rw, .load, .any⟩,
    ⟨F.CMP_CTL_MODE, .ro, .load, .any⟩,
    ⟨F.CMP_CTL_LEAD, .ro, .load, .between 2 16⟩]⟩,
  ⟨.CMP_BG, .cmp, 0x4, [], false, [
    ⟨F.CMP_BG_COLOR, .rw, .load, .any⟩]⟩,
  ⟨.CMP_LATCH, .cmp, 0x8, [], false, [
    ⟨F.CMP_LATCH_APPLY, .ro, .reset, .any⟩,
    ⟨F.CMP_LATCH_LATCH_LINE, .rw, .load, .any⟩]⟩]

def regs_cmp_2 : List RegDesc := [
  ⟨.CMP_STATUS, .cmp, 0xC, [], false, [
    ⟨F.CMP_STATUS_BAND, .ro, .reset, .any⟩,
    ⟨F.CMP_STATUS_COMPOSING, .ro, .reset, .any⟩,
    ⟨F.CMP_STATUS_FRAME, .ro, .reset, .any⟩]⟩,
  ⟨.CMP_LOAD_CAP, .cmp, 0x10, [], false, [
    ⟨F.CMP_LOAD_CAP_CAP, .ro, .reset, .any⟩]⟩,
  ⟨.CMP_LOAD_PEAK, .cmp, 0x14, [], false, [
    ⟨F.CMP_LOAD_PEAK_PEAK, .ro, .reset, .any⟩]⟩,
  ⟨.CMP_LEASES, .cmp, 0x18, [], false, [
    ⟨F.CMP_LEASES_USED, .ro, .reset, .any⟩]⟩,
  ⟨.CMP_OVERRUNS, .cmp, 0x1C, [], false, [
    ⟨F.CMP_OVERRUNS_COUNT, .ro, .reset, .any⟩]⟩,
  ⟨.CMP_FENCE, .cmp, 0x20, [], true, [
    ⟨F.CMP_FENCE_LAYER, .w1s, .reset, .any⟩]⟩,
  ⟨.CMP_FENCE_CLR, .cmp, 0x28, [], true, [
    ⟨F.CMP_FENCE_CLR_LAYER, .wo, .reset, .any⟩]⟩,
  ⟨.CMP_BAND_MARK, .cmp, 0x30, [], false, [
    ⟨F.CMP_BAND_MARK_BAND, .rw, .load, .any⟩]⟩,
  ⟨.CMP_TROUBLE, .cmp, 0x34, [], false, [
    ⟨F.CMP_TROUBLE_BAD_VALUE, .w1c, .sticky, .any⟩,
    ⟨F.CMP_TROUBLE_LEASE_HELD, .w1c, .sticky, .any⟩,
    ⟨F.CMP_TROUBLE_READOUT_BAD, .w1c, .sticky, .any⟩,
    ⟨F.CMP_TROUBLE_RECEIPT_LOST, .w1c, .sticky, .any⟩,
    ⟨F.CMP_TROUBLE_PARTIAL, .w1c, .sticky, .any⟩,
    ⟨F.CMP_TROUBLE_LEASE_FULL, .w1c, .sticky, .any⟩,
    ⟨F.CMP_TROUBLE_LOAD_REFUSED, .w1c, .sticky, .any⟩,
    ⟨F.CMP_TROUBLE_OVERRUN, .w1c, .sticky, .any⟩]⟩,
  ⟨.CMP_RECEIPT, .cmp, 0x40, [(8, 0x4)], false, [
    ⟨F.CMP_RECEIPT_RECEIPT, .ro, .reset, .any⟩]⟩,
  ⟨.CMP_RECEIPT_STATUS, .cmp, 0x60, [], false, [
    ⟨F.CMP_RECEIPT_STATUS_DROPPED, .ro, .reset, .any⟩,
    ⟨F.CMP_RECEIPT_STATUS_COUNT, .ro, .reset, .any⟩]⟩,
  ⟨.CMP_RELEASE_STATUS, .cmp, 0x64, [], false, [
    ⟨F.CMP_RELEASE_STATUS_COUNT, .ro, .reset, .any⟩]⟩]

def regs_cmp_3 : List RegDesc := [
  ⟨.CMP_RELEASE, .cmp, 0x68, [(4, 0x4)], false, [
    ⟨F.CMP_RELEASE_RELEASE, .ro, .reset, .any⟩]⟩,
  ⟨.CMP_READOUT_IN, .cmp, 0x80, [], true, [
    ⟨F.CMP_READOUT_IN_WORD, .wo, .reset, .any⟩]⟩,
  ⟨.CMP_READOUT_DROPS, .cmp, 0x88, [], false, [
    ⟨F.CMP_READOUT_DROPS_COUNT, .ro, .reset, .any⟩]⟩,
  ⟨.CMP_FONT, .cmp, 0x8C, [], false, [
    ⟨F.CMP_FONT_CELL_W, .ro, .load, .between 8 64⟩,
    ⟨F.CMP_FONT_CELL_H, .ro, .load, .between 8 128⟩]⟩,
  ⟨.CMP_GROUP_COMMIT, .cmp, 0x100, [(8, 0x40)], false, [
    ⟨F.CMP_GROUP_COMMIT_TAG, .wo, .reset, .any⟩]⟩,
  ⟨.CMP_GROUP_CFG, .cmp, 0x104, [(8, 0x40)], false, [
    ⟨F.CMP_GROUP_CFG_DEFER_LIMIT, .rw, .load, .between 0 15⟩]⟩,
  ⟨.CMP_GROUP_STATUS, .cmp, 0x108, [(8, 0x40)], false, [
    ⟨F.CMP_GROUP_STATUS_PENDING, .ro, .reset, .any⟩,
    ⟨F.CMP_GROUP_STATUS_STRAGGLERS, .ro, .reset, .any⟩,
    ⟨F.CMP_GROUP_STATUS_DEFERRED, .ro, .reset, .any⟩,
    ⟨F.CMP_GROUP_STATUS_MEMBERS, .ro, .reset, .any⟩]⟩,
  ⟨.CMP_GROUP_RECEIPT, .cmp, 0x110, [(8, 0x40), (8, 0x4)], false, [
    ⟨F.CMP_GROUP_RECEIPT_RECEIPT, .ro, .reset, .any⟩]⟩,
  ⟨.CMP_PLANE_CFG, .cmp, 0x2000, [(4, 0x400)], false, [
    ⟨F.CMP_PLANE_CFG_BG_EN, .rw, .load, .any⟩,
    ⟨F.CMP_PLANE_CFG_BG, .rw, .load, .any⟩]⟩,
  ⟨.CMP_PLANE_INK, .cmp, 0x2020, [(4, 0x400), (8, 0x4)], false, [
    ⟨F.CMP_PLANE_INK_INK, .rw, .load, .any⟩]⟩,
  ⟨.CMP_FIELD_0, .cmp, 0x2100, [(4, 0x400), (64, 0x8)], false, [
    ⟨F.CMP_FIELD_0_EN, .rw, .load, .any⟩,
    ⟨F.CMP_FIELD_0_ALIGN, .rw, .load, .between 0 1⟩,
    ⟨F.CMP_FIELD_0_X, .rw, .load, .any⟩,
    ⟨F.CMP_FIELD_0_Y, .rw, .load, .any⟩]⟩,
  ⟨.CMP_FIELD_1, .cmp, 0x2104, [(4, 0x400), (64, 0x8)], false, [
    ⟨F.CMP_FIELD_1_ID, .rw, .load, .any⟩,
    ⟨F.CMP_FIELD_1_COLS, .rw, .load, .between 1 32⟩,
    ⟨F.CMP_FIELD_1_DECIMALS, .rw, .load, .between 0 9⟩,
    ⟨F.CMP_FIELD_1_GROUP, .rw, .load, .any⟩,
    ⟨F.CMP_FIELD_1_INK, .rw, .load, .any⟩]⟩]

def regs_cmp_4 : List RegDesc := [
  ⟨.CMP_LAYER_CTL, .cmp, 0x1000, [(64, 0x40)], false, [
    ⟨F.CMP_LAYER_CTL_EN, .rw, .load, .any⟩,
    ⟨F.CMP_LAYER_CTL_GROUP, .rw, .load, .any⟩,
    ⟨F.CMP_LAYER_CTL_KIND, .rw, .load, .between 0 6⟩,
    ⟨F.CMP_LAYER_CTL_ALPHA_MODE, .rw, .load, .between 0 2⟩,
    ⟨F.CMP_LAYER_CTL_FENCE_MODE, .rw, .load, .between 0 2⟩,
    ⟨F.CMP_LAYER_CTL_MATRIX, .rw, .load, .any⟩,
    ⟨F.CMP_LAYER_CTL_FULL_RANGE, .rw, .load, .any⟩,
    ⟨F.CMP_LAYER_CTL_NEAREST, .rw, .load, .any⟩,
    ⟨F.CMP_LAYER_CTL_FMT, .rw, .load, .any⟩]⟩,
  ⟨.CMP_LAYER_SRC, .cmp, 0x1004, [(64, 0x40)], false, [
    ⟨F.CMP_LAYER_SRC_SOURCE, .rw, .load, .any⟩]⟩,
  ⟨.CMP_LAYER_CROP_POS, .cmp, 0x1008, [(64, 0x40)], false, [
    ⟨F.CMP_LAYER_CROP_POS_CROP_X, .rw, .load, .any⟩,
    ⟨F.CMP_LAYER_CROP_POS_CROP_Y, .rw, .load, .any⟩]⟩,
  ⟨.CMP_LAYER_CROP_SIZE, .cmp, 0x100C, [(64, 0x40)], false, [
    ⟨F.CMP_LAYER_CROP_SIZE_CROP_W, .rw, .load, .between 1 65535⟩,
    ⟨F.CMP_LAYER_CROP_SIZE_CROP_H, .rw, .load, .between 1 65535⟩]⟩,
  ⟨.CMP_LAYER_DST_POS, .cmp, 0x1010, [(64, 0x40)], false, [
    ⟨F.CMP_LAYER_DST_POS_DST_X, .rw, .load, .any⟩,
    ⟨F.CMP_LAYER_DST_POS_DST_Y, .rw, .load, .any⟩]⟩,
  ⟨.CMP_LAYER_DST_SIZE, .cmp, 0x1014, [(64, 0x40)], false, [
    ⟨F.CMP_LAYER_DST_SIZE_DST_W, .rw, .load, .between 1 8192⟩,
    ⟨F.CMP_LAYER_DST_SIZE_DST_H, .rw, .load, .between 1 8192⟩]⟩,
  ⟨.CMP_LAYER_ALPHA, .cmp, 0x1018, [(64, 0x40)], false, [
    ⟨F.CMP_LAYER_ALPHA_LA, .rw, .load, .any⟩]⟩,
  ⟨.CMP_LAYER_BUF, .cmp, 0x1020, [(64, 0x40)], true, [
    ⟨F.CMP_LAYER_BUF_BUF, .rw, .load, .any⟩]⟩,
  ⟨.CMP_LAYER_STRIDE, .cmp, 0x1028, [(64, 0x40)], false, [
    ⟨F.CMP_LAYER_STRIDE_STRIDE, .rw, .load, .between 64 65536⟩]⟩,
  ⟨.CMP_LAYER_STATUS, .cmp, 0x102C, [(64, 0x40)], false, [
    ⟨F.CMP_LAYER_STATUS_ACTIVE, .ro, .reset, .any⟩,
    ⟨F.CMP_LAYER_STATUS_LEASES, .ro, .reset, .any⟩,
    ⟨F.CMP_LAYER_STATUS_PENDING, .ro, .reset, .any⟩,
    ⟨F.CMP_LAYER_STATUS_PIC_SEQ, .ro, .reset, .any⟩]⟩,
  ⟨.CMP_LAYER_FRAME, .cmp, 0x1030, [(64, 0x40)], true, [
    ⟨F.CMP_LAYER_FRAME_FRAME, .ro, .reset, .any⟩]⟩]

/-- The registers of the CMP block. -/
def regs_cmp : List RegDesc :=
  regs_cmp_0 ++ regs_cmp_1 ++ regs_cmp_2 ++ regs_cmp_3 ++ regs_cmp_4

def regs_time_0 : List RegDesc := [
  ⟨.TIME_RAW, .time, 0x0, [], true, [
    ⟨F.TIME_RAW_RAW, .ro, .kept, .any⟩]⟩,
  ⟨.TIME_WALL, .time, 0x8, [], true, [
    ⟨F.TIME_WALL_NS, .ro, .reset, .any⟩]⟩,
  ⟨.TIME_WALL_FRAC, .time, 0x10, [], false, [
    ⟨F.TIME_WALL_FRAC_FRAC, .ro, .reset, .any⟩]⟩,
  ⟨.TIME_STATUS, .time, 0x14, [], false, [
    ⟨F.TIME_STATUS_STATE, .ro, .reset, .any⟩,
    ⟨F.TIME_STATUS_IS_ROOT, .ro, .reset, .any⟩,
    ⟨F.TIME_STATUS_PARENT_VALID, .ro, .reset, .any⟩,
    ⟨F.TIME_STATUS_PARENT, .ro, .reset, .any⟩,
    ⟨F.TIME_STATUS_HOPS, .ro, .reset, .any⟩]⟩,
  ⟨.TIME_RATE, .time, 0x18, [], true, [
    ⟨F.TIME_RATE_RATE, .ro, .reset, .any⟩]⟩,
  ⟨.TIME_OFFSET_ERR, .time, 0x20, [], false, [
    ⟨F.TIME_OFFSET_ERR_E, .ro, .reset, .any⟩]⟩,
  ⟨.TIME_UNCERT, .time, 0x24, [], false, [
    ⟨F.TIME_UNCERT_U_NODE, .ro, .reset, .any⟩]⟩,
  ⟨.TIME_ROOT_U, .time, 0x28, [], false, [
    ⟨F.TIME_ROOT_U_ROOT_U, .ro, .reset, .any⟩]⟩,
  ⟨.TIME_ROOT, .time, 0x2C, [], false, [
    ⟨F.TIME_ROOT_NODE, .ro, .reset, .any⟩,
    ⟨F.TIME_ROOT_PRIO, .ro, .reset, .any⟩,
    ⟨F.TIME_ROOT_CLASS, .ro, .reset, .any⟩]⟩,
  ⟨.TIME_EPOCH, .time, 0x30, [], false, [
    ⟨F.TIME_EPOCH_EPOCH, .ro, .reset, .any⟩]⟩,
  ⟨.TIME_UTC, .time, 0x34, [], false, [
    ⟨F.TIME_UTC_VALID, .ro, .reset, .any⟩,
    ⟨F.TIME_UTC_OFFSET, .ro, .reset, .any⟩]⟩,
  ⟨.TIME_ROOT_CFG, .time, 0x40, [], false, [
    ⟨F.TIME_ROOT_CFG_CANDIDATE, .ro, .load, .any⟩,
    ⟨F.TIME_ROOT_CFG_PREEMPT, .rw, .load, .any⟩,
    ⟨F.TIME_ROOT_CFG_REF_SEL, .rw, .load, .any⟩,
    ⟨F.TIME_ROOT_CFG_RANK, .rw, .load, .any⟩,
    ⟨F.TIME_ROOT_CFG_PRIO, .rw, .load, .any⟩]⟩]

def regs_time_1 : List RegDesc := [
  ⟨.TIME_JUMP, .time, 0x44, [], false, [
    ⟨F.TIME_JUMP_THRESHOLD, .rw, .load, .between 100 1000000000⟩]⟩,
  ⟨.TIME_SLEW, .time, 0x48, [], false, [
    ⟨F.TIME_SLEW_MAX_PPM, .rw, .load, .between 1 200⟩]⟩,
  ⟨.TIME_HOLD, .time, 0x4C, [], false, [
    ⟨F.TIME_HOLD_DRIFT, .rw, .load, .between 1 1000000⟩]⟩,
  ⟨.TIME_LOCK, .time, 0x50, [], false, [
    ⟨F.TIME_LOCK_LOCK_TIME, .rw, .load, .between 1 60000⟩,
    ⟨F.TIME_LOCK_LOCK_WIN, .rw, .load, .between 1 1000⟩]⟩,
  ⟨.TIME_LOSS, .time, 0x54, [], false, [
    ⟨F.TIME_LOSS_ROOT_LIMIT, .rw, .load, .between 20 10000⟩,
    ⟨F.TIME_LOSS_PARENT_LIMIT, .rw, .load, .between 2 1000⟩]⟩,
  ⟨.TIME_CLAIM, .time, 0x58, [], false, [
    ⟨F.TIME_CLAIM_STEP, .rw, .load, .between 10 10000⟩]⟩,
  ⟨.TIME_FRAME_EPOCH, .time, 0x60, [], true, [
    ⟨F.TIME_FRAME_EPOCH_EPOCH, .rw, .load, .any⟩]⟩,
  ⟨.TIME_FRAME_PERIOD, .time, 0x68, [], true, [
    ⟨F.TIME_FRAME_PERIOD_NS, .rw, .load, .between 6944444 50000000⟩,
    ⟨F.TIME_FRAME_PERIOD_FRAC, .rw, .load, .any⟩]⟩,
  ⟨.TIME_REF_CFG, .time, 0x70, [], false, [
    ⟨F.TIME_REF_CFG_PPS_WIN, .rw, .load, .between 1 100⟩,
    ⟨F.TIME_REF_CFG_MISS_LIMIT, .rw, .load, .between 1 16⟩,
    ⟨F.TIME_REF_CFG_F10M_WIN, .rw, .load, .between 1 200⟩,
    ⟨F.TIME_REF_CFG_F10M_EN, .rw, .load, .any⟩,
    ⟨F.TIME_REF_CFG_PPS_EN, .rw, .load, .any⟩]⟩,
  ⟨.TIME_REF_DELAY, .time, 0x74, [], false, [
    ⟨F.TIME_REF_DELAY_DELAY, .rw, .load, .any⟩]⟩,
  ⟨.TIME_REF_TOD, .time, 0x78, [], true, [
    ⟨F.TIME_REF_TOD_TOD, .rw, .reset, .any⟩]⟩,
  ⟨.TIME_TROUBLE, .time, 0x80, [], false, [
    ⟨F.TIME_TROUBLE_BAD_VALUE, .w1c, .sticky, .any⟩,
    ⟨F.TIME_TROUBLE_PULSE_MISSED, .w1c, .sticky, .any⟩,
    ⟨F.TIME_TROUBLE_CAP_OVERFLOW, .w1c, .sticky, .any⟩,
    ⟨F.TIME_TROUBLE_LINK_DELAY_BAD, .w1c, .sticky, .any⟩,
    ⟨F.TIME_TROUBLE_DOMAIN_CLASH, .w1c, .sticky, .any⟩,
    ⟨F.TIME_TROUBLE_REF_LOST, .w1c, .sticky, .any⟩,
    ⟨F.TIME_TROUBLE_ROOT_LOST, .w1c, .sticky, .any⟩,
    ⟨F.TIME_TROUBLE_HOLDOVER, .w1c, .sticky, .any⟩,
    ⟨F.TIME_TROUBLE_JUMP_REFUSED, .w1c, .sticky, .any⟩]⟩]

def regs_time_2 : List RegDesc := [
  ⟨.TIME_PTP_CFG, .time, 0x84, [], false, [
    ⟨F.TIME_PTP_CFG_DOMAIN, .rw, .load, .between 0 127⟩,
    ⟨F.TIME_PTP_CFG_PROFILE, .rw, .load, .between 0 2⟩]⟩,
  ⟨.TIME_ETH_CTL, .time, 0x100, [(8, 0x8)], false, [
    ⟨F.TIME_ETH_CTL_ROLE, .rw, .load, .between 0 3⟩]⟩,
  ⟨.TIME_ETH_ASYM, .time, 0x104, [(8, 0x8)], false, [
    ⟨F.TIME_ETH_ASYM_ASYM, .rw, .load, .any⟩]⟩,
  ⟨.TIME_FAB_ASYM, .time, 0x140, [(8, 0x8)], false, [
    ⟨F.TIME_FAB_ASYM_ASYM, .rw, .load, .any⟩]⟩,
  ⟨.TIME_FAB_DELAY, .time, 0x144, [(8, 0x8)], false, [
    ⟨F.TIME_FAB_DELAY_DELAY, .ro, .reset, .any⟩]⟩,
  ⟨.TIME_PULSE_CTL, .time, 0x200, [(8, 0x20)], false, [
    ⟨F.TIME_PULSE_CTL_EN, .rw, .load, .any⟩,
    ⟨F.TIME_PULSE_CTL_PERIODIC, .rw, .load, .any⟩,
    ⟨F.TIME_PULSE_CTL_POLARITY, .rw, .load, .any⟩]⟩,
  ⟨.TIME_PULSE_WIDTH, .time, 0x204, [(8, 0x20)], false, [
    ⟨F.TIME_PULSE_WIDTH_WIDTH, .rw, .load, .between 8 4294967287⟩]⟩,
  ⟨.TIME_PULSE_START, .time, 0x208, [(8, 0x20)], true, [
    ⟨F.TIME_PULSE_START_START, .rw, .load, .any⟩]⟩,
  ⟨.TIME_PULSE_PERIOD, .time, 0x210, [(8, 0x20)], true, [
    ⟨F.TIME_PULSE_PERIOD_PERIOD, .rw, .load, .any⟩]⟩,
  ⟨.TIME_CAP_CTL, .time, 0x400, [(4, 0x10)], false, [
    ⟨F.TIME_CAP_CTL_EN, .rw, .load, .any⟩,
    ⟨F.TIME_CAP_CTL_EDGE, .rw, .load, .any⟩,
    ⟨F.TIME_CAP_CTL_FILTER, .rw, .load, .between 0 1000⟩,
    ⟨F.TIME_CAP_CTL_DEAD, .rw, .load, .between 20 65535⟩]⟩,
  ⟨.TIME_CAP_STATUS, .time, 0x404, [(4, 0x10)], false, [
    ⟨F.TIME_CAP_STATUS_DROPPED, .ro, .reset, .any⟩,
    ⟨F.TIME_CAP_STATUS_HEAD_RISING, .ro, .reset, .any⟩,
    ⟨F.TIME_CAP_STATUS_COUNT, .ro, .reset, .any⟩]⟩,
  ⟨.TIME_CAP_STAMP, .time, 0x408, [(4, 0x10)], true, [
    ⟨F.TIME_CAP_STAMP_STAMP, .ro, .reset, .any⟩]⟩]

/-- The registers of the TIME block. -/
def regs_time : List RegDesc :=
  regs_time_0 ++ regs_time_1 ++ regs_time_2

def regs_fab_0 : List RegDesc := [
  ⟨.FAB_PORT_CTL, .fab, 0x0, [(8, 0x10000)], false, [
    ⟨F.FAB_PORT_CTL_EN, .rw, .load, .any⟩,
    ⟨F.FAB_PORT_CTL_RETRAIN, .sc, .reset, .any⟩,
    ⟨F.FAB_PORT_CTL_RATE_MAX, .rw, .load, .oneOf [1, 2]⟩,
    ⟨F.FAB_PORT_CTL_WIDTH_MIN, .rw, .load, .oneOf [2, 4]⟩]⟩,
  ⟨.FAB_PORT_STATUS, .fab, 0x4, [(8, 0x10000)], false, [
    ⟨F.FAB_PORT_STATUS_STATE, .ro, .reset, .any⟩,
    ⟨F.FAB_PORT_STATUS_RATE, .ro, .reset, .any⟩,
    ⟨F.FAB_PORT_STATUS_WIDTH, .ro, .reset, .any⟩,
    ⟨F.FAB_PORT_STATUS_PEER_PORT, .ro, .reset, .any⟩,
    ⟨F.FAB_PORT_STATUS_PEER_ID_VALID, .ro, .reset, .any⟩,
    ⟨F.FAB_PORT_STATUS_PEER_NODE, .ro, .reset, .any⟩,
    ⟨F.FAB_PORT_STATUS_PEER_MODE, .ro, .reset, .any⟩]⟩,
  ⟨.FAB_PORT_LIMITS, .fab, 0x8, [(8, 0x10000)], false, [
    ⟨F.FAB_PORT_LIMITS_IDLE_LIMIT, .rw, .load, .between 2 1000⟩,
    ⟨F.FAB_PORT_LIMITS_REPLAY_LIMIT, .rw, .load, .between 1 64⟩]⟩,
  ⟨.FAB_PORT_RESV, .fab, 0xC, [(8, 0x10000)], false, [
    ⟨F.FAB_PORT_RESV_LIMIT, .rw, .load, .between 0 230⟩,
    ⟨F.FAB_PORT_RESV_USED, .ro, .reset, .any⟩]⟩,
  ⟨.FAB_PORT_FLOWS, .fab, 0x10, [(8, 0x10000)], false, [
    ⟨F.FAB_PORT_FLOWS_USED, .ro, .reset, .any⟩]⟩,
  ⟨.FAB_PORT_TROUBLE, .fab, 0x14, [(8, 0x10000)], false, [
    ⟨F.FAB_PORT_TROUBLE_BAD_VALUE, .w1c, .sticky, .any⟩,
    ⟨F.FAB_PORT_TROUBLE_TOPO_MISMATCH, .w1c, .sticky, .any⟩,
    ⟨F.FAB_PORT_TROUBLE_NO_ROUTE, .w1c, .sticky, .any⟩,
    ⟨F.FAB_PORT_TROUBLE_MALFORMED, .w1c, .sticky, .any⟩,
    ⟨F.FAB_PORT_TROUBLE_REPLAY_LIMIT, .w1c, .sticky, .any⟩,
    ⟨F.FAB_PORT_TROUBLE_IDLE_LIMIT, .w1c, .sticky, .any⟩,
    ⟨F.FAB_PORT_TROUBLE_TRAIN_FAIL, .w1c, .sticky, .any⟩,
    ⟨F.FAB_PORT_TROUBLE_LINK_DOWN, .w1c, .sticky, .any⟩]⟩,
  ⟨.FAB_FLOW_0, .fab, 0x4000, [(8, 0x10000), (1024, 0x10)], false, [
    ⟨F.FAB_FLOW_0_VALID, .ro, .reset, .any⟩,
    ⟨F.FAB_FLOW_0_LOCAL, .ro, .reset, .any⟩,
    ⟨F.FAB_FLOW_0_GROUPED, .ro, .reset, .any⟩,
    ⟨F.FAB_FLOW_0_VC, .ro, .reset, .any⟩,
    ⟨F.FAB_FLOW_0_OUT_PORT, .ro, .reset, .any⟩,
    ⟨F.FAB_FLOW_0_OUT_LABEL, .ro, .reset, .any⟩,
    ⟨F.FAB_FLOW_0_GROUP, .ro, .reset, .any⟩]⟩,
  ⟨.FAB_FLOW_1, .fab, 0x4004, [(8, 0x10000), (1024, 0x10)], false, [
    ⟨F.FAB_FLOW_1_ORIGIN, .ro, .reset, .any⟩,
    ⟨F.FAB_FLOW_1_PART, .ro, .reset, .any⟩,
    ⟨F.FAB_FLOW_1_KIND, .ro, .reset, .any⟩]⟩,
  ⟨.FAB_FLOW_2, .fab, 0x4008, [(8, 0x10000), (1024, 0x10)], false, [
    ⟨F.FAB_FLOW_2_ID, .ro, .reset, .any⟩]⟩,
  ⟨.FAB_FLOW_3, .fab, 0x400C, [(8, 0x10000), (1024, 0x10)], false, [
    ⟨F.FAB_FLOW_3_RESV, .ro, .reset, .any⟩]⟩,
  ⟨.FAB_NODE_ID, .fab, 0x8000, [], false, [
    ⟨F.FAB_NODE_ID_VALID, .ro, .reset, .any⟩,
    ⟨F.FAB_NODE_ID_SOURCE, .ro, .load, .any⟩,
    ⟨F.FAB_NODE_ID_NODE, .ro, .loadPin, .any⟩]⟩,
  ⟨.FAB_NODE_TOPO, .fab, 0x8004, [], false, [
    ⟨F.FAB_NODE_TOPO_MODE, .ro, .load, .any⟩,
    ⟨F.FAB_NODE_TOPO_X, .ro, .load, .between 1 16⟩,
    ⟨F.FAB_NODE_TOPO_Y, .ro, .load, .between 1 16⟩,
    ⟨F.FAB_NODE_TOPO_Z, .ro, .load, .between 1 16⟩]⟩]

def regs_fab_1 : List RegDesc := [
  ⟨.FAB_NODE_CFG, .fab, 0x8008, [], false, [
    ⟨F.FAB_NODE_CFG_REJOIN, .rw, .load, .between 10 10000⟩,
    ⟨F.FAB_NODE_CFG_MEM_TIMEOUT, .rw, .load, .between 10 10000⟩]⟩,
  ⟨.FAB_NODE_ADMIT, .fab, 0x800C, [], false, [
    ⟨F.FAB_NODE_ADMIT_LAST_STATUS, .ro, .reset, .any⟩,
    ⟨F.FAB_NODE_ADMIT_LAST_REFUSER, .ro, .reset, .any⟩,
    ⟨F.FAB_NODE_ADMIT_GROUPS, .ro, .reset, .any⟩]⟩,
  ⟨.FAB_NODE_TROUBLE, .fab, 0x8010, [], false, [
    ⟨F.FAB_NODE_TROUBLE_BAD_VALUE, .w1c, .sticky, .any⟩,
    ⟨F.FAB_NODE_TROUBLE_RESV_BROKEN, .w1c, .sticky, .any⟩,
    ⟨F.FAB_NODE_TROUBLE_GROUP_FULL, .w1c, .sticky, .any⟩,
    ⟨F.FAB_NODE_TROUBLE_FLOW_FULL, .w1c, .sticky, .any⟩,
    ⟨F.FAB_NODE_TROUBLE_ID_CLASH, .w1c, .sticky, .any⟩,
    ⟨F.FAB_NODE_TROUBLE_NO_ID, .w1c, .sticky, .any⟩]⟩,
  ⟨.FAB_NODE_REFUSALS, .fab, 0x8014, [], false, [
    ⟨F.FAB_NODE_REFUSALS_COUNT, .ro, .reset, .any⟩]⟩,
  ⟨.FAB_PEER_MODE, .fab, 0x9000, [(512, 0x4)], false, [
    ⟨F.FAB_PEER_MODE_MODES, .ro, .reset, .any⟩]⟩,
  ⟨.FAB_MCAST_0, .fab, 0xA000, [(256, 0x10)], false, [
    ⟨F.FAB_MCAST_0_VALID, .ro, .reset, .any⟩,
    ⟨F.FAB_MCAST_0_LOCAL, .ro, .reset, .any⟩,
    ⟨F.FAB_MCAST_0_PORTS, .ro, .reset, .any⟩]⟩,
  ⟨.FAB_MCAST_LABELS_1, .fab, 0xA004, [(256, 0x10)], false, [
    ⟨F.FAB_MCAST_LABELS_1_LABELS, .ro, .reset, .any⟩]⟩,
  ⟨.FAB_MCAST_LABELS_2, .fab, 0xA008, [(256, 0x10)], false, [
    ⟨F.FAB_MCAST_LABELS_2_LABELS, .ro, .reset, .any⟩]⟩,
  ⟨.FAB_MCAST_LABELS_3, .fab, 0xA00C, [(256, 0x10)], false, [
    ⟨F.FAB_MCAST_LABELS_3_LABELS, .ro, .reset, .any⟩]⟩,
  ⟨.FAB_ROUTE, .fab, 0xC000, [(4096, 0x4)], false, [
    ⟨F.FAB_ROUTE_ALT_VALID, .rw, .load, .any⟩,
    ⟨F.FAB_ROUTE_ALT, .rw, .load, .any⟩,
    ⟨F.FAB_ROUTE_VALID, .rw, .load, .any⟩,
    ⟨F.FAB_ROUTE_PORT, .rw, .load, .any⟩]⟩]

/-- The registers of the FAB block. -/
def regs_fab : List RegDesc :=
  regs_fab_0 ++ regs_fab_1

def regs_eth_0 : List RegDesc := [
  ⟨.ETH_PORT_CTL, .eth, 0x0, [(8, 0x10000)], false, [
    ⟨F.ETH_PORT_CTL_EN, .rw, .load, .any⟩,
    ⟨F.ETH_PORT_CTL_RATE, .rw, .load, .any⟩,
    ⟨F.ETH_PORT_CTL_FEC, .rw, .load, .between 0 2⟩,
    ⟨F.ETH_PORT_CTL_VLAN_EN, .rw, .load, .any⟩,
    ⟨F.ETH_PORT_CTL_MAX_FRAME, .rw, .load, .between 64 9216⟩,
    ⟨F.ETH_PORT_CTL_VID, .rw, .load, .any⟩]⟩,
  ⟨.ETH_PORT_STATUS, .eth, 0x4, [(8, 0x10000)], false, [
    ⟨F.ETH_PORT_STATUS_LINK, .ro, .reset, .any⟩,
    ⟨F.ETH_PORT_STATUS_FEC_LOCK, .ro, .reset, .any⟩,
    ⟨F.ETH_PORT_STATUS_GROUPS, .ro, .reset, .any⟩]⟩,
  ⟨.ETH_MAC, .eth, 0x8, [(8, 0x10000)], true, [
    ⟨F.ETH_MAC_MAC, .ro, .load, .any⟩]⟩,
  ⟨.ETH_IPV4, .eth, 0x10, [(8, 0x10000)], false, [
    ⟨F.ETH_IPV4_IPV4, .ro, .load, .any⟩]⟩,
  ⟨.ETH_IPV6, .eth, 0x14, [(8, 0x10000), (4, 0x4)], false, [
    ⟨F.ETH_IPV6_IPV6, .ro, .load, .any⟩]⟩,
  ⟨.ETH_LIMITS, .eth, 0x24, [(8, 0x10000)], false, [
    ⟨F.ETH_LIMITS_ECHO_RATE, .rw, .load, .between 0 10000⟩,
    ⟨F.ETH_LIMITS_ARP_RATE, .rw, .load, .between 1 10000⟩]⟩,
  ⟨.ETH_TROUBLE, .eth, 0x28, [(8, 0x10000)], false, [
    ⟨F.ETH_TROUBLE_BAD_VALUE, .w1c, .sticky, .any⟩,
    ⟨F.ETH_TROUBLE_MGMT_AUTH, .w1c, .sticky, .any⟩,
    ⟨F.ETH_TROUBLE_GROUPS_FULL, .w1c, .sticky, .any⟩,
    ⟨F.ETH_TROUBLE_LINK_DOWN, .w1c, .sticky, .any⟩]⟩,
  ⟨.ETH_DROP, .eth, 0x40, [(8, 0x10000), (16, 0x4)], false, [
    ⟨F.ETH_DROP_COUNT, .ro, .reset, .any⟩]⟩,
  ⟨.ETH_STREAM_CTL, .eth, 0x8000, [(8, 0x10000), (64, 0x40)], false, [
    ⟨F.ETH_STREAM_CTL_EN, .rw, .load, .any⟩,
    ⟨F.ETH_STREAM_CTL_CLASS_CFG, .rw, .load, .between 0 2⟩,
    ⟨F.ETH_STREAM_CTL_WALL_TIMED, .rw, .load, .any⟩,
    ⟨F.ETH_STREAM_CTL_MUX, .rw, .load, .any⟩,
    ⟨F.ETH_STREAM_CTL_FWD, .rw, .load, .any⟩,
    ⟨F.ETH_STREAM_CTL_CODEC, .rw, .load, .any⟩,
    ⟨F.ETH_STREAM_CTL_LEAP_SRC, .rw, .load, .any⟩,
    ⟨F.ETH_STREAM_CTL_PT, .rw, .load, .any⟩,
    ⟨F.ETH_STREAM_CTL_EXT_ID, .rw, .load, .any⟩]⟩,
  ⟨.ETH_STREAM_ID, .eth, 0x8004, [(8, 0x10000), (64, 0x40)], false, [
    ⟨F.ETH_STREAM_ID_ID, .rw, .load, .any⟩]⟩,
  ⟨.ETH_STREAM_SRC, .eth, 0x8008, [(8, 0x10000), (64, 0x40), (4, 0x4)], false, [
    ⟨F.ETH_STREAM_SRC_SRC_ADDR, .rw, .load, .any⟩]⟩,
  ⟨.ETH_STREAM_DST, .eth, 0x8018, [(8, 0x10000), (64, 0x40), (4, 0x4)], false, [
    ⟨F.ETH_STREAM_DST_DST_ADDR, .rw, .load, .any⟩]⟩]

def regs_eth_1 : List RegDesc := [
  ⟨.ETH_STREAM_UDP, .eth, 0x8028, [(8, 0x10000), (64, 0x40)], false, [
    ⟨F.ETH_STREAM_UDP_UDP_PORT, .rw, .load, .between 1024 65534⟩]⟩,
  ⟨.ETH_STREAM_SSRC, .eth, 0x802C, [(8, 0x10000), (64, 0x40)], false, [
    ⟨F.ETH_STREAM_SSRC_SSRC, .rw, .load, .any⟩]⟩,
  ⟨.ETH_STREAM_TIMES, .eth, 0x8030, [(8, 0x10000), (64, 0x40)], false, [
    ⟨F.ETH_STREAM_TIMES_SILENCE, .rw, .load, .between 10 60000⟩,
    ⟨F.ETH_STREAM_TIMES_REPORT, .rw, .load, .between 1 255⟩,
    ⟨F.ETH_STREAM_TIMES_LEAP, .rw, .load, .any⟩]⟩,
  ⟨.ETH_STREAM_RATE, .eth, 0x8034, [(8, 0x10000), (64, 0x40)], false, [
    ⟨F.ETH_STREAM_RATE_MAX_RATE, .rw, .load, .between 1 25000⟩,
    ⟨F.ETH_STREAM_RATE_SENDER_ERR, .rw, .load, .any⟩]⟩,
  ⟨.ETH_STREAM_STATUS, .eth, 0x8038, [(8, 0x10000), (64, 0x40)], false, [
    ⟨F.ETH_STREAM_STATUS_STATE, .ro, .reset, .any⟩,
    ⟨F.ETH_STREAM_STATUS_CLASS_NOW, .ro, .reset, .any⟩,
    ⟨F.ETH_STREAM_STATUS_SR_VALID, .ro, .reset, .any⟩,
    ⟨F.ETH_STREAM_STATUS_CONTEXT, .ro, .reset, .any⟩]⟩,
  ⟨.ETH_STREAM_LOSS, .eth, 0x803C, [(8, 0x10000), (64, 0x40)], false, [
    ⟨F.ETH_STREAM_LOSS_AU_LOSS, .ro, .reset, .any⟩]⟩,
  ⟨.ETH_MGMT_CFG, .eth, 0xC000, [], false, [
    ⟨F.ETH_MGMT_CFG_PORT, .rw, .load, .between 1024 65535⟩,
    ⟨F.ETH_MGMT_CFG_IDLE, .rw, .load, .between 1 3600⟩]⟩,
  ⟨.ETH_MGMT_SESSION, .eth, 0xC010, [(4, 0x4)], false, [
    ⟨F.ETH_MGMT_SESSION_VALID, .ro, .reset, .any⟩,
    ⟨F.ETH_MGMT_SESSION_FABRIC, .ro, .reset, .any⟩,
    ⟨F.ETH_MGMT_SESSION_PORT, .ro, .reset, .any⟩,
    ⟨F.ETH_MGMT_SESSION_KEY, .ro, .reset, .any⟩,
    ⟨F.ETH_MGMT_SESSION_MASTER, .ro, .reset, .any⟩,
    ⟨F.ETH_MGMT_SESSION_NODE, .ro, .reset, .any⟩]⟩]

/-- The registers of the ETH block. -/
def regs_eth : List RegDesc :=
  regs_eth_0 ++ regs_eth_1

def regs_cap_0 : List RegDesc := [
  ⟨.CAP_CTL, .cap, 0x0, [(2, 0x1000)], false, [
    ⟨F.CAP_CTL_EN, .rw, .load, .any⟩,
    ⟨F.CAP_CTL_LANES, .rw, .load, .oneOf [1, 2, 4]⟩,
    ⟨F.CAP_CTL_VC, .rw, .load, .any⟩,
    ⟨F.CAP_CTL_DT, .rw, .load, .oneOf [0x1E, 0x1F]⟩,
    ⟨F.CAP_CTL_POOL_FMT, .rw, .load, .between 0 3⟩,
    ⟨F.CAP_CTL_FROZEN_N, .rw, .load, .between 2 64⟩,
    ⟨F.CAP_CTL_FNUM_CHECK, .rw, .load, .any⟩]⟩,
  ⟨.CAP_GEOM, .cap, 0x4, [(2, 0x1000)], false, [
    ⟨F.CAP_GEOM_WIDTH, .rw, .load, .between 64 4096⟩,
    ⟨F.CAP_GEOM_HEIGHT, .rw, .load, .between 64 2160⟩]⟩,
  ⟨.CAP_TIMING, .cap, 0x8, [(2, 0x1000)], false, [
    ⟨F.CAP_TIMING_SILENCE, .rw, .load, .between 1 10000⟩,
    ⟨F.CAP_TIMING_STAMP_ADJ, .rw, .load, .any⟩]⟩,
  ⟨.CAP_ID, .cap, 0xC, [(2, 0x1000)], false, [
    ⟨F.CAP_ID_ID, .rw, .load, .any⟩]⟩,
  ⟨.CAP_STATUS, .cap, 0x10, [(2, 0x1000)], false, [
    ⟨F.CAP_STATUS_STATE, .ro, .reset, .any⟩,
    ⟨F.CAP_STATUS_REPEATS, .ro, .reset, .any⟩,
    ⟨F.CAP_STATUS_FROZEN, .ro, .reset, .any⟩]⟩,
  ⟨.CAP_FRAMES, .cap, 0x18, [(2, 0x1000)], true, [
    ⟨F.CAP_FRAMES_FRAME_NUM, .ro, .reset, .any⟩]⟩,
  ⟨.CAP_DROPS, .cap, 0x20, [(2, 0x1000), (4, 0x4)], false, [
    ⟨F.CAP_DROPS_COUNT, .ro, .reset, .any⟩]⟩,
  ⟨.CAP_TROUBLE, .cap, 0x30, [(2, 0x1000)], false, [
    ⟨F.CAP_TROUBLE_BAD_VALUE, .w1c, .sticky, .any⟩,
    ⟨F.CAP_TROUBLE_OVERFLOW, .w1c, .sticky, .any⟩,
    ⟨F.CAP_TROUBLE_FORMAT, .w1c, .sticky, .any⟩,
    ⟨F.CAP_TROUBLE_CONTINUITY, .w1c, .sticky, .any⟩]⟩]

/-- The registers of the CAP block. -/
def regs_cap : List RegDesc :=
  regs_cap_0

def regs_dec_0 : List RegDesc := [
  ⟨.DEC_ADMIT, .dec, 0x0, [], false, [
    ⟨F.DEC_ADMIT_LIMIT, .rw, .load, .between 1 6000⟩,
    ⟨F.DEC_ADMIT_USED, .ro, .reset, .any⟩]⟩,
  ⟨.DEC_ADMIT_LAST, .dec, 0x4, [], false, [
    ⟨F.DEC_ADMIT_LAST_STATUS, .ro, .reset, .any⟩,
    ⟨F.DEC_ADMIT_LAST_CONTEXTS, .ro, .reset, .any⟩]⟩,
  ⟨.DEC_ADMIT_LAST_ID, .dec, 0x8, [], false, [
    ⟨F.DEC_ADMIT_LAST_ID_ID, .ro, .reset, .any⟩]⟩,
  ⟨.DEC_REFUSALS, .dec, 0xC, [], false, [
    ⟨F.DEC_REFUSALS_COUNT, .ro, .reset, .any⟩]⟩,
  ⟨.DEC_POOL_BASE, .dec, 0x10, [], true, [
    ⟨F.DEC_POOL_BASE_BASE, .ro, .load, .any⟩]⟩,
  ⟨.DEC_POOL_SIZE, .dec, 0x18, [], true, [
    ⟨F.DEC_POOL_SIZE_SIZE, .ro, .load, .any⟩]⟩,
  ⟨.DEC_NODE_CAUSE, .dec, 0x28, [], false, [
    ⟨F.DEC_NODE_CAUSE_TROUBLE, .w1c, .reset, .any⟩,
    ⟨F.DEC_NODE_CAUSE_REFUSED, .w1c, .reset, .any⟩]⟩,
  ⟨.DEC_NODE_MASK, .dec, 0x2C, [], false, [
    ⟨F.DEC_NODE_MASK_TROUBLE, .rw, .load, .any⟩,
    ⟨F.DEC_NODE_MASK_REFUSED, .rw, .load, .any⟩]⟩,
  ⟨.DEC_TROUBLE, .dec, 0x30, [], false, [
    ⟨F.DEC_TROUBLE_BAD_VALUE, .w1c, .sticky, .any⟩,
    ⟨F.DEC_TROUBLE_CONTAIN, .w1c, .sticky, .any⟩,
    ⟨F.DEC_TROUBLE_CONTEXT_RESET, .w1c, .sticky, .any⟩,
    ⟨F.DEC_TROUBLE_WORK_LIMIT, .w1c, .sticky, .any⟩,
    ⟨F.DEC_TROUBLE_ADMIT_REFUSED, .w1c, .sticky, .any⟩]⟩,
  ⟨.DEC_ENGINE_BUSY, .dec, 0x34, [], false, [
    ⟨F.DEC_ENGINE_BUSY_BUSY, .ro, .reset, .any⟩]⟩,
  ⟨.DEC_CTX_CFG, .dec, 0x1000, [(64, 0x40)], false, [
    ⟨F.DEC_CTX_CFG_VALID, .ro, .reset, .any⟩,
    ⟨F.DEC_CTX_CFG_CODEC, .ro, .reset, .any⟩,
    ⟨F.DEC_CTX_CFG_ESS, .ro, .reset, .any⟩,
    ⟨F.DEC_CTX_CFG_FMT, .ro, .reset, .any⟩,
    ⟨F.DEC_CTX_CFG_MAX_DPB, .ro, .reset, .any⟩,
    ⟨F.DEC_CTX_CFG_START_ANY, .rw, .reset, .any⟩]⟩,
  ⟨.DEC_CTX_LIMITS, .dec, 0x1004, [(64, 0x40)], false, [
    ⟨F.DEC_CTX_LIMITS_MAX_W, .ro, .reset, .any⟩,
    ⟨F.DEC_CTX_LIMITS_MAX_H, .ro, .reset, .any⟩]⟩]

def regs_dec_1 : List RegDesc := [
  ⟨.DEC_CTX_RATE, .dec, 0x1008, [(64, 0x40)], false, [
    ⟨F.DEC_CTX_RATE_DECLARED, .ro, .reset, .any⟩,
    ⟨F.DEC_CTX_RATE_MEASURED, .ro, .reset, .any⟩]⟩,
  ⟨.DEC_CTX_WORK, .dec, 0x100C, [(64, 0x40)], false, [
    ⟨F.DEC_CTX_WORK_WORK_X, .rw, .reset, .between 1 15⟩,
    ⟨F.DEC_CTX_WORK_FAULT_LIMIT, .rw, .reset, .between 1 255⟩,
    ⟨F.DEC_CTX_WORK_BACKLOG, .rw, .reset, .between 1 15⟩,
    ⟨F.DEC_CTX_WORK_TARGET, .rw, .reset, .between 100 65535⟩]⟩,
  ⟨.DEC_CTX_STATUS, .dec, 0x1010, [(64, 0x40)], false, [
    ⟨F.DEC_CTX_STATUS_STATE, .ro, .reset, .any⟩,
    ⟨F.DEC_CTX_STATUS_CONCEALING, .ro, .reset, .any⟩,
    ⟨F.DEC_CTX_STATUS_LAST_FAULT, .ro, .reset, .any⟩,
    ⟨F.DEC_CTX_STATUS_QUEUED, .ro, .reset, .any⟩,
    ⟨F.DEC_CTX_STATUS_CONSEC_FAULTS, .ro, .reset, .any⟩]⟩,
  ⟨.DEC_CTX_STREAM, .dec, 0x1014, [(64, 0x40)], false, [
    ⟨F.DEC_CTX_STREAM_ID, .ro, .reset, .any⟩]⟩,
  ⟨.DEC_CTX_CAUSE, .dec, 0x1018, [(64, 0x40)], false, [
    ⟨F.DEC_CTX_CAUSE_SLICE, .w1c, .reset, .any⟩,
    ⟨F.DEC_CTX_CAUSE_SKIPPED, .w1c, .reset, .any⟩,
    ⟨F.DEC_CTX_CAUSE_NEED_KEY, .w1c, .reset, .any⟩,
    ⟨F.DEC_CTX_CAUSE_STATE, .w1c, .reset, .any⟩,
    ⟨F.DEC_CTX_CAUSE_RESET, .w1c, .reset, .any⟩,
    ⟨F.DEC_CTX_CAUSE_FAULT, .w1c, .reset, .any⟩,
    ⟨F.DEC_CTX_CAUSE_CONCEALED, .w1c, .reset, .any⟩,
    ⟨F.DEC_CTX_CAUSE_PIC_DONE, .w1c, .reset, .any⟩]⟩,
  ⟨.DEC_CTX_MASK, .dec, 0x101C, [(64, 0x40)], false, [
    ⟨F.DEC_CTX_MASK_SLICE, .rw, .reset, .any⟩,
    ⟨F.DEC_CTX_MASK_SKIPPED, .rw, .reset, .any⟩,
    ⟨F.DEC_CTX_MASK_NEED_KEY, .rw, .reset, .any⟩,
    ⟨F.DEC_CTX_MASK_STATE, .rw, .reset, .any⟩,
    ⟨F.DEC_CTX_MASK_RESET, .rw, .reset, .any⟩,
    ⟨F.DEC_CTX_MASK_FAULT, .rw, .reset, .any⟩,
    ⟨F.DEC_CTX_MASK_CONCEALED, .rw, .reset, .any⟩,
    ⟨F.DEC_CTX_MASK_PIC_DONE, .rw, .reset, .any⟩]⟩,
  ⟨.DEC_CTX_PICS, .dec, 0x1020, [(64, 0x40)], true, [
    ⟨F.DEC_CTX_PICS_DECODED, .ro, .reset, .any⟩]⟩,
  ⟨.DEC_CTX_CONCEALED, .dec, 0x1028, [(64, 0x40)], false, [
    ⟨F.DEC_CTX_CONCEALED_COUNT, .ro, .reset, .any⟩]⟩,
  ⟨.DEC_CTX_FAULTS, .dec, 0x102C, [(64, 0x40)], false, [
    ⟨F.DEC_CTX_FAULTS_COUNT, .ro, .reset, .any⟩]⟩,
  ⟨.DEC_CTX_SKIPPED, .dec, 0x1030, [(64, 0x40)], false, [
    ⟨F.DEC_CTX_SKIPPED_COUNT, .ro, .reset, .any⟩]⟩,
  ⟨.DEC_CTX_DROPPED, .dec, 0x1034, [(64, 0x40)], false, [
    ⟨F.DEC_CTX_DROPPED_COUNT, .ro, .reset, .any⟩]⟩,
  ⟨.DEC_CTX_LAST_POC, .dec, 0x1038, [(64, 0x40)], false, [
    ⟨F.DEC_CTX_LAST_POC_POC, .ro, .reset, .any⟩]⟩]

def regs_dec_2 : List RegDesc := [
  ⟨.DEC_CTX_BS, .dec, 0x103C, [(64, 0x40)], false, [
    ⟨F.DEC_CTX_BS_BS_KIB, .ro, .reset, .any⟩]⟩]

/-- The registers of the DEC block. -/
def regs_dec : List RegDesc :=
  regs_dec_0 ++ regs_dec_1 ++ regs_dec_2

def regs_enc_0 : List RegDesc := [
  ⟨.ENC_ADMIT, .enc, 0x0, [], false, [
    ⟨F.ENC_ADMIT_LIMIT, .rw, .load, .between 1 2000⟩,
    ⟨F.ENC_ADMIT_USED, .ro, .reset, .any⟩]⟩,
  ⟨.ENC_ADMIT_LAST, .enc, 0x4, [], false, [
    ⟨F.ENC_ADMIT_LAST_STATUS, .ro, .reset, .any⟩,
    ⟨F.ENC_ADMIT_LAST_CONTEXTS, .ro, .reset, .any⟩]⟩,
  ⟨.ENC_ADMIT_LAST_ID, .enc, 0x8, [], false, [
    ⟨F.ENC_ADMIT_LAST_ID_ID, .ro, .reset, .any⟩]⟩,
  ⟨.ENC_REFUSALS, .enc, 0xC, [], false, [
    ⟨F.ENC_REFUSALS_COUNT, .ro, .reset, .any⟩]⟩,
  ⟨.ENC_POOL_BASE, .enc, 0x10, [], true, [
    ⟨F.ENC_POOL_BASE_BASE, .ro, .load, .any⟩]⟩,
  ⟨.ENC_POOL_SIZE, .enc, 0x18, [], true, [
    ⟨F.ENC_POOL_SIZE_SIZE, .ro, .load, .any⟩]⟩,
  ⟨.ENC_KEY_REQ, .enc, 0x20, [], false, [
    ⟨F.ENC_KEY_REQ_ID, .wo, .reset, .any⟩]⟩,
  ⟨.ENC_LTR_REQ, .enc, 0x24, [], false, [
    ⟨F.ENC_LTR_REQ_ID, .wo, .reset, .any⟩]⟩,
  ⟨.ENC_KEY_DROPS, .enc, 0x28, [], false, [
    ⟨F.ENC_KEY_DROPS_COUNT, .ro, .reset, .any⟩]⟩,
  ⟨.ENC_NODE_CAUSE, .enc, 0x2C, [], false, [
    ⟨F.ENC_NODE_CAUSE_TROUBLE, .w1c, .reset, .any⟩,
    ⟨F.ENC_NODE_CAUSE_REFUSED, .w1c, .reset, .any⟩]⟩,
  ⟨.ENC_NODE_MASK, .enc, 0x30, [], false, [
    ⟨F.ENC_NODE_MASK_TROUBLE, .rw, .load, .any⟩,
    ⟨F.ENC_NODE_MASK_REFUSED, .rw, .load, .any⟩]⟩,
  ⟨.ENC_TROUBLE, .enc, 0x34, [], false, [
    ⟨F.ENC_TROUBLE_BAD_VALUE, .w1c, .sticky, .any⟩,
    ⟨F.ENC_TROUBLE_CAPTURE_LOST, .w1c, .sticky, .any⟩,
    ⟨F.ENC_TROUBLE_CAP_HIT, .w1c, .sticky, .any⟩,
    ⟨F.ENC_TROUBLE_ADMIT_REFUSED, .w1c, .sticky, .any⟩]⟩]

def regs_enc_1 : List RegDesc := [
  ⟨.ENC_ENGINE_BUSY, .enc, 0x38, [], false, [
    ⟨F.ENC_ENGINE_BUSY_BUSY, .ro, .reset, .any⟩]⟩,
  ⟨.ENC_PRIV_RING_BASE, .enc, 0x40, [], true, [
    ⟨F.ENC_PRIV_RING_BASE_BASE, .ro, .load, .any⟩]⟩,
  ⟨.ENC_PRIV_RING_CTL, .enc, 0x48, [], false, [
    ⟨F.ENC_PRIV_RING_CTL_SIZE, .ro, .load, .any⟩]⟩,
  ⟨.ENC_PRIV_RING_RD, .enc, 0x4C, [], false, [
    ⟨F.ENC_PRIV_RING_RD_RD, .rw, .reset, .any⟩]⟩,
  ⟨.ENC_PRIV_DROPS, .enc, 0x50, [], false, [
    ⟨F.ENC_PRIV_DROPS_COUNT, .ro, .reset, .any⟩]⟩,
  ⟨.ENC_PRIV_RING_WR, .enc, 0x54, [], false, [
    ⟨F.ENC_PRIV_RING_WR_WR, .ro, .reset, .any⟩]⟩,
  ⟨.ENC_CTX_CFG, .enc, 0x1000, [(16, 0x80)], false, [
    ⟨F.ENC_CTX_CFG_VALID, .ro, .reset, .any⟩,
    ⟨F.ENC_CTX_CFG_STATE, .ro, .reset, .any⟩,
    ⟨F.ENC_CTX_CFG_ESS, .ro, .reset, .any⟩,
    ⟨F.ENC_CTX_CFG_PRIV, .ro, .reset, .any⟩,
    ⟨F.ENC_CTX_CFG_MAIN10, .ro, .reset, .any⟩,
    ⟨F.ENC_CTX_CFG_PORT, .ro, .reset, .any⟩,
    ⟨F.ENC_CTX_CFG_START, .ro, .reset, .any⟩,
    ⟨F.ENC_CTX_CFG_HASH, .ro, .reset, .any⟩,
    ⟨F.ENC_CTX_CFG_ROWS, .ro, .reset, .any⟩,
    ⟨F.ENC_CTX_CFG_SCALE, .ro, .reset, .any⟩,
    ⟨F.ENC_CTX_CFG_DIV, .ro, .reset, .any⟩]⟩,
  ⟨.ENC_CTX_STREAM, .enc, 0x1004, [(16, 0x80)], false, [
    ⟨F.ENC_CTX_STREAM_ID, .ro, .reset, .any⟩]⟩,
  ⟨.ENC_CTX_GEOM, .enc, 0x1008, [(16, 0x80)], false, [
    ⟨F.ENC_CTX_GEOM_WIDTH, .ro, .reset, .any⟩,
    ⟨F.ENC_CTX_GEOM_HEIGHT, .ro, .reset, .any⟩]⟩,
  ⟨.ENC_CTX_CROP, .enc, 0x100C, [(16, 0x80)], false, [
    ⟨F.ENC_CTX_CROP_CROP_X, .ro, .reset, .any⟩,
    ⟨F.ENC_CTX_CROP_CROP_Y, .ro, .reset, .any⟩]⟩,
  ⟨.ENC_CTX_RC, .enc, 0x1010, [(16, 0x80)], false, [
    ⟨F.ENC_CTX_RC_QTARGET, .rw, .reset, .any⟩,
    ⟨F.ENC_CTX_RC_QMAX, .rw, .reset, .any⟩,
    ⟨F.ENC_CTX_RC_QMIN, .rw, .reset, .any⟩,
    ⟨F.ENC_CTX_RC_QSTEP, .rw, .reset, .between 1 15⟩]⟩,
  ⟨.ENC_CTX_PIC_CAP, .enc, 0x1014, [(16, 0x80)], false, [
    ⟨F.ENC_CTX_PIC_CAP_PIC_CAP, .rw, .reset, .between 1 4294967295⟩]⟩]

def regs_enc_2 : List RegDesc := [
  ⟨.ENC_CTX_WIN_CAP, .enc, 0x1018, [(16, 0x80)], false, [
    ⟨F.ENC_CTX_WIN_CAP_WIN_CAP, .rw, .reset, .between 1 4294967295⟩]⟩,
  ⟨.ENC_CTX_WIN, .enc, 0x101C, [(16, 0x80)], false, [
    ⟨F.ENC_CTX_WIN_WIN_PICS, .rw, .reset, .between 1 255⟩]⟩,
  ⟨.ENC_CTX_KEY, .enc, 0x1020, [(16, 0x80)], false, [
    ⟨F.ENC_CTX_KEY_TYPE, .rw, .reset, .any⟩,
    ⟨F.ENC_CTX_KEY_GOP, .rw, .reset, .any⟩,
    ⟨F.ENC_CTX_KEY_HOLD, .rw, .reset, .any⟩]⟩,
  ⟨.ENC_CTX_LTR, .enc, 0x1024, [(16, 0x80)], false, [
    ⟨F.ENC_CTX_LTR_LTR_PERIOD, .rw, .reset, .any⟩,
    ⟨F.ENC_CTX_LTR_HELD, .ro, .reset, .any⟩,
    ⟨F.ENC_CTX_LTR_REFRESH, .rw, .reset, .any⟩]⟩,
  ⟨.ENC_CTX_STATUS, .enc, 0x1028, [(16, 0x80)], false, [
    ⟨F.ENC_CTX_STATUS_Q_NOW, .ro, .reset, .any⟩,
    ⟨F.ENC_CTX_STATUS_WIN_USED, .ro, .reset, .any⟩]⟩,
  ⟨.ENC_STAT, .enc, 0x1030, [(16, 0x80)], false, [
    ⟨F.ENC_STAT_CAP_HIT, .ro, .reset, .any⟩,
    ⟨F.ENC_STAT_KEY, .ro, .reset, .any⟩,
    ⟨F.ENC_STAT_REFRESH, .ro, .reset, .any⟩,
    ⟨F.ENC_STAT_LTR_MARK, .ro, .reset, .any⟩,
    ⟨F.ENC_STAT_ROWS_STARVED, .ro, .reset, .any⟩,
    ⟨F.ENC_STAT_ROWS_LOST, .ro, .reset, .any⟩,
    ⟨F.ENC_STAT_QP, .ro, .reset, .any⟩]⟩,
  ⟨.ENC_STAT_BYTES, .enc, 0x1034, [(16, 0x80)], false, [
    ⟨F.ENC_STAT_BYTES_BYTES, .ro, .reset, .any⟩]⟩,
  ⟨.ENC_STAT_BUDGET, .enc, 0x1038, [(16, 0x80)], false, [
    ⟨F.ENC_STAT_BUDGET_BUDGET, .ro, .reset, .any⟩]⟩,
  ⟨.ENC_STAT_FRAME, .enc, 0x103C, [(16, 0x80)], false, [
    ⟨F.ENC_STAT_FRAME_FRAME_NUM, .ro, .reset, .any⟩]⟩,
  ⟨.ENC_CTX_PICS, .enc, 0x1040, [(16, 0x80)], true, [
    ⟨F.ENC_CTX_PICS_CODED, .ro, .reset, .any⟩]⟩,
  ⟨.ENC_CTX_CAP_HITS, .enc, 0x1048, [(16, 0x80)], false, [
    ⟨F.ENC_CTX_CAP_HITS_COUNT, .ro, .reset, .any⟩]⟩,
  ⟨.ENC_CTX_SKIPPED, .enc, 0x104C, [(16, 0x80)], false, [
    ⟨F.ENC_CTX_SKIPPED_COUNT, .ro, .reset, .any⟩]⟩]

def regs_enc_3 : List RegDesc := [
  ⟨.ENC_CTX_KEYS, .enc, 0x1050, [(16, 0x80)], false, [
    ⟨F.ENC_CTX_KEYS_COUNT, .ro, .reset, .any⟩]⟩,
  ⟨.ENC_CTX_ROWS_STARVED, .enc, 0x1054, [(16, 0x80)], false, [
    ⟨F.ENC_CTX_ROWS_STARVED_COUNT, .ro, .reset, .any⟩]⟩,
  ⟨.ENC_CTX_CAUSE, .enc, 0x1060, [(16, 0x80)], false, [
    ⟨F.ENC_CTX_CAUSE_STATS_DROPPED, .w1c, .reset, .any⟩,
    ⟨F.ENC_CTX_CAUSE_ROWS_LOST, .w1c, .reset, .any⟩,
    ⟨F.ENC_CTX_CAUSE_STATE, .w1c, .reset, .any⟩,
    ⟨F.ENC_CTX_CAUSE_SKIPPED, .w1c, .reset, .any⟩,
    ⟨F.ENC_CTX_CAUSE_KEY_DONE, .w1c, .reset, .any⟩,
    ⟨F.ENC_CTX_CAUSE_CAP_HIT, .w1c, .reset, .any⟩,
    ⟨F.ENC_CTX_CAUSE_PIC_DONE, .w1c, .reset, .any⟩,
    ⟨F.ENC_CTX_CAUSE_SLICE, .w1c, .reset, .any⟩]⟩,
  ⟨.ENC_CTX_MASK, .enc, 0x1064, [(16, 0x80)], false, [
    ⟨F.ENC_CTX_MASK_STATS_DROPPED, .rw, .reset, .any⟩,
    ⟨F.ENC_CTX_MASK_ROWS_LOST, .rw, .reset, .any⟩,
    ⟨F.ENC_CTX_MASK_STATE, .rw, .reset, .any⟩,
    ⟨F.ENC_CTX_MASK_SKIPPED, .rw, .reset, .any⟩,
    ⟨F.ENC_CTX_MASK_KEY_DONE, .rw, .reset, .any⟩,
    ⟨F.ENC_CTX_MASK_CAP_HIT, .rw, .reset, .any⟩,
    ⟨F.ENC_CTX_MASK_PIC_DONE, .rw, .reset, .any⟩,
    ⟨F.ENC_CTX_MASK_SLICE, .rw, .reset, .any⟩]⟩]

/-- The registers of the ENC block. -/
def regs_enc : List RegDesc :=
  regs_enc_0 ++ regs_enc_1 ++ regs_enc_2 ++ regs_enc_3

def regs_lut_0 : List RegDesc := [
  ⟨.LUT_CTL, .lut, 0x0, [], false, [
    ⟨F.LUT_CTL_PRE_EN, .rw, .load, .any⟩,
    ⟨F.LUT_CTL_CUBE_EN, .rw, .load, .any⟩,
    ⟨F.LUT_CTL_POST_EN, .rw, .load, .any⟩,
    ⟨F.LUT_CTL_DITHER, .rw, .load, .any⟩,
    ⟨F.LUT_CTL_FORCED_BYPASS, .ro, .reset, .any⟩,
    ⟨F.LUT_CTL_ACTIVE, .ro, .reset, .any⟩]⟩,
  ⟨.LUT_SWAP, .lut, 0x4, [], false, [
    ⟨F.LUT_SWAP_TABLES, .wo, .reset, .any⟩]⟩,
  ⟨.LUT_CRC_PRE, .lut, 0x8, [], false, [
    ⟨F.LUT_CRC_PRE_CRC, .rw, .reset, .any⟩]⟩,
  ⟨.LUT_CRC_CUBE, .lut, 0xC, [], false, [
    ⟨F.LUT_CRC_CUBE_CRC, .rw, .reset, .any⟩]⟩,
  ⟨.LUT_CRC_POST, .lut, 0x10, [], false, [
    ⟨F.LUT_CRC_POST_CRC, .rw, .reset, .any⟩]⟩,
  ⟨.LUT_SWAP_STATUS, .lut, 0x14, [], false, [
    ⟨F.LUT_SWAP_STATUS_PENDING, .ro, .reset, .any⟩,
    ⟨F.LUT_SWAP_STATUS_CHECKING, .ro, .reset, .any⟩,
    ⟨F.LUT_SWAP_STATUS_LAST, .ro, .reset, .any⟩]⟩,
  ⟨.LUT_SWAP_FRAME, .lut, 0x18, [], true, [
    ⟨F.LUT_SWAP_FRAME_FRAME, .ro, .reset, .any⟩]⟩,
  ⟨.LUT_TROUBLE, .lut, 0x20, [], false, [
    ⟨F.LUT_TROUBLE_BAD_VALUE, .w1c, .sticky, .any⟩,
    ⟨F.LUT_TROUBLE_ECC_FATAL, .w1c, .sticky, .any⟩,
    ⟨F.LUT_TROUBLE_SWAP_REFUSED, .w1c, .sticky, .any⟩,
    ⟨F.LUT_TROUBLE_WRITE_DROPPED, .w1c, .sticky, .any⟩]⟩,
  ⟨.LUT_ECC_COUNT, .lut, 0x24, [], false, [
    ⟨F.LUT_ECC_COUNT_COUNT, .ro, .reset, .any⟩]⟩,
  ⟨.LUT_WRITE_DROPS, .lut, 0x28, [], false, [
    ⟨F.LUT_WRITE_DROPS_COUNT, .ro, .reset, .any⟩]⟩,
  ⟨.LUT_PRE_WINDOW, .lut, 0x10000, [(3, 0x1000), (1024, 0x4)], false, [
    ⟨F.LUT_PRE_WINDOW_ENTRY, .rw, .load, .any⟩]⟩,
  ⟨.LUT_CUBE_WINDOW, .lut, 0x20000, [(35937, 0x8)], true, [
    ⟨F.LUT_CUBE_WINDOW_R, .rw, .load, .any⟩,
    ⟨F.LUT_CUBE_WINDOW_G, .rw, .load, .any⟩,
    ⟨F.LUT_CUBE_WINDOW_B, .rw, .load, .any⟩]⟩]

def regs_lut_1 : List RegDesc := [
  ⟨.LUT_POST_WINDOW, .lut, 0x70000, [(3, 0x4000), (4096, 0x4)], false, [
    ⟨F.LUT_POST_WINDOW_ENTRY, .rw, .load, .any⟩]⟩]

/-- The registers of the LUT block. -/
def regs_lut : List RegDesc :=
  regs_lut_0 ++ regs_lut_1

def regs_sig_0 : List RegDesc := [
  ⟨.SIG_CTL, .sig, 0x0, [], false, [
    ⟨F.SIG_CTL_EN, .rw, .load, .any⟩,
    ⟨F.SIG_CTL_SUSPENDED, .ro, .reset, .any⟩]⟩,
  ⟨.SIG_CONTRAST, .sig, 0x4, [], false, [
    ⟨F.SIG_CONTRAST_MIN, .ro, .load, .between 32 512⟩]⟩,
  ⟨.SIG_FAILED, .sig, 0x8, [], false, [
    ⟨F.SIG_FAILED_REGION, .w1c, .sticky, .any⟩]⟩,
  ⟨.SIG_PERSIST, .sig, 0xC, [], false, [
    ⟨F.SIG_PERSIST_REGION, .w1c, .sticky, .any⟩]⟩,
  ⟨.SIG_TROUBLE, .sig, 0x10, [], false, [
    ⟨F.SIG_TROUBLE_BAD_VALUE, .w1c, .sticky, .any⟩,
    ⟨F.SIG_TROUBLE_GUARD_PERSIST, .w1c, .sticky, .any⟩,
    ⟨F.SIG_TROUBLE_GUARD_FAIL, .w1c, .sticky, .any⟩]⟩,
  ⟨.SIG_REGION_CTL, .sig, 0x100, [(16, 0x80)], false, [
    ⟨F.SIG_REGION_CTL_EN, .rw, .load, .any⟩,
    ⟨F.SIG_REGION_CTL_BYPASS, .rw, .load, .any⟩,
    ⟨F.SIG_REGION_CTL_CMP_EXP, .rw, .load, .any⟩,
    ⟨F.SIG_REGION_CTL_MATCH, .rw, .load, .any⟩,
    ⟨F.SIG_REGION_CTL_OUT_EXP, .rw, .load, .any⟩,
    ⟨F.SIG_REGION_CTL_ESCALATE, .rw, .load, .any⟩,
    ⟨F.SIG_REGION_CTL_CMP_VALID, .rw, .load, .any⟩,
    ⟨F.SIG_REGION_CTL_OUT_VALID, .rw, .load, .any⟩,
    ⟨F.SIG_REGION_CTL_FAIL_LIMIT, .rw, .load, .between 1 15⟩,
    ⟨F.SIG_REGION_CTL_LAYER, .rw, .load, .any⟩]⟩,
  ⟨.SIG_REGION_POS, .sig, 0x104, [(16, 0x80)], false, [
    ⟨F.SIG_REGION_POS_X, .rw, .load, .any⟩,
    ⟨F.SIG_REGION_POS_Y, .rw, .load, .any⟩]⟩,
  ⟨.SIG_REGION_SIZE, .sig, 0x108, [(16, 0x80)], false, [
    ⟨F.SIG_REGION_SIZE_W, .rw, .load, .between 1 65535⟩,
    ⟨F.SIG_REGION_SIZE_H, .rw, .load, .between 1 65535⟩]⟩,
  ⟨.SIG_REGION_STATUS, .sig, 0x10C, [(16, 0x80)], false, [
    ⟨F.SIG_REGION_STATUS_CMP_FAIL, .ro, .reset, .any⟩,
    ⟨F.SIG_REGION_STATUS_OUT_FAIL, .ro, .reset, .any⟩,
    ⟨F.SIG_REGION_STATUS_CAUSE, .ro, .reset, .any⟩,
    ⟨F.SIG_REGION_STATUS_MATCH_IDX, .ro, .reset, .any⟩,
    ⟨F.SIG_REGION_STATUS_CONSEC, .ro, .reset, .any⟩]⟩,
  ⟨.SIG_REGION_CMP, .sig, 0x110, [(16, 0x80)], false, [
    ⟨F.SIG_REGION_CMP_SIG, .ro, .reset, .any⟩]⟩,
  ⟨.SIG_REGION_OUT, .sig, 0x114, [(16, 0x80)], false, [
    ⟨F.SIG_REGION_OUT_SIG, .ro, .reset, .any⟩]⟩,
  ⟨.SIG_REGION_FRAME, .sig, 0x118, [(16, 0x80)], true, [
    ⟨F.SIG_REGION_FRAME_FRAME, .ro, .reset, .any⟩]⟩]

def regs_sig_1 : List RegDesc := [
  ⟨.SIG_EXP_CMP, .sig, 0x120, [(16, 0x80), (4, 0x4)], false, [
    ⟨F.SIG_EXP_CMP_EXP, .rw, .load, .any⟩]⟩,
  ⟨.SIG_EXP_OUT, .sig, 0x130, [(16, 0x80), (4, 0x4)], false, [
    ⟨F.SIG_EXP_OUT_EXP, .rw, .load, .any⟩]⟩,
  ⟨.SIG_REGION_FAILS, .sig, 0x140, [(16, 0x80)], false, [
    ⟨F.SIG_REGION_FAILS_COUNT, .ro, .reset, .any⟩]⟩]

/-- The registers of the SIG block. -/
def regs_sig : List RegDesc :=
  regs_sig_0 ++ regs_sig_1

def regs_scn_0 : List RegDesc := [
  ⟨.SCN_CTL, .scn, 0x0, [], false, [
    ⟨F.SCN_CTL_EN, .rw, .load, .any⟩,
    ⟨F.SCN_CTL_DSC_EN, .rw, .load, .any⟩,
    ⟨F.SCN_CTL_RATE_MAX, .rw, .load, .any⟩,
    ⟨F.SCN_CTL_RATE_MIN, .rw, .load, .any⟩,
    ⟨F.SCN_CTL_LANES_MIN, .rw, .load, .oneOf [1, 2, 4]⟩,
    ⟨F.SCN_CTL_BPC10, .rw, .load, .any⟩,
    ⟨F.SCN_CTL_STANDBY_OFF, .rw, .load, .any⟩,
    ⟨F.SCN_CTL_FAULT_HOLD, .rw, .load, .between 0 600⟩]⟩,
  ⟨.SCN_STATUS, .scn, 0x4, [], false, [
    ⟨F.SCN_STATUS_PANEL, .ro, .reset, .any⟩,
    ⟨F.SCN_STATUS_CARD, .ro, .reset, .any⟩,
    ⟨F.SCN_STATUS_ALIGNED, .ro, .reset, .any⟩,
    ⟨F.SCN_STATUS_HPD, .ro, .reset, .any⟩,
    ⟨F.SCN_STATUS_FALLBACK, .ro, .reset, .any⟩,
    ⟨F.SCN_STATUS_RATE, .ro, .reset, .any⟩,
    ⟨F.SCN_STATUS_LANES, .ro, .reset, .any⟩,
    ⟨F.SCN_STATUS_DSC, .ro, .reset, .any⟩]⟩,
  ⟨.SCN_H, .scn, 0x8, [], false, [
    ⟨F.SCN_H_HTOTAL, .rw, .load, .between 1 65535⟩,
    ⟨F.SCN_H_HACTIVE, .rw, .load, .between 1 65535⟩]⟩,
  ⟨.SCN_HSYNC, .scn, 0xC, [], false, [
    ⟨F.SCN_HSYNC_HPOL, .rw, .load, .any⟩,
    ⟨F.SCN_HSYNC_HFP, .rw, .load, .any⟩,
    ⟨F.SCN_HSYNC_HSYNC, .rw, .load, .between 1 8191⟩]⟩,
  ⟨.SCN_V, .scn, 0x10, [], false, [
    ⟨F.SCN_V_VTOTAL, .rw, .load, .between 1 65535⟩,
    ⟨F.SCN_V_VACTIVE, .rw, .load, .between 1 65535⟩]⟩,
  ⟨.SCN_VSYNC, .scn, 0x14, [], false, [
    ⟨F.SCN_VSYNC_VPOL, .rw, .load, .any⟩,
    ⟨F.SCN_VSYNC_VFP, .rw, .load, .any⟩,
    ⟨F.SCN_VSYNC_VSYNC, .rw, .load, .between 1 4095⟩]⟩,
  ⟨.SCN_RATE, .scn, 0x18, [], false, [
    ⟨F.SCN_RATE_KHZ, .ro, .reset, .any⟩]⟩,
  ⟨.SCN_FRAME, .scn, 0x20, [], true, [
    ⟨F.SCN_FRAME_N, .ro, .reset, .any⟩]⟩,
  ⟨.SCN_START_TIME, .scn, 0x28, [], true, [
    ⟨F.SCN_START_TIME_START, .ro, .reset, .any⟩]⟩,
  ⟨.SCN_FLIP_TIME, .scn, 0x30, [], true, [
    ⟨F.SCN_FLIP_TIME_FLIP, .ro, .reset, .any⟩]⟩,
  ⟨.SCN_ALIGN, .scn, 0x38, [], false, [
    ⟨F.SCN_ALIGN_E, .ro, .reset, .any⟩]⟩,
  ⟨.SCN_LAG, .scn, 0x3C, [], false, [
    ⟨F.SCN_LAG_LAG, .ro, .reset, .any⟩]⟩]

def regs_scn_1 : List RegDesc := [
  ⟨.SCN_DSC, .scn, 0x40, [], false, [
    ⟨F.SCN_DSC_BPP, .rw, .load, .between 128 255⟩,
    ⟨F.SCN_DSC_SLICES, .rw, .load, .oneOf [1, 2, 4, 8]⟩,
    ⟨F.SCN_DSC_SLICE_H, .rw, .load, .between 8 2160⟩]⟩,
  ⟨.SCN_PANEL_UP, .scn, 0x44, [], false, [
    ⟨F.SCN_PANEL_UP_T_HPD, .rw, .load, .between 1 5000⟩,
    ⟨F.SCN_PANEL_UP_T_VIDEO_BL, .rw, .load, .between 0 2000⟩]⟩,
  ⟨.SCN_PANEL_DOWN, .scn, 0x48, [], false, [
    ⟨F.SCN_PANEL_DOWN_T_BL_VIDEO, .rw, .load, .between 0 1000⟩,
    ⟨F.SCN_PANEL_DOWN_T_LINK_VDD, .rw, .load, .between 0 1000⟩,
    ⟨F.SCN_PANEL_DOWN_T_OFF, .rw, .load, .between 0 2000⟩]⟩,
  ⟨.SCN_BL, .scn, 0x4C, [], false, [
    ⟨F.SCN_BL_SYNC, .rw, .load, .any⟩,
    ⟨F.SCN_BL_DUTY, .rw, .load, .any⟩,
    ⟨F.SCN_BL_FREQ, .rw, .load, .between 100 50000⟩]⟩,
  ⟨.SCN_BL_APPLIED, .scn, 0x50, [], true, [
    ⟨F.SCN_BL_APPLIED_FRAME, .ro, .reset, .any⟩]⟩,
  ⟨.SCN_AUX_CTL, .scn, 0x60, [], false, [
    ⟨F.SCN_AUX_CTL_GO, .sc, .reset, .any⟩,
    ⟨F.SCN_AUX_CTL_OP, .rw, .reset, .any⟩,
    ⟨F.SCN_AUX_CTL_LEN, .rw, .reset, .between 0 16⟩,
    ⟨F.SCN_AUX_CTL_ADDR, .rw, .reset, .any⟩]⟩,
  ⟨.SCN_AUX_STATUS, .scn, 0x64, [], false, [
    ⟨F.SCN_AUX_STATUS_RESULT, .ro, .reset, .any⟩,
    ⟨F.SCN_AUX_STATUS_COUNT, .ro, .reset, .any⟩]⟩,
  ⟨.SCN_AUX_DATA, .scn, 0x68, [(4, 0x4)], false, [
    ⟨F.SCN_AUX_DATA_DATA, .rw, .reset, .any⟩]⟩,
  ⟨.SCN_TROUBLE, .scn, 0x80, [], false, [
    ⟨F.SCN_TROUBLE_BAD_VALUE, .w1c, .sticky, .any⟩,
    ⟨F.SCN_TROUBLE_AUX_FAIL, .w1c, .sticky, .any⟩,
    ⟨F.SCN_TROUBLE_ALIGN_LOST, .w1c, .sticky, .any⟩,
    ⟨F.SCN_TROUBLE_NO_HPD, .w1c, .sticky, .any⟩,
    ⟨F.SCN_TROUBLE_NO_FIT, .w1c, .sticky, .any⟩,
    ⟨F.SCN_TROUBLE_TRAIN_FAIL, .w1c, .sticky, .any⟩,
    ⟨F.SCN_TROUBLE_LINK_LOST, .w1c, .sticky, .any⟩]⟩,
  ⟨.SCN_LINK_LOSSES, .scn, 0x84, [], false, [
    ⟨F.SCN_LINK_LOSSES_COUNT, .ro, .reset, .any⟩]⟩]

/-- The registers of the SCN block. -/
def regs_scn : List RegDesc :=
  regs_scn_0 ++ regs_scn_1

def regs_tch_0 : List RegDesc := [
  ⟨.TCH_CTL, .tch, 0x0, [], false, [
    ⟨F.TCH_CTL_EN, .rw, .load, .any⟩,
    ⟨F.TCH_CTL_GLOVE, .rw, .load, .any⟩,
    ⟨F.TCH_CTL_RATE, .rw, .load, .between 0 2⟩,
    ⟨F.TCH_CTL_FAB_EN, .rw, .load, .any⟩,
    ⟨F.TCH_CTL_DOWN_CYCLES, .rw, .load, .between 1 4⟩,
    ⟨F.TCH_CTL_UP_CYCLES, .rw, .load, .between 1 7⟩]⟩,
  ⟨.TCH_STATUS, .tch, 0x4, [], false, [
    ⟨F.TCH_STATUS_STATE, .ro, .reset, .any⟩,
    ⟨F.TCH_STATUS_OVERFLOW, .ro, .reset, .any⟩,
    ⟨F.TCH_STATUS_NOISY, .ro, .reset, .any⟩,
    ⟨F.TCH_STATUS_WATER, .ro, .reset, .any⟩,
    ⟨F.TCH_STATUS_DEGRADED, .ro, .reset, .any⟩,
    ⟨F.TCH_STATUS_UNBASELINED, .ro, .reset, .any⟩,
    ⟨F.TCH_STATUS_CONTACTS, .ro, .reset, .any⟩,
    ⟨F.TCH_STATUS_FREQ, .ro, .reset, .any⟩,
    ⟨F.TCH_STATUS_CYCLE, .ro, .reset, .any⟩]⟩,
  ⟨.TCH_GEOM, .tch, 0x8, [], false, [
    ⟨F.TCH_GEOM_TX_COUNT, .ro, .load, .any⟩,
    ⟨F.TCH_GEOM_RX_COUNT, .ro, .load, .any⟩]⟩,
  ⟨.TCH_STEP, .tch, 0xC, [], false, [
    ⟨F.TCH_STEP_BARE, .rw, .load, .between 1000 10000⟩,
    ⟨F.TCH_STEP_GLOVE, .rw, .load, .between 1000 10000⟩]⟩,
  ⟨.TCH_TIMING, .tch, 0x10, [], false, [
    ⟨F.TCH_TIMING_SETTLE, .rw, .load, .between 1 20⟩,
    ⟨F.TCH_TIMING_LISTEN, .rw, .load, .between 50 1000⟩]⟩,
  ⟨.TCH_PHASE, .tch, 0x14, [], false, [
    ⟨F.TCH_PHASE_NS, .rw, .load, .any⟩]⟩,
  ⟨.TCH_FREQ, .tch, 0x20, [(8, 0x4)], false, [
    ⟨F.TCH_FREQ_EN, .rw, .load, .any⟩,
    ⟨F.TCH_FREQ_HZ, .rw, .load, .between 50000 500000⟩]⟩,
  ⟨.TCH_HOP, .tch, 0x40, [], false, [
    ⟨F.TCH_HOP_NOISE_HIGH, .rw, .load, .between 1 4095⟩,
    ⟨F.TCH_HOP_NOISE_MAX, .rw, .load, .any⟩,
    ⟨F.TCH_HOP_HOP_COUNT, .rw, .load, .between 1 15⟩]⟩,
  ⟨.TCH_THRESH_BARE, .tch, 0x44, [], false, [
    ⟨F.TCH_THRESH_BARE_ON, .rw, .load, .any⟩,
    ⟨F.TCH_THRESH_BARE_OFF, .rw, .load, .between 1 65535⟩]⟩,
  ⟨.TCH_THRESH_GLOVE, .tch, 0x48, [], false, [
    ⟨F.TCH_THRESH_GLOVE_ON, .rw, .load, .any⟩,
    ⟨F.TCH_THRESH_GLOVE_OFF, .rw, .load, .between 1 65535⟩]⟩,
  ⟨.TCH_FUSE, .tch, 0x4C, [], false, [
    ⟨F.TCH_FUSE_SELF_MIN, .rw, .load, .between 1 65535⟩,
    ⟨F.TCH_FUSE_Q_RATIO, .rw, .load, .between 1 16⟩]⟩,
  ⟨.TCH_WATER, .tch, 0x50, [], false, [
    ⟨F.TCH_WATER_NEG, .rw, .load, .between 1 65535⟩,
    ⟨F.TCH_WATER_NODES, .rw, .load, .between 1 4096⟩]⟩]

def regs_tch_1 : List RegDesc := [
  ⟨.TCH_TRACK, .tch, 0x54, [], false, [
    ⟨F.TCH_TRACK_DIST, .rw, .load, .between 1 65535⟩]⟩,
  ⟨.TCH_BASE, .tch, 0x58, [], false, [
    ⟨F.TCH_BASE_DRIFT_SHIFT, .rw, .load, .between 4 12⟩,
    ⟨F.TCH_BASE_STABLE_TOL, .rw, .load, .between 1 65535⟩]⟩,
  ⟨.TCH_BASE2, .tch, 0x5C, [], false, [
    ⟨F.TCH_BASE2_RELEASE_MARGIN, .rw, .load, .between 1 65535⟩,
    ⟨F.TCH_BASE2_UNCONF_TIME, .rw, .load, .between 100 60000⟩]⟩,
  ⟨.TCH_HOLD, .tch, 0x60, [], false, [
    ⟨F.TCH_HOLD_MINUTES, .rw, .load, .between 0 1440⟩]⟩,
  ⟨.TCH_MAP_O, .tch, 0x70, [], false, [
    ⟨F.TCH_MAP_O_OX, .rw, .load, .any⟩,
    ⟨F.TCH_MAP_O_OY, .rw, .load, .any⟩]⟩,
  ⟨.TCH_MAP_SX, .tch, 0x74, [], false, [
    ⟨F.TCH_MAP_SX_SX, .rw, .load, .between 1 4294967295⟩]⟩,
  ⟨.TCH_MAP_SY, .tch, 0x78, [], false, [
    ⟨F.TCH_MAP_SY_SY, .rw, .load, .between 1 4294967295⟩]⟩,
  ⟨.TCH_MAP_CTL, .tch, 0x7C, [], false, [
    ⟨F.TCH_MAP_CTL_SWAP, .rw, .load, .any⟩]⟩,
  ⟨.TCH_ROUTE, .tch, 0x80, [], false, [
    ⟨F.TCH_ROUTE_RX_TIMEOUT, .rw, .load, .between 10 1000⟩,
    ⟨F.TCH_ROUTE_DEST, .rw, .load, .any⟩]⟩,
  ⟨.TCH_CURSOR, .tch, 0x84, [], false, [
    ⟨F.TCH_CURSOR_REMOTE, .rw, .load, .any⟩,
    ⟨F.TCH_CURSOR_SIZE, .rw, .load, .between 8 128⟩,
    ⟨F.TCH_CURSOR_NODE, .rw, .load, .any⟩]⟩,
  ⟨.TCH_CURSOR_COLOR, .tch, 0x88, [(2, 0x4)], false, [
    ⟨F.TCH_CURSOR_COLOR_COLOR, .rw, .load, .any⟩]⟩,
  ⟨.TCH_PROX_CFG, .tch, 0x90, [], false, [
    ⟨F.TCH_PROX_CFG_GROUP_EN, .rw, .loadNotSlp, .any⟩,
    ⟨F.TCH_PROX_CFG_RATE, .rw, .loadNotSlp, .between 1 50⟩,
    ⟨F.TCH_PROX_CFG_DEBOUNCE, .rw, .loadNotSlp, .between 1 15⟩,
    ⟨F.TCH_PROX_CFG_THRESH, .rw, .loadNotSlp, .between 1 10000⟩]⟩]

def regs_tch_2 : List RegDesc := [
  ⟨.TCH_PROX_STATUS, .tch, 0x94, [], false, [
    ⟨F.TCH_PROX_STATUS_DETECT, .ro, .resetNotSlp, .any⟩]⟩,
  ⟨.TCH_PROX_COUNT, .tch, 0xA0, [(4, 0x4)], false, [
    ⟨F.TCH_PROX_COUNT_COUNT, .ro, .resetNotSlp, .any⟩]⟩,
  ⟨.TCH_TEST, .tch, 0xC0, [], false, [
    ⟨F.TCH_TEST_GO, .sc, .reset, .any⟩,
    ⟨F.TCH_TEST_PASS, .ro, .reset, .any⟩]⟩,
  ⟨.TCH_TEST_LIMITS, .tch, 0xC4, [], false, [
    ⟨F.TCH_TEST_LIMITS_OPEN_MIN, .rw, .load, .any⟩,
    ⟨F.TCH_TEST_LIMITS_SHORT_MAX, .rw, .load, .between 1 65535⟩]⟩,
  ⟨.TCH_TEST_COUPLE, .tch, 0xC8, [], false, [
    ⟨F.TCH_TEST_COUPLE_COUPLE_MAX, .rw, .load, .between 1 65535⟩]⟩,
  ⟨.TCH_TEST_OPEN, .tch, 0xD0, [(4, 0x4)], false, [
    ⟨F.TCH_TEST_OPEN_PINS, .ro, .reset, .any⟩]⟩,
  ⟨.TCH_TEST_SHORT, .tch, 0xE0, [(4, 0x4)], false, [
    ⟨F.TCH_TEST_SHORT_PINS, .ro, .reset, .any⟩]⟩,
  ⟨.TCH_REPORT, .tch, 0x100, [(8, 0x4)], false, [
    ⟨F.TCH_REPORT_REPORT, .ro, .reset, .any⟩]⟩,
  ⟨.TCH_REPORT_STATUS, .tch, 0x120, [], false, [
    ⟨F.TCH_REPORT_STATUS_DROPPED, .ro, .reset, .any⟩,
    ⟨F.TCH_REPORT_STATUS_COUNT, .ro, .reset, .any⟩]⟩,
  ⟨.TCH_REBASE, .tch, 0x124, [], false, [
    ⟨F.TCH_REBASE_SLOT, .wo, .reset, .any⟩]⟩,
  ⟨.TCH_TROUBLE, .tch, 0x128, [], false, [
    ⟨F.TCH_TROUBLE_BAD_VALUE, .w1c, .sticky, .any⟩,
    ⟨F.TCH_TROUBLE_RX_BAD, .w1c, .sticky, .any⟩,
    ⟨F.TCH_TROUBLE_FIFO_FULL, .w1c, .sticky, .any⟩,
    ⟨F.TCH_TROUBLE_RX_SILENT, .w1c, .sticky, .any⟩,
    ⟨F.TCH_TROUBLE_SCAN_LATE, .w1c, .sticky, .any⟩,
    ⟨F.TCH_TROUBLE_SCAN_DROPPED, .w1c, .sticky, .any⟩,
    ⟨F.TCH_TROUBLE_PIN_FAULT, .w1c, .sticky, .any⟩,
    ⟨F.TCH_TROUBLE_NOISY, .w1c, .sticky, .any⟩,
    ⟨F.TCH_TROUBLE_REBASED, .w1c, .sticky, .any⟩,
    ⟨F.TCH_TROUBLE_ADOPTED, .w1c, .sticky, .any⟩,
    ⟨F.TCH_TROUBLE_STUCK, .w1c, .sticky, .any⟩,
    ⟨F.TCH_TROUBLE_OVERFLOW, .w1c, .sticky, .any⟩]⟩,
  ⟨.TCH_OVERFLOWS, .tch, 0x12C, [], false, [
    ⟨F.TCH_OVERFLOWS_COUNT, .ro, .reset, .any⟩]⟩]

def regs_tch_3 : List RegDesc := [
  ⟨.TCH_REJECTS, .tch, 0x130, [], false, [
    ⟨F.TCH_REJECTS_COUNT, .ro, .reset, .any⟩]⟩,
  ⟨.TCH_ADOPTIONS, .tch, 0x134, [], false, [
    ⟨F.TCH_ADOPTIONS_COUNT, .ro, .reset, .any⟩]⟩,
  ⟨.TCH_RX_BAD, .tch, 0x138, [], false, [
    ⟨F.TCH_RX_BAD_COUNT, .ro, .reset, .any⟩]⟩,
  ⟨.TCH_NOISE, .tch, 0x140, [(8, 0x4)], false, [
    ⟨F.TCH_NOISE_NOISE, .ro, .reset, .any⟩]⟩,
  ⟨.TCH_CONTACT_0, .tch, 0x200, [(10, 0x10)], false, [
    ⟨F.TCH_CONTACT_0_ACTIVE, .ro, .reset, .any⟩,
    ⟨F.TCH_CONTACT_0_STUCK, .ro, .reset, .any⟩,
    ⟨F.TCH_CONTACT_0_ID, .ro, .reset, .any⟩]⟩,
  ⟨.TCH_CONTACT_1, .tch, 0x204, [(10, 0x10)], false, [
    ⟨F.TCH_CONTACT_1_X, .ro, .reset, .any⟩,
    ⟨F.TCH_CONTACT_1_Y, .ro, .reset, .any⟩]⟩,
  ⟨.TCH_CONTACT_2, .tch, 0x208, [(10, 0x10)], false, [
    ⟨F.TCH_CONTACT_2_HELD, .ro, .reset, .any⟩]⟩,
  ⟨.TCH_CONTACT_3, .tch, 0x20C, [(10, 0x10)], false, [
    ⟨F.TCH_CONTACT_3_STRENGTH, .ro, .reset, .any⟩]⟩,
  ⟨.TCH_RX_0, .tch, 0x300, [(8, 0x8)], false, [
    ⟨F.TCH_RX_0_VALID, .ro, .reset, .any⟩,
    ⟨F.TCH_RX_0_ORIGIN, .ro, .reset, .any⟩,
    ⟨F.TCH_RX_0_CYCLE, .ro, .reset, .any⟩]⟩,
  ⟨.TCH_RX_1, .tch, 0x304, [(8, 0x8)], false, [
    ⟨F.TCH_RX_1_GAPS, .ro, .reset, .any⟩]⟩,
  ⟨.TCH_PIN, .tch, 0x400, [(128, 0x4)], false, [
    ⟨F.TCH_PIN_ROLE, .ro, .load, .any⟩,
    ⟨F.TCH_PIN_INDEX, .ro, .load, .any⟩,
    ⟨F.TCH_PIN_PROX_EN, .ro, .loadNotSlp, .any⟩,
    ⟨F.TCH_PIN_PROX_GROUP, .ro, .loadNotSlp, .any⟩,
    ⟨F.TCH_PIN_FAULT, .ro, .reset, .any⟩,
    ⟨F.TCH_PIN_SELF_RAW, .ro, .reset, .any⟩]⟩,
  ⟨.TCH_NODE_0, .tch, 0x10000, [(4096, 0x8)], false, [
    ⟨F.TCH_NODE_0_DELTA, .ro, .reset, .any⟩,
    ⟨F.TCH_NODE_0_DRIFT, .ro, .reset, .any⟩]⟩]

def regs_tch_4 : List RegDesc := [
  ⟨.TCH_NODE_1, .tch, 0x10004, [(4096, 0x8)], false, [
    ⟨F.TCH_NODE_1_UNBASELINED, .ro, .reset, .any⟩,
    ⟨F.TCH_NODE_1_FROZEN, .ro, .reset, .any⟩]⟩]

/-- The registers of the TCH block. -/
def regs_tch : List RegDesc :=
  regs_tch_0 ++ regs_tch_1 ++ regs_tch_2 ++ regs_tch_3 ++ regs_tch_4

def regs_evc_0 : List RegDesc := [
  ⟨.EVC_CTL, .evc, 0x0, [], false, [
    ⟨F.EVC_CTL_EN, .rw, .load, .any⟩]⟩,
  ⟨.EVC_STATUS, .evc, 0x4, [], false, [
    ⟨F.EVC_STATUS_RUNNING, .ro, .reset, .any⟩,
    ⟨F.EVC_STATUS_LAST_SRC, .ro, .reset, .any⟩]⟩,
  ⟨.EVC_MERGES, .evc, 0x8, [], false, [
    ⟨F.EVC_MERGES_COUNT, .ro, .reset, .any⟩]⟩,
  ⟨.EVC_TROUBLE, .evc, 0xC, [], false, [
    ⟨F.EVC_TROUBLE_BAD_VALUE, .w1c, .sticky, .any⟩,
    ⟨F.EVC_TROUBLE_MERGED, .w1c, .sticky, .any⟩]⟩,
  ⟨.EVC_DOORBELL, .evc, 0x10, [], false, [
    ⟨F.EVC_DOORBELL_BELL, .wo, .reset, .any⟩]⟩,
  ⟨.EVC_HOST_FAB, .evc, 0x14, [], false, [
    ⟨F.EVC_HOST_FAB_EN, .rw, .load, .any⟩,
    ⟨F.EVC_HOST_FAB_BELL, .rw, .load, .any⟩,
    ⟨F.EVC_HOST_FAB_NODE, .rw, .load, .any⟩]⟩,
  ⟨.EVC_HOLDOFF, .evc, 0x100, [(32, 0x4)], false, [
    ⟨F.EVC_HOLDOFF_OPEN, .ro, .reset, .any⟩,
    ⟨F.EVC_HOLDOFF_INTERVAL, .rw, .load, .between 0 1000000⟩]⟩,
  ⟨.EVC_PEND, .evc, 0x200, [(16, 0x4)], false, [
    ⟨F.EVC_PEND_BITS, .w1c, .reset, .any⟩]⟩,
  ⟨.EVC_MASK, .evc, 0x240, [(16, 0x4)], false, [
    ⟨F.EVC_MASK_BITS, .rw, .load, .any⟩]⟩,
  ⟨.EVC_MASK_SET, .evc, 0x280, [(16, 0x4)], false, [
    ⟨F.EVC_MASK_SET_BITS, .w1s, .load, .any⟩]⟩,
  ⟨.EVC_MASK_CLR, .evc, 0x2C0, [(16, 0x4)], false, [
    ⟨F.EVC_MASK_CLR_BITS, .wo, .reset, .any⟩]⟩,
  ⟨.EVC_MERGED, .evc, 0x300, [(16, 0x4)], false, [
    ⟨F.EVC_MERGED_BITS, .w1c, .sticky, .any⟩]⟩]

def regs_evc_1 : List RegDesc := [
  ⟨.EVC_RUNNING, .evc, 0x340, [(16, 0x4)], false, [
    ⟨F.EVC_RUNNING_BITS, .ro, .reset, .any⟩]⟩,
  ⟨.EVC_HOST_PEND, .evc, 0x400, [(4, 0x40), (16, 0x4)], false, [
    ⟨F.EVC_HOST_PEND_BITS, .w1c, .reset, .any⟩]⟩,
  ⟨.EVC_PIN_MASK, .evc, 0x600, [(2, 0x40), (16, 0x4)], false, [
    ⟨F.EVC_PIN_MASK_BITS, .rw, .load, .any⟩]⟩,
  ⟨.EVC_SRC_0, .evc, 0x1000, [(512, 0x10)], false, [
    ⟨F.EVC_SRC_0_EN, .rw, .load, .any⟩,
    ⟨F.EVC_SRC_0_HOST, .rw, .load, .any⟩,
    ⟨F.EVC_SRC_0_GROUP_EN, .rw, .load, .any⟩,
    ⟨F.EVC_SRC_0_GROUP, .rw, .load, .any⟩,
    ⟨F.EVC_SRC_0_TARGET, .rw, .load, .any⟩]⟩,
  ⟨.EVC_SRC_1, .evc, 0x1004, [(512, 0x10)], false, [
    ⟨F.EVC_SRC_1_VECTOR, .rw, .load, .any⟩]⟩,
  ⟨.EVC_SRC_2, .evc, 0x1008, [(512, 0x10)], false, [
    ⟨F.EVC_SRC_2_RESUME_VALID, .ro, .reset, .any⟩,
    ⟨F.EVC_SRC_2_RESUME, .ro, .reset, .any⟩]⟩]

/-- The registers of the EVC block. -/
def regs_evc : List RegDesc :=
  regs_evc_0 ++ regs_evc_1

def regs_seq_0 : List RegDesc := [
  ⟨.SEQ_CTL, .seq, 0x0, [(16, 0x1000)], false, [
    ⟨F.SEQ_CTL_EN, .rw, .load, .any⟩]⟩,
  ⟨.SEQ_STATE, .seq, 0x4, [(16, 0x1000)], false, [
    ⟨F.SEQ_STATE_STATE, .ro, .reset, .any⟩,
    ⟨F.SEQ_STATE_PRIV, .ro, .reset, .any⟩,
    ⟨F.SEQ_STATE_SRC, .ro, .reset, .any⟩,
    ⟨F.SEQ_STATE_PC, .ro, .reset, .any⟩]⟩,
  ⟨.SEQ_ST, .seq, 0x8, [(16, 0x1000)], false, [
    ⟨F.SEQ_ST_ST, .ro, .reset, .any⟩,
    ⟨F.SEQ_ST_OP, .ro, .reset, .any⟩]⟩,
  ⟨.SEQ_RUN_LIMIT, .seq, 0xC, [(16, 0x1000)], false, [
    ⟨F.SEQ_RUN_LIMIT_LIMIT, .rw, .load, .between 10 1000000⟩]⟩,
  ⟨.SEQ_LAST, .seq, 0x10, [(16, 0x1000)], true, [
    ⟨F.SEQ_LAST_LAST, .ro, .reset, .any⟩]⟩,
  ⟨.SEQ_FAULT, .seq, 0x18, [(16, 0x1000)], false, [
    ⟨F.SEQ_FAULT_CODE, .w1c, .sticky, .any⟩,
    ⟨F.SEQ_FAULT_SRC, .ro, .sticky, .any⟩,
    ⟨F.SEQ_FAULT_PC, .ro, .sticky, .any⟩]⟩,
  ⟨.SEQ_RUNS, .seq, 0x20, [(16, 0x1000)], true, [
    ⟨F.SEQ_RUNS_RUNS, .ro, .reset, .any⟩]⟩,
  ⟨.SEQ_MAX_RUN, .seq, 0x28, [(16, 0x1000)], false, [
    ⟨F.SEQ_MAX_RUN_MAX, .ro, .reset, .any⟩]⟩,
  ⟨.SEQ_ENTRY_TIME, .seq, 0x30, [(16, 0x1000)], true, [
    ⟨F.SEQ_ENTRY_TIME_TIME, .ro, .reset, .any⟩]⟩,
  ⟨.SEQ_TROUBLE, .seq, 0x10000, [], false, [
    ⟨F.SEQ_TROUBLE_FAULTED, .w1c, .sticky, .any⟩,
    ⟨F.SEQ_TROUBLE_BAD_VALUE, .w1c, .sticky, .any⟩,
    ⟨F.SEQ_TROUBLE_I2C_FAIL, .w1c, .sticky, .any⟩,
    ⟨F.SEQ_TROUBLE_LOG_FULL, .w1c, .sticky, .any⟩]⟩,
  ⟨.SEQ_ECC_COUNT, .seq, 0x10004, [], false, [
    ⟨F.SEQ_ECC_COUNT_COUNT, .ro, .reset, .any⟩]⟩,
  ⟨.SEQ_LOG_STATUS, .seq, 0x10008, [], false, [
    ⟨F.SEQ_LOG_STATUS_DROPPED, .ro, .reset, .any⟩,
    ⟨F.SEQ_LOG_STATUS_COUNT, .ro, .reset, .any⟩]⟩]

def regs_seq_1 : List RegDesc := [
  ⟨.SEQ_LOG, .seq, 0x10020, [(8, 0x4)], false, [
    ⟨F.SEQ_LOG_ENTRY, .ro, .reset, .any⟩]⟩,
  ⟨.SEQ_GPIO_DIR, .seq, 0x10100, [], false, [
    ⟨F.SEQ_GPIO_DIR_DIR, .rw, .loadPin, .any⟩]⟩,
  ⟨.SEQ_GPIO_OUT, .seq, 0x10104, [], false, [
    ⟨F.SEQ_GPIO_OUT_OUT, .rw, .loadPin, .any⟩]⟩,
  ⟨.SEQ_GPIO_OUT_SET, .seq, 0x10108, [], false, [
    ⟨F.SEQ_GPIO_OUT_SET_SET, .w1s, .loadPin, .any⟩]⟩,
  ⟨.SEQ_GPIO_OUT_CLR, .seq, 0x1010C, [], false, [
    ⟨F.SEQ_GPIO_OUT_CLR_CLR, .wo, .reset, .any⟩]⟩,
  ⟨.SEQ_GPIO_IN, .seq, 0x10110, [], false, [
    ⟨F.SEQ_GPIO_IN_IN, .ro, .reset, .any⟩]⟩,
  ⟨.SEQ_GPIO_CFG, .seq, 0x10140, [(16, 0x4)], false, [
    ⟨F.SEQ_GPIO_CFG_EDGE, .rw, .load, .any⟩,
    ⟨F.SEQ_GPIO_CFG_OD, .rw, .load, .any⟩,
    ⟨F.SEQ_GPIO_CFG_DEBOUNCE, .rw, .load, .any⟩]⟩,
  ⟨.SEQ_I2C_CFG, .seq, 0x10200, [], false, [
    ⟨F.SEQ_I2C_CFG_SPEED, .rw, .load, .between 0 2⟩,
    ⟨F.SEQ_I2C_CFG_TIMEOUT, .rw, .load, .between 1 1000⟩]⟩,
  ⟨.SEQ_I2C_CTL, .seq, 0x10204, [], false, [
    ⟨F.SEQ_I2C_CTL_GO, .sc, .reset, .any⟩,
    ⟨F.SEQ_I2C_CTL_BLOCK, .rw, .reset, .any⟩,
    ⟨F.SEQ_I2C_CTL_ADDR, .rw, .reset, .any⟩,
    ⟨F.SEQ_I2C_CTL_WLEN, .rw, .reset, .between 0 16⟩,
    ⟨F.SEQ_I2C_CTL_RLEN, .rw, .reset, .between 0 16⟩]⟩,
  ⟨.SEQ_I2C_STATUS, .seq, 0x10208, [], false, [
    ⟨F.SEQ_I2C_STATUS_RESULT, .ro, .reset, .any⟩,
    ⟨F.SEQ_I2C_STATUS_COUNT, .ro, .reset, .any⟩]⟩,
  ⟨.SEQ_I2C_WDATA, .seq, 0x10210, [(4, 0x4)], false, [
    ⟨F.SEQ_I2C_WDATA_DATA, .rw, .reset, .any⟩]⟩,
  ⟨.SEQ_I2C_RDATA, .seq, 0x10220, [(4, 0x4)], false, [
    ⟨F.SEQ_I2C_RDATA_DATA, .ro, .reset, .any⟩]⟩]

/-- The registers of the SEQ block. -/
def regs_seq : List RegDesc :=
  regs_seq_0 ++ regs_seq_1

def regs_sys_0 : List RegDesc := [
  ⟨.SYS_FENCE, .sys, 0x40, [], false, [
    ⟨F.SYS_FENCE_FAULT, .ro, .reset, .any⟩]⟩,
  ⟨.SYS_MODE, .sys, 0x0, [], false, [
    ⟨F.SYS_MODE_MODE, .ro, .reset, .any⟩,
    ⟨F.SYS_MODE_PREV, .ro, .reset, .any⟩,
    ⟨F.SYS_MODE_STAGE, .ro, .reset, .any⟩,
    ⟨F.SYS_MODE_REQ_STATUS, .ro, .reset, .any⟩]⟩,
  ⟨.SYS_MODE_REQ, .sys, 0x4, [], false, [
    ⟨F.SYS_MODE_REQ_TARGET, .wo, .reset, .oneOf [5, 8, 9, 10, 11]⟩]⟩,
  ⟨.SYS_MODE_TIME, .sys, 0x8, [], true, [
    ⟨F.SYS_MODE_TIME_TIME, .ro, .reset, .any⟩]⟩,
  ⟨.SYS_TROUBLE, .sys, 0x10, [], false, [
    ⟨F.SYS_TROUBLE_CLOCK, .w1c, .sticky, .any⟩,
    ⟨F.SYS_TROUBLE_WDT, .w1c, .sticky, .any⟩,
    ⟨F.SYS_TROUBLE_JOIN_LIMIT, .w1c, .sticky, .any⟩,
    ⟨F.SYS_TROUBLE_HALT, .w1c, .sticky, .any⟩,
    ⟨F.SYS_TROUBLE_BAD_VALUE, .w1c, .sticky, .any⟩,
    ⟨F.SYS_TROUBLE_BLOCKS, .ro, .kept, .any⟩]⟩,
  ⟨.SYS_HALT, .sys, 0x14, [], false, [
    ⟨F.SYS_HALT_CAUSE, .ro, .kept, .any⟩,
    ⟨F.SYS_HALT_DETAIL, .ro, .kept, .any⟩]⟩,
  ⟨.SYS_RESET_CAUSE, .sys, 0x18, [], false, [
    ⟨F.SYS_RESET_CAUSE_CLASS, .ro, .kept, .any⟩,
    ⟨F.SYS_RESET_CAUSE_BY_NODE, .ro, .kept, .any⟩]⟩,
  ⟨.SYS_RESET_REQ, .sys, 0x1C, [], false, [
    ⟨F.SYS_RESET_REQ_KEY, .wo, .reset, .any⟩,
    ⟨F.SYS_RESET_REQ_NODE, .wo, .reset, .any⟩]⟩,
  ⟨.SYS_SOFT_RESET, .sys, 0x20, [], false, [
    ⟨F.SYS_SOFT_RESET_DOMAIN, .sc, .reset, .any⟩]⟩,
  ⟨.SYS_JOIN, .sys, 0x24, [], false, [
    ⟨F.SYS_JOIN_LIMIT, .rw, .load, .between 1 3600⟩]⟩,
  ⟨.SYS_WDT_CFG, .sys, 0x28, [], false, [
    ⟨F.SYS_WDT_CFG_EN, .rw, .load, .any⟩,
    ⟨F.SYS_WDT_CFG_MAX, .rw, .load, .between 1 15⟩,
    ⟨F.SYS_WDT_CFG_PERIOD, .rw, .load, .between 10 60000⟩]⟩,
  ⟨.SYS_WDT_KICK, .sys, 0x2C, [], false, [
    ⟨F.SYS_WDT_KICK_VALUE, .wo, .reset, .any⟩]⟩]

def regs_sys_1 : List RegDesc := [
  ⟨.SYS_WDT_STATUS, .sys, 0x30, [], false, [
    ⟨F.SYS_WDT_STATUS_SEQ, .ro, .reset, .any⟩,
    ⟨F.SYS_WDT_STATUS_COUNT, .ro, .resetPin, .any⟩,
    ⟨F.SYS_WDT_STATUS_BAD_KICKS, .ro, .reset, .any⟩]⟩,
  ⟨.SYS_WAKE_CFG, .sys, 0x34, [], false, [
    ⟨F.SYS_WAKE_CFG_TOUCH, .rw, .load, .any⟩,
    ⟨F.SYS_WAKE_CFG_TIMER, .rw, .loadNotSlp, .any⟩,
    ⟨F.SYS_WAKE_CFG_GPIO, .rw, .loadNotSlp, .any⟩]⟩,
  ⟨.SYS_WAKE_STATUS, .sys, 0x38, [], false, [
    ⟨F.SYS_WAKE_STATUS_SOURCE, .ro, .resetNotSlp, .any⟩,
    ⟨F.SYS_WAKE_STATUS_INDEX, .ro, .resetNotSlp, .any⟩]⟩,
  ⟨.SYS_WAKE_TIMER, .sys, 0x48, [], true, [
    ⟨F.SYS_WAKE_TIMER_RAW, .rw, .loadNotSlp, .any⟩]⟩]

/-- The registers of the SYS block. -/
def regs_sys : List RegDesc :=
  regs_sys_0 ++ regs_sys_1

def regs_mem_0 : List RegDesc := [
  ⟨.MEM_CFG, .mem, 0x0, [], false, [
    ⟨F.MEM_CFG_CAP, .ro, .load, .between 0 3⟩,
    ⟨F.MEM_CFG_RATE, .ro, .load, .between 0 2⟩,
    ⟨F.MEM_CFG_RANKS2, .ro, .load, .any⟩,
    ⟨F.MEM_CFG_INLINE_ECC, .ro, .load, .any⟩]⟩,
  ⟨.MEM_STATUS, .mem, 0x4, [], false, [
    ⟨F.MEM_STATUS_TRAINED, .ro, .reset, .any⟩,
    ⟨F.MEM_STATUS_VISIBLE, .ro, .reset, .any⟩]⟩,
  ⟨.MEM_ECC_CORR, .mem, 0x8, [], false, [
    ⟨F.MEM_ECC_CORR_COUNT, .ro, .reset, .any⟩]⟩,
  ⟨.MEM_ECC_FATAL, .mem, 0xC, [], false, [
    ⟨F.MEM_ECC_FATAL_COUNT, .ro, .reset, .any⟩]⟩,
  ⟨.MEM_ECC_LAST, .mem, 0x10, [], true, [
    ⟨F.MEM_ECC_LAST_ADDR, .ro, .reset, .any⟩]⟩,
  ⟨.MEM_CIS_CORR, .mem, 0x18, [], false, [
    ⟨F.MEM_CIS_CORR_COUNT, .ro, .reset, .any⟩]⟩,
  ⟨.MEM_CIS_FATAL, .mem, 0x1C, [], false, [
    ⟨F.MEM_CIS_FATAL_COUNT, .ro, .reset, .any⟩]⟩,
  ⟨.MEM_DEV_POOL_BASE, .mem, 0x20, [], true, [
    ⟨F.MEM_DEV_POOL_BASE_BASE, .ro, .load, .any⟩]⟩,
  ⟨.MEM_DEV_POOL_SIZE, .mem, 0x28, [], true, [
    ⟨F.MEM_DEV_POOL_SIZE_SIZE, .ro, .load, .any⟩]⟩,
  ⟨.MEM_TROUBLE, .mem, 0x30, [], false, [
    ⟨F.MEM_TROUBLE_BAD_VALUE, .w1c, .sticky, .any⟩,
    ⟨F.MEM_TROUBLE_SPI_DROP, .w1c, .sticky, .any⟩,
    ⟨F.MEM_TROUBLE_CISTERN_FATAL, .w1c, .sticky, .any⟩,
    ⟨F.MEM_TROUBLE_ECC_FATAL, .w1c, .sticky, .any⟩]⟩,
  ⟨.MEM_SPI_CFG, .mem, 0x40, [], false, [
    ⟨F.MEM_SPI_CFG_EN, .rw, .load, .any⟩,
    ⟨F.MEM_SPI_CFG_LIMIT, .rw, .load, .between 10 10000⟩]⟩,
  ⟨.MEM_SPI_DROPS, .mem, 0x44, [], false, [
    ⟨F.MEM_SPI_DROPS_COUNT, .ro, .reset, .any⟩]⟩]

/-- The registers of the MEM block. -/
def regs_mem : List RegDesc :=
  regs_mem_0

def regs_gate_0 : List RegDesc := [
  ⟨.GATE_STAGE_BASE, .gate, 0x0, [], true, [
    ⟨F.GATE_STAGE_BASE_BASE, .rw, .reset, .any⟩]⟩,
  ⟨.GATE_STAGE_PAGES, .gate, 0x8, [], false, [
    ⟨F.GATE_STAGE_PAGES_PAGES, .rw, .reset, .any⟩]⟩,
  ⟨.GATE_STAGE_MASK, .gate, 0x10, [], true, [
    ⟨F.GATE_STAGE_MASK_MASK, .rw, .reset, .any⟩]⟩,
  ⟨.GATE_STAGE_ATTR, .gate, 0x18, [], false, [
    ⟨F.GATE_STAGE_ATTR_EN, .rw, .reset, .any⟩,
    ⟨F.GATE_STAGE_ATTR_LOCK, .rw, .reset, .any⟩,
    ⟨F.GATE_STAGE_ATTR_W, .rw, .reset, .any⟩,
    ⟨F.GATE_STAGE_ATTR_R, .rw, .reset, .any⟩]⟩,
  ⟨.GATE_COMMIT, .gate, 0x1C, [], false, [
    ⟨F.GATE_COMMIT_INDEX, .wo, .reset, .any⟩]⟩,
  ⟨.GATE_SYNC, .gate, 0x20, [], false, [
    ⟨F.GATE_SYNC_GEN, .rw, .reset, .any⟩]⟩,
  ⟨.GATE_TROUBLE, .gate, 0x24, [], false, [
    ⟨F.GATE_TROUBLE_BAD_VALUE, .w1c, .sticky, .any⟩,
    ⟨F.GATE_TROUBLE_RECORD_LOST, .w1c, .sticky, .any⟩,
    ⟨F.GATE_TROUBLE_LOCKED_WRITE, .w1c, .sticky, .any⟩,
    ⟨F.GATE_TROUBLE_IMPRECISE, .w1c, .sticky, .any⟩,
    ⟨F.GATE_TROUBLE_FAULT, .w1c, .sticky, .any⟩]⟩,
  ⟨.GATE_FAULTS, .gate, 0x28, [], false, [
    ⟨F.GATE_FAULTS_COUNT, .ro, .reset, .any⟩]⟩,
  ⟨.GATE_RECORD_STATUS, .gate, 0x2C, [], false, [
    ⟨F.GATE_RECORD_STATUS_DROPPED, .ro, .reset, .any⟩,
    ⟨F.GATE_RECORD_STATUS_COUNT, .ro, .reset, .any⟩]⟩,
  ⟨.GATE_RECORD, .gate, 0x40, [(8, 0x4)], false, [
    ⟨F.GATE_RECORD_RECORD, .ro, .reset, .any⟩]⟩,
  ⟨.GATE_MASTER_P, .gate, 0x60, [], true, [
    ⟨F.GATE_MASTER_P_P, .ro, .reset, .any⟩]⟩,
  ⟨.GATE_RULE_BASE, .gate, 0x1000, [(256, 0x20)], true, [
    ⟨F.GATE_RULE_BASE_BASE, .ro, .gateRule, .any⟩]⟩]

def regs_gate_1 : List RegDesc := [
  ⟨.GATE_RULE_PAGES, .gate, 0x1008, [(256, 0x20)], false, [
    ⟨F.GATE_RULE_PAGES_PAGES, .ro, .gateRule, .any⟩]⟩,
  ⟨.GATE_RULE_MASK, .gate, 0x1010, [(256, 0x20)], true, [
    ⟨F.GATE_RULE_MASK_MASK, .ro, .gateRule, .any⟩]⟩,
  ⟨.GATE_RULE_ATTR, .gate, 0x1018, [(256, 0x20)], false, [
    ⟨F.GATE_RULE_ATTR_EN, .ro, .gateRule, .any⟩,
    ⟨F.GATE_RULE_ATTR_LOCK, .ro, .gateRule, .any⟩,
    ⟨F.GATE_RULE_ATTR_W, .ro, .gateRule, .any⟩,
    ⟨F.GATE_RULE_ATTR_R, .ro, .gateRule, .any⟩]⟩,
  ⟨.GATE_LEASE_BASE, .gate, 0x4000, [(64, 0x10)], true, [
    ⟨F.GATE_LEASE_BASE_BASE, .ro, .reset, .any⟩]⟩,
  ⟨.GATE_LEASE_STATUS, .gate, 0x4008, [(64, 0x10)], false, [
    ⟨F.GATE_LEASE_STATUS_VALID, .ro, .reset, .any⟩,
    ⟨F.GATE_LEASE_STATUS_PAGES, .ro, .reset, .any⟩,
    ⟨F.GATE_LEASE_STATUS_LAYER, .ro, .reset, .any⟩]⟩]

/-- The registers of the GATE block. -/
def regs_gate : List RegDesc :=
  regs_gate_0 ++ regs_gate_1

def regs_chk_0 : List RegDesc := [
  ⟨.CHK_TROUBLE, .chk, 0x0, [], false, [
    ⟨F.CHK_TROUBLE_BAD_VALUE, .w1c, .sticky, .any⟩,
    ⟨F.CHK_TROUBLE_GATE_FAULT, .w1c, .sticky, .any⟩,
    ⟨F.CHK_TROUBLE_MISMATCH, .w1c, .sticky, .any⟩]⟩,
  ⟨.CHK_MISMATCH_SUM, .chk, 0x4, [], false, [
    ⟨F.CHK_MISMATCH_SUM_CHANNEL, .w1c, .sticky, .any⟩]⟩,
  ⟨.CHK_CH_CTL, .chk, 0x1000, [(32, 0x40)], false, [
    ⟨F.CHK_CH_CTL_GO, .sc, .reset, .any⟩,
    ⟨F.CHK_CH_CTL_MODE, .rw, .reset, .any⟩,
    ⟨F.CHK_CH_CTL_POLY, .rw, .reset, .any⟩,
    ⟨F.CHK_CH_CTL_FOLD_EN, .rw, .reset, .any⟩,
    ⟨F.CHK_CH_CTL_ORDER, .rw, .reset, .any⟩,
    ⟨F.CHK_CH_CTL_BOUND, .ro, .reset, .any⟩,
    ⟨F.CHK_CH_CTL_OWN_EN, .ro, .load, .any⟩,
    ⟨F.CHK_CH_CTL_OWNER, .ro, .load, .any⟩]⟩,
  ⟨.CHK_CH_FOLD, .chk, 0x1004, [(32, 0x40)], false, [
    ⟨F.CHK_CH_FOLD_W, .rw, .reset, .any⟩]⟩,
  ⟨.CHK_CH_ADDR, .chk, 0x1008, [(32, 0x40)], true, [
    ⟨F.CHK_CH_ADDR_ADDR, .rw, .reset, .any⟩]⟩,
  ⟨.CHK_CH_LEN, .chk, 0x1010, [(32, 0x40)], false, [
    ⟨F.CHK_CH_LEN_LEN, .rw, .reset, .any⟩]⟩,
  ⟨.CHK_CH_STATUS, .chk, 0x1014, [(32, 0x40)], false, [
    ⟨F.CHK_CH_STATUS_RESULT, .ro, .reset, .any⟩]⟩,
  ⟨.CHK_CH_OUT_LEN, .chk, 0x1018, [(32, 0x40)], false, [
    ⟨F.CHK_CH_OUT_LEN_OUT_LEN, .ro, .reset, .any⟩]⟩,
  ⟨.CHK_CH_VALUE, .chk, 0x1020, [(32, 0x40)], true, [
    ⟨F.CHK_CH_VALUE_VALUE, .ro, .reset, .any⟩]⟩,
  ⟨.CHK_CH_EXPECT, .chk, 0x1028, [(32, 0x40)], true, [
    ⟨F.CHK_CH_EXPECT_EXPECT, .rw, .reset, .any⟩]⟩,
  ⟨.CHK_CH_UNITS, .chk, 0x1030, [(32, 0x40)], true, [
    ⟨F.CHK_CH_UNITS_UNITS, .ro, .reset, .any⟩]⟩,
  ⟨.CHK_CH_MISMATCH, .chk, 0x1038, [(32, 0x40)], false, [
    ⟨F.CHK_CH_MISMATCH_COUNT, .ro, .reset, .any⟩]⟩]

/-- The registers of the CHK block. -/
def regs_chk : List RegDesc :=
  regs_chk_0

def regs_cfg_0 : List RegDesc := [
  ⟨.CFG_STATUS, .cfg, 0x0, [], false, [
    ⟨F.CFG_STATUS_PHASE, .ro, .load, .any⟩,
    ⟨F.CFG_STATUS_SLOT, .ro, .load, .any⟩,
    ⟨F.CFG_STATUS_FALLBACK, .ro, .load, .any⟩,
    ⟨F.CFG_STATUS_SKIPPED, .ro, .reset, .any⟩,
    ⟨F.CFG_STATUS_CAUSE, .ro, .load, .any⟩]⟩,
  ⟨.CFG_SLOT_STATUS, .cfg, 0x4, [(2, 0x4)], false, [
    ⟨F.CFG_SLOT_STATUS_TRIED, .ro, .load, .any⟩,
    ⟨F.CFG_SLOT_STATUS_VALID, .ro, .load, .any⟩,
    ⟨F.CFG_SLOT_STATUS_CAUSE, .ro, .load, .any⟩]⟩,
  ⟨.CFG_SLOT_SEQ, .cfg, 0x10, [(2, 0x4)], false, [
    ⟨F.CFG_SLOT_SEQ_SEQ, .ro, .load, .any⟩]⟩,
  ⟨.CFG_FAIL_AT, .cfg, 0x18, [], false, [
    ⟨F.CFG_FAIL_AT_TABLE, .ro, .load, .any⟩,
    ⟨F.CFG_FAIL_AT_ENTRY, .ro, .load, .any⟩]⟩,
  ⟨.CFG_LOADED_CRC, .cfg, 0x1C, [], false, [
    ⟨F.CFG_LOADED_CRC_CRC, .ro, .load, .any⟩]⟩,
  ⟨.CFG_SVN, .cfg, 0x20, [], false, [
    ⟨F.CFG_SVN_CUSTOMER_SET, .ro, .kept, .any⟩,
    ⟨F.CFG_SVN_IMAGE, .ro, .load, .any⟩,
    ⟨F.CFG_SVN_MIN, .ro, .kept, .any⟩]⟩,
  ⟨.CFG_LOAD_TIME, .cfg, 0x24, [], false, [
    ⟨F.CFG_LOAD_TIME_US, .ro, .load, .any⟩]⟩,
  ⟨.CFG_TROUBLE, .cfg, 0x28, [], false, [
    ⟨F.CFG_TROUBLE_BAD_VALUE, .w1c, .sticky, .any⟩,
    ⟨F.CFG_TROUBLE_SVC_LOCKOUT, .w1c, .sticky, .any⟩,
    ⟨F.CFG_TROUBLE_FLASH_FAIL, .w1c, .sticky, .any⟩,
    ⟨F.CFG_TROUBLE_WDT_RELOAD, .w1c, .sticky, .any⟩,
    ⟨F.CFG_TROUBLE_FALLBACK, .w1c, .sticky, .any⟩]⟩,
  ⟨.CFG_FLASH_CTL, .cfg, 0x100, [], false, [
    ⟨F.CFG_FLASH_CTL_GO, .sc, .reset, .any⟩,
    ⟨F.CFG_FLASH_CTL_OP, .rw, .reset, .between 0 2⟩,
    ⟨F.CFG_FLASH_CTL_LEN, .rw, .reset, .between 0 256⟩]⟩,
  ⟨.CFG_FLASH_ADDR, .cfg, 0x104, [], false, [
    ⟨F.CFG_FLASH_ADDR_ADDR, .rw, .reset, .any⟩]⟩,
  ⟨.CFG_FLASH_STATUS, .cfg, 0x108, [], false, [
    ⟨F.CFG_FLASH_STATUS_RESULT, .ro, .reset, .any⟩]⟩,
  ⟨.CFG_FLASH_INFO, .cfg, 0x10C, [], false, [
    ⟨F.CFG_FLASH_INFO_MODE, .ro, .kept, .any⟩,
    ⟨F.CFG_FLASH_INFO_SIZE_LOG2, .ro, .kept, .any⟩,
    ⟨F.CFG_FLASH_INFO_MHZ, .ro, .kept, .any⟩]⟩]

def regs_cfg_1 : List RegDesc := [
  ⟨.CFG_FLASH_DATA, .cfg, 0x200, [(64, 0x4)], false, [
    ⟨F.CFG_FLASH_DATA_DATA, .rw, .reset, .any⟩]⟩,
  ⟨.CFG_SVC_CTL, .cfg, 0x300, [], false, [
    ⟨F.CFG_SVC_CTL_NEW, .sc, .reset, .any⟩,
    ⟨F.CFG_SVC_CTL_VERIFY, .sc, .reset, .any⟩]⟩,
  ⟨.CFG_SVC_STATUS, .cfg, 0x304, [], false, [
    ⟨F.CFG_SVC_STATUS_RESULT, .ro, .reset, .any⟩,
    ⟨F.CFG_SVC_STATUS_REJECTS, .ro, .resetPin, .any⟩]⟩,
  ⟨.CFG_SVC_CHALLENGE, .cfg, 0x320, [(8, 0x4)], false, [
    ⟨F.CFG_SVC_CHALLENGE_CHALLENGE, .ro, .reset, .any⟩]⟩,
  ⟨.CFG_SVC_TOKEN, .cfg, 0x340, [(24, 0x4)], false, [
    ⟨F.CFG_SVC_TOKEN_TOKEN, .rw, .reset, .any⟩]⟩]

/-- The registers of the CFG block. -/
def regs_cfg : List RegDesc :=
  regs_cfg_0 ++ regs_cfg_1

def regs_pwr_0 : List RegDesc := [
  ⟨.PWR_STATUS, .pwr, 0x0, [], false, [
    ⟨F.PWR_STATUS_STAGE, .ro, .reset, .any⟩,
    ⟨F.PWR_STATUS_RAIL, .ro, .reset, .any⟩,
    ⟨F.PWR_STATUS_TEMP, .ro, .reset, .any⟩]⟩,
  ⟨.PWR_SHED, .pwr, 0x4, [], false, [
    ⟨F.PWR_SHED_FLOOR, .rw, .load, .between 0 4⟩,
    ⟨F.PWR_SHED_RESTART, .rw, .load, .between 100 60000⟩]⟩,
  ⟨.PWR_SHED_TIME, .pwr, 0x8, [], false, [
    ⟨F.PWR_SHED_TIME_STEP, .rw, .load, .between 1 255⟩,
    ⟨F.PWR_SHED_TIME_S5_DWELL, .rw, .load, .between 1 100⟩,
    ⟨F.PWR_SHED_TIME_RECOVER, .rw, .load, .between 100 60000⟩]⟩,
  ⟨.PWR_THERMAL, .pwr, 0xC, [], false, [
    ⟨F.PWR_THERMAL_WARN, .rw, .load, .between 60 255⟩,
    ⟨F.PWR_THERMAL_CRIT, .rw, .load, .between 65 115⟩]⟩,
  ⟨.PWR_TROUBLE, .pwr, 0x10, [], false, [
    ⟨F.PWR_TROUBLE_BAD_VALUE, .w1c, .sticky, .any⟩,
    ⟨F.PWR_TROUBLE_THERMAL, .w1c, .sticky, .any⟩,
    ⟨F.PWR_TROUBLE_POWER_HALT, .w1c, .sticky, .any⟩,
    ⟨F.PWR_TROUBLE_SHED, .w1c, .sticky, .any⟩,
    ⟨F.PWR_TROUBLE_CRIT, .w1c, .sticky, .any⟩,
    ⟨F.PWR_TROUBLE_SAG, .w1c, .sticky, .any⟩]⟩,
  ⟨.PWR_SAG_RECORD, .pwr, 0x14, [], false, [
    ⟨F.PWR_SAG_RECORD_VALID, .w1c, .sticky, .any⟩,
    ⟨F.PWR_SAG_RECORD_RAIL, .ro, .kept, .any⟩,
    ⟨F.PWR_SAG_RECORD_MIN_MV, .ro, .kept, .any⟩]⟩,
  ⟨.PWR_RAIL_CFG, .pwr, 0x100, [(9, 0x10)], false, [
    ⟨F.PWR_RAIL_CFG_T1_PM, .rw, .load, .between 20 100⟩,
    ⟨F.PWR_RAIL_CFG_T2_PM, .rw, .load, .between 30 150⟩,
    ⟨F.PWR_RAIL_CFG_HYST_PM, .rw, .load, .between 5 30⟩,
    ⟨F.PWR_RAIL_CFG_DWELL, .rw, .load, .between 1 1000⟩]⟩,
  ⟨.PWR_RAIL_STATUS, .pwr, 0x104, [(9, 0x10)], false, [
    ⟨F.PWR_RAIL_STATUS_STATE, .ro, .kept, .any⟩,
    ⟨F.PWR_RAIL_STATUS_WATCHED, .ro, .reset, .any⟩,
    ⟨F.PWR_RAIL_STATUS_MV, .ro, .kept, .any⟩]⟩,
  ⟨.PWR_RAIL_MIN, .pwr, 0x108, [(9, 0x10)], false, [
    ⟨F.PWR_RAIL_MIN_MIN_MV, .ro, .reset, .any⟩]⟩]

/-- The registers of the PWR block. -/
def regs_pwr : List RegDesc :=
  regs_pwr_0

def regs_pmc_0 : List RegDesc := [
  ⟨.PMC_CNT, .pmc, 0x0, [(320, 0x8)], true, [
    ⟨F.PMC_CNT_COUNT, .ro, .resetPin, .any⟩]⟩,
  ⟨.PMC_SNAP, .pmc, 0x1000, [(320, 0x8)], true, [
    ⟨F.PMC_SNAP_SNAP, .ro, .reset, .any⟩]⟩,
  ⟨.PMC_ARRIVALS, .pmc, 0x2000, [(512, 0x4)], false, [
    ⟨F.PMC_ARRIVALS_ARRIVALS, .ro, .resetPin, .any⟩]⟩,
  ⟨.PMC_MODE, .pmc, 0xA00, [(10, 0x4)], false, [
    ⟨F.PMC_MODE_LEVEL, .rw, .load, .any⟩]⟩,
  ⟨.PMC_WRAPPED, .pmc, 0xA40, [(10, 0x4)], false, [
    ⟨F.PMC_WRAPPED_WRAPPED, .w1c, .sticky, .any⟩]⟩,
  ⟨.PMC_SW, .pmc, 0xA80, [], false, [
    ⟨F.PMC_SW_PULSE, .wo, .reset, .any⟩]⟩,
  ⟨.PMC_SW_LEVEL, .pmc, 0xA84, [], false, [
    ⟨F.PMC_SW_LEVEL_LEVEL, .rw, .reset, .any⟩]⟩,
  ⟨.PMC_SNAP_CTL, .pmc, 0xA90, [], false, [
    ⟨F.PMC_SNAP_CTL_GO, .sc, .reset, .any⟩,
    ⟨F.PMC_SNAP_CTL_SRC_EN, .rw, .load, .any⟩,
    ⟨F.PMC_SNAP_CTL_SRC, .rw, .load, .any⟩]⟩,
  ⟨.PMC_SNAP_STATUS, .pmc, 0xA94, [], false, [
    ⟨F.PMC_SNAP_STATUS_SEQ, .ro, .reset, .any⟩]⟩,
  ⟨.PMC_SNAP_TIME, .pmc, 0xA98, [], true, [
    ⟨F.PMC_SNAP_TIME_TIME, .ro, .reset, .any⟩]⟩,
  ⟨.PMC_SAMP_CTL, .pmc, 0x3000, [], false, [
    ⟨F.PMC_SAMP_CTL_EN, .rw, .load, .any⟩,
    ⟨F.PMC_SAMP_CTL_STOP, .rw, .load, .any⟩,
    ⟨F.PMC_SAMP_CTL_SEQ_MASK, .rw, .load, .any⟩]⟩,
  ⟨.PMC_SAMP_PERIOD, .pmc, 0x3004, [], false, [
    ⟨F.PMC_SAMP_PERIOD_ACT, .rw, .load, .any⟩,
    ⟨F.PMC_SAMP_PERIOD_MEM, .rw, .load, .any⟩]⟩]

def regs_pmc_1 : List RegDesc := [
  ⟨.PMC_SAMP_MASTERS, .pmc, 0x3008, [], true, [
    ⟨F.PMC_SAMP_MASTERS_MASTERS, .rw, .load, .any⟩]⟩,
  ⟨.PMC_SAMP_STATUS, .pmc, 0x3010, [], false, [
    ⟨F.PMC_SAMP_STATUS_DROPPED, .ro, .reset, .any⟩,
    ⟨F.PMC_SAMP_STATUS_COUNT, .ro, .reset, .any⟩]⟩,
  ⟨.PMC_SAMP, .pmc, 0x3020, [(8, 0x4)], false, [
    ⟨F.PMC_SAMP_RECORD, .ro, .reset, .any⟩]⟩,
  ⟨.PMC_TROUBLE, .pmc, 0x3040, [], false, [
    ⟨F.PMC_TROUBLE_BAD_VALUE, .w1c, .sticky, .any⟩,
    ⟨F.PMC_TROUBLE_SAMP_LOST, .w1c, .sticky, .any⟩]⟩]

/-- The registers of the PMC block. -/
def regs_pmc : List RegDesc :=
  regs_pmc_0 ++ regs_pmc_1

def regs_tel_0 : List RegDesc := [
  ⟨.TEL_CFG, .tel, 0x0, [], false, [
    ⟨F.TEL_CFG_EN, .rw, .load, .any⟩,
    ⟨F.TEL_CFG_FULL_EVERY, .rw, .load, .any⟩,
    ⟨F.TEL_CFG_PERIOD, .rw, .load, .between 10 60000⟩]⟩,
  ⟨.TEL_STATUS, .tel, 0x4, [], false, [
    ⟨F.TEL_STATUS_SEQ, .ro, .reset, .any⟩]⟩,
  ⟨.TEL_TEMP, .tel, 0x40, [(16, 0x4)], false, [
    ⟨F.TEL_TEMP_FAILED, .ro, .reset, .any⟩,
    ⟨F.TEL_TEMP_TEMP, .ro, .reset, .any⟩]⟩,
  ⟨.TEL_TROUBLE, .tel, 0x80, [], false, [
    ⟨F.TEL_TROUBLE_BAD_VALUE, .w1c, .sticky, .any⟩,
    ⟨F.TEL_TROUBLE_LOG_DROPPED, .w1c, .sticky, .any⟩,
    ⟨F.TEL_TROUBLE_SENSOR_FAIL, .w1c, .sticky, .any⟩]⟩,
  ⟨.TEL_LOG_STATUS, .tel, 0x84, [], false, [
    ⟨F.TEL_LOG_STATUS_DROPPED, .ro, .kept, .any⟩,
    ⟨F.TEL_LOG_STATUS_QUEUED, .ro, .kept, .any⟩]⟩,
  ⟨.TEL_LOG_SEQ, .tel, 0x88, [], false, [
    ⟨F.TEL_LOG_SEQ_SEQ, .ro, .reset, .any⟩]⟩,
  ⟨.TEL_LOG_POS, .tel, 0x8C, [], false, [
    ⟨F.TEL_LOG_POS_POS, .ro, .reset, .any⟩]⟩,
  ⟨.TEL_LAST, .tel, 0x100, [(64, 0x4)], false, [
    ⟨F.TEL_LAST_RECORD, .ro, .reset, .any⟩]⟩]

/-- The registers of the TEL block. -/
def regs_tel : List RegDesc :=
  regs_tel_0

def regs_tst_0 : List RegDesc := [
  ⟨.TST_CFG, .tst, 0x0, [], false, [
    ⟨F.TST_CFG_EN, .rw, .load, .any⟩,
    ⟨F.TST_CFG_PERIOD, .rw, .load, .between 60 86400⟩,
    ⟨F.TST_CFG_FAIL_LIMIT, .rw, .load, .between 1 15⟩]⟩,
  ⟨.TST_CLASS_EN, .tst, 0x4, [], false, [
    ⟨F.TST_CLASS_EN_CLASS, .rw, .load, .any⟩]⟩,
  ⟨.TST_STATUS, .tst, 0x8, [], false, [
    ⟨F.TST_STATUS_SEQ, .ro, .reset, .any⟩,
    ⟨F.TST_STATUS_PAUSED, .ro, .reset, .any⟩]⟩,
  ⟨.TST_COVER, .tst, 0xC, [], false, [
    ⟨F.TST_COVER_CLASS, .ro, .reset, .any⟩]⟩,
  ⟨.TST_LATE, .tst, 0x10, [], false, [
    ⟨F.TST_LATE_CLASS, .w1c, .sticky, .any⟩]⟩,
  ⟨.TST_FAILED, .tst, 0x14, [], false, [
    ⟨F.TST_FAILED_CLASS, .w1c, .sticky, .any⟩]⟩,
  ⟨.TST_ENGINES_OUT, .tst, 0x18, [], false, [
    ⟨F.TST_ENGINES_OUT_ENC, .ro, .reset, .any⟩,
    ⟨F.TST_ENGINES_OUT_DEC, .ro, .reset, .any⟩]⟩,
  ⟨.TST_PIPES_FAILED, .tst, 0x1C, [], false, [
    ⟨F.TST_PIPES_FAILED_LUT_PATH, .ro, .reset, .any⟩,
    ⟨F.TST_PIPES_FAILED_PIPES, .ro, .reset, .any⟩]⟩,
  ⟨.TST_EYE_CFG, .tst, 0x20, [], false, [
    ⟨F.TST_EYE_CFG_MIN, .rw, .load, .between 1 128⟩]⟩,
  ⟨.TST_MARCH_FAIL, .tst, 0x28, [], true, [
    ⟨F.TST_MARCH_FAIL_ADDR, .ro, .reset, .any⟩]⟩,
  ⟨.TST_TROUBLE, .tst, 0x30, [], false, [
    ⟨F.TST_TROUBLE_BAD_VALUE, .w1c, .sticky, .any⟩,
    ⟨F.TST_TROUBLE_RESULT_LOST, .w1c, .sticky, .any⟩,
    ⟨F.TST_TROUBLE_ACTION_CRC, .w1c, .sticky, .any⟩,
    ⟨F.TST_TROUBLE_LUT_CRC, .w1c, .sticky, .any⟩,
    ⟨F.TST_TROUBLE_AFE, .w1c, .sticky, .any⟩,
    ⟨F.TST_TROUBLE_MARCH, .w1c, .sticky, .any⟩,
    ⟨F.TST_TROUBLE_EYE, .w1c, .sticky, .any⟩,
    ⟨F.TST_TROUBLE_KAT, .w1c, .sticky, .any⟩,
    ⟨F.TST_TROUBLE_COVERAGE, .w1c, .sticky, .any⟩]⟩,
  ⟨.TST_RESULT_STATUS, .tst, 0x34, [], false, [
    ⟨F.TST_RESULT_STATUS_DROPPED, .ro, .reset, .any⟩,
    ⟨F.TST_RESULT_STATUS_COUNT, .ro, .reset, .any⟩]⟩]

def regs_tst_1 : List RegDesc := [
  ⟨.TST_RESULT, .tst, 0x40, [(8, 0x4)], false, [
    ⟨F.TST_RESULT_RECORD, .ro, .reset, .any⟩]⟩,
  ⟨.TST_PROVE, .tst, 0x60, [], false, [
    ⟨F.TST_PROVE_PASSED, .ro, .reset, .any⟩,
    ⟨F.TST_PROVE_DETAIL, .ro, .reset, .any⟩,
    ⟨F.TST_PROVE_MS, .ro, .reset, .any⟩]⟩,
  ⟨.TST_EYE, .tst, 0x100, [(40, 0x4)], false, [
    ⟨F.TST_EYE_VALID, .ro, .reset, .any⟩,
    ⟨F.TST_EYE_MARGIN, .ro, .reset, .any⟩]⟩]

/-- The registers of the TST block. -/
def regs_tst : List RegDesc :=
  regs_tst_0 ++ regs_tst_1

def regs_dbg_0 : List RegDesc := [
  ⟨.DBG_STATUS, .dbg, 0x0, [], false, [
    ⟨F.DBG_STATUS_ENABLED, .ro, .reset, .any⟩,
    ⟨F.DBG_STATUS_SCAN_HOLD, .ro, .reset, .any⟩,
    ⟨F.DBG_STATUS_IR, .ro, .reset, .any⟩]⟩,
  ⟨.DBG_TROUBLE, .dbg, 0x4, [], false, [
    ⟨F.DBG_TROUBLE_BAD_VALUE, .w1c, .sticky, .any⟩,
    ⟨F.DBG_TROUBLE_ACCESS_FAULT, .w1c, .sticky, .any⟩,
    ⟨F.DBG_TROUBLE_FUSE_FAIL, .w1c, .sticky, .any⟩,
    ⟨F.DBG_TROUBLE_SCAN_REFUSED, .w1c, .sticky, .any⟩,
    ⟨F.DBG_TROUBLE_LOCKED_HIT, .w1c, .sticky, .any⟩]⟩,
  ⟨.DBG_ACCESSES, .dbg, 0x8, [], false, [
    ⟨F.DBG_ACCESSES_COUNT, .ro, .reset, .any⟩]⟩,
  ⟨.DBG_LAST, .dbg, 0x10, [], true, [
    ⟨F.DBG_LAST_ADDR, .ro, .reset, .any⟩]⟩]

/-- The registers of the DBG block. -/
def regs_dbg : List RegDesc :=
  regs_dbg_0

/-- The registers of a block. -/
def Block.regs : Block → List RegDesc
  | .sys => regs_sys
  | .pwr => regs_pwr
  | .cfg => regs_cfg
  | .evc => regs_evc
  | .seq => regs_seq
  | .gate => regs_gate
  | .pmc => regs_pmc
  | .time => regs_time
  | .chk => regs_chk
  | .tst => regs_tst
  | .tel => regs_tel
  | .fab => regs_fab
  | .eth => regs_eth
  | .cap => regs_cap
  | .dec => regs_dec
  | .enc => regs_enc
  | .cmp => regs_cmp
  | .lut => regs_lut
  | .sig => regs_sig
  | .scn => regs_scn
  | .tch => regs_tch
  | .mem => regs_mem
  | .dbg => regs_dbg

/-- CHK_CH_CTL at reset: MODE, POLY, FOLD_EN and BOUND of the bound channels show the table of R361 (MODE as the
row codes it: 0 compute, 1 check, 2 append and check). -/
def chkCtlPor (c : Nat) : Nat :=
  if c < 8 then 0x22800000        -- append and check, POLY 0, fold
  else if c < 10 then 0x00800000  -- compute
  else if c = 10 then 0x22800000
  else if c = 11 then 0x12800000
  else if c = 12 then 0x22800000
  else if c < 15 then 0x02800000  -- compute with fold
  else if c = 15 then 0x10800000
  else if c < 24 then 0x24800000  -- append and check, POLY 1
  else 0

/-- The value of a register after power-on reset (the POR columns). Registers not named here reset to 0. -/
def Reg.porNat : Reg → Nat → Nat
  | .CMP_FRS_UBOUND, _ => 1000
  | .CMP_FRS_LABEL, _ => 24
  | .CMP_FRS_COLOR_LATE, _ => (1023 <<< 20) + (767 <<< 10)
  | .CMP_FRS_COLOR_STALE, _ => (640 <<< 20) + (320 <<< 10) + 1023
  | .CMP_FRS_COLOR_LOST, _ => (200 <<< 20) + (200 <<< 10) + 200
  | .CMP_FRS_COLOR_INK, _ => (1023 <<< 20) + (1023 <<< 10) + 1023
  | .CMP_LAYER_FRS_CTL, _ => (1 <<< 31)
  | .CMP_LAYER_BUDGET, _ => 80000
  | .CMP_LAYER_STALE, _ => 320000
  | .CMP_LAYER_WITHDRAW, _ => 1280000
  | .CMP_LAYER_BMAX, _ => 600000000
  | .CMP_LAYER_AGE, _ => 0xFFFFFFFF
  | .CMP_LAYER_STATE, _ => (1 <<< 4) + 4
  | .TIME_UNCERT, _ => 0xFFFFFFFF
  | .TIME_ROOT_U, _ => 0xFFFFFFFF
  | .TIME_ROOT_CFG, _ => (128 <<< 16)
  | .TIME_JUMP, _ => 1000
  | .TIME_SLEW, _ => 100
  | .TIME_HOLD, _ => 500
  | .TIME_LOCK, _ => (1000 <<< 16) + 20
  | .TIME_LOSS, _ => (100 <<< 16) + 16
  | .TIME_CLAIM, _ => 50
  | .TIME_FRAME_PERIOD, _ => (8333333 <<< 16) + 21845
  | .TIME_REF_CFG, _ => (10 <<< 24) + (2 <<< 16) + (50 <<< 8)
  | .TIME_PTP_CFG, _ => (127 <<< 16) + (2 <<< 12)
  | .TIME_PULSE_WIDTH, _ => 100
  | .TIME_CAP_CTL, _ => (1 <<< 29) + 100
  | .FAB_PORT_CTL, _ => (2 <<< 28) + (4 <<< 25)
  | .FAB_PORT_LIMITS, _ => (4 <<< 16) + (16 <<< 8)
  | .FAB_PORT_RESV, _ => (200 <<< 16)
  | .FAB_NODE_TOPO, _ => (1 <<< 25) + (1 <<< 20) + (1 <<< 15)
  | .FAB_NODE_CFG, _ => (100 <<< 16) + 100
  | .FAB_PEER_MODE, _ => 0xFFFFFFFF
  | .ETH_PORT_CTL, _ => (1 <<< 30) + (2 <<< 28) + (1518 <<< 12)
  | .ETH_LIMITS, _ => (100 <<< 16) + 100
  | .ETH_STREAM_CTL, _ => (1 <<< 29) + (1 <<< 24) + (96 <<< 16)
  | .ETH_STREAM_UDP, _ => (5004 <<< 16)
  | .ETH_STREAM_TIMES, _ => (500 <<< 16) + (12 <<< 8) + 37
  | .ETH_STREAM_RATE, _ => (100 <<< 16)
  | .ETH_MGMT_CFG, _ => (4711 <<< 16) + 30
  | .CAP_CTL, _ => (4 <<< 28) + (0x1E <<< 20) + (3 <<< 8) + (1 <<< 7)
  | .CAP_GEOM, _ => (1920 <<< 16) + 1080
  | .CAP_TIMING, _ => (100 <<< 16)
  | .DEC_ADMIT, _ => (6000 <<< 16)
  | .DEC_NODE_MASK, _ => (1 <<< 1) + 1
  | .DEC_CTX_WORK, _ => (3 <<< 28) + (4 <<< 20) + (2 <<< 16) + 10000
  | .DEC_CTX_MASK, _ => (1 <<< 5) + (1 <<< 4) + (1 <<< 3) + (1 <<< 2)
  | .ENC_ADMIT, _ => (2000 <<< 16)
  | .ENC_NODE_MASK, _ => (1 <<< 1) + 1
  | .ENC_CTX_CFG, _ => (1 <<< 20) + (1 <<< 17) + (1 <<< 13)
  | .ENC_CTX_RC, _ => (30 <<< 24) + (45 <<< 16) + (10 <<< 8) + 2
  | .ENC_CTX_WIN, _ => 60
  | .ENC_CTX_KEY, _ => (1 <<< 31) + (120 <<< 16) + 100
  | .ENC_CTX_MASK, _ => (1 <<< 6) + (1 <<< 5) + (1 <<< 2)
  | .CMP_CTL, _ => (4 <<< 25)
  | .CMP_LATCH, _ => (2186 <<< 16) + 2158
  | .CMP_LOAD_CAP, _ => 45103
  | .CMP_GROUP_CFG, _ => 2
  | .CMP_FIELD_1, _ => (8 <<< 16)
  | .CMP_LAYER_CTL, _ => (2 <<< 19) + (8 <<< 13)
  | .CMP_LAYER_CROP_SIZE, _ => (1920 <<< 16) + 1080
  | .CMP_LAYER_DST_SIZE, _ => (1920 <<< 16) + 1080
  | .CMP_LAYER_ALPHA, _ => 1023
  | .CMP_LAYER_STRIDE, _ => 7680
  | .SIG_CONTRAST, _ => 160
  | .SIG_REGION_CTL, _ => (2 <<< 14)
  | .SIG_REGION_SIZE, _ => (1 <<< 16) + 1
  | .SCN_CTL, _ => (3 <<< 28) + (4 <<< 23) + (1 <<< 22) + 10
  | .SCN_H, _ => (4176 <<< 16) + 4096
  | .SCN_HSYNC, _ => (8 <<< 16) + 32
  | .SCN_V, _ => (2250 <<< 16) + 2160
  | .SCN_VSYNC, _ => (8 <<< 16) + 10
  | .SCN_DSC, _ => (192 <<< 16) + (4 <<< 12) + 16
  | .SCN_PANEL_UP, _ => (500 <<< 16) + 200
  | .SCN_PANEL_DOWN, _ => (50 <<< 21) + (10 <<< 11) + 500
  | .SCN_BL, _ => (2048 <<< 16) + 1000
  | .TCH_CTL, _ => (2 <<< 28) + (1 <<< 24) + (2 <<< 21)
  | .TCH_STEP, _ => (4000 <<< 16) + 5500
  | .TCH_TIMING, _ => (5 <<< 24) + (250 <<< 12)
  | .TCH_FREQ, i => (1 <<< 31) + [110000, 135000, 165000, 200000, 245000, 290000, 345000, 410000].getD i 0
  | .TCH_HOP, _ => (300 <<< 20) + (1500 <<< 8) + (2 <<< 4)
  | .TCH_THRESH_BARE, _ => (400 <<< 16) + 250
  | .TCH_THRESH_GLOVE, _ => (120 <<< 16) + 80
  | .TCH_FUSE, _ => (60 <<< 16) + (8 <<< 8)
  | .TCH_WATER, _ => (50 <<< 16) + 4
  | .TCH_TRACK, _ => (512 <<< 16)
  | .TCH_BASE, _ => (8 <<< 28) + 30
  | .TCH_BASE2, _ => (40 <<< 16) + 2000
  | .TCH_HOLD, _ => 30
  | .TCH_MAP_SX, _ => 65536
  | .TCH_MAP_SY, _ => 65536
  | .TCH_ROUTE, _ => (100 <<< 16)
  | .TCH_CURSOR, _ => (48 <<< 16)
  | .TCH_CURSOR_COLOR, i => [0xFFFFF, 0x3FF003FF].getD i 0
  | .TCH_PROX_CFG, _ => (20 <<< 20) + (2 <<< 16) + 150
  | .TCH_TEST_LIMITS, _ => (2000 <<< 16) + 60000
  | .TCH_TEST_COUPLE, _ => 500
  | .EVC_HOLDOFF, _ => (1 <<< 31)
  | .SEQ_RUN_LIMIT, _ => 20000
  | .SEQ_I2C_CFG, _ => (1 <<< 30) + 25
  | .MEM_CFG, _ => (2 <<< 26)
  | .MEM_SPI_CFG, _ => 1000
  | .GATE_MASTER_P, _ => 0x000000100000000F
  | .CHK_CH_CTL, c => chkCtlPor c
  | .SYS_JOIN, _ => (60 <<< 20)
  | .SYS_WDT_CFG, _ => (3 <<< 27) + 1000
  | .PWR_SHED, _ => 500
  | .PWR_SHED_TIME, _ => (20 <<< 24) + (5 <<< 16) + 500
  | .PWR_THERMAL, _ => if Config.gradeGX0 then (100 <<< 24) + (110 <<< 16) else (90 <<< 24) + (100 <<< 16)
  | .PWR_RAIL_CFG, _ => (50 <<< 24) + (80 <<< 16) + (10 <<< 11) + 20
  | .PWR_RAIL_MIN, _ => 0xFFFF
  | .TEL_CFG, _ => (10 <<< 23) + 1000
  | .TST_CFG, _ => (600 <<< 12) + (2 <<< 8)
  | .TST_CLASS_EN, _ => (0x3FF <<< 1)
  | .TST_EYE_CFG, _ => 51
  | .DBG_STATUS, _ => 0x01
  | _, _ => 0

/-- The block a register belongs to. -/
def Reg.block : Reg → Block
  | .CMP_FRS_UBOUND | .CMP_FRS_UNCERT | .CMP_FRS_LABEL | .CMP_FRS_COLOR_LATE | .CMP_FRS_COLOR_STALE
  | .CMP_FRS_COLOR_LOST | .CMP_FRS_COLOR_INK | .CMP_FRS_COLOR_PLATE | .CMP_FRS_SUMMARY | .CMP_FRS_CHANGED
  | .CMP_FRS_TROUBLE | .CMP_LAYER_FRS_CTL | .CMP_LAYER_BUDGET | .CMP_LAYER_STALE | .CMP_LAYER_WITHDRAW
  | .CMP_LAYER_BMAX | .CMP_LAYER_AGE | .CMP_LAYER_STATE | .CMP_LAYER_UNCERT | .CMP_LAYER_CAP_STAMP
  | .CMP_LAYER_GFX_STAMP | .CMP_CTL | .CMP_BG | .CMP_LATCH | .CMP_STATUS | .CMP_LOAD_CAP | .CMP_LOAD_PEAK
  | .CMP_LEASES | .CMP_OVERRUNS | .CMP_FENCE | .CMP_FENCE_CLR | .CMP_BAND_MARK | .CMP_TROUBLE
  | .CMP_RECEIPT | .CMP_RECEIPT_STATUS | .CMP_RELEASE_STATUS | .CMP_RELEASE | .CMP_READOUT_IN
  | .CMP_READOUT_DROPS | .CMP_FONT | .CMP_GROUP_COMMIT | .CMP_GROUP_CFG | .CMP_GROUP_STATUS
  | .CMP_GROUP_RECEIPT | .CMP_PLANE_CFG | .CMP_PLANE_INK | .CMP_FIELD_0 | .CMP_FIELD_1 | .CMP_LAYER_CTL
  | .CMP_LAYER_SRC | .CMP_LAYER_CROP_POS | .CMP_LAYER_CROP_SIZE | .CMP_LAYER_DST_POS | .CMP_LAYER_DST_SIZE
  | .CMP_LAYER_ALPHA | .CMP_LAYER_BUF | .CMP_LAYER_STRIDE | .CMP_LAYER_STATUS | .CMP_LAYER_FRAME => .cmp
  | .TIME_RAW | .TIME_WALL | .TIME_WALL_FRAC | .TIME_STATUS | .TIME_RATE | .TIME_OFFSET_ERR | .TIME_UNCERT
  | .TIME_ROOT_U | .TIME_ROOT | .TIME_EPOCH | .TIME_UTC | .TIME_ROOT_CFG | .TIME_JUMP | .TIME_SLEW
  | .TIME_HOLD | .TIME_LOCK | .TIME_LOSS | .TIME_CLAIM | .TIME_FRAME_EPOCH | .TIME_FRAME_PERIOD
  | .TIME_REF_CFG | .TIME_REF_DELAY | .TIME_REF_TOD | .TIME_TROUBLE | .TIME_PTP_CFG | .TIME_ETH_CTL
  | .TIME_ETH_ASYM | .TIME_FAB_ASYM | .TIME_FAB_DELAY | .TIME_PULSE_CTL | .TIME_PULSE_WIDTH
  | .TIME_PULSE_START | .TIME_PULSE_PERIOD | .TIME_CAP_CTL | .TIME_CAP_STATUS | .TIME_CAP_STAMP => .time
  | .FAB_PORT_CTL | .FAB_PORT_STATUS | .FAB_PORT_LIMITS | .FAB_PORT_RESV | .FAB_PORT_FLOWS
  | .FAB_PORT_TROUBLE | .FAB_FLOW_0 | .FAB_FLOW_1 | .FAB_FLOW_2 | .FAB_FLOW_3 | .FAB_NODE_ID
  | .FAB_NODE_TOPO | .FAB_NODE_CFG | .FAB_NODE_ADMIT | .FAB_NODE_TROUBLE | .FAB_NODE_REFUSALS
  | .FAB_PEER_MODE | .FAB_MCAST_0 | .FAB_MCAST_LABELS_1 | .FAB_MCAST_LABELS_2 | .FAB_MCAST_LABELS_3
  | .FAB_ROUTE => .fab
  | .ETH_PORT_CTL | .ETH_PORT_STATUS | .ETH_MAC | .ETH_IPV4 | .ETH_IPV6 | .ETH_LIMITS | .ETH_TROUBLE
  | .ETH_DROP | .ETH_STREAM_CTL | .ETH_STREAM_ID | .ETH_STREAM_SRC | .ETH_STREAM_DST | .ETH_STREAM_UDP
  | .ETH_STREAM_SSRC | .ETH_STREAM_TIMES | .ETH_STREAM_RATE | .ETH_STREAM_STATUS | .ETH_STREAM_LOSS
  | .ETH_MGMT_CFG | .ETH_MGMT_SESSION => .eth
  | .CAP_CTL | .CAP_GEOM | .CAP_TIMING | .CAP_ID | .CAP_STATUS | .CAP_FRAMES | .CAP_DROPS | .CAP_TROUBLE => .cap
  | .DEC_ADMIT | .DEC_ADMIT_LAST | .DEC_ADMIT_LAST_ID | .DEC_REFUSALS | .DEC_POOL_BASE | .DEC_POOL_SIZE
  | .DEC_NODE_CAUSE | .DEC_NODE_MASK | .DEC_TROUBLE | .DEC_ENGINE_BUSY | .DEC_CTX_CFG | .DEC_CTX_LIMITS
  | .DEC_CTX_RATE | .DEC_CTX_WORK | .DEC_CTX_STATUS | .DEC_CTX_STREAM | .DEC_CTX_CAUSE | .DEC_CTX_MASK
  | .DEC_CTX_PICS | .DEC_CTX_CONCEALED | .DEC_CTX_FAULTS | .DEC_CTX_SKIPPED | .DEC_CTX_DROPPED
  | .DEC_CTX_LAST_POC | .DEC_CTX_BS => .dec
  | .ENC_ADMIT | .ENC_ADMIT_LAST | .ENC_ADMIT_LAST_ID | .ENC_REFUSALS | .ENC_POOL_BASE | .ENC_POOL_SIZE
  | .ENC_KEY_REQ | .ENC_LTR_REQ | .ENC_KEY_DROPS | .ENC_NODE_CAUSE | .ENC_NODE_MASK | .ENC_TROUBLE
  | .ENC_ENGINE_BUSY | .ENC_PRIV_RING_BASE | .ENC_PRIV_RING_CTL | .ENC_PRIV_RING_RD | .ENC_PRIV_DROPS
  | .ENC_PRIV_RING_WR | .ENC_CTX_CFG | .ENC_CTX_STREAM | .ENC_CTX_GEOM | .ENC_CTX_CROP | .ENC_CTX_RC
  | .ENC_CTX_PIC_CAP | .ENC_CTX_WIN_CAP | .ENC_CTX_WIN | .ENC_CTX_KEY | .ENC_CTX_LTR | .ENC_CTX_STATUS
  | .ENC_STAT | .ENC_STAT_BYTES | .ENC_STAT_BUDGET | .ENC_STAT_FRAME | .ENC_CTX_PICS | .ENC_CTX_CAP_HITS
  | .ENC_CTX_SKIPPED | .ENC_CTX_KEYS | .ENC_CTX_ROWS_STARVED | .ENC_CTX_CAUSE | .ENC_CTX_MASK => .enc
  | .LUT_CTL | .LUT_SWAP | .LUT_CRC_PRE | .LUT_CRC_CUBE | .LUT_CRC_POST | .LUT_SWAP_STATUS
  | .LUT_SWAP_FRAME | .LUT_TROUBLE | .LUT_ECC_COUNT | .LUT_WRITE_DROPS | .LUT_PRE_WINDOW | .LUT_CUBE_WINDOW
  | .LUT_POST_WINDOW => .lut
  | .SIG_CTL | .SIG_CONTRAST | .SIG_FAILED | .SIG_PERSIST | .SIG_TROUBLE | .SIG_REGION_CTL
  | .SIG_REGION_POS | .SIG_REGION_SIZE | .SIG_REGION_STATUS | .SIG_REGION_CMP | .SIG_REGION_OUT
  | .SIG_REGION_FRAME | .SIG_EXP_CMP | .SIG_EXP_OUT | .SIG_REGION_FAILS => .sig
  | .SCN_CTL | .SCN_STATUS | .SCN_H | .SCN_HSYNC | .SCN_V | .SCN_VSYNC | .SCN_RATE | .SCN_FRAME
  | .SCN_START_TIME | .SCN_FLIP_TIME | .SCN_ALIGN | .SCN_LAG | .SCN_DSC | .SCN_PANEL_UP | .SCN_PANEL_DOWN
  | .SCN_BL | .SCN_BL_APPLIED | .SCN_AUX_CTL | .SCN_AUX_STATUS | .SCN_AUX_DATA | .SCN_TROUBLE
  | .SCN_LINK_LOSSES => .scn
  | .TCH_CTL | .TCH_STATUS | .TCH_GEOM | .TCH_STEP | .TCH_TIMING | .TCH_PHASE | .TCH_FREQ | .TCH_HOP
  | .TCH_THRESH_BARE | .TCH_THRESH_GLOVE | .TCH_FUSE | .TCH_WATER | .TCH_TRACK | .TCH_BASE | .TCH_BASE2
  | .TCH_HOLD | .TCH_MAP_O | .TCH_MAP_SX | .TCH_MAP_SY | .TCH_MAP_CTL | .TCH_ROUTE | .TCH_CURSOR
  | .TCH_CURSOR_COLOR | .TCH_PROX_CFG | .TCH_PROX_STATUS | .TCH_PROX_COUNT | .TCH_TEST | .TCH_TEST_LIMITS
  | .TCH_TEST_COUPLE | .TCH_TEST_OPEN | .TCH_TEST_SHORT | .TCH_REPORT | .TCH_REPORT_STATUS | .TCH_REBASE
  | .TCH_TROUBLE | .TCH_OVERFLOWS | .TCH_REJECTS | .TCH_ADOPTIONS | .TCH_RX_BAD | .TCH_NOISE
  | .TCH_CONTACT_0 | .TCH_CONTACT_1 | .TCH_CONTACT_2 | .TCH_CONTACT_3 | .TCH_RX_0 | .TCH_RX_1 | .TCH_PIN
  | .TCH_NODE_0 | .TCH_NODE_1 => .tch
  | .EVC_CTL | .EVC_STATUS | .EVC_MERGES | .EVC_TROUBLE | .EVC_DOORBELL | .EVC_HOST_FAB | .EVC_HOLDOFF
  | .EVC_PEND | .EVC_MASK | .EVC_MASK_SET | .EVC_MASK_CLR | .EVC_MERGED | .EVC_RUNNING | .EVC_HOST_PEND
  | .EVC_PIN_MASK | .EVC_SRC_0 | .EVC_SRC_1 | .EVC_SRC_2 => .evc
  | .SEQ_CTL | .SEQ_STATE | .SEQ_ST | .SEQ_RUN_LIMIT | .SEQ_LAST | .SEQ_FAULT | .SEQ_RUNS | .SEQ_MAX_RUN
  | .SEQ_ENTRY_TIME | .SEQ_TROUBLE | .SEQ_ECC_COUNT | .SEQ_LOG_STATUS | .SEQ_LOG | .SEQ_GPIO_DIR
  | .SEQ_GPIO_OUT | .SEQ_GPIO_OUT_SET | .SEQ_GPIO_OUT_CLR | .SEQ_GPIO_IN | .SEQ_GPIO_CFG | .SEQ_I2C_CFG
  | .SEQ_I2C_CTL | .SEQ_I2C_STATUS | .SEQ_I2C_WDATA | .SEQ_I2C_RDATA => .seq
  | .SYS_FENCE | .SYS_MODE | .SYS_MODE_REQ | .SYS_MODE_TIME | .SYS_TROUBLE | .SYS_HALT | .SYS_RESET_CAUSE
  | .SYS_RESET_REQ | .SYS_SOFT_RESET | .SYS_JOIN | .SYS_WDT_CFG | .SYS_WDT_KICK | .SYS_WDT_STATUS
  | .SYS_WAKE_CFG | .SYS_WAKE_STATUS | .SYS_WAKE_TIMER => .sys
  | .MEM_CFG | .MEM_STATUS | .MEM_ECC_CORR | .MEM_ECC_FATAL | .MEM_ECC_LAST | .MEM_CIS_CORR
  | .MEM_CIS_FATAL | .MEM_DEV_POOL_BASE | .MEM_DEV_POOL_SIZE | .MEM_TROUBLE | .MEM_SPI_CFG | .MEM_SPI_DROPS => .mem
  | .GATE_STAGE_BASE | .GATE_STAGE_PAGES | .GATE_STAGE_MASK | .GATE_STAGE_ATTR | .GATE_COMMIT | .GATE_SYNC
  | .GATE_TROUBLE | .GATE_FAULTS | .GATE_RECORD_STATUS | .GATE_RECORD | .GATE_MASTER_P | .GATE_RULE_BASE
  | .GATE_RULE_PAGES | .GATE_RULE_MASK | .GATE_RULE_ATTR | .GATE_LEASE_BASE | .GATE_LEASE_STATUS => .gate
  | .CHK_TROUBLE | .CHK_MISMATCH_SUM | .CHK_CH_CTL | .CHK_CH_FOLD | .CHK_CH_ADDR | .CHK_CH_LEN
  | .CHK_CH_STATUS | .CHK_CH_OUT_LEN | .CHK_CH_VALUE | .CHK_CH_EXPECT | .CHK_CH_UNITS | .CHK_CH_MISMATCH => .chk
  | .CFG_STATUS | .CFG_SLOT_STATUS | .CFG_SLOT_SEQ | .CFG_FAIL_AT | .CFG_LOADED_CRC | .CFG_SVN
  | .CFG_LOAD_TIME | .CFG_TROUBLE | .CFG_FLASH_CTL | .CFG_FLASH_ADDR | .CFG_FLASH_STATUS | .CFG_FLASH_INFO
  | .CFG_FLASH_DATA | .CFG_SVC_CTL | .CFG_SVC_STATUS | .CFG_SVC_CHALLENGE | .CFG_SVC_TOKEN => .cfg
  | .PWR_STATUS | .PWR_SHED | .PWR_SHED_TIME | .PWR_THERMAL | .PWR_TROUBLE | .PWR_SAG_RECORD
  | .PWR_RAIL_CFG | .PWR_RAIL_STATUS | .PWR_RAIL_MIN => .pwr
  | .PMC_CNT | .PMC_SNAP | .PMC_ARRIVALS | .PMC_MODE | .PMC_WRAPPED | .PMC_SW | .PMC_SW_LEVEL
  | .PMC_SNAP_CTL | .PMC_SNAP_STATUS | .PMC_SNAP_TIME | .PMC_SAMP_CTL | .PMC_SAMP_PERIOD
  | .PMC_SAMP_MASTERS | .PMC_SAMP_STATUS | .PMC_SAMP | .PMC_TROUBLE => .pmc
  | .TEL_CFG | .TEL_STATUS | .TEL_TEMP | .TEL_TROUBLE | .TEL_LOG_STATUS | .TEL_LOG_SEQ | .TEL_LOG_POS
  | .TEL_LAST => .tel
  | .TST_CFG | .TST_CLASS_EN | .TST_STATUS | .TST_COVER | .TST_LATE | .TST_FAILED | .TST_ENGINES_OUT
  | .TST_PIPES_FAILED | .TST_EYE_CFG | .TST_MARCH_FAIL | .TST_TROUBLE | .TST_RESULT_STATUS | .TST_RESULT
  | .TST_PROVE | .TST_EYE => .tst
  | .DBG_STATUS | .DBG_TROUBLE | .DBG_ACCESSES | .DBG_LAST => .dbg

/-- The trouble bits of a register: the Sticky W1C bits of the trouble registers and bit fields of R428 and R429.
SEQ_FAULT.CODE and PWR_SAG_RECORD.VALID are records beside a trouble bit of their own (DEDUCED, log entry 9). -/
def Reg.stickyMask : Reg → Nat
  | .CMP_FRS_TROUBLE => 0xFF
  | .TIME_TROUBLE => 0x1FF
  | .FAB_PORT_TROUBLE => 0xFF
  | .FAB_NODE_TROUBLE => 0x3F
  | .ETH_TROUBLE => 0xF
  | .CAP_TROUBLE => 0xF
  | .DEC_TROUBLE => 0x1F
  | .ENC_TROUBLE => 0xF
  | .CMP_TROUBLE => 0xFF
  | .LUT_TROUBLE => 0xF
  | .SIG_FAILED => 0xFFFF
  | .SIG_PERSIST => 0xFFFF
  | .SIG_TROUBLE => 0x7
  | .SCN_TROUBLE => 0x7F
  | .TCH_TROUBLE => 0xFFF
  | .EVC_TROUBLE => 0x3
  | .EVC_MERGED => 0xFFFFFFFF
  | .SEQ_TROUBLE => 0xFFFF0007
  | .MEM_TROUBLE => 0xF
  | .GATE_TROUBLE => 0x1F
  | .CHK_TROUBLE => 0x7
  | .CHK_MISMATCH_SUM => 0xFFFFFFFF
  | .CFG_TROUBLE => 0x1F
  | .SYS_TROUBLE => 0xF8000000
  | .PWR_TROUBLE => 0x3F
  | .PMC_WRAPPED => 0xFFFFFFFF
  | .PMC_TROUBLE => 0x3
  | .TEL_TROUBLE => 0x7
  | .TST_LATE => 0xFFFF
  | .TST_FAILED => 0xFFFF
  | .TST_TROUBLE => 0x1FF
  | .DBG_TROUBLE => 0x1F
  | _ => 0

def Reg.por (r : Reg) (i : Nat) : BitVec 64 := BitVec.ofNat 64 (r.porNat i)

end Sys2Proof.Machine
end

