-- ==== Sys2Proof/Machine/Table.lean ====
section
/-! DEFINITION. Sparse tables: lists of (key, value) with the keys strictly rising and no entry equal to what an
unlisted key reads as. The register file, the memories and the per-instance state of the blocks are such tables. -/

namespace Sys2Proof.Machine

variable {α : Type}

/-- What key k reads as; d is what an unlisted key reads as. -/
def tGet (t : List (Nat × α)) (d : α) (k : Nat) : α :=
  match t with
  | [] => d
  | (j, v) :: t' => if k = j then v else tGet t' d k

/-- The entry of key k, if one is listed. -/
def tFind (t : List (Nat × α)) (k : Nat) : Option α :=
  match t with
  | [] => none
  | (j, v) :: t' => if k = j then some v else tFind t' k

/-- The table without an entry for k. -/
def tDel (t : List (Nat × α)) (k : Nat) : List (Nat × α) := t.filter fun e => e.1 != k

/-- The table with the entry (k, v), in its place by key. -/
def tIns (t : List (Nat × α)) (k : Nat) (v : α) : List (Nat × α) :=
  match t with
  | [] => [(k, v)]
  | (j, w) :: t' => if k < j then (k, v) :: (j, w) :: t' else if k = j then (k, v) :: t' else (j, w) :: tIns t' k v

/-- The table in which k reads as v, where an unlisted key reads as d: the entry is listed only when v is not d. -/
def tPut [DecidableEq α] (t : List (Nat × α)) (d : α) (k : Nat) (v : α) : List (Nat × α) :=
  if v = d then tDel t k else tIns t k v

/-- The canonical form: keys strictly rising, and no entry equal to what its key reads as when unlisted. -/
def tWf [DecidableEq α] (d : Nat → α) (t : List (Nat × α)) : Bool :=
  match t with
  | [] => true
  | (j, v) :: t' => (v != d j) && (t'.all (fun e => j < e.1)) && tWf d t'

end Sys2Proof.Machine
end

