-- ==== Sys2Proof/Machine/State.lean ====
section
/-! DEFINITION. The state of the machine, the reasons for which a command stops, and the state after power-on reset.
Every register of the spec's tables is in the register file `Mach.regs`, keyed by register and instance; what the spec
gives the machine beyond its registers is in the structures below. A field of theirs that is not spelled out in
`State.reset` is empty or zero there (log entry 1). -/

namespace Sys2Proof.Machine

/-- The twelve operating modes (R388), with their codes. -/
inductive Mode where
  | hold | load | prove | quarantine | join | live | shed | essential | standby | sleep | service | halt
  deriving DecidableEq, Repr

/-- The latch of one requester (R4): the words it holds, by node-local address. -/
structure Latch where
  who : Requester
  words : List (Nat × Nat)
  deriving DecidableEq, Repr

/-- A trouble-log entry waiting for the flash (R430). SEQ and CRC are given to it as it is written. -/
structure TroubleEntry where
  time : Nat
  tv : Bool
  block : Nat
  bit : Nat
  mode : Nat
  stage : Nat
  node : Nat
  code : Nat
  detail : Nat
  deriving DecidableEq, Repr

/-- What a sequencer in WAIT waits for (R321). -/
inductive SeqWait where
  | none
  /-- A POLL between two reads. -/
  | poll
  | event (source : Nat)
  | time
  /-- A COMMIT waits for the next receipt of its group. -/
  | commit (group : Nat)
  /-- An access to another node waits for the response to the request with this number. -/
  | remote (ref : Nat)
  /-- The action at PC waits for the responses of earlier remote writes (R340, R341), and then issues. -/
  | retry
  /-- A COPY waits, at this beat, for the response to the request with this number: to its read, or to its write. -/
  | copy (beat ref : Nat) (writing : Bool)
  deriving DecidableEq, Repr

/-- One action sequencer beyond its registers (R314, R321): the raw counter at the commit point of its run, what it
waits for, and the raw counter when the wait began. -/
structure SeqCore where
  commitRaw : Nat
  wait : SeqWait
  waitRaw : Nat
  deriving DecidableEq, Repr

/-- The event controller, the sequencers and their desk I/O beyond their registers (R311, R313, R326 to R328). -/
structure EvcSt where
  /-- The sequencer that last took source s; 15 when unlisted (R311). -/
  rr : List (Nat × Nat) := []
  seqs : List (Nat × SeqCore) := []
  /-- The log FIFO of R326, oldest first; each entry is four 64-bit words. -/
  log : List (List Nat) := []
  /-- Raw counter of the last persistent LOG entry (R326). -/
  lastPersist : Option Nat := none
  /-- An I²C transfer is running (R328). -/
  i2cBusy : Bool := false
  deriving DecidableEq, Repr

/-- A sampled action whose record is not yet written (R424): its issue time, source, PC, first two words, and whether
the record is written at the end of the run. -/
structure SampAct where
  time : Nat
  src : Nat
  pc : Nat
  w0 : Nat
  w1 : Nat
  atEnd : Bool
  deriving DecidableEq, Repr

/-- Counters, sampler and log beyond their registers (R418 to R431). -/
structure PmcSt where
  /-- The state bits of the countable events as of the last interconnect edge (R419). -/
  stateBits : List Nat := []
  /-- Sampler FIFO, oldest first: each record is four 64-bit words (R424). -/
  samples : List (List Nat) := []
  /-- Items still to pass before the next action, and the next memory access, is selected (R423). -/
  actLeft : Nat := 0
  memLeft : Nat := 0
  /-- With STOP = 1: selection has stopped until a record is popped (R424). -/
  sampStopped : Bool := false
  /-- The trouble-log queue of R429, oldest first. -/
  logQueue : List TroubleEntry := []
  /-- Milliseconds of plausible readings of each failed sensor (R425). -/
  sensorGood : List (Nat × Nat) := []
  /-- Records taken, for FULL_EVERY (R426). -/
  telCount : Nat := 0
  /-- The counters as of the last record, for period counts (R427). -/
  telBase : List (Nat × Nat) := []
  /-- Sampled actions of each sequencer that have not ended. -/
  sampPend : List (Nat × List SampAct) := []
  /-- The last reading of each sensor since reset (R425). -/
  sensorPrev : List (Nat × Int) := []
  deriving DecidableEq, Repr

/-- A gate rule (R344). -/
structure GateRule where
  base : Nat
  pages : Nat
  mask : Nat
  en : Bool
  lock : Bool
  w : Bool
  r : Bool
  deriving DecidableEq, Repr

/-- The access gate, the SPI target and the fences beyond their registers (R340, R346, R351 to R354). -/
structure GateSt where
  /-- Requesters whose pending-fault flag is set (R351). -/
  faulted : List Requester := []
  /-- Gate records, oldest first; each is four 64-bit words (R352). -/
  records : List (List Nat) := []
  /-- Number of rule commits made (R347), and the rules that commits not yet synced have replaced: until the sync an
  access may be checked against either. -/
  commits : Nat := 0
  unsynced : List (Nat × GateRule) := []
  /-- Of those, how many the sync in progress waits for (R347). -/
  syncing : Nat := 0
  /-- SPI target: the read outstanding (address, length), the bytes ready, RESULT, drops since STATUS (R353). -/
  spiBusy : Option (Nat × Nat) := none
  spiReady : Option (List Nat) := none
  spiResult : Nat := 0
  spiDropped : Nat := 0
  deriving DecidableEq, Repr

/-- What the timebase keeps of one fabric port (R72, R75). Departures are indexed by SEQ; delays are in 2^-4 ns. -/
structure TimePort where
  flit : Option TimeFlit
  flitRaw : Nat
  departures : List (Nat × Nat)
  txSeq : Nat
  rxSeq : Nat
  rxRaw : Nat
  delays : List Int
  discards : Nat
  barred : Bool
  accepted : Nat
  deriving DecidableEq, Repr

/-- A pulse output (R89): the settings latched at arming, the next edge's index, the pin's level, and the inactive level
to which its last edge returns. -/
structure Pulse where
  armed : Bool
  periodic : Bool
  activeLow : Bool
  start : Nat
  period : Nat
  width : Nat
  nextEdge : Nat
  active : Bool
  rest : Bool
  deriving DecidableEq, Repr

/-- A capture input (R90): its FIFO of (stamp, rising edge), oldest first, and the stamp of the last accepted edge. -/
structure CapIn where
  fifo : List (Nat × Bool)
  last : Option Nat
  deriving DecidableEq, Repr

/-- The state of a PTP port (R86). -/
inductive PtpState where
  | off | listening | slave | passive | master | transparent
  deriving DecidableEq, Repr

/-- A PTP port: its state, the best foreign master's Announce and the Announce intervals without one, the Sync awaiting
its Follow_Up (sequence, arrival, correction), the delay request in flight (sequence, departure), the two-step peer
response awaiting its Follow_Up (arrival, receipt of the request, correction), the mean path delay, and on a TRANSPARENT
port the two-step Sync passed last (source, sequence, residence). Corrections, delays and residences are in 2^-16 ns. -/
structure PtpPort where
  state : PtpState
  best : Option PtpMsg
  quiet : Nat
  sync : Option (Nat × Nat × Int)
  delayReq : Option (Nat × Nat)
  response : Option (Nat × Nat × Int)
  pathDelay : Int
  seqId : Nat
  passed : Option (Nat × Nat × Int)
  deriving DecidableEq, Repr

/-- The timebase beyond its registers (R60 to R90). Wall times are in units of 2^-16 ns. -/
structure TimeSt where
  baseRaw : Nat := 0
  baseWall : Nat := 0
  /-- The rate used in HOLDOVER, from which the servo departs by at most MAX_PPM (R74). -/
  holdRate : Int := 0
  /-- The offset measured from the most recent flit, in 2^-16 ns (R66). -/
  e : Int := 0
  /-- Raw counter since when every flit has lain within LOCK_WIN (R66). -/
  withinSince : Option Nat := none
  /-- Flits in a row above 2 × LOCK_WIN in LOCKED (R67). -/
  overCount : Nat := 0
  /-- U_NODE and the raw counter at entry to HOLDOVER, or at the refusal that led to SLEW (R66). -/
  holdU : Nat := 0
  holdRaw : Nat := 0
  rootLost : Bool := false
  lostEpoch : Nat := 0
  maxEpoch : Nat := 0
  /-- Raw counter when the claim wait of R78 began. -/
  claimFrom : Option Nat := none
  /-- CLAIM and PREEMPT flags of the flits this node originates as root (R78, R80). -/
  claimFlag : Bool := false
  preemptFlag : Bool := false
  /-- Raw counter at the last adoption of a claim (R79). -/
  claimRaw : Option Nat := none
  ports : List (Nat × TimePort) := []
  /-- The reference of a candidate: its class (R69), last offset (2^-16 ns), and ROOT_U in ns and the raw counter at
  its loss; the raw counter when it locked (R80). -/
  refClass : Nat := 0
  refOffset : Int := 0
  refLostU : Nat := 0
  refLostRaw : Nat := 0
  refLockedRaw : Option Nat := none
  refSlew : Bool := false
  ppsLast : Option Nat := none
  ppsMisses : Nat := 0
  f10mGood : Bool := false
  /-- Raw counter from which whole seconds are added to TIME_REF_TOD; none until a time of day has been written (R84). -/
  todFrom : Option Nat := none
  ptpOffset : Int := 0
  ptpAccuracy : Nat := 0
  ptpLocked : Bool := false
  pulses : List (Nat × Pulse) := []
  caps : List (Nat × CapIn) := []
  ptp : List (Nat × PtpPort) := []
  deriving DecidableEq, Repr

/-- A flit waiting for its slot on a port (R103). A time flit is made up as it leaves (R71, R101): one that this node
originates as root, a reverse one, or one forwarded, which waits with its arrival stamp and the inbound link delay of its
parent port, so that its residence is added as it leaves (R73). -/
inductive TxFlit where
  | flit (f : Flit)
  | origin
  | reverse
  | time (f : TimeFlit) (arrival : Nat) (dIn : Int)
  deriving DecidableEq, Repr

/-- A fabric port beyond its registers (R95, R100, R103). -/
structure FabPort where
  /-- Back-off before the next training attempt, in ms. -/
  backoff : Nat
  /-- The 32-bit link sequence count of the next non-time flit sent, and the replay buffer, oldest first. -/
  txCount : Nat
  replay : List (Nat × Flit)
  /-- The count expected next, and whether flits are discarded until it arrives. -/
  rxCount : Nat
  nakSent : Bool
  naksInRow : Nat
  /-- The count below which every flit sent has been acknowledged. -/
  acked : Nat
  /-- Credits held, by virtual channel × 2 + buffer class. -/
  credits : List (Nat × Nat)
  txq : List TxFlit
  /-- Slots since the last BULK flit (R103). -/
  sinceBulk : Nat
  /-- Flits to send again after a NAK, oldest first, with their counts. -/
  resend : List (Nat × Flit)
  /-- A NAK is due in the next trailer; flits accepted since credits of (VC × 2 + class) were returned. -/
  nakDue : Bool
  owed : List (Nat × Nat)
  drops : Nat
  dropEvent : Bool
  /-- Flits of flows sent in this 100 µs window, by label (R111, R113), the labels of VIDEO flows that had no flit
  waiting at some slot of it, and whether a CONTACT flit was sent in it. -/
  sent : List (Nat × Nat)
  gaps : List Nat
  contacts : Bool
  /-- The end of the flit now on the wire (R94), in 1/256 ticks of the raw counter. -/
  wireFree : Nat
  /-- Flits of packets being assembled for this node, by label, or 65536 + source × 16 + type. -/
  assembly : List (Nat × List Flit)
  deriving DecidableEq, Repr

/-- A branch of a flow (R109 to R112): the key, the output port, its label and reservation, and whether an ACCEPT has
gone down it. -/
structure Branch where
  key : FlowKey
  port : Nat
  label : Nat
  resv : Nat
  vc : Nat
  accepted : Bool
  deriving DecidableEq, Repr

/-- A flow this node has joined as a member (R109, R112, R122). -/
structure Member where
  key : FlowKey
  resv : Nat
  vc : Nat
  /-- The flow has been accepted. -/
  accepted : Bool
  /-- Status of the last refusal; 0 none. -/
  status : Nat
  deriving DecidableEq, Repr

/-- A remote access of this node in flight (R107, R341). -/
structure RemoteReq where
  tag : Nat
  by_ : Master
  write : Bool
  node : Nat
  addr : Nat
  len : Nat
  posted : Bool
  /-- What it serves: the SEQ of a management request, or the number a sequencer waits for; 0 nothing. -/
  ref : Nat
  deriving DecidableEq, Repr

/-- A flow held at this node (R109): as its origin, or as an entry of the flow table of `port` under `label`. -/
structure FlowEntry where
  key : FlowKey
  origin : Bool
  port : Nat
  label : Nat
  local_ : Bool
  group : Option Nat
  vc : Nat
  resv : Nat
  pktSeq : Nat
  /-- Virtual channel of the packet head that arrived last, on which its data must follow (R99). -/
  headVc : Nat
  deriving DecidableEq, Repr

/-- The fabric beyond its registers. -/
structure FabSt where
  ports : List (Nat × FabPort) := []
  entries : List FlowEntry := []
  branches : List Branch := []
  members : List Member := []
  /-- Stored STATE SEQ of each origin (R116), and this node's own. -/
  peerSeq : List (Nat × Nat) := []
  ownSeq : Nat := 0
  remote : List RemoteReq := []
  /-- Numbers given to the requests that sequencers wait for. -/
  refs : Nat := 0
  /-- PKT_SEQ of the next routed packet. -/
  pktSeq : Nat := 0
  /-- JOINs held at a DEMAND origin until its encode context runs (R197): arriving port and message. -/
  heldJoins : List (Nat × CtrlMsg) := []
  /-- Remote requests that wait for one to overlapping bytes of their node, or for a tag, with their data (R341). -/
  heldReqs : List (RemoteReq × List Nat) := []
  /-- Packets this node has sent to its own ID, each as its type and bytes, until the next tick of the raw counter (R104). -/
  loop : List (Nat × List Nat) := []
  deriving DecidableEq, Repr

/-- An accepted RTP packet of an access unit in reassembly (R132): payload bytes after header, and arrival stamp. -/
structure RtpPkt where
  seq : Nat
  marker : Bool
  payload : List Nat
  arrival : Nat
  /-- The element of the entry's EXT_ID: four words, or none of them where its length is wrong (R136). -/
  record : Option (List Nat)
  deriving DecidableEq, Repr

/-- An access unit in reassembly: packets in sequence order, the raw counter at its last packet, and the mapping in force
at its first packet (R135): the wall time in ns of the RTP timestamp it names, and the raw counter of its report. -/
structure AuIn where
  ts : Nat
  pkts : List RtpPkt
  arrival : Nat
  lastRaw : Nat
  map : Option (Int × Nat × Nat)
  deriving DecidableEq, Repr

/-- A stream entry beyond its registers (R132 to R136). -/
structure EthStream where
  started : Bool
  highSeq : Nat
  lastTs : Option Nat
  seen : List Nat
  /-- Timestamps of the units released of late, newest first (R132). -/
  released : List Nat
  aus : List AuIn
  /-- Sequence and timestamp of the packets dropped in a row under R132 and R133, oldest first. -/
  dropped : List (Nat × Nat)
  /-- The last accepted sender report: wall ns, its RTP timestamp, the raw counter at its arrival. -/
  sr : Option (Int × Nat × Nat)
  ssrc : Nat
  frameNum : Nat
  /-- Raw counter of the last release, or of entry to WAITING. -/
  sinceRaw : Nat
  /-- Token bucket of R129 in 2^-20 bits, and the raw counter of its last use; none: full. -/
  bucket : Option (Nat × Nat)
  deriving DecidableEq, Repr

/-- A neighbour cache entry (R128): address, MAC, raw counter of its last reply, and whether a request of this node waits
for a reply. -/
structure Neighbour where
  addr : Nat
  mac : Nat
  replyRaw : Nat
  asked : Bool
  deriving DecidableEq, Repr

/-- An Ethernet port beyond its registers: cache, groups of its memberships with their sources, reply buckets. -/
structure EthPort where
  neigh : List Neighbour
  /-- Destinations whose neighbour entry is missing, and the raw counter of the last request for them. -/
  wanted : List (Nat × Nat)
  groups : List (Nat × Nat)
  /-- Reports still to repeat after 500 ms. -/
  repeats : List (Nat × Nat)
  arp : Option (Nat × Nat)
  echo : Option (Nat × Nat)
  deriving DecidableEq, Repr

/-- What a management request waits for, or its answer (R140): the response of another node, an OP FENCE or a read of
SYS_FENCE (address and length) that waits for earlier writes, or STATUS and data. -/
inductive MgmtAnswer where
  | remote
  | fence
  | fenceRead (addr len : Nat)
  | done (status : Nat) (data : List Nat)
  deriving DecidableEq, Repr

/-- An open management session, or an attempt to open one (R138 to R141). -/
structure MgmtSession where
  peer : MgmtPeer
  key : Nat
  hostNonce : List Nat
  nodeNonce : List Nat
  sessionKey : List Nat
  highSeq : Nat
  seen : List Nat
  txSeq : Nat
  lastRaw : Nat
  bucket : Option (Nat × Nat)
  /-- Requests in SEQ order whose answers wait for an earlier one, with the answer once known (R140). -/
  waiting : List (Nat × MgmtAnswer)
  /-- Where the datagrams of the requests came from, to which their responses go (R128). -/
  peers : List (Nat × MgmtPeer) := []
  deriving DecidableEq, Repr

/-- A source's OPEN bucket, the raw counters of its failed attempts, and when it was locked out (R129, R139). -/
structure MgmtSource where
  peer : MgmtPeer
  bucket : Option (Nat × Nat)
  fails : List Nat
  locked : Option Nat
  deriving DecidableEq, Repr

/-- The Ethernet ports beyond their registers. -/
structure EthSt where
  streams : List (Nat × EthStream) := []
  ports : List (Nat × EthPort) := []
  sessions : List (Nat × MgmtSession) := []
  attempts : List MgmtSession := []
  sources : List MgmtSource := []
  /-- RTP sending of encoder streams (R137): next sequence number, by stream ID. -/
  rtpSeq : List (Nat × Nat) := []
  deriving DecidableEq, Repr

/-- How a picture lies in its pool slot (R160 to R163): the slot, the coded height, whether its samples have 8 bits, and
whether it has no chroma of its own. -/
structure PicForm where
  slot : Nat := 0
  coded : Nat := 0
  bits8 : Bool := true
  mono : Bool := false
  deriving DecidableEq, Repr

/-- A picture offered to the compositor, the span distributor or an encode context: a decoded picture (R163), a capture
frame (R143) or a picture of a span pool (R119). -/
structure Pic where
  id : Nat
  wit : Witness
  /-- Final lines from the top (decoded and capture pictures). -/
  lines : Nat
  /-- Complete band-rows (span pictures). -/
  rows : List Nat
  width : Nat
  height : Nat
  cropX : Nat
  cropY : Nat
  fmt : Nat
  /-- The last slice-ready record has been issued, or the frame has been accepted. -/
  last : Bool
  concealed : Bool
  clean : Bool
  /-- Raw counter at its first record. -/
  arrived : Nat
  /-- Frame of the composition that last used it. -/
  usedBy : Option Nat
  form : PicForm := {}
  deriving DecidableEq, Repr

/-- The lines of a frame in the capture pool (R143), newest first, in the bytes of the pool format: luma, chroma, and the
chroma samples of a line that waits for its pair. -/
structure CapStore where
  frame : Nat
  luma : List (List Nat) := []
  chroma : List (List Nat) := []
  half : Option (List Nat) := none
  deriving DecidableEq, Repr

/-- A capture port beyond its registers (R143 to R145). -/
structure CapPort where
  /-- FRAME_NUM of the newest frame start, and the frame start packet's number of the frame before. -/
  frameNum : Nat
  prevFnum : Option Nat
  /-- The frame in progress: its picture, CRC register over its pixels, lines received, and its first failure
  (0 none, else 1 + the index in CAP_DROPS). -/
  current : Option Pic
  crc : Nat
  lineCount : Nat
  failed : Nat
  /-- The frames the compositor may hold, newest first: two, and at a frame start a third until the next slot (R210). -/
  frames : List Pic
  /-- The pool's contents. -/
  store : List CapStore
  /-- PIXEL_CRC of the last two captured frames, newest first. -/
  crcs : List Nat
  goodRun : Nat
  gap : Bool
  slotsUsed : Nat
  deriving DecidableEq, Repr

structure CapSt where
  ports : List (Nat × CapPort) := []
  deriving DecidableEq, Repr

/-- An access unit in a bitstream buffer (R156): its NAL units and the wall time when each was released or arrived, bytes,
LOSS, whether it is closed, the KEY mark of a fabric slice, and the raw counter when its first bits came. -/
structure Au where
  wit : Witness
  nals : List (List Nat)
  times : List Nat
  bytes : Nat
  loss : Bool
  closed : Bool
  key : Bool
  raw : Nat
  deriving DecidableEq, Repr

/-- A picture held for reference (R162, R166): its slot, picture order, and whether it is CONCEALED. -/
structure RefPic where
  slot : Nat
  poc : Int
  concealed : Bool
  deriving DecidableEq, Repr

/-- The picture a context is decoding (R157 to R172): slices taken by engines, slices done and those decoded, cycles
spent. -/
structure DecPic where
  pic : Pic
  cycles : Nat := 0
  taken : Nat := 0
  slices : Nat := 0
  good : Nat := 0
  /-- LINES_DONE at the last slice-ready record, and PIC_SEQ once one has been issued. -/
  recorded : Nat := 0
  seq : Option Nat := none
  /-- Lines covered from the top without a gap; picture order; pic_output_flag. -/
  covered : Nat := 0
  poc : Int := 0
  shown : Bool := true
  /-- The sequence set in force, the address of the last slice taken and the engine that took it. -/
  set : Option SeqSet := none
  lastAddr : Option Nat := none
  lastEngine : Nat := 0
  /-- The references that were missing, each with the picture put in its place, none being mid-grey (R166). -/
  subst : List (Int × Option Int) := []
  outputs : List Int := []
  discards : List Int := []
  /-- The LAST_FAULT code of the newest slice dropped (R169). -/
  dropCode : Nat := 0
  deriving DecidableEq, Repr

/-- A decode context beyond its registers. -/
structure DecCtx where
  /-- Where its bits come from: an Ethernet entry p × 64 + s, or a fabric flow. -/
  fromEth : Option Nat
  flow : Option FlowKey
  aus : List Au
  cur : Option DecPic
  /-- Decoded pictures that wait for the output process (R164), by picture order. -/
  waiting : List (Int × Pic)
  /-- Pictures the compositor has leased, newest first (R210). -/
  pics : List Pic
  picSeq : Nat
  /-- Token bucket of R158 in 10^-5 luma samples; a level below 0 is a debt. -/
  bucket : Option (Int × Nat)
  /-- MEASURED (R176): a whole second of the raw counter, the luma samples decoded in it, and in the second before. -/
  measure : Nat × Nat × Nat
  /-- Band-rows of the current picture already sent to the span groups (R118). -/
  rowsSent : Nat
  /-- PIC_SEQ of a picture that found both leases in use, so it is never composed (R210). -/
  skippedPic : Option Nat
  usedBytes : Nat
  memKib : Nat
  /-- The context started at the unit at the head, a CRA or BLA picture; RASL pictures are to be discarded (R165). -/
  startCra : Bool
  rasl : Bool
  /-- The parameter sets and the reference pictures held (R157, R166). -/
  seqs : List SeqSet
  psets : List PicSet
  refs : List RefPic
  /-- A picture was dropped for a bad witness record (R40) or ended as DECODE FAULT: its further slices are dropped too,
  those with its FRAME_NUM where that is known. -/
  spoilt : Bool
  spoiltNum : Option Nat
  /-- The DEGRADED mark of the context's pictures, as its span band-rows carry it (R48). -/
  degraded : Bool
  deriving DecidableEq, Repr

structure DecSt where
  ctxs : List (Nat × DecCtx) := []
  /-- Stage as of the last frame start (R173), and engines that hold a slice, with their context. -/
  stage : Nat := 0
  engines : List (Nat × Nat) := []
  /-- The decode Setts whose clock islands stand (R173), a bit each. -/
  stopped : Nat := 0
  /-- KiB of the slots that released contexts have left on lease (R154). -/
  lent : Nat := 0
  /-- Streams of the spans this node decodes whose last request was refused, with the status (R152, R153). -/
  spanRefused : List (Nat × Nat) := []
  /-- Every context was released by a SOFT restart: the layers and spans ask again at the next latch line (R403). -/
  again : Bool := false
  deriving DecidableEq, Repr

/-- An encode row (R184 to R194): 0 not started, 1 running, 2 coded, the raw counter since when its lines are in the
pool, its bytes and content stamp. -/
structure EncRow where
  st : Nat
  ready : Option Nat
  bytes : Nat
  lim : Nat
  fallback : Bool
  content : Nat
  deriving DecidableEq, Repr

/-- The picture an encode context codes (R186 to R194). -/
structure EncPic where
  frame : Pic
  key : Bool
  refresh : Bool
  budget : Nat
  rem : Nat
  held : Nat
  rows : List EncRow
  fallen : Bool
  starved : Nat
  lost : Nat
  emitted : Nat
  /-- Bytes of the NAL units emitted so far (R190). -/
  out : Nat
  requested : Bool
  /-- The port's REPEATS and FROZEN after the frame before (R186). -/
  prevRepeats : Nat
  prevFrozen : Bool
  deriving DecidableEq, Repr

/-- An encode context beyond its registers. -/
structure EncCtx where
  cur : Option EncPic
  /-- The frame that waits behind the picture in progress (R183). -/
  next : Option EncPic
  bucket : Option (Int × Nat)
  /-- Frames seen since admission, for DIV; pictures since the last key and the last long-term mark. -/
  divCount : Nat
  sinceKey : Nat
  sinceLtr : Nat
  keyWanted : Bool
  refreshWanted : Bool
  /-- Raw counter of the last requested key or refresh picture (HOLD, R188). -/
  lastReq : Option Nat
  nextKey : Bool
  /-- Counted bytes of the pictures before, newest first (R191). -/
  counted : List Nat
  /-- Content stamps of the rows of the short-term reference and of the two long-term slots. -/
  refStamps : List Nat
  ltr : List (Nat × List Nat)
  ltrNext : Nat
  releasing : Bool
  /-- The release is part of a restart of the ENC domain (R403). -/
  restart : Bool
  deriving DecidableEq, Repr

structure EncSt where
  ctxs : List (Nat × EncCtx) := []
  engines : List (Nat × Nat) := []
  /-- Stream IDs of entries whose last request was refused (R179). -/
  refused : List Nat := []
  /-- Stream IDs to request again as soon as their contexts are released (R403). -/
  again : List Nat := []
  deriving DecidableEq, Repr

/-- Where a layer's pictures come from, as resolved at a latch line (R202). -/
inductive Feed where
  | none
  | cap (c : Nat)
  | eth (entry stream : Nat)
  | flow (key : FlowKey)
  | span (key : FlowKey)
  | ownSpan (key : FlowKey) (stream : Nat)
  | absent
  deriving DecidableEq, Repr

/-- A layer beyond its registers (R30 to R51, R202). Reasons are the codes of R38. -/
structure Layer where
  feed : Feed
  /-- The KIND and source the resolution belongs to. -/
  resolved : Nat × Nat
  /-- Status of the refused source request, by R153; 6 a refused membership (R130); 0 none. -/
  refused : Nat
  /-- Stop causes, each with the raw counter when it began (R39). -/
  stops : List (Nat × Nat)
  carry : Nat
  checked : Nat
  ageNow : Nat
  agePrev : Nat
  uNow : Nat
  /-- A picture's age has been checked in this frame, and no picture is shown in this band: the layer is forced lost, or its
  picture is withdrawn (R31, R39). -/
  aged : Bool
  hidden : Bool
  withdrawn : Bool
  degraded : Bool
  /-- 0 within the bound, 1 above it, 2 above ten times it, at the previous check (R58). -/
  uSide : Nat
  label : Option (Nat × Nat)
  newFrame : Bool
  /-- The resolution of a pending commit: feed, refusal status, and the KIND and source resolved (R202). -/
  next : Option (Feed × Nat × (Nat × Nat))
  deriving DecidableEq, Repr

structure SpanPool where
  key : FlowKey
  slots : List Pic
  /-- A band-row with a bad witness record has dropped its picture (R40): the number of its newest band-row. -/
  bad : Option Nat := none
  deriving DecidableEq, Repr

/-- A graphics lease (R221, R222): first page, pages, the frame last composed from it, a layer that used it, and
whether its end waits for the release FIFO. -/
structure Lease where
  base : Nat
  pages : Nat
  layer : Nat
  frame : Nat
  ending : Bool
  deriving DecidableEq, Repr

/-- The compositor beyond its registers. `active` and `staged` hold layer registers by their register-file key. -/
structure CmpSt where
  layers : List (Nat × Layer) := []
  active : List (Nat × DWord) := []
  staged : List (Nat × DWord) := []
  stagedLayers : List Nat := []
  stagedGroups : List Nat := []
  evaluated : List Nat := []
  merged : List (Nat × Nat) := []
  stragglers : List (Nat × Nat) := []
  receipts : List (List Nat) := []
  releases : List (List Nat) := []
  leases : List (Nat × Lease) := []
  readoutIn : List (Nat × (List Nat × Nat)) := []
  readouts : List (Nat × List Nat) := []
  spans : List SpanPool := []
  /-- Frame in composition and its next band; no band of a frame is running between frames. -/
  frame : Nat := 0
  band : Nat := 0
  composing : Bool := false
  /-- Highest opaque covering layer of each tile, row × 64 + column (R212). -/
  cull : List (Nat × Nat) := []
  peak : Nat := 0
  /-- At stage S3, whether the next frame repeats the last composed one (R52), and whether this one does. -/
  repeatNext : Bool := false
  /-- Guard regions in which a treatment drew, and which an overrun fill touched, in the frame in composition (R247). -/
  treated : Nat := 0
  filled : Nat := 0
  /-- At stage S3, the frame in composition is the second showing of the last one, so no band of it is composed. -/
  skip : Bool := false
  /-- Guard regions whose staged settings wait for the apply point (R243). -/
  stagedRegions : List Nat := []
  /-- The picture each layer took for the band in composition (R209). -/
  bandPics : List (Nat × Nat) := []
  /-- Highest strip-band load of the frame in composition (R213). -/
  loadNow : Nat := 0
  /-- The frame buffer being written, and the one the Pump reads, in frame mode (R208). -/
  back : Nat := 0
  front : Nat := 0
  /-- Overrun fills of the band in composition: strip and layers (R211). -/
  overruns : List (Nat × List Nat) := []
  deriving DecidableEq, Repr

/-- The lookup tables' active banks, by window entry (R237), and a swap that is checked or waits (R238). -/
structure LutSt where
  pre : List (Nat × DWord) := []
  cube : List (Nat × DWord) := []
  post : List (Nat × DWord) := []
  /-- Tables of the request being checked, and those that passed; whether the latch line has been met since. -/
  checking : Nat := 0
  passed : Nat := 0
  latched : Bool := false
  /-- Active banks with an uncorrectable error (R240). -/
  bad : Nat := 0
  deriving DecidableEq, Repr

/-- A compositor-output signature of one frame (R244 to R247): its value, the lowest valid expected value it equals,
whether CMP_EXP failed, and whether comparisons were suspended for the frame. -/
structure SigRec where
  frame : Nat
  sig : Nat
  hit : Option Nat
  failed : Bool
  suspended : Bool
  deriving DecidableEq, Repr

/-- One guard region beyond its registers: the newest signatures, newest first, and whether its geometry or LAYER
changed at the last apply point (R249). -/
structure SigRegion where
  recs : List SigRec
  changed : Bool
  deriving DecidableEq, Repr

structure SigSt where
  regions : List (Nat × SigRegion) := []
  /-- Regions that cover a word a Pump read of the frame found uncorrectable (R335). -/
  bad : List Nat := []
  deriving DecidableEq, Repr

/-- An AUX request in flight (R266): whether software issued it, its op, length and address, and tries left after a
missing reply and after AUX_DEFER. -/
structure AuxReq where
  op : Nat
  len : Nat
  addr : Nat
  noReply : Nat
  defers : Nat
  deriving DecidableEq, Repr

/-- The Pump beyond its registers (R253 to R274). -/
structure ScnSt where
  /-- A frame has started since the timing generator did. -/
  running : Bool := false
  /-- Frame starts in a row more than a line off schedule; a coarse re-timing is due (R257, R258). -/
  lateRun : Nat := 0
  retiming : Bool := false
  /-- The duty written and not yet at its latch line, the duty that waits for the frame start, and the duty in force. -/
  dutyNew : Option Nat := none
  dutyNext : Option Nat := none
  duty : Nat := 2048
  sink : Option Sink := none
  /-- Panel sequence: 0 none, 1 up waiting for a plug, 2 up after training, 3 up with video, 4 down with video,
  5 down without link, 6 T_OFF. A lost link (R269) is taken up again in 7 untrained, 8 after training, 9 with video. -/
  step : Nat := 0
  /-- The link is trained; back-off of the next attempt in ms; a retry is due. -/
  linkUp : Bool := false
  retryMs : Nat := 100
  /-- The FAULT card's time is over (R274). -/
  faultOff : Bool := false
  /-- The output island, compositor or pixel, whose clock has failed (R14). -/
  stopped : Option Nat := none
  /-- The phase that the pixel clock's trim takes out of the frame it is in, 2^-16 ns (R255). -/
  trim : Int := 0
  /-- The quarantine card's own timing (R273). -/
  fallback : Option (List Nat) := none
  aux : Option AuxReq := none
  /-- Low HPD pulses ignored under R265; the spec counts them and names no register. -/
  shortPulses : Nat := 0
  deriving DecidableEq, Repr

/-- A contact of the local panel (R293 to R297): its slot and ID, centroid in 1/256 node pitch, output position in
1/8 pixel, whether it was clamped, its peak, area, scans without presence, raw counter at DOWN, STUCK, and a STUCK
report that is due. -/
structure Contact where
  slot : Nat
  id : Nat
  u : Nat
  v : Nat
  x : Nat
  y : Nat
  edge : Bool
  strength : Nat
  area : Nat
  missed : Nat
  downRaw : Nat
  stuck : Bool
  stuckDue : Bool
  deriving DecidableEq, Repr

/-- A candidate of a cycle (R285), with the scanned cycles in a row it has been one. -/
structure Cand where
  t : Nat
  r : Nat
  u : Nat
  v : Nat
  strength : Nat
  area : Nat
  count : Nat
  deriving DecidableEq, Repr

/-- An unbaselined region (R290, R291): its nodes (t × 64 + r), their values when its quiet period began, and the raw
counter then. -/
structure TouchRegion where
  nodes : List Nat
  start : List (Nat × (Int × Int))
  since : Nat
  deriving DecidableEq, Repr

/-- The newest cycle of a node, for the CURSOR layer (R302): sample stamp, uncertainty in µs, and its active contacts:
slot, x, y in 1/8 pixel, STUCK. -/
structure CursorCycle where
  sample : Nat
  u : Nat
  contacts : List (Nat × Nat × Nat × Bool)
  deriving DecidableEq, Repr

/-- A remote origin (R301): its node, the raw counter of its last report, and the last report of each contact it holds,
by slot. -/
structure TouchOrigin where
  node : Nat
  lastRaw : Nat
  held : List (Nat × List Nat)
  deriving DecidableEq, Repr

/-- A proximity group (R305): its baseline in 1/64 counts, none before the first sample, and samples above it in a row. -/
structure ProxGroup where
  base : Option Nat
  run : Nat
  deriving DecidableEq, Repr

/-- The touch front end beyond its registers. Drift terms D are in 2^-16 counts. -/
structure TchSt where
  /-- 0 idle, 1 LISTEN, 2 MUTUAL and SELF. -/
  phase : Nat := 0
  /-- The next scan is the first after scanning started (R288, R290). -/
  first : Bool := true
  cycle : Nat := 0
  contacts : List Contact := []
  pend : List Cand := []
  /-- Reports waiting in the FIFO, oldest first, each of four 64-bit words (R299). -/
  reports : List (List Nat) := []
  cycles : List (Nat × CursorCycle) := []
  origins : List (Nat × TouchOrigin) := []
  /-- D of nodes and pins, and the live values of the last scan. -/
  drift : List (Nat × (Int × Int)) := []
  driftPin : List (Nat × (Int × Int)) := []
  live : List (Nat × (Int × Int)) := []
  livePin : List (Nat × (Int × Int)) := []
  regions : List TouchRegion := []
  /-- Nodes with an unconfirmed delta and the raw counter since when (R292). -/
  unconf : List (Nat × Nat) := []
  freqNext : Option Nat := none
  highCount : Nat := 0
  /-- Scans in a row without the WATER condition. -/
  waterOut : Nat := 0
  lastId : Nat := 0
  /-- Dropped scans in a row, and the pins that were outside the window in all of them (R303). -/
  dropRun : Nat := 0
  dropPins : List Nat := []
  /-- A self-test is wanted; cycles of it still to run; raw counter since when nothing touches (R304). -/
  testWanted : Bool := false
  testLeft : Nat := 0
  quietRaw : Nat := 0
  prox : List (Nat × ProxGroup) := []
  deriving DecidableEq, Repr

/-- A running software check job: its requester and the channel's registers as GO found them (R364). -/
structure ChkJob where
  by_ : Master
  mode : Nat
  poly : Nat
  foldEn : Bool
  msbFirst : Bool
  fold : Nat
  addr : Nat
  len : Nat
  expect : Nat
  deriving DecidableEq, Repr

structure ChkSt where
  /-- The running jobs, by channel. -/
  jobs : List (Nat × ChkJob) := []
  deriving DecidableEq, Repr

/-- A flash operation in progress (R384). -/
structure FlashOp where
  op : Nat
  addr : Nat
  len : Nat
  /-- The bytes to program. -/
  data : List Nat
  started : Nat
  deriving DecidableEq, Repr

/-- Configuration, boot flash and service grant beyond their registers (R370 to R386). -/
structure CfgSt where
  /-- The SERIAL fuse as read at boot. -/
  serial : Nat := 0
  /-- Rows of the image's tables as loaded, each as its bytes (R376). -/
  streams : List (List Nat) := []
  spans : List (List Nat) := []
  palettes : List (List Nat) := []
  keys : List (List Nat) := []
  service : List Nat := []
  touch : List Nat := []
  /-- TCH_FREQ enables as the image set them, bit i for frequency i: the order of its factory tables (R376). -/
  touchFreqs : Nat := 0
  /-- Cistern offset of the font atlas (R376). -/
  fontBase : Nat := 0
  roles : Nat := 0
  /-- FLAGS.SVN_COMMIT and SVN of the applied image (R375), and the slot last loaded. -/
  svnCommit : Bool := false
  svn : Nat := 0
  slot : Option Nat := none
  /-- CRC-32C of action memory stored in step 7 of R380 (R381). -/
  actionCrc : Nat := 0
  /-- ACTION_CRC has failed FAIL_LIMIT times in a row: the next WDT or FAB reset runs LOAD (R440). -/
  reload : Bool := false
  flashOp : Option FlashOp := none
  /-- Raw counter when the service challenge was made, none when none is valid; SERVICE grant held (R385). -/
  challengeRaw : Option Nat := none
  granted : Bool := false
  deriving DecidableEq, Repr

/-- Modes and resets beyond their registers (R389 to R405). -/
structure SysSt where
  /-- Class of the reset whose HOLD or LOAD runs, as SYS_RESET_CAUSE codes it. -/
  cls : Nat := 0
  /-- The reset was taken in QUARANTINE (R381). -/
  fromQuarantine : Bool := false
  /-- RESET_N is low. -/
  resetLow : Bool := false
  /-- The level of MAIN_PWR_EN, driven high at power-on (R458). -/
  mainPwr : Bool := true
  /-- Event 7 is due on entry to JOIN (R395). -/
  wakeDue : Bool := false
  /-- SLEEP entry runs, and the source of a wake that fired during it (R394). -/
  entering : Bool := false
  wake : Option (Nat × Nat) := none
  /-- The JOIN limit has passed with a valid ID (R392). -/
  joinLate : Bool := false
  /-- Raw counter at the watchdog's last restart, and whether its warning has been given (R404). -/
  wdtStart : Nat := 0
  wdtWarned : Bool := false
  /-- A reset that starts as the command ends: its class, as SYS_RESET_CAUSE codes it, and the node that asked for it
  (R401, R405). -/
  resetDue : Option (Nat × Nat) := none
  deriving DecidableEq, Repr

/-- Power supervision beyond its registers (R406 to R414). -/
structure PwrSt where
  /-- The thermal floor (R410). -/
  thermal : Nat := 0
  /-- At S5: frame starts until HALT, plus one (R413); 0 none. -/
  s5 : Nat := 0
  /-- Lowest reading of each rail, in mV, since its monitor left OK. -/
  sagMin : List (Nat × Nat) := []
  /-- The wall time that PWR_SAG_RECORD holds beside its register (R413). -/
  sagTime : Nat := 0
  /-- The servo was not FREE at that time (R430). -/
  sagTv : Bool := false
  /-- The log entry of a sag is due after the next LOAD (R414). -/
  sagLog : Bool := false
  deriving DecidableEq, Repr

/-- The Badger and the debug port beyond their registers (R435 to R447). Units are numbered class × 64 + unit. -/
structure TstSt where
  /-- Records since the last reset, and those that wait, oldest first, each of four 64-bit words (R441). -/
  seq : Nat := 0
  results : List (List Nat) := []
  /-- Failures in a row of each unit, and the units that have completed a pass in the period. -/
  fails : List (Nat × Nat) := []
  covered : List Nat := []
  /-- The debug access that runs (OP, address, data), and STAT and DATA of the last one (R446). -/
  dbgRun : Option (Nat × Nat × Nat) := none
  dbgStat : Nat := 0
  dbgData : Nat := 0
  /-- The response to the running access, once another node has given it: status and data. -/
  dbgRsp : Option (Nat × Nat) := none
  /-- The customer key digest being burned (R447). -/
  burning : Option Nat := none
  deriving DecidableEq, Repr

/-- The pins and pin groups the model drives. -/
inductive Pin where
  | pulse (k : Nat)
  | gpio (k : Nat)
  | mainPwrEn
  | panelVdd
  | blEn
  | hostIrqN (p : Nat)
  deriving DecidableEq, Repr

/-- What an Ethernet port transmits (R128). -/
inductive EthTx where
  | arpReply (mac addr : Nat)
  | arpRequest (addr : Nat)
  | ndAdvert (mac addr : Nat)
  | ndSolicit (addr : Nat)
  | echoReply (mac addr : Nat) (body : List Nat)
  /-- A membership report (R130): a source of 0 is EXCLUDE of the empty set, another is INCLUDE. -/
  | report (group source : Nat) (join : Bool)
  | rtp (mac addr stream seq ts : Nat) (marker : Bool) (record : Option (List Nat)) (payload : List Nat)
  | senderReport (mac addr stream : Nat) (utc : Int) (ts : Nat)
  deriving DecidableEq, Repr

/-- What the block puts on its ports, newest first in `Mach.out`. -/
inductive Out where
  /-- The answer to an access: performed or not, and the value read. -/
  | data (by_ : Master) (ok : Bool) (value : Nat)
  | pin (p : Pin) (level : Bool)
  /-- BL_PWM from here on (R268): its period is num / den in 2^-16 ns, restarting at every frame start with `sync`, and it
  is high for duty / 4,095 of it; a duty of 0 holds it low. -/
  | pwm (num den : Nat) (sync : Bool) (duty : Nat)
  /-- A pin is released, or becomes an input. -/
  | release (p : Pin)
  | flit (port : Nat) (f : Flit)
  | ptp (port : Nat) (msg : PtpMsg)
  /-- A PTP message passed on by a TRANSPARENT port, as its bytes (R86). -/
  | ptpPass (port : Nat) (bytes : List Nat)
  | ethTx (port : Nat) (t : EthTx)
  | mgmtTx (peer : MgmtPeer) (type session seq status : Nat) (body tag : List Nat)
  /-- What the SPI target returns (R353). -/
  | spi (bytes : List Nat)
  /-- What Capture-DR of a JTAG instruction loads (R444, R446). -/
  | jtag (ir value : Nat)
  /-- An I²C transfer starts: address, bytes to write, bytes to read, block read (R328). -/
  | i2c (addr : Nat) (data : List Nat) (rlen : Nat) (block : Bool)
  /-- Nine clock pulses and a STOP that free the I²C bus (R328). -/
  | i2cFree
  /-- A slice-ready record on the dedicated path to the compositor and the span distributor (R163). -/
  | sliceReady (record : Nat)
  deriving DecidableEq, Repr

/-- Everything but the memories, the fuses and the queue. -/
structure Mach where
  /-- The register file: key (R, i) to stored word; an unlisted register holds its power-on value. -/
  regs : List (Nat × DWord) := []
  /-- The raw counter (R60). -/
  raw : Nat := 0
  /-- The model's own field: index of the next free value (log entry 6). -/
  freeIdx : Nat := 0
  /-- Everything put on the block's ports and pins, newest first (log entry 7). -/
  out : List Out := []
  /-- Raw counter of the last occurrence of each event that a rule limits to one per time. -/
  limited : List (Nat × Nat) := []
  latches : List Latch := []
  time : TimeSt := {}
  fab : FabSt := {}
  eth : EthSt := {}
  cap : CapSt := {}
  dec : DecSt := {}
  enc : EncSt := {}
  cmp : CmpSt := {}
  lut : LutSt := {}
  sig : SigSt := {}
  scn : ScnSt := {}
  tch : TchSt := {}
  evc : EvcSt := {}
  pmc : PmcSt := {}
  gate : GateSt := {}
  cfg : CfgSt := {}
  chk : ChkSt := {}
  sys : SysSt := {}
  pwr : PwrSt := {}
  tst : TstSt := {}
  deriving DecidableEq, Repr

/-- The one-time fuses (R374): key digests as numbers, none while blank; thermometer bits of SVN blown. -/
structure Fuses where
  vendorKey : Nat
  customerKey : Option Nat
  svn : Nat
  serial : Nat
  deriving DecidableEq, Repr

/-- The machine: the block, its memories, its fuses and the commands that wait. -/
structure State where
  mach : Mach
  /-- Bytes of the Cistern, action memory and DRAM, by node-local address; an unlisted byte reads 0 (log entry 2). -/
  mem : List Host.Cell
  /-- Bytes of the configuration flash; an unlisted byte reads 0xFF, as erased. -/
  flash : List Host.Cell
  /-- Words of the memories (by the address of their first byte, a multiple of 8) that hold a bit error: whether it is
  uncorrectable (R318, R335, R338). No command makes one; they come from outside. -/
  ecc : List (Nat × Bool)
  fuses : Fuses
  /-- Commands that wait, first in, first out. -/
  pending : List Instr
  deriving DecidableEq, Repr

/-- Faults. No command of this block raises one: a failure is an effect on registers. -/
inductive Fault where
  /-- Raised by no command; safe. -/
  | none
  deriving DecidableEq, Repr

/-- Refusals. -/
inductive Refusal where
  /-- The command has no meaning in this model yet. Raised by the arms of `exec` that say so; safe. -/
  | notModelled (mnemonic : String)
  deriving DecidableEq, Repr

/-- The machine after power-on reset (R400): HOLD, every register at its POR value. -/
def State.reset : State :=
  { mach := {}, mem := [], flash := [], ecc := [], fuses := ⟨0, none, 0, 0⟩, pending := [] }

end Sys2Proof.Machine
end

