-- ==== Sys2Proof/Machine/Ops.lean ====
section
/-! DEFINITION. The named operations every chapter's meanings use: reading and writing registers and their fields,
wall time, events, counters, trouble bits and the trouble log, the node's outputs, and memory bytes. -/

namespace Sys2Proof.Machine

/-! ### Modes (R388) -/

def Mode.code : Mode → Nat
  | .hold => 0 | .load => 1 | .prove => 2 | .quarantine => 3 | .join => 4 | .live => 5 | .shed => 6
  | .essential => 7 | .standby => 8 | .sleep => 9 | .service => 10 | .halt => 11

/-- The mode of a code; the codes 12 to 15 name no mode and are never written. -/
def Mode.ofCode : Nat → Mode
  | 0 => .hold | 1 => .load | 2 => .prove | 3 => .quarantine | 4 => .join | 5 => .live | 6 => .shed
  | 7 => .essential | 8 => .standby | 9 => .sleep | 10 => .service | _ => .halt

/-- LIVE, SHED and ESSENTIAL: the operating modes. -/
def Mode.operating : Mode → Bool
  | .live | .shed | .essential => true
  | _ => false

/-- The modes in which level-1 delivery takes place and sequencers run (R325). -/
def Mode.runs : Mode → Bool
  | .join | .live | .shed | .essential | .standby | .service => true
  | _ => false

/-! ### Registers and fields -/

/-- The key of register r, instance i, in the register file. -/
def regKey (r : Reg) (i : Nat) : Nat := i * 512 + r.ctorIdx

/-- The stored word of a register; a register never written holds its value after power-on reset. -/
def Mach.rd (m : Mach) (r : Reg) (i : Nat) : DWord := tGet m.regs (r.por i) (regKey r i)

/-- The machine with a register's stored word replaced. -/
def Mach.wr (m : Mach) (r : Reg) (i : Nat) (v : DWord) : Mach :=
  { m with regs := tPut m.regs (r.por i) (regKey r i) v }

/-- The value of a field, as a number. -/
def Mach.get (m : Mach) (f : Field) (i : Nat := 0) : Nat := bits (m.rd f.reg i).toNat f.lo f.width

/-- The machine with a field replaced by the low bits of v. -/
def Mach.put (m : Mach) (f : Field) (v : Nat) (i : Nat := 0) : Mach :=
  m.wr f.reg i (BitVec.ofNat 64 (setBits (m.rd f.reg i).toNat f.lo f.width v))

/-- The value of a one-bit field, or whether a wider one is not zero. -/
def Mach.on (m : Mach) (f : Field) (i : Nat := 0) : Bool := m.get f i != 0

def Mach.putB (m : Mach) (f : Field) (b : Bool) (i : Nat := 0) : Mach := m.put f (if b then 1 else 0) i

/-- A saturating count field advanced by n. -/
def Mach.bump (m : Mach) (f : Field) (i : Nat := 0) (n : Nat := 1) : Mach :=
  m.put f (satAdd (m.get f i) n f.width) i

/-- A field that counts modulo its width, advanced by n. -/
def Mach.advance (m : Mach) (f : Field) (i : Nat := 0) (n : Nat := 1) : Mach := m.put f (m.get f i + n) i

def Mach.getS (m : Mach) (f : Field) (i : Nat := 0) : Int := toSigned (m.get f i) f.width

/-- The node's own ID, and whether it is known (R114). -/
def Mach.nodeId (m : Mach) : Nat := m.get F.FAB_NODE_ID_NODE

def Mach.mode (m : Mach) : Mode := Mode.ofCode (m.get F.SYS_MODE_MODE)

/-- The shedding stage (R408), which SYS_MODE.STAGE and PWR_STATUS.STAGE both show. -/
def Mach.stage (m : Mach) : Nat := m.get F.PWR_STATUS_STAGE

/-! ### Time -/

/-- Ticks of the raw counter in n ns, µs and ms (R60: one tick is 0.64 ns), rounded up. -/
def nsTicks (n : Nat) : Nat := ceilDiv (n * 25) 16
def usTicks (n : Nat) : Nat := ceilDiv (n * 3125) 2
def msTicks (n : Nat) : Nat := n * 1562500

/-- Nanoseconds of wall time in n ticks, rounded down. -/
def ticksNs (n : Nat) : Nat := n * 16 / 25

/-- Wall time by R61, in units of 2^-16 ns, rounded down to such a unit. -/
def Mach.wallFx (m : Mach) : Nat :=
  let rate := m.getS F.TIME_RATE_RATE
  let ticks : Int := (m.raw : Int) - m.time.baseRaw
  ((m.time.baseWall : Int) + ticks * 64 * 65536 * (2 ^ 40 + rate) / (100 * 2 ^ 40)).toNat

/-- Wall ns (R61). -/
def Mach.now (m : Mach) : Nat := m.wallFx / 65536 % 2 ^ 64

/-- R64: a short stamp extended to full wall time, when it lies within the window. -/
def Mach.extendStamp (m : Mach) (stamp : Nat) : Option Nat :=
  let d := stampDiff stamp (m.now % 2 ^ 32)
  if d.natAbs < 2000000000 then some ((m.now : Int) + d).toNat else none

/-! ### Routing and sending on the fabric (R97, R104) -/

def fabPort0 : FabPort :=
  { backoff := 0, txCount := 0, replay := [], rxCount := 0, nakSent := false, naksInRow := 0, acked := 0,
    credits := [], txq := [], sinceBulk := 0, resend := [], nakDue := false, owed := [], drops := 0,
    dropEvent := false, sent := [], gaps := [], contacts := false, wireFree := 0, assembly := [] }

def Mach.fabPort (m : Mach) (p : Nat) : FabPort := tGet m.fab.ports fabPort0 p

def Mach.setFabPort (m : Mach) (p : Nat) (x : FabPort) : Mach :=
  { m with fab := { m.fab with ports := tPut m.fab.ports fabPort0 p x } }

/-- The port is ACTIVE (R95). -/
def Mach.portActive (m : Mach) (p : Nat) : Bool := m.get F.FAB_PORT_STATUS_STATE p = 3

/-- One dimension of R104: the step from a to b on a ring of n, by the shorter way, a tie in the + direction. -/
def dimStep (a b n : Nat) : Option Bool :=
  if a = b then none
  else
    let up := (b + n - a) % n
    some (decide (up ≤ n - up))

/-- The coordinates of a node ID lie in the torus (R104). -/
def Mach.inTorus (m : Mach) (d : Nat) : Bool :=
  bits d 0 4 < m.get F.FAB_NODE_TOPO_X && bits d 4 4 < m.get F.FAB_NODE_TOPO_Y && bits d 8 4 < m.get F.FAB_NODE_TOPO_Z

/-- The dimension-order port towards a node: x first, then y, then z. -/
def Mach.dor (m : Mach) (d : Nat) : Option Nat :=
  let s := m.nodeId
  match dimStep (bits s 0 4) (bits d 0 4) (m.get F.FAB_NODE_TOPO_X) with
  | some up => some (if up then 0 else 1)
  | none =>
    match dimStep (bits s 4 4) (bits d 4 4) (m.get F.FAB_NODE_TOPO_Y) with
    | some up => some (if up then 2 else 3)
    | none =>
      match dimStep (bits s 8 4) (bits d 8 4) (m.get F.FAB_NODE_TOPO_Z) with
      | some up => some (if up then 4 else 5)
      | none => none

/-- The ports that R104 gives towards a node, in the order it tries them, ACTIVE or not. -/
def Mach.routePorts (m : Mach) (d : Nat) : List Nat :=
  (if m.on F.FAB_ROUTE_VALID d then [m.get F.FAB_ROUTE_PORT d] else []) ++
  (if m.get F.FAB_NODE_TOPO_MODE ≠ 0 ∧ m.inTorus d then (m.dor d).toList else []) ++
  (if m.on F.FAB_ROUTE_ALT_VALID d then [m.get F.FAB_ROUTE_ALT d] else [])

/-- The peer of a port is in QUARANTINE, as its CONFIG told (R117). -/
def Mach.peerOut (m : Mach) (p : Nat) : Bool := m.get F.FAB_PORT_STATUS_PEER_MODE p = Mode.quarantine.code

/-- A peer in QUARANTINE gets no flit that it would have to forward (R117). -/
def Mach.portOpen (m : Mach) (d p : Nat) : Bool :=
  m.portActive p && (!m.peerOut p || m.get F.FAB_PORT_STATUS_PEER_NODE p = d)

/-- R104: the output port of a routed flit for another node. -/
def Mach.route (m : Mach) (d : Nat) : Option Nat := (m.routePorts d).find? (m.portOpen d)

/-- The class bit by R104: set on crossing a wrap link, cleared on turning into the next dimension. A flit that starts
here has no port of arrival. -/
def Mach.nextClass (m : Mach) (pIn : Option Nat) (pOut : Nat) (cl : Bool) : Bool :=
  let s := m.nodeId
  let dim := pOut / 2
  let c := bits s (4 * dim) 4
  let n := [m.get F.FAB_NODE_TOPO_X, m.get F.FAB_NODE_TOPO_Y, m.get F.FAB_NODE_TOPO_Z].getD dim 1
  let cl := if pIn.map (· / 2) = some dim then cl else false
  if 6 ≤ pOut ∨ m.get F.FAB_NODE_TOPO_MODE = 0 then cl
  else if pOut % 2 = 0 then cl || c + 1 = n else cl || c = 0

/-- What a node in QUARANTINE may send (R117): CONFIG (type 2, CMD 1) and its STATE. -/
def TxFlit.inQuarantine : TxFlit → Bool
  | .flit f => f.type = 3 || (f.type = 2 && bits (f.body.headD 0) 56 8 = 1)
  | _ => false

/-- A flit joins the port's output queue. In QUARANTINE the node originates and forwards none but CONFIG and its
STATE. -/
def Mach.enqueue (m : Mach) (p : Nat) (f : TxFlit) : Mach :=
  if m.mode = .quarantine && !f.inQuarantine then m
  else
    let x := m.fabPort p
    m.setFabPort p { x with txq := x.txq ++ [f] }

/-- A flit with an empty header and trailer. -/
def flit0 : Flit :=
  { type := 0, vc := 0, hops := 0, dest := 0, src := 0, label := 0, rt := false, fi := true, la := true, cl := false,
    bodyLen := 0, pktSeq := 0, body := [], txSeq := 0, ackSeq := 0, nak := false, ccl := false, cvc := 0,
    credits := 0, crc := 0 }

/-- The body words of a packet, six to a flit. -/
def chunk6 : Nat → List Nat → List (List Nat)
  | 0, _ => []
  | n + 1, l => if l.length ≤ 6 then [l] else l.take 6 :: chunk6 n (l.drop 6)

/-- A packet of `len` bytes, held in 64-bit words, as flits made from `f`: FI on the first, LA on the last. -/
def packetFlits (f : Flit) (words : List Nat) (len : Nat) : List Flit :=
  let cs := chunk6 (words.length + 1) words
  let n := cs.length
  (cs.zip (List.range n)).map fun (c, i) =>
    { f with body := c, fi := i = 0, la := i + 1 = n, bodyLen := min 48 (len - 48 * i) }

/-- A routed packet of flits made from `f` leaves on port p, under the node's next PKT_SEQ (R97). The data of a write
request follows its two words in further flits (R107). -/
def Mach.sendOn (m : Mach) (p type vc dest : Nat) (words : List Nat) (len : Nat) : Mach :=
  let f := { flit0 with type := type, vc := vc, dest := dest, src := m.nodeId, rt := true, pktSeq := m.fab.pktSeq,
                        cl := m.nextClass none p false }
  let m := { m with fab := { m.fab with pktSeq := (m.fab.pktSeq + 1) % 256 } }
  let fs := if type = 9 && 16 < len then
      { f with body := words.take 2, bodyLen := 16, la := false } ::
        (packetFlits f (words.drop 2) (len - 16)).map fun (g : Flit) => { g with fi := false }
    else packetFlits f words len
  fs.foldl (fun m f => m.enqueue p (.flit f)) m

/-- A packet for the node's own ID (R104), delivered at the next tick of the raw counter. -/
def Mach.sendHome (m : Mach) (type : Nat) (words : List Nat) (len : Nat) : Mach :=
  let bytes := (words.flatMap fun w => (List.range 8).map fun i => w / 256 ^ i % 256).take len
  { m with fab := { m.fab with loop := m.fab.loop ++ [(type, bytes)] } }

/-! ### Outputs and free values -/

/-- The machine that has put a message on one of its ports, or driven a pin. -/
def Mach.emit (m : Mach) (o : Out) : Mach := { m with out := o :: m.out }

/-- The index of the next free value, and the machine that has used it. -/
def Mach.fresh (m : Mach) : Nat × Mach := (m.freeIdx, { m with freeIdx := m.freeIdx + 1 })

/-- The next free value, of w bits: the spec leaves it open. -/
def Mach.freeBits (m : Mach) (w : Nat) : Nat × Mach := (Config.freeWord m.freeIdx % 2 ^ w, m.fresh.2)

/-! ### Arrivals and events (R310, R421) -/

/-- A bit of a bit array of 32-bit words. -/
def Mach.bitOf (m : Mach) (r : Reg) (n : Nat) : Bool := (m.rd r (n / 32)).toNat.testBit (n % 32)

def Mach.setBitOf (m : Mach) (r : Reg) (n : Nat) : Mach :=
  m.wr r (n / 32) (BitVec.ofNat 64 (setBit (m.rd r (n / 32)).toNat (n % 32)))

def Mach.clearBitOf (m : Mach) (r : Reg) (n : Nat) : Mach :=
  m.wr r (n / 32) (BitVec.ofNat 64 (clearBit (m.rd r (n / 32)).toNat (n % 32)))

/-- Whether `limit` ticks have passed since event n last did what its row limits. -/
def Mach.mayAgain (m : Mach) (n limit : Nat) : Bool :=
  match tFind m.limited n with
  | none => true
  | some t => t + limit ≤ m.raw

def Mach.markNow (m : Mach) (n : Nat) : Mach := { m with limited := tIns m.limited n m.raw }

/-- The 48-bit counter of countable event e adds n (R418). A wrap sets the counter's bit in PMC_WRAPPED; what else a wrap
does follows as the command ends. -/
def Mach.addCount (m : Mach) (e n : Nat) : Mach :=
  let c := m.get F.PMC_CNT_COUNT e + n
  let m := m.put F.PMC_CNT_COUNT c e
  if c < 2 ^ 48 then m else m.setBitOf .PMC_WRAPPED e

/-- Countable event e occurs n times in one cycle (R419): in EDGE mode its counter adds n, in LEVEL mode 1. -/
def Mach.count (m : Mach) (e : Nat) (n : Nat := 1) : Mach := m.addCount e (if m.bitOf .PMC_MODE e then min n 1 else n)

/-- No bit of a host's set is pending. -/
def Mach.hostIdle (m : Mach) (h : Nat) : Bool := (List.range 16).all fun w => m.rd .EVC_HOST_PEND (h * 16 + w) = 0

/-- The host sets that a source sets bits in (R310, R317). -/
def Mach.level2 (m : Mach) (s : Nat) : Mach :=
  let hosts := m.get F.EVC_SRC_0_HOST s
  (List.range 4).foldl (fun m h =>
    if hosts.testBit h then
      let i := h * 16 + s / 32
      (m.wr .EVC_HOST_PEND i (BitVec.ofNat 64 (setBit (m.rd .EVC_HOST_PEND i).toNat (s % 32)))).count 262
    else m) m

/-- The fabric host is told once, by a DOORBELL flit, each time its set goes from empty to non-empty (R317). -/
def Mach.bellDue (m : Mach) (s : Nat) : Bool :=
  (m.get F.EVC_SRC_0_HOST s).testBit 2 && m.hostIdle 2 && m.on F.EVC_HOST_FAB_EN

/-- WAIT_EVENT (R321): every sequencer that waits for source s completes with OK and goes on. -/
def Mach.wakeWaiters (m : Mach) (s : Nat) : Mach :=
  m.evc.seqs.foldl (fun m e =>
    if e.2.wait = .event s then
      { m with evc := { m.evc with seqs := tIns m.evc.seqs e.1 { e.2 with wait := .none } } }
        |>.put F.SEQ_ST_ST 0 e.1 |>.put F.SEQ_STATE_STATE 3 e.1
        |>.put F.SEQ_STATE_PC (m.get F.SEQ_STATE_PC e.1 + 1) e.1
    else m) m

/-- A snapshot of all 320 counters (R422), without its event. -/
def Mach.snapshot (m : Mach) : Mach :=
  let m := (List.range 320).foldl (fun m e => m.put F.PMC_SNAP_SNAP (m.get F.PMC_CNT_COUNT e) e) m
  (m.put F.PMC_SNAP_TIME_TIME m.now).advance F.PMC_SNAP_STATUS_SEQ

/-- An entry of the trouble log made now (R430): TV is 1 when the servo is not FREE, and TIME is the raw counter
otherwise. -/
def Mach.logEntry (m : Mach) (block bit code detail : Nat) : TroubleEntry :=
  let tv := m.get F.TIME_STATUS_STATE != 0
  { time := if tv then m.now else m.raw, tv := tv, block := block, bit := bit, mode := m.get F.SYS_MODE_MODE,
    stage := m.stage, node := m.nodeId, code := code, detail := detail }

end Sys2Proof.Machine
end

