-- ==== Sys2Proof/Machine/Flags.lean ====
section
/-! DEFINITION. The flags of the machine: pending bits, merges and arrival counts (R310, R421), Sticky trouble bits,
their summary SYS_TROUBLE.BLOCKS and the trouble-log entry each rise queues (R428, R429), and BAD_VALUE (R10, R11).

One occurrence can lead to the next: an arrival that merges sets trouble bits and raises event 356, a first trouble
bit of a block raises event 449, an entry that finds the log queue full raises event 451. `settle` works such a chain
off in order. -/

namespace Sys2Proof.Machine

/-- One thing to happen: an arrival at an event source (`trigger`: it may start a snapshot, R422), the rise of a Sticky
trouble bit with the CODE and DETAIL of its log entry, a log entry that a rule names, a snapshot, or the DOORBELL of the
fabric host (R317). -/
inductive Eff where
  | arrive (s : Nat) (trigger : Bool)
  | sticky (r : Reg) (i bit code detail : Nat)
  | quietSticky (r : Reg) (i bit : Nat)
  | entry (e : TroubleEntry)
  | snap
  | bell
  deriving DecidableEq, Repr

/-- An arrival (R310, R421, R422), and what it leads to. -/
def Mach.arrive (m : Mach) (s : Nat) (trigger : Bool) : Mach × List Eff :=
  if m.mode = .hold ∨ m.mode = .sleep then (m, [])
  else
    let bell := if m.bellDue s then [Eff.bell] else []
    let m := (m.bump F.PMC_ARRIVALS_ARRIVALS s).wakeWaiters s |>.level2 s
    let snap := bell ++
      if trigger && m.on F.PMC_SNAP_CTL_SRC_EN && m.get F.PMC_SNAP_CTL_SRC = s then [Eff.snap] else []
    if m.on F.EVC_SRC_0_EN s then
      if m.bitOf .EVC_PEND s then
        let m := (m.bump F.EVC_MERGES_COUNT).count 257
        let again := m.mayAgain 356 (msTicks 1)
        let m := if again then m.markNow 356 else m
        (m, snap ++ [.sticky .EVC_MERGED (s / 32) (s % 32) 0 s, .sticky .EVC_TROUBLE 0 0 0 0] ++
          (if again then [.arrive 356 true] else []))
      else (m.setBitOf .EVC_PEND s, snap)
    else (m, snap)

/-- The summary bit of a block is set (R428), and event 449 is due on its rise. -/
def Mach.summarise (m : Mach) (b : Block) : Mach × List Eff :=
  match b.troubleBit with
  | none => (m, [])
  | some n =>
    if (m.get F.SYS_TROUBLE_BLOCKS).testBit n then (m, [])
    else (m.put F.SYS_TROUBLE_BLOCKS (setBit (m.get F.SYS_TROUBLE_BLOCKS) n), [.arrive 449 true])

/-- An entry joins the log queue, or is dropped and counted when 64 wait (R429). -/
def Mach.queueEntry (m : Mach) (e : TroubleEntry) : Mach × List Eff :=
  if m.pmc.logQueue.length < 64 then
    ({ m with pmc := { m.pmc with logQueue := m.pmc.logQueue ++ [e] } }
      |>.put F.TEL_LOG_STATUS_QUEUED (m.pmc.logQueue.length + 1), [])
  else ((m.bump F.TEL_LOG_STATUS_DROPPED).count 299, [.quietSticky .TEL_TROUBLE 0 1, .arrive 451 true])

/-- The block number of a log entry about block b (R430). The SYS block has no number among BLOCKS: the spec states
none, so that number is free. -/
def Block.logNumber (b : Block) : Nat := (b.troubleBit).getD (Config.sysLogBlock % 32)

/-- The bit is set in its register. -/
def Mach.setRegBit (m : Mach) (r : Reg) (i bit : Nat) : Mach :=
  m.wr r i (BitVec.ofNat 64 (setBit (m.rd r i).toNat bit))

/-- A bit of DEC_TROUBLE that sets is the node cause TROUBLE of the decoder, with event 144 while its mask bit is 1
(R174). -/
def Mach.decTroubled (m : Mach) : Mach × List Eff :=
  (m.putB F.DEC_NODE_CAUSE_TROUBLE true, if m.on F.DEC_NODE_MASK_TROUBLE then [.arrive 144 true] else [])

/-- The same for a bit of ENC_TROUBLE and event 209 (R197, R199). -/
def Mach.encTroubled (m : Mach) : Mach × List Eff :=
  (m.putB F.ENC_NODE_CAUSE_TROUBLE true, if m.on F.ENC_NODE_MASK_TROUBLE then [.arrive 209 true] else [])

/-- The event that every rise of a bit of a trouble register raises (R229, R275, R308). -/
def troubleEvent (r : Reg) : List Eff :=
  match r with
  | .CMP_TROUBLE => [.arrive 267 true]
  | .SCN_TROUBLE => [.arrive 283 true]
  | .TCH_TROUBLE => [.arrive 322 true]
  | _ => []

/-- The rise of a Sticky trouble bit (R428, R429); a bit already set stays set and nothing more happens. The rise of a
bit of SYS_TROUBLE [31:28] raises event 1 (R415). -/
def Mach.rise (m : Mach) (r : Reg) (i bit code detail : Nat) (log : Bool) : Mach × List Eff :=
  if (m.rd r i).toNat.testBit bit then (m, [])
  else
    let m := m.setRegBit r i bit
    let (m, e1) := m.summarise r.block
    let e2 := if r = .SYS_TROUBLE ∧ 28 ≤ bit then [Eff.arrive 1 true] else []
    let e3 := if log then [Eff.entry (m.logEntry r.block.logNumber bit code detail)] else []
    let (m, e4) := if r = .DEC_TROUBLE then m.decTroubled else if r = .ENC_TROUBLE then m.encTroubled else (m, [])
    (m, e1 ++ e2 ++ troubleEvent r ++ e4 ++ e3)

/-- A flit is dropped at port p: event 37 + 8p at the first drop after the count was read (R123). -/
def Mach.countDrop (m : Mach) (p : Nat) : Mach × List Eff :=
  let x := m.fabPort p
  (m.setFabPort p { x with drops := x.drops + 1, dropEvent := true }, if x.dropEvent then [] else [.arrive (37 + 8 * p) true])

/-- A routed packet of this node (R104): delivered here, sent on the port of its route, or dropped, counted and recorded
as NO_ROUTE. The record stands at the first port that its route names, port 0 where it names none (log entry 64). -/
def Mach.dispatch (m : Mach) (type vc dest : Nat) (words : List Nat) (len : Nat) : Mach × List Eff :=
  if dest = m.nodeId && m.on F.FAB_NODE_ID_VALID then (m.sendHome type words len, [])
  else match m.route dest with
    | some p => (m.sendOn p type vc dest words len, [])
    | none =>
      let p := (m.routePorts dest).headD 0
      let (m, es) := m.countDrop p
      (m, .sticky .FAB_PORT_TROUBLE p F.FAB_PORT_TROUBLE_NO_ROUTE.lo 0 0 :: es)

def Mach.effect (m : Mach) : Eff → Mach × List Eff
  | .arrive s trigger => m.arrive s trigger
  | .sticky r i bit code detail => m.rise r i bit code detail true
  | .quietSticky r i bit => m.rise r i bit 0 0 false
  | .entry e => m.queueEntry e
  | .snap => (m.snapshot, [.arrive 453 false])
  | .bell => m.dispatch 12 1 (m.get F.EVC_HOST_FAB_NODE) [m.get F.EVC_HOST_FAB_BELL] 1

/-- Work a chain of occurrences off, first in first out. -/
def settle : Nat → List Eff → Mach → Mach
  | 0, _, m => m
  | _ + 1, [], m => m
  | n + 1, e :: es, m =>
    let (m, more) := m.effect e
    settle n (es ++ more) m

/-- The longest chain one occurrence can start stays far below this. -/
def settleFuel : Nat := 64

/-- Event s is raised: one arrival at its source. -/
def Mach.raise (m : Mach) (s : Nat) : Mach := settle settleFuel [.arrive s true] m

/-- Event s is raised unless it was within the last `limit` ticks ("at most once per ..."). -/
def Mach.raiseLimited (m : Mach) (s limit : Nat) : Mach :=
  if m.mayAgain s limit then (m.markNow s).raise s else m

/-- A Sticky trouble bit is set; its log entry carries code and detail. -/
def Mach.trouble (m : Mach) (f : Field) (i : Nat := 0) (detail : Nat := 0) (code : Nat := 0) : Mach :=
  settle settleFuel [.sticky f.reg i f.lo code detail] m

/-- Bit k of a Sticky field of several bits is set; DETAIL gives k (R429). -/
def Mach.troubleBit (m : Mach) (f : Field) (k : Nat) (i : Nat := 0) : Mach :=
  settle settleFuel [.sticky f.reg i (f.lo + k) 0 k] m

/-- A Sticky bit is set whose entry another rule names or writes later. -/
def Mach.troubleNoEntry (m : Mach) (f : Field) (i : Nat := 0) : Mach :=
  settle settleFuel [.quietSticky f.reg i f.lo] m

/-- A trouble-log entry that a rule names (R429). -/
def Mach.log (m : Mach) (block bit code detail : Nat) : Mach :=
  settle settleFuel [.entry (m.logEntry block bit code detail)] m

/-- A conflict of the guarantee ladder (R53): a BLOCK 22 entry holding the kept and the broken rung and the block. -/
def Mach.ladder (m : Mach) (kept broken : Nat) (b : Block) : Mach := m.log 22 0 (kept * 16 + broken) b.logNumber

/-- A routed packet of this node, to any node (R104). -/
def Mach.sendRouted (m : Mach) (type vc dest : Nat) (words : List Nat) (len : Nat) : Mach :=
  let (m, es) := m.dispatch type vc dest words len
  settle settleFuel es m

/-- The summary bits that no trouble bit of their block supports any longer are cleared (R428). -/
def Mach.resummarise (m : Mach) : Mach :=
  let live := m.regs.foldl (fun acc e =>
    let r := Reg.ofNat (e.1 % 512)
    if e.2.toNat &&& r.stickyMask != 0 then
      match r.block.troubleBit with
      | some b => setBit acc b
      | none => acc
    else acc) 0
  m.put F.SYS_TROUBLE_BLOCKS (m.get F.SYS_TROUBLE_BLOCKS &&& live)

/-- The BAD_VALUE bit of the trouble register that serves a register, and its instance (R10). -/
def badValueField (r : Reg) (i : Nat) : Field × Nat :=
  match r with
  | .FAB_PORT_CTL | .FAB_PORT_LIMITS | .FAB_PORT_RESV | .FAB_PORT_STATUS | .FAB_PORT_FLOWS | .FAB_PORT_TROUBLE =>
    (F.FAB_PORT_TROUBLE_BAD_VALUE, i)
  | .FAB_FLOW_0 | .FAB_FLOW_1 | .FAB_FLOW_2 | .FAB_FLOW_3 => (F.FAB_PORT_TROUBLE_BAD_VALUE, i / 1024)
  | .ETH_PORT_CTL | .ETH_PORT_STATUS | .ETH_MAC | .ETH_IPV4 | .ETH_LIMITS | .ETH_TROUBLE =>
    (F.ETH_TROUBLE_BAD_VALUE, i)
  | .ETH_IPV6 => (F.ETH_TROUBLE_BAD_VALUE, i / 4)
  | .ETH_DROP => (F.ETH_TROUBLE_BAD_VALUE, i / 16)
  | .ETH_STREAM_CTL | .ETH_STREAM_ID | .ETH_STREAM_UDP | .ETH_STREAM_SSRC | .ETH_STREAM_TIMES | .ETH_STREAM_RATE
  | .ETH_STREAM_STATUS | .ETH_STREAM_LOSS => (F.ETH_TROUBLE_BAD_VALUE, i / 64)
  | .ETH_STREAM_SRC | .ETH_STREAM_DST => (F.ETH_TROUBLE_BAD_VALUE, i / 256)
  | .CAP_CTL | .CAP_GEOM | .CAP_TIMING | .CAP_ID | .CAP_STATUS | .CAP_FRAMES | .CAP_TROUBLE =>
    (F.CAP_TROUBLE_BAD_VALUE, i)
  | .CAP_DROPS => (F.CAP_TROUBLE_BAD_VALUE, i / 4)
  | _ =>
    match r.block with
    | .time => (F.TIME_TROUBLE_BAD_VALUE, 0)
    | .fab => (F.FAB_NODE_TROUBLE_BAD_VALUE, 0)
    | .eth => (F.ETH_TROUBLE_BAD_VALUE, 0)
    | .cap => (F.CAP_TROUBLE_BAD_VALUE, 0)
    | .dec => (F.DEC_TROUBLE_BAD_VALUE, 0)
    | .enc => (F.ENC_TROUBLE_BAD_VALUE, 0)
    | .cmp => (F.CMP_TROUBLE_BAD_VALUE, 0)
    | .lut => (F.LUT_TROUBLE_BAD_VALUE, 0)
    | .sig => (F.SIG_TROUBLE_BAD_VALUE, 0)
    | .scn => (F.SCN_TROUBLE_BAD_VALUE, 0)
    | .tch => (F.TCH_TROUBLE_BAD_VALUE, 0)
    | .evc => (F.EVC_TROUBLE_BAD_VALUE, 0)
    | .seq => (F.SEQ_TROUBLE_BAD_VALUE, 0)
    | .gate => (F.GATE_TROUBLE_BAD_VALUE, 0)
    | .mem => (F.MEM_TROUBLE_BAD_VALUE, 0)
    | .chk => (F.CHK_TROUBLE_BAD_VALUE, 0)
    | .cfg => (F.CFG_TROUBLE_BAD_VALUE, 0)
    | .sys => (F.SYS_TROUBLE_BAD_VALUE, 0)
    | .pwr => (F.PWR_TROUBLE_BAD_VALUE, 0)
    | .tst => (F.TST_TROUBLE_BAD_VALUE, 0)
    | .tel => (F.TEL_TROUBLE_BAD_VALUE, 0)
    | .pmc => (F.PMC_TROUBLE_BAD_VALUE, 0)
    | .dbg => (F.DBG_TROUBLE_BAD_VALUE, 0)

/-- A write refused under R10 or R11: it changes nothing but the BAD_VALUE bit that serves its register. -/
def Mach.refuse (m : Mach) (r : Reg) (i : Nat) : Mach :=
  let (f, j) := badValueField r i
  m.trouble f j

end Sys2Proof.Machine
end

