-- ==== Sys2Proof/Machine/Places.lean ====
section
/-! DEFINITION. Register space as an address map (R3, R333): which block and which register an address lies in, and
the rows of a register's fields as bit masks. -/

namespace Sys2Proof.Machine

/-- The ranges of R333: the first address behind each block, in rising order. -/
def blockEnds : List (Nat × Block) :=
  [(0x10000, .sys), (0x20000, .pwr), (0x30000, .cfg), (0x40000, .evc), (0x60000, .seq), (0x70000, .gate),
   (0x80000, .pmc), (0x90000, .time), (0xA0000, .chk), (0xB0000, .tst), (0xC0000, .tel)]

def blockEndsWide : List (Nat × Block) :=
  [(0x200000, .fab), (0x300000, .eth), (0x400000, .cap), (0x500000, .dec), (0x600000, .enc), (0x700000, .cmp),
   (0x780000, .lut), (0x800000, .sig), (0x900000, .scn), (0xA00000, .tch), (0xB00000, .mem), (0xC00000, .dbg)]

/-- The block an address of register space lies in. -/
def blockAt (a : Nat) : Option Block :=
  if a < 0xC0000 then (blockEnds.find? fun e => a < e.1).map Prod.snd
  else if a < 0x100000 then none
  else (blockEndsWide.find? fun e => a < e.1).map Prod.snd

/-- The index (row-major) and the rest of an offset from a register's first instance, through its dimensions. -/
def place : List (Nat × Nat) → Nat → Option (Nat × Nat)
  | [], rel => some (0, rel)
  | (count, stride) :: ds, rel =>
    if count * stride ≤ rel then none
    else
      let inner := (ds.map Prod.fst).foldl (· * ·) 1
      (place ds (rel % stride)).map fun x => (rel / stride * inner + x.1, x.2)

/-- The number of instances of a register. -/
def RegDesc.count (d : RegDesc) : Nat := (d.dims.map Prod.fst).foldl (· * ·) 1

/-- The instance of a register that holds an aligned 32-bit word, and whether the word is its high half. -/
def RegDesc.at_ (d : RegDesc) (a : Nat) : Option (Nat × Bool) :=
  let start := d.block.base + d.off
  if a < start then none
  else match place d.dims (a - start) with
    | some (i, rest) => if rest = 0 then some (i, false) else if d.pair && rest = 4 then some (i, true) else none
    | none => none

/-- What a 32-bit word of register space is: a register's instance, and whether it is the high word of a pair. -/
structure RegAt where
  desc : RegDesc
  i : Nat
  high : Bool
  deriving DecidableEq, Repr

/-- The register that holds an aligned 32-bit word of register space. -/
def findReg (a : Nat) : Option RegAt :=
  match blockAt a with
  | none => none
  | some b => b.regs.findSome? fun d => (d.at_ a).map fun x => ⟨d, x.1, x.2⟩

/-- The row of a register. -/
def Reg.desc (r : Reg) : Option RegDesc := r.block.regs.find? (fun d => d.reg = r)

def allBlocks : List Block :=
  [.sys, .pwr, .cfg, .evc, .seq, .gate, .pmc, .time, .chk, .tst, .tel, .fab, .eth, .cap, .dec, .enc, .cmp, .lut, .sig,
   .scn, .tch, .mem, .dbg]

def allRegs : List RegDesc := allBlocks.flatMap Block.regs

/-- The bits of a field in its register. -/
def Field.mask (f : Field) : Nat := (2 ^ f.width - 1) <<< f.lo

/-- The bits of the fields of a register for which p holds. -/
def RegDesc.maskOf (d : RegDesc) (p : FieldDesc → Bool) : Nat :=
  (d.fields.filter p).foldl (fun a f => a ||| f.field.mask) 0

/-- Reset classes, as SYS_RESET_CAUSE codes them (R400). -/
def clsPor : Nat := 0
def clsPin : Nat := 1
def clsWdt : Nat := 2
def clsFab : Nat := 3
def clsSag : Nat := 4
def clsSlp : Nat := 5

/-- The row names Load for the class (R5). -/
def ResetWord.loads (w : ResetWord) (cls : Nat) : Bool :=
  match w with
  | .load => true
  | .loadPin => cls ≠ clsWdt && cls ≠ clsFab
  | .loadNotSlp => cls ≠ clsSlp
  | _ => false

/-- The row names Load for at least one class (R377). -/
def ResetWord.loadable (w : ResetWord) : Bool := w = .load || w = .loadPin || w = .loadNotSlp

/-- The field takes its POR value at a reset of a class other than POR (R5). -/
def ResetWord.resets (w : ResetWord) (cls : Nat) : Bool :=
  match w with
  | .reset => true
  | .resetPin => cls ≠ clsWdt && cls ≠ clsFab
  | .resetNotSlp => cls ≠ clsSlp
  | _ => false

end Sys2Proof.Machine
end

