-- ==== Sys2Proof/Machine/Sources.lean ====
section
/-! DEFINITION. What layers show and why they stop (R38, R39, R202): the feeds of layers, stop causes, the image's
STREAMS and SPANS tables (R376, R378), witness records (R40). -/

namespace Sys2Proof.Machine

/-! ### Fields that return to their POR values (R5, R402) -/

/-- The fields for which p holds return to their POR values. -/
def Mach.returnFields (m : Mach) (p : RegDesc → Nat → FieldDesc → Bool) : Mach :=
  m.regs.foldl (fun (m : Mach) e =>
    let r := Reg.ofNat (e.1 % 512)
    let i := e.1 / 512
    match r.desc with
    | none => m
    | some d =>
      let k := d.maskOf (p d i)
      let old := e.2.toNat
      if k = 0 then m else m.wr r i (BitVec.ofNat 64 (old - (old &&& k) + ((r.por i).toNat &&& k)))) m

/-! ### Layers -/

def layer0 : Layer :=
  { feed := .none, resolved := (0, 0), refused := 0, stops := [], carry := 0, checked := 0, ageNow := 0, agePrev := 0,
    uNow := 0, aged := false, hidden := false, withdrawn := false, degraded := false, uSide := 0, label := none, newFrame := false,
    next := none }

def Mach.layer (m : Mach) (n : Nat) : Layer := tGet m.cmp.layers layer0 n

def Mach.setLayer (m : Mach) (n : Nat) (l : Layer) : Mach :=
  { m with cmp := { m.cmp with layers := tPut m.cmp.layers layer0 n l } }

/-- A layer's active value of a shadowed register field (R214, R219); the register itself holds the shadow. -/
def Mach.act (m : Mach) (f : Field) (n : Nat) : Nat :=
  bits (tGet m.cmp.active (f.reg.por n) (regKey f.reg n)).toNat f.lo f.width

def Mach.actS (m : Mach) (f : Field) (n : Nat) : Int := toSigned (m.act f n) f.width

/-- The layer's value as the next apply point will make it: staged where a commit staged it, active otherwise. -/
def Mach.stg (m : Mach) (f : Field) (n : Nat) : Nat :=
  if m.cmp.stagedLayers.contains n then
    bits (tGet m.cmp.staged (f.reg.por n) (regKey f.reg n)).toNat f.lo f.width
  else m.act f n

/-- The KIND codes of R201. -/
def kindOff : Nat := 0
def kindStream : Nat := 1
def kindSpan : Nat := 2
def kindGraphics : Nat := 3
def kindReadout : Nat := 4
def kindCursor : Nat := 5
def kindSolid : Nat := 6

/-- A layer is composed and checked (R200). -/
def Mach.composed (m : Mach) (n : Nat) : Bool := m.act F.CMP_LAYER_CTL_EN n = 1 && m.act F.CMP_LAYER_CTL_KIND n ≠ 0

/-- Each layer fed by a source takes a stop cause, which begins now (R38, R39). -/
def Mach.stopFeeds (m : Mach) (p : Feed → Bool) (cause : Nat) : Mach :=
  (List.range 64).foldl (fun m n =>
    let l := m.layer n
    if p l.feed then m.setLayer n { l with stops := tIns l.stops cause m.raw } else m) m

/-- Stop causes: the reason codes of R38. -/
def reasonNoSignal : Nat := 1
def reasonNotAdmitted : Nat := 2
def reasonShed : Nat := 3
def reasonDecodeFault : Nat := 4
def reasonTimeUnsure : Nat := 5
def reasonLinkDown : Nat := 6
def reasonQuarantine : Nat := 7

/-- 64-bit words of bytes, the last one padded with zeros. -/
def bytesWords : Nat → List Nat → List Nat
  | 0, _ => []
  | n + 1, l => if l.isEmpty then [] else ofNatBytes (l.take 8) :: bytesWords n (l.drop 8)

/-! ### The image's tables (R376, R378) -/

def le2 (e : List Nat) (o : Nat) : Nat := ofNatBytes ((e.drop o).take 2)
def le4 (e : List Nat) (o : Nat) : Nat := ofNatBytes ((e.drop o).take 4)
def le8 (e : List Nat) (o : Nat) : Nat := ofNatBytes ((e.drop o).take 8)
def b1 (e : List Nat) (o : Nat) : Nat := e.getD o 0

/-- The STREAMS entry of a stream ID. -/
def Mach.streamEntry (m : Mach) (id : Nat) : Option (List Nat) := m.cfg.streams.find? (fun e => le4 e 0 = id)

def Mach.decodeEntry (m : Mach) (id : Nat) : Option (List Nat) :=
  (m.streamEntry id).bind fun e => if b1 e 4 = 0 then some e else none

def Mach.encodeEntry (m : Mach) (id : Nat) : Option (List Nat) :=
  (m.streamEntry id).bind fun e => if b1 e 4 = 1 then some e else none

/-- The SPANS entry of a span ID and part. -/
def Mach.spanEntry (m : Mach) (id part : Nat) : Option (List Nat) :=
  m.cfg.spans.find? (fun e => le4 e 0 = id && b1 e 10 = part)

/-- The parts of the spans that this node decodes, with their streams (R118). -/
def Mach.ownSpans (m : Mach) : List (List Nat) := m.cfg.spans.filter (fun e => le2 e 8 = m.nodeId)

/-- The virtual channel of a stream's flow: GUARD when it feeds a guard layer (R185). -/
def Mach.streamVc (m : Mach) (id : Nat) : Nat :=
  match m.streamEntry id with
  | some e => if b1 e 5 = 1 then 1 else 2
  | none => 2

/-! ### Witness records (R40) -/

/-- The four words of a witness record. -/
def Witness.words (w : Witness) : List Nat :=
  let w0 := w.capture % 2 ^ 64
  let w1 := (w.uStamp % 2 ^ 32) <<< 32 ||| w.frameNum % 2 ^ 32
  let w2 := (w.pixelCrc % 2 ^ 32) <<< 32 ||| (w.cls % 4) <<< 30 ||| (min w.repeats 255) <<< 16
    ||| (if w.holdover then 2 ^ 15 else 0) ||| (if w.continuity then 2 ^ 14 else 0)
    ||| (if w.gap then 2 ^ 13 else 0) ||| (if w.frozen then 2 ^ 12 else 0) ||| w.srcNode % 4096
  let body := wordBytes [w0, w1, w2] ++ natBytes 4 w.streamId
  let crc := crc32cFold (w.frameNum % 2 ^ 32) body
  [w0, w1, w2, crc <<< 32 ||| w.streamId % 2 ^ 32]

/-- A received record: none when its RECORD_CRC or its CLASS fails its check. -/
def Witness.ofWords (ws : List Nat) : Option Witness :=
  match ws with
  | [w0, w1, w2, w3] =>
    let frame := bits w1 0 32
    let crc := crc32cFold frame (wordBytes [w0, w1, w2] ++ natBytes 4 w3)
    if crc ≠ bits w3 32 32 ∨ bits w2 30 2 = 3 then none
    else some { capture := w0, uStamp := bits w1 32 32, frameNum := frame, pixelCrc := bits w2 32 32,
                cls := bits w2 30 2, repeats := bits w2 16 8, frozen := w2.testBit 12, gap := w2.testBit 13,
                continuity := w2.testBit 14, holdover := w2.testBit 15, srcNode := bits w2 0 12,
                streamId := bits w3 0 32 }
  | _ => none

/-- A witness record that fails its check (R57): WITNESS_BAD, event 252. -/
def Mach.witnessBad (m : Mach) : Mach := (m.trouble F.CMP_FRS_TROUBLE_WITNESS_BAD).raise 252

/-- A unit of a bound check-value channel (R362): counted, and on a mismatch counted, flagged and reported by event
384 + c at most once per ms. -/
def Mach.chkUnit (m : Mach) (ch : Nat) (good : Bool) : Mach :=
  let m := (m.bump F.CHK_CH_UNITS_UNITS ch).count 280
  if good then m
  else
    ((m.bump F.CHK_CH_MISMATCH_COUNT ch).count 281).troubleBit F.CHK_MISMATCH_SUM_CHANNEL ch
      |>.trouble F.CHK_TROUBLE_MISMATCH 0 ch |>.raiseLimited (384 + ch) (msTicks 1)

/-! ### Ethernet ports and their neighbours (R128) -/

def ethPort0 : EthPort := { neigh := [], wanted := [], groups := [], repeats := [], arp := none, echo := none }

def Mach.ethPort (m : Mach) (p : Nat) : EthPort := tGet m.eth.ports ethPort0 p

def Mach.setEthPort (m : Mach) (p : Nat) (x : EthPort) : Mach :=
  { m with eth := { m.eth with ports := tPut m.eth.ports ethPort0 p x } }

/-- An IPv4 address as the IPv4-mapped IPv6 address. -/
def mapped4 (a : Nat) : Nat := 0xFFFF00000000 + a % 2 ^ 32

/-- The address is a group: IPv6 ff00::/8, or a mapped IPv4 224.0.0.0/4. -/
def isGroup (a : Nat) : Bool := a / 2 ^ 120 = 255 || (a / 2 ^ 32 = 0xFFFF && a / 2 ^ 28 % 16 = 14)

/-- The multicast MAC address of a group. -/
def groupMac (a : Nat) : Nat :=
  if a / 2 ^ 32 = 0xFFFF then 0x01005E000000 + a % 2 ^ 23 else 0x333300000000 + a % 2 ^ 32

/-- The MAC address for a destination on a port's link: a group's own, or the one in the neighbour cache; none sends
nothing (R128). -/
def Mach.linkMac (m : Mach) (p addr : Nat) : Option Nat :=
  if isGroup addr then some (groupMac addr)
  else ((m.ethPort p).neigh.find? fun (n : Neighbour) => n.addr = addr).map (·.mac)

/-- A flit leaves fabric port p: its trailer CRC is a unit of channel p (R361, R362). -/
def Mach.flitSent (m : Mach) (p : Nat) : Mach := (m.count (32 + 8 * p)).chkUnit p true

/-- A frame leaves Ethernet port p: its frame check sequence is a unit of channel 16 + p (R361, R362). -/
def Mach.frameSent (m : Mach) (p : Nat) : Mach := (m.count (98 + 4 * p)).chkUnit (16 + p) true

end Sys2Proof.Machine
end

