-- ==== Sys2Proof/Machine/Flits.lean ====
section
/-! DEFINITION. Flits on the wire: header, body and trailer (R97, R98), the time body (R71), and a flit's CRC under a link
sequence count. -/

namespace Sys2Proof.Machine

def Flit.headWord (f : Flit) : Nat :=
  (f.type % 16) <<< 60 ||| (f.vc % 4) <<< 58 ||| (f.hops % 64) <<< 52 ||| (f.dest % 4096) <<< 40 ||| (f.src % 4096) <<< 28
    ||| (f.label % 1024) <<< 18 ||| (if f.rt then 2 ^ 17 else 0) ||| (if f.fi then 2 ^ 16 else 0)
    ||| (if f.la then 2 ^ 15 else 0) ||| (if f.cl then 2 ^ 14 else 0) ||| (f.bodyLen % 64) <<< 8 ||| f.pktSeq % 256

def Flit.trailerLow (f : Flit) : Nat :=
  (f.txSeq % 4096) <<< 20 ||| (f.ackSeq % 4096) <<< 8 ||| (if f.nak then 2 ^ 7 else 0) ||| (if f.ccl then 2 ^ 6 else 0)
    ||| (f.cvc % 4) <<< 4 ||| f.credits % 16

/-- Bytes 0 to 59 of a flit: header, body padded with zeros, and the low half of the trailer. -/
def Flit.crcBytes (f : Flit) : List Nat :=
  wordBytes (f.headWord :: (f.body ++ List.replicate 6 0).take 6) ++ natBytes 4 f.trailerLow

/-- The CRC of R98 under a link sequence count. -/
def Flit.crcFor (f : Flit) (count : Nat) : Nat := crc32cFold (count % 2 ^ 32) f.crcBytes

/-- The flit is label-switched (R99). -/
def Flit.labelled (f : Flit) : Bool := 5 ≤ f.type && f.type ≤ 8

/-- The six body words of a time flit (R71). -/
def TimeFlit.words (f : TimeFlit) : List Nat :=
  [f.originNs % 2 ^ 64,
   (f.originFrac % 2 ^ 16) <<< 48 ||| f.correction % 2 ^ 48,
   (f.rootNode % 4096) <<< 52 ||| (f.rootPrio % 256) <<< 44 ||| (f.rootClass % 4) <<< 42
     ||| (if f.preempt then 2 ^ 39 else 0) ||| (if f.utcValid then 2 ^ 38 else 0) ||| (if f.claim then 2 ^ 37 else 0)
     ||| (if f.reverse then 2 ^ 36 else 0) ||| (f.hops % 4096) <<< 24,
   (f.rootU % 2 ^ 32) <<< 32 ||| f.epoch % 2 ^ 32,
   (f.utcOffset % 2 ^ 16) <<< 48 ||| (f.seq % 256) <<< 40 ||| (f.echoSeq % 256) <<< 32 ||| f.echoTurn % 2 ^ 32,
   (f.senderNode % 4096) <<< 52 ||| (f.senderPrio % 256) <<< 44 ||| (f.senderClass % 4) <<< 42]

def TimeFlit.ofWords (ws : List Nat) : TimeFlit :=
  let w (i : Nat) : Nat := ws.getD i 0
  { originNs := w 0, originFrac := bits (w 1) 48 16, correction := bits (w 1) 0 48, rootNode := bits (w 2) 52 12,
    rootPrio := bits (w 2) 44 8, rootClass := bits (w 2) 42 2, reverse := (w 2).testBit 36, claim := (w 2).testBit 37,
    utcValid := (w 2).testBit 38, preempt := (w 2).testBit 39, hops := bits (w 2) 24 12, rootU := bits (w 3) 32 32,
    epoch := bits (w 3) 0 32, utcOffset := bits (w 4) 48 16, seq := bits (w 4) 40 8, echoSeq := bits (w 4) 32 8,
    echoTurn := bits (w 4) 0 32, senderNode := bits (w 5) 52 12, senderPrio := bits (w 5) 44 8,
    senderClass := bits (w 5) 42 2 }

/-- A time flit as a flit: type TIME on channel TIME, with a body of 48 bytes. -/
def TimeFlit.flit (f : TimeFlit) : Flit := { flit0 with type := 1, vc := 0, bodyLen := 48, body := f.words }

/-- A time flit that waits for its slot. -/
def TxFlit.isTime : TxFlit → Bool
  | .flit _ => false
  | _ => true

end Sys2Proof.Machine
end

