-- ==== Sys2Proof/Machine/Time.lean ====
section
/-! DEFINITION. Wall time and synchronisation (R60 to R92): the servo, time flits, link delay, election and failover,
the root's references, PTP ports, pulse outputs and capture inputs. -/

namespace Sys2Proof.Machine

/-! ### Units and small views -/

/-- Wall-time units of 2^-16 ns in n ns. -/
def nsFx (n : Int) : Int := n * 65536

/-- The servo state codes of R66. -/
def servoFree : Nat := 0
def servoAcquire : Nat := 1
def servoLocked : Nat := 2
def servoHoldover : Nat := 3
def servoSlew : Nat := 4

def Mach.servo (m : Mach) : Nat := m.get F.TIME_STATUS_STATE

def timePort0 : TimePort := ⟨none, 0, [], 0, 0, 0, [], 0, false, 0⟩
def pulse0 : Pulse := ⟨false, false, false, 0, 0, 0, 0, false, false⟩
def capIn0 : CapIn := ⟨[], none⟩
def ptpPort0 : PtpPort := ⟨.off, none, 0, none, none, none, 0, 0, none⟩

def Mach.timePort (m : Mach) (p : Nat) : TimePort := tGet m.time.ports timePort0 p

def Mach.setTimePort (m : Mach) (p : Nat) (t : TimePort) : Mach :=
  { m with time := { m.time with ports := tPut m.time.ports timePort0 p t } }

/-- U_NODE in ns by the state of R66, saturating at 32 bits. -/
def Mach.uNode (m : Mach) : Nat :=
  let eNs := ceilDiv m.time.e.natAbs 65536
  let win := m.get F.TIME_LOCK_LOCK_WIN
  let drift := m.time.holdU + ceilDiv (m.get F.TIME_HOLD_DRIFT * ((m.raw - m.time.holdRaw) * 16)) 25000000000
  min 0xFFFFFFFF <|
    if m.on F.TIME_STATUS_IS_ROOT then 0
    else match m.servo with
      | 0 => 0xFFFFFFFF
      | 1 => eNs + win
      | 2 => 0
      | 3 => drift
      | _ => max (eNs + win) drift

/-- ROOT_CLASS and ROOT_U of this node as a root, by the state of its reference (R69). -/
def Mach.ownRootU (m : Mach) : Nat :=
  min 0xFFFFFFFF <|
    match m.time.refClass with
    | 3 => ceilDiv m.time.refOffset.natAbs 65536
    | 2 => ceilDiv m.time.ptpOffset.natAbs 65536 + m.time.ptpAccuracy
    | 1 => m.time.refLostU + ceilDiv (m.get F.TIME_HOLD_DRIFT * ((m.raw - m.time.refLostRaw) * 16)) 25000000000
    | _ => 0xFFFFFFFF

/-- ROOT_U as TIME_ROOT_U shows it: the root's own, or the last one received. -/
def Mach.rootU (m : Mach) : Nat := if m.on F.TIME_STATUS_IS_ROOT then m.ownRootU else m.get F.TIME_ROOT_U_ROOT_U

/-- The order of R76: a higher class, then a lower priority, then a lower node ID. -/
def tupleBetter (class1 prio1 node1 class2 prio2 node2 : Nat) : Bool :=
  class2 < class1 || (class1 = class2 && (prio1 < prio2 || (prio1 = prio2 && node1 < node2)))

def Mach.candidate (m : Mach) : Bool := m.on F.TIME_ROOT_CFG_CANDIDATE

/-- The flit's root stands above the acting root. -/
def Mach.flitBetter (m : Mach) (f : TimeFlit) : Bool :=
  tupleBetter f.rootClass f.rootPrio f.rootNode (m.get F.TIME_ROOT_CLASS) (m.get F.TIME_ROOT_PRIO)
    (m.get F.TIME_ROOT_NODE)

/-- The node's own tuple stands above the acting root's. -/
def Mach.ownBetter (m : Mach) : Bool :=
  tupleBetter m.time.refClass (m.get F.TIME_ROOT_CFG_PRIO) m.nodeId (m.get F.TIME_ROOT_CLASS)
    (m.get F.TIME_ROOT_PRIO) (m.get F.TIME_ROOT_NODE)

/-! ### The servo (R66 to R74) -/

/-- The servo changes rate: base_raw and base_wall are set to the present, so wall time does not move (R61). -/
def Mach.setRate (m : Mach) (rate : Int) : Mach :=
  let w := m.wallFx
  { m with time := { m.time with baseRaw := m.raw, baseWall := w } }
    |>.put F.TIME_RATE_RATE (ofSigned rate 40)

/-- The rate step of MAX_PPM in units of 2^-40. -/
def Mach.maxPpm (m : Mach) : Int := (m.get F.TIME_SLEW_MAX_PPM : Int) * 2 ^ 40 / 1000000

/-- The servo steers rate to drive e to 0 (R74). How it does so the spec leaves open, but it never departs from the
HOLDOVER value by more than MAX_PPM: the rate is free within that bound. -/
def Mach.steer (m : Mach) : Mach :=
  let lim := m.maxPpm
  let want := Config.servoRate m.freeIdx
  m.fresh.2.setRate (m.time.holdRate + max (-lim) (min lim want))

/-- The rate of a slew: MAX_PPM in the direction that reduces e (R70). -/
def Mach.slewRate (m : Mach) (e : Int) : Mach :=
  m.setRate (m.time.holdRate + (if 0 < e then m.maxPpm else if e < 0 then -m.maxPpm else 0))

def Mach.setServo (m : Mach) (st : Nat) : Mach := m.put F.TIME_STATUS_STATE st

/-- Entry to ACQUIRE. -/
def Mach.enterAcquire (m : Mach) : Mach :=
  { m with time := { m.time with overCount := 0 } } |>.setServo servoAcquire

/-- Entry to LOCKED raises event 16 (R67). The rate at this entry is the one that HOLDOVER keeps and that MAX_PPM is
counted from (R74): which rate that is the spec does not say (log entry 67). -/
def Mach.enterLocked (m : Mach) : Mach :=
  if m.servo = servoLocked then m
  else { m with time := { m.time with overCount := 0, holdRate := m.getS F.TIME_RATE_RATE } }
    |>.setServo servoLocked |>.raise 16

/-- Entry to HOLDOVER (R66, R67, R77): U at entry is at least LOCK_WIN. -/
def Mach.enterHoldover (m : Mach) : Mach :=
  let u := max m.uNode (m.get F.TIME_LOCK_LOCK_WIN)
  { m with time := { m.time with holdU := u, holdRaw := m.raw, withinSince := none } }
    |>.setRate m.time.holdRate |>.setServo servoHoldover |>.trouble F.TIME_TROUBLE_HOLDOVER |>.raise 17

/-- The offset e (2^-16 ns) as TIME_OFFSET_ERR shows it: signed ns, saturating. -/
def Mach.showOffset (m : Mach) : Mach :=
  let ns := (m.time.e.natAbs / 65536 : Int) * (if m.time.e < 0 then -1 else 1)
  m.put F.TIME_OFFSET_ERR_E (ofSigned (clampSigned ns 32) 32)

/-- A wall-time step (R70): base_wall moves by e, so that e becomes 0. -/
def Mach.stepTime (m : Mach) (e : Int) : Mach :=
  let w := ((m.wallFx : Int) + e).toNat
  { m with time := { m.time with baseRaw := m.raw, baseWall := w, e := 0 } }

/-- A step refused (R70): JUMP_REFUSED, event 18, SLEW. -/
def Mach.refuseJump (m : Mach) (e : Int) : Mach :=
  let u := max m.uNode (m.get F.TIME_LOCK_LOCK_WIN)
  { m with time := { m.time with holdU := u, holdRaw := m.raw } }
    |>.setServo servoSlew |>.trouble F.TIME_TROUBLE_JUMP_REFUSED |>.raise 18 |>.slewRate e

/-- A measured offset (R66, R67, R70, R74): what the servo does with the offset e of a flit on the parent port. -/
def Mach.servoOffset (m : Mach) (e : Int) : Mach :=
  let win := nsFx (m.get F.TIME_LOCK_LOCK_WIN)
  let tooFar := nsFx (m.get F.TIME_JUMP_THRESHOLD) < (e.natAbs : Int)
  let within := (e.natAbs : Int) ≤ win
  let since := if within then (match m.time.withinSince with | some t => some t | none => some m.raw) else none
  let m := { m with time := { m.time with e := e, withinSince := since } }
  let m :=
    if tooFar then
      if m.mode = .join then (m.stepTime e).enterAcquire
      else if m.servo = servoSlew then m.slewRate e
      else m.refuseJump e
    else if m.servo = servoSlew then
      if within then (m.raise 30).enterAcquire.steer else m.slewRate e
    else if m.servo = servoLocked then
      let n := if 2 * win < (e.natAbs : Int) then m.time.overCount + 1 else 0
      if 16 ≤ n then m.enterAcquire.steer
      else { m with time := { m.time with overCount := n } } |>.steer
    else if m.servo = servoAcquire then m.steer
    else m.enterAcquire.steer
  m.showOffset

/-! ### Link delay (R72) -/

/-- Ticks as units of 2^-4 ns. -/
def ticksQ4 (n : Int) : Int := n * 256 / 25

def mean (l : List Int) : Int := if l.isEmpty then 0 else l.sum / l.length

/-- The link delay a flit's echo gives: accepted within 8 ns of the mean of the last 64 accepted values, otherwise
discarded and counted; 64 discards in a row bar the port as parent until 64 in a row are accepted. -/
def Mach.linkDelay (m : Mach) (p : Nat) (f : TimeFlit) : Mach :=
  let t := m.timePort p
  match tFind t.departures f.echoSeq with
  | none => m
  | some t1 =>
    let d := (ticksQ4 ((m.raw : Int) - t1) - f.echoTurn) / 2
    if t.delays.isEmpty || (d - mean t.delays).natAbs ≤ 128 then
      let n := if t.barred then t.accepted + 1 else 0
      let clear := t.barred && 64 ≤ n
      let ds := (d :: t.delays).take 64
      m.setTimePort p { t with delays := ds, discards := 0, accepted := if clear then 0 else n,
                               barred := t.barred && !clear }
        |>.put F.TIME_FAB_DELAY_DELAY (ofSigned (mean ds) 32) p
    else
      let n := t.discards + 1
      let m := (m.setTimePort p { t with discards := if n = 64 then 0 else n, accepted := 0,
                                         barred := t.barred || n = 64 }).count 18
      if n = 64 then (m.trouble F.TIME_TROUBLE_LINK_DELAY_BAD 0 p).raise 29 else m

/-- The inbound delay d_in = d + asym of a port, from the last value of d it accepted, in 2^-16 ns. -/
def Mach.dIn (m : Mach) (p : Nat) : Int :=
  ((m.timePort p).delays.headD 0 + m.getS F.TIME_FAB_ASYM_ASYM p) * 4096

/-- The outbound delay d_out = d - asym of a port, in 2^-16 ns. -/
def Mach.dOut (m : Mach) (p : Nat) : Int :=
  ((m.timePort p).delays.headD 0 - m.getS F.TIME_FAB_ASYM_ASYM p) * 4096

/-! ### Parents (R75, R77) -/

/-- A flit is of the acting root and the current epoch, forward, on a port whose link delay is known and valid. -/
def Mach.usable (m : Mach) (p : Nat) (f : TimeFlit) : Bool :=
  !f.reverse && f.rootNode = m.get F.TIME_ROOT_NODE && f.epoch = m.get F.TIME_EPOCH_EPOCH
    && !(m.timePort p).barred && !(m.timePort p).delays.isEmpty

/-- The port has carried a usable forward flit within PARENT_LIMIT. A peer in QUARANTINE is no parent (R117). -/
def Mach.offers (m : Mach) (p : Nat) : Option Nat :=
  let t := m.timePort p
  match t.flit with
  | none => none
  | some f =>
    if m.portActive p && !m.peerOut p && m.usable p f && m.raw ≤ t.flitRaw + usTicks (m.get F.TIME_LOSS_PARENT_LIMIT)
    then some f.hops else none

/-- The port with the fewest HOPS, the lower number on a tie, among the ports offered. -/
def Mach.bestParent (m : Mach) (except : Option Nat) : Option Nat :=
  (List.range 8).foldl (fun best p =>
    if except = some p then best
    else match m.offers p, best with
      | none, _ => best
      | some _, none => some p
      | some h, some q => if h < (m.offers q).getD 0 then some p else best) none

/-- A forward flit that waits. -/
def TxFlit.forward : TxFlit → Bool
  | .time _ _ _ => true
  | _ => false

/-- A parent port is taken: each change raises event 20. From then on the node sends reverse flits on it and no forward
ones (R71, R75), so a forward flit that waits there does not leave. -/
def Mach.setParent (m : Mach) (p hops : Nat) : Mach :=
  let same := m.on F.TIME_STATUS_PARENT_VALID && m.get F.TIME_STATUS_PARENT = p
  let x := m.fabPort p
  let m := if x.txq.any TxFlit.forward then m.setFabPort p { x with txq := x.txq.filter fun t => !t.forward } else m
  let m := m.putB F.TIME_STATUS_PARENT_VALID true |>.put F.TIME_STATUS_PARENT p
    |>.put F.TIME_STATUS_HOPS (min 4095 (hops + 1))
  if same then m else m.raise 20

def Mach.isParent (m : Mach) (p : Nat) : Bool :=
  m.on F.TIME_STATUS_PARENT_VALID && m.get F.TIME_STATUS_PARENT = p

/-! ### Election (R76 to R81) -/

/-- A root seen in a flit on port p is adopted (R79): event 19. A claimant or acting root yields. -/
def Mach.adoptRoot (m : Mach) (p : Nat) (f : TimeFlit) : Mach :=
  let wasRoot := m.on F.TIME_STATUS_IS_ROOT
  let m := m.put F.TIME_ROOT_NODE f.rootNode |>.put F.TIME_ROOT_PRIO f.rootPrio |>.put F.TIME_ROOT_CLASS f.rootClass
    |>.put F.TIME_EPOCH_EPOCH f.epoch |>.putB F.TIME_STATUS_IS_ROOT false
  let m := { m with time := { m.time with
    rootLost := false, claimFrom := none, claimFlag := false, preemptFlag := false, refSlew := false,
    claimRaw := if f.claim then some m.raw else m.time.claimRaw } }
  let m := m.raise 19
  let m := if f.reverse || (m.timePort p).barred || (m.timePort p).delays.isEmpty then m else m.setParent p f.hops
  if wasRoot || m.servo = servoFree then m.enterAcquire else m

/-- Flits of two live roots meet (R81): DOMAIN_CLASH, event 23. -/
def Mach.domainClash (m : Mach) : Mach := (m.trouble F.TIME_TROUBLE_DOMAIN_CLASH).raise 23

/-- R79: the flit's root is one that the node adopts at sight. -/
def Mach.adoptable (m : Mach) (f : TimeFlit) : Bool :=
  (m.servo = servoFree && !m.on F.TIME_STATUS_IS_ROOT)
    || (m.time.rootLost && m.time.lostEpoch < f.epoch) || (f.preempt && m.flitBetter f)

/-- A flit of the acting root at the current EPOCH: the root is not lost any longer. A claim wait that has begun goes on,
since the flit is of no adoptable root (R78). -/
def Mach.rootSeen (m : Mach) : Mach :=
  if m.time.rootLost && m.time.claimFrom.isNone then { m with time := { m.time with rootLost := false } } else m

/-- What a flit's root does to the election (R79 to R81). EPOCH 0 names no root, since a claim is at least 1. A claim that
arrives within ROOT_LIMIT of the claim already adopted competes by tuple and is no clash. A flit of the same root at an
older epoch is a stale one. -/
def Mach.election (m : Mach) (p : Nat) (f : TimeFlit) : Mach :=
  let m := { m with time := { m.time with maxEpoch := max m.time.maxEpoch f.epoch } }
  let mine := m.on F.TIME_STATUS_IS_ROOT && f.rootNode = m.nodeId
  let current := f.rootNode = m.get F.TIME_ROOT_NODE && f.epoch = m.get F.TIME_EPOCH_EPOCH
  if mine || f.epoch = 0 || f.reverse && current then m
  else if current && m.servo ≠ servoFree then m.rootSeen
  else if m.adoptable f then m.adoptRoot p f
  else if m.time.rootLost then m
  else if f.rootNode = m.get F.TIME_ROOT_NODE then
    (if m.get F.TIME_EPOCH_EPOCH < f.epoch then m.adoptRoot p f else m)
  else
    let recent := match m.time.claimRaw with
      | some t => m.raw ≤ t + usTicks (m.get F.TIME_LOSS_ROOT_LIMIT)
      | none => false
    let m := if f.claim && recent then m else m.domainClash
    if m.flitBetter f then m.adoptRoot p f else m

/-! ### Sending and forwarding (R71, R73) -/

/-- The SEQ, echo and SENDER fields for a flit that leaves port p now, and the port's record of its departure (R72,
R73). Before the first flit has arrived on the port it echoes SEQ 0, with a turn counted from raw count 0: the spec does
not say what such a flit echoes (log entry 68). -/
def Mach.stampTimeFlit (m : Mach) (p : Nat) (f : TimeFlit) : TimeFlit × Mach :=
  let t := m.timePort p
  let cand := m.candidate
  let g := { f with
    seq := t.txSeq, echoSeq := t.rxSeq,
    echoTurn := (ticksQ4 ((m.raw : Int) - t.rxRaw)).toNat % 2 ^ 32,
    senderNode := m.nodeId, senderPrio := if cand then m.get F.TIME_ROOT_CFG_PRIO else 0,
    senderClass := if cand then m.time.refClass else 0 }
  (g, m.setTimePort p { t with departures := tIns t.departures t.txSeq m.raw, txSeq := (t.txSeq + 1) % 256 })

/-- The flit the acting root originates (R71, R78, R80). -/
def Mach.rootFlit (m : Mach) : TimeFlit :=
  let w := m.wallFx
  { originNs := w / 65536 % 2 ^ 64, originFrac := w % 65536, correction := 0, rootNode := m.nodeId,
    rootPrio := m.get F.TIME_ROOT_CFG_PRIO, rootClass := m.time.refClass, reverse := false,
    claim := m.time.claimFlag, utcValid := m.on F.TIME_UTC_VALID, preempt := m.time.preemptFlag, hops := 0,
    rootU := m.ownRootU, epoch := m.get F.TIME_EPOCH_EPOCH, utcOffset := m.get F.TIME_UTC_OFFSET, seq := 0,
    echoSeq := 0, echoTurn := 0, senderNode := 0, senderPrio := 0, senderClass := 0 }

/-- The flit a node sends back on its parent port: the last one that arrived there, with REVERSE set (R71). Where none
has, it holds what the node knows of the acting root. -/
def Mach.reverseFlit (m : Mach) (p : Nat) : TimeFlit :=
  match (m.timePort p).flit with
  | some f => { f with reverse := true }
  | none => { m.rootFlit with
      rootNode := m.get F.TIME_ROOT_NODE, rootPrio := m.get F.TIME_ROOT_PRIO, rootClass := m.get F.TIME_ROOT_CLASS,
      reverse := true, claim := false, preempt := false, hops := m.get F.TIME_STATUS_HOPS,
      rootU := m.get F.TIME_ROOT_U_ROOT_U }

/-- R73: a flit from the parent port, forwarded: link delay and residence are added to CORRECTION, which saturates at
48 bits, and 1 to HOPS. `arrival` is the raw count at the parent lane, the present one that at the output lane. -/
def Mach.forwarded (m : Mach) (f : TimeFlit) (arrival : Nat) (dIn : Int) : TimeFlit :=
  let residence : Int := ((m.raw - arrival) * 16 * 65536 / 25 : Nat)
  { f with correction := min (2 ^ 48 - 1) ((f.correction : Int) + dIn + residence).toNat
           hops := min 4095 (f.hops + 1) }

/-- A time flit has left the port within the last 1 µs, or waits to leave. -/
def Mach.timeFlitFresh (m : Mach) (p : Nat) : Bool :=
  let t := m.timePort p
  (m.fabPort p).txq.any TxFlit.isTime || match tFind t.departures ((t.txSeq + 255) % 256) with
    | some r => m.raw < r + usTicks 1
    | none => false

/-- TIME_FLIT_SEND (R71): the acting root originates a flit; on its parent port any other node sends a reverse flit. On
its other ports it forwards what arrives on the parent port; a port on which nothing has been forwarded for 1 µs sends a
reverse flit too, so that each ACTIVE port sends one every 1 µs and link delays can be measured before there is a parent
(log entry 69). The flit waits for its slot. -/
def Mach.timeFlitSend (m : Mach) (p : Nat) : Mach :=
  if !m.portActive p then m
  else if m.on F.TIME_STATUS_IS_ROOT then m.enqueue p .origin
  else if m.isParent p || !m.timeFlitFresh p then m.enqueue p .reverse
  else m

/-- TIME_FLIT_FORWARD (R73): a flit of the parent port waits on every other ACTIVE port, ahead of every other virtual
channel (R103). -/
def Mach.forwardTime (m : Mach) (p : Nat) (f : TimeFlit) : Mach :=
  let dIn := m.dIn p
  (List.range 8).foldl (fun m q =>
    if q = p || !m.portActive q then m else m.enqueue q (.time f m.raw dIn)) m

/-! ### A time flit arrives (R74) -/

/-- A usable flit on the parent port: root data, offset, servo. -/
def Mach.parentFlit (m : Mach) (p : Nat) (f : TimeFlit) : Mach :=
  let m := m.setParent p f.hops |>.count 16
  let m := m.putB F.TIME_UTC_VALID f.utcValid |>.put F.TIME_UTC_OFFSET f.utcOffset
    |>.put F.TIME_ROOT_U_ROOT_U f.rootU |>.put F.TIME_ROOT_PRIO f.rootPrio |>.put F.TIME_ROOT_CLASS f.rootClass
  let m := m.forwardTime p f
  let e := nsFx f.originNs + f.originFrac + f.correction + m.dIn p - m.wallFx
  m.servoOffset e

/-- What a time flit whose CRC is right brings (R72 to R79). The flit of a port without a parent, or of the parent port,
disciplines wall time when it is usable. -/
def Mach.timeFlitTaken (m : Mach) (p : Nat) (f : TimeFlit) : Mach :=
  let m := m.linkDelay p f
  let t := m.timePort p
  let m := m.setTimePort p { t with rxSeq := f.seq, rxRaw := m.raw, flit := some f, flitRaw := m.raw }
  let m := m.election p f
  if m.on F.TIME_STATUS_IS_ROOT || !m.usable p f then m
  else if m.isParent p || (!m.on F.TIME_STATUS_PARENT_VALID && !m.peerOut p) then m.parentFlit p f
  else m

/-- TIME_SETTLED (R66): every flit has lain within LOCK_WIN for LOCK_TIME. -/
def Mach.timeSettled (m : Mach) : Mach :=
  if m.servo = servoAcquire ∧ m.time.withinSince.isSome then m.enterLocked else m

/-- TIME_HOLDOVER (R77): the parent port has delivered no usable flit for PARENT_LIMIT. A parent that was taken in
HOLDOVER and falls silent too is replaced in the same way. -/
def Mach.timeHoldover (m : Mach) : Mach :=
  if m.on F.TIME_STATUS_IS_ROOT || m.servo = servoFree then m
  else
    let old := if m.on F.TIME_STATUS_PARENT_VALID then some (m.get F.TIME_STATUS_PARENT) else none
    let m := if m.servo = servoHoldover then m else m.enterHoldover
    match m.bestParent old with
    | some q => m.setParent q ((m.offers q).getD 0)
    | none => m.putB F.TIME_STATUS_PARENT_VALID false

/-- A claim (R78): the candidate becomes the acting root with a new EPOCH; its wall time runs on. -/
def Mach.becomeRoot (m : Mach) (preempt : Bool) : Mach :=
  let epoch := (m.time.maxEpoch + 1) % 2 ^ 32
  let m := { m with time := { m.time with
    maxEpoch := epoch, claimFrom := none, claimFlag := true, preemptFlag := preempt, rootLost := false,
    refSlew := false, claimRaw := some m.raw, e := 0 } }
  let m := m.putB F.TIME_STATUS_IS_ROOT true |>.putB F.TIME_STATUS_PARENT_VALID false |>.put F.TIME_STATUS_HOPS 0
    |>.put F.TIME_ROOT_NODE m.nodeId |>.put F.TIME_ROOT_PRIO (m.get F.TIME_ROOT_CFG_PRIO)
    |>.put F.TIME_ROOT_CLASS m.time.refClass |>.put F.TIME_EPOCH_EPOCH epoch
  (m.raise 19).enterLocked

/-- A candidate's claim wait begins (R78); rank 0 claims at once. -/
def Mach.claimWait (m : Mach) : Mach :=
  if !m.candidate then m
  else if m.get F.TIME_ROOT_CFG_RANK = 0 then m.becomeRoot false
  else { m with time := { m.time with claimFrom := some m.raw } }

/-- ROOT_LOST (R77, R78). -/
def Mach.timeRootLost (m : Mach) : Mach :=
  if m.on F.TIME_STATUS_IS_ROOT || m.servo = servoFree || m.time.rootLost then m
  else
    { m with time := { m.time with rootLost := true, lostEpoch := m.get F.TIME_EPOCH_EPOCH } }
      |>.trouble F.TIME_TROUBLE_ROOT_LOST |>.claimWait

/-- NO_ROOT_SEEN (R78): a candidate that has adopted no root since its last reset starts its claim wait in JOIN. -/
def Mach.noRootSeen (m : Mach) : Mach :=
  if m.mode = .join ∧ m.servo = servoFree ∧ !m.on F.TIME_STATUS_IS_ROOT ∧ m.time.claimFrom.isNone then m.claimWait
  else m

/-- The claim wait, RANK × STEP, has passed. -/
def Mach.claimDue (m : Mach) : Bool :=
  match m.time.claimFrom with
  | some t => t + usTicks (m.get F.TIME_ROOT_CFG_RANK * m.get F.TIME_CLAIM_STEP) ≤ m.raw
  | none => false

/-- CLAIM (R78). -/
def Mach.claim (m : Mach) : Mach := if m.claimDue ∧ m.candidate then m.becomeRoot false else m

/-- The candidate has been LOCKED to its own reference for 10 s. -/
def Mach.refSettled (m : Mach) : Bool :=
  match m.time.refLockedRaw with
  | some t => t + msTicks 10000 ≤ m.raw
  | none => false

/-- PREEMPT_CLAIM (R80). -/
def Mach.preemptClaim (m : Mach) : Mach :=
  if m.candidate ∧ m.on F.TIME_ROOT_CFG_PREEMPT ∧ !m.on F.TIME_STATUS_IS_ROOT ∧ m.servo ≠ servoFree
    ∧ m.refSettled ∧ m.ownBetter then m.becomeRoot true
  else m

/-- TIME_PARENT_CHANGE (R75): port p has offered fewer HOPS for 1 ms. -/
def Mach.timeParentChange (m : Mach) (p : Nat) : Mach :=
  match m.offers p with
  | some h =>
    if m.on F.TIME_STATUS_PARENT_VALID ∧ !m.isParent p ∧ !m.on F.TIME_STATUS_IS_ROOT
      ∧ h + 1 < m.get F.TIME_STATUS_HOPS then m.setParent p h else m
  | none => m

/-! ### References of a root (R82 to R84) -/

/-- The reference of the candidate changes its class; the acting root announces it (R69). -/
def Mach.setRefClass (m : Mach) (c : Nat) : Mach :=
  let m := { m with time := { m.time with refClass := c } }
  if m.on F.TIME_STATUS_IS_ROOT then m.put F.TIME_ROOT_CLASS c else m

/-- The reference is lost after lock (R69, R83): REF_LOST, event 21, ROOT_CLASS HOLDOVER; under REF_SEL 3 a locked PTP
port takes over while the pulses are lost. -/
def Mach.refLost (m : Mach) : Mach :=
  let u := m.ownRootU
  let m := { m with time := { m.time with
    refLostU := u, refLostRaw := m.raw, refLockedRaw := none, refSlew := false, ppsLast := none, ppsMisses := 0 } }
  let fallback := m.get F.TIME_ROOT_CFG_REF_SEL = 3 && m.time.ptpLocked && m.time.refClass = 3
  (m.setRefClass (if fallback then 2 else 1)).trouble F.TIME_TROUBLE_REF_LOST |>.raise 21

/-- A write that selects another reference (R82): none is locked until the one selected is good, and with none selected
the candidate runs on its own crystal as FREE. -/
def Mach.refSelected (m : Mach) : Mach :=
  { m with time := { m.time with refLockedRaw := none, refSlew := false, ppsLast := none, ppsMisses := 0 } }.setRefClass 0

/-- The reference is good: class c. Its return after a loss raises event 22 (TIME_REF_OK). -/
def Mach.refOk (m : Mach) (c : Nat) : Mach :=
  let lost := m.time.refClass = 1 || (c = 3 && m.time.refClass = 2 && m.get F.TIME_ROOT_CFG_REF_SEL = 3)
  let m := if m.time.refLockedRaw.isNone then { m with time := { m.time with refLockedRaw := some m.raw } } else m
  let m := m.setRefClass c
  if lost then m.raise 22 else m

/-- The acting root against its own reference (R70): in JOIN it steps, otherwise it slews and never steps. It stays
LOCKED (R66). -/
def Mach.rootOffset (m : Mach) (e : Int) : Mach :=
  if !m.on F.TIME_STATUS_IS_ROOT then m
  else if nsFx (m.get F.TIME_JUMP_THRESHOLD) < (e.natAbs : Int) then
    if m.mode = .join then (m.stepTime e)
    else
      let m := if m.time.refSlew then m else (m.trouble F.TIME_TROUBLE_JUMP_REFUSED).raise 18
      { m with time := { m.time with refSlew := true } } |>.slewRate e
  else if m.time.refSlew then
    if (e.natAbs : Int) ≤ nsFx (m.get F.TIME_LOCK_LOCK_WIN) then
      ({ m with time := { m.time with refSlew := false } } |>.raise 30).steer
    else m.slewRate e
  else m.steer

/-- One second of the raw counter. -/
def rawSecond : Nat := 1562500000

/-- The whole seconds between the last accepted edge and now, to the nearest one. -/
def wholeSeconds (gone : Nat) : Nat := (gone + rawSecond / 2) / rawSecond

/-- An edge lies within PPS_WIN of a whole number of seconds after the last accepted one, so that edges missing between
them do not shift the window. The first edge of a reference has no predecessor and is accepted. -/
def Mach.ppsGood (m : Mach) : Bool :=
  match m.time.ppsLast with
  | none => true
  | some t =>
    let n := wholeSeconds (m.raw - t)
    1 ≤ n && ((m.raw - t : Nat) - (n * rawSecond : Nat) : Int).natAbs ≤ usTicks (m.get F.TIME_REF_CFG_PPS_WIN)

/-- The TAI second of an edge now (R84): TIME_REF_TOD as written, or as the node has counted it on, and one more for every
second since in which no edge was accepted. -/
def Mach.edgeSecond (m : Mach) (from_ : Nat) : Nat := m.get F.TIME_REF_TOD_TOD + (m.raw - from_) / rawSecond

/-- An accepted edge of a root with a time of day: it gives the phase of the second. -/
def Mach.ppsPhase (m : Mach) (from_ : Nat) : Mach :=
  let tod := m.edgeSecond from_
  let e := nsFx (tod * 1000000000 + m.getS F.TIME_REF_DELAY_DELAY) - m.wallFx
  let m := { m with time := { m.time with refOffset := e, todFrom := some (m.raw + rawSecond / 2) } }
    |>.put F.TIME_REF_TOD_TOD (tod + 1)
  if !m.on F.TIME_REF_CFG_F10M_EN || m.time.f10mGood then (m.refOk 3).rootOffset e else m

/-- REF_PPS_EDGE (R83, R84): an edge outside the window is ignored and counted; MISS_LIMIT in a row lose the reference.
With F10M_EN = 0 the 1PPS alone gives class PPS: the spec names no class for it (log entry 70). -/
def Mach.refPpsEdge (m : Mach) : Mach :=
  if !m.on F.TIME_REF_CFG_PPS_EN || m.get F.TIME_ROOT_CFG_REF_SEL < 2 then m
  else if !m.ppsGood then
    let n := m.time.ppsMisses + 1
    let m := { m with time := { m.time with ppsMisses := n } } |>.count 31
    if n = m.get F.TIME_REF_CFG_MISS_LIMIT && m.time.refClass = 3 then m.refLost else m
  else
    let m := { m with time := { m.time with ppsMisses := 0, ppsLast := some m.raw } } |>.count 30
    match m.time.todFrom with
    | some t => m.ppsPhase t
    | none => m

/-- REF_F10M_GATE (R83): the count of a 1 s gate. A gate outside 10 MHz ± F10M_WIN ppm is ignored and counted; another
gives the acting root its frequency, which the servo departs from by at most MAX_PPM (log entry 70). -/
def Mach.refF10mGate (m : Mach) (count : Nat) : Mach :=
  if !m.on F.TIME_REF_CFG_F10M_EN then m
  else if 10 * m.get F.TIME_REF_CFG_F10M_WIN < ((count : Int) - 10000000).natAbs then m.count 31
  else
    let m := { m with time := { m.time with f10mGood := true } }
    if m.on F.TIME_STATUS_IS_ROOT && 2 ≤ m.get F.TIME_ROOT_CFG_REF_SEL then
      { m with time := { m.time with holdRate := ((count : Int) - 10000000) * 2 ^ 40 / 10000000 } }
    else m

/-- TIME_REF_LOST (R83): MISS_LIMIT consecutive edges are missing. -/
def Mach.timeRefLost (m : Mach) : Mach :=
  if m.time.refClass = 3 then m.refLost else m

/-! ### PTP ports (R85, R86) -/

def Mach.ptpPort (m : Mach) (p : Nat) : PtpPort := tGet m.time.ptp ptpPort0 p

def Mach.setPtpPort (m : Mach) (p : Nat) (t : PtpPort) : Mach :=
  { m with time := { m.time with ptp := tPut m.time.ptp ptpPort0 p t } }

/-- A PTP port changes its state: event 31. -/
def Mach.setPtpState (m : Mach) (p : Nat) (st : PtpState) : Mach :=
  let t := m.ptpPort p
  if t.state = st then m else (m.setPtpPort p { t with state := st }).raise 31

/-- PTP_REFERENCE_LOST (R69): the slave ports have lost their grandmaster and listen for another. -/
def Mach.loseGrandmaster (m : Mach) : Mach :=
  let m := { m with time := { m.time with ptpLocked := false } }
  (List.range 8).foldl (fun m p =>
    if m.get F.TIME_ETH_CTL_ROLE p = 1 then
      (m.setPtpPort p { m.ptpPort p with best := none, sync := none }).setPtpState p .listening
    else m) m

def Mach.ptpReferenceLost (m : Mach) : Mach :=
  if m.time.refClass = 2 then m.loseGrandmaster.refLost else m.loseGrandmaster

/-- The data set order of the BMCA of IEEE 1588: lower is better, field by field. -/
def announceBetter (a b : PtpMsg) : Bool :=
  let k := fun (x : PtpMsg) =>
    [x.priority1, x.clockClass, x.accuracy, x.variance, x.priority2, x.grandmaster, x.stepsRemoved, x.source]
  decide (k a < k b)

/-- A clockAccuracy of IEEE 1588 in ns, rounded up: a code it does not define bounds nothing. -/
def accuracyNs (code : Nat) : Nat :=
  match code with
  | 0x17 | 0x18 | 0x19 | 0x1A | 0x1B | 0x1C | 0x1D => 1
  | 0x1E => 3
  | 0x1F => 10
  | 0x20 => 25
  | 0x21 => 100
  | 0x22 => 250
  | 0x23 => 1000
  | 0x24 => 2500
  | 0x25 => 10000
  | 0x26 => 25000
  | 0x27 => 100000
  | 0x28 => 250000
  | 0x29 => 1000000
  | 0x2A => 2500000
  | 0x2B => 10000000
  | 0x2C => 25000000
  | 0x2D => 100000000
  | 0x2E => 250000000
  | 0x2F => 1000000000
  | _ => 0xFFFFFFFF

/-- The event messages of IEEE 1588, which it timestamps. -/
def PtpKind.event : PtpKind → Bool
  | .sync | .delayReq | .pdelayReq | .pdelayResp => true
  | .announce | .followUp | .delayResp | .pdelayRespFollowUp | .other => false

/-- The peer delay mechanism: on the link's own ports, never passed on. -/
def PtpKind.peer : PtpKind → Bool
  | .pdelayReq | .pdelayResp | .pdelayRespFollowUp => true
  | .announce | .sync | .followUp | .delayReq | .delayResp | .other => false

/-- The port identity of IEEE 1588 for port p: the clock identity is the device's serial (log entry 17). -/
def Mach.ptpIdentity (m : Mach) (p : Nat) : Nat := m.cfg.serial * 65536 + (p + 1)

/-- Fractions of a ns of wall time, in 2^-16 ns: a message carries whole ns and its correction the rest. -/
def Mach.wallFrac (m : Mach) : Int := m.wallFx % 65536

/-- delayAsymmetry of a port (R85), in 2^-16 ns. -/
def Mach.ptpAsym (m : Mach) (p : Nat) : Int := m.getS F.TIME_ETH_ASYM_ASYM p * 4096

/-- A message of port p, with the data set of its Announce: clockClass 6, 7 or 248 by ROOT_CLASS (R86). -/
def Mach.ownAnnounce (m : Mach) (p : Nat) : PtpMsg :=
  let c := m.get F.TIME_ROOT_CLASS
  { kind := .announce, source := m.ptpIdentity p, domain := m.get F.TIME_PTP_CFG_DOMAIN, seqId := (m.ptpPort p).seqId,
    twoStep := false, correction := 0, timestamp := m.now, requester := 0, priority1 := Config.ptpPriority1,
    clockClass := if 2 ≤ c then 6 else if c = 1 then 7 else 248, accuracy := Config.ptpAccuracy,
    variance := Config.ptpVariance, priority2 := Config.ptpPriority2, grandmaster := m.cfg.serial, stepsRemoved := 0 }

/-- A message leaves port p. -/
def Mach.sendPtp (m : Mach) (p : Nat) (msg : PtpMsg) : Mach :=
  ((if msg.kind.event then m.count 23 else m).emit (.ptp p msg)).frameSent p

/-- The port runs the peer-to-peer profile. -/
def Mach.peerProfile (m : Mach) : Bool := m.get F.TIME_PTP_CFG_PROFILE = 1

/-- Announce intervals without a better foreign master after which a passive port serves again (log entry 17). -/
def announceReceipt : Nat := 3

/-- What a port sends on a timer (R85): a MASTER port Sync and Announce unless passive, a SLAVE port the delay request
of its profile, and under the peer-to-peer profile every port that has a role its peer delay request. -/
def Mach.ptpSends (m : Mach) (p : Nat) (kind : PtpKind) : Bool :=
  let role := m.get F.TIME_ETH_CTL_ROLE p
  match kind with
  | .announce | .sync => role = 2 && (m.ptpPort p).state ≠ .passive
  | .delayReq => role = 1 && !m.peerProfile
  | .pdelayReq => role ≠ 0 && m.peerProfile
  | .followUp | .delayResp | .pdelayResp | .pdelayRespFollowUp | .other => false

/-- An Announce interval of a passive port passes. -/
def Mach.ptpQuiet (m : Mach) (p : Nat) : Mach :=
  let t := m.ptpPort p
  if t.state ≠ .passive then m
  else if t.quiet + 1 < announceReceipt then m.setPtpPort p { t with quiet := t.quiet + 1 }
  else (m.setPtpPort p { t with quiet := 0, best := none }).setPtpState p .master

/-- PTP_MESSAGE_TIMER (R85). A delay request takes delayAsymmetry off its correction, as IEEE 1588 lays down. -/
def Mach.ptpMessageTimer (m : Mach) (p : Nat) (kind : PtpKind) : Mach :=
  let m := if kind = .announce then m.ptpQuiet p else m
  if !m.ptpSends p kind then m
  else
    let m := if kind = .announce || kind = .sync then m.setPtpState p .master else m
    let delay := kind = .delayReq || kind = .pdelayReq
    let msg := { m.ownAnnounce p with
      kind := kind, correction := (if kind = .announce then 0 else m.wallFrac) - (if delay then m.ptpAsym p else 0) }
    let t := m.ptpPort p
    let t := { t with seqId := (t.seqId + 1) % 65536 }
    let t := if delay then { t with delayReq := some (msg.seqId, m.wallFx), response := none } else t
    (m.setPtpPort p t).sendPtp p msg

/-- The offset a slave port measures enters as the root reference under REF_SEL 1, or 3 while the pulses are lost. -/
def Mach.ptpSample (m : Mach) (p : Nat) (offset : Int) : Mach :=
  let acc := match (m.ptpPort p).best with | some a => accuracyNs a.accuracy | none => 0
  let m := { m with time := { m.time with ptpOffset := offset, ptpAccuracy := acc, ptpLocked := true } }
  let sel := m.get F.TIME_ROOT_CFG_REF_SEL
  if m.candidate && (sel = 1 || (sel = 3 && m.time.refClass ≠ 3)) then (m.refOk 2).rootOffset (-offset) else m

/-- The bytes of a message with its correctionField replaced. -/
def ptpCorrected (bytes : List Nat) (corr : Int) : List Nat :=
  bytes.take 8 ++ beBytes 8 (ofSigned corr 64) ++ bytes.drop 16

/-- TRANSPARENT (R86): passed between the ports of the group, flags and TLVs as they came. The residence time, and under
the peer-to-peer profile the mean link delay of the ingress port, are added to a one-step Sync or to the Follow_Up that
matches a two-step one. A message is passed within one step of the model, so the residence of a Sync is a free value of
the part (log entry 71). -/
def Mach.ptpPass (m : Mach) (p : Nat) (msg : PtpMsg) (bytes : List Nat) : Mach :=
  let residence : Int := Config.ptpResidence m.freeIdx
  let t := m.ptpPort p
  let link : Int := if m.peerProfile then t.pathDelay else 0
  let m := if msg.kind = .sync then m.fresh.2 else m
  let m := if msg.kind = .sync && msg.twoStep then
      m.setPtpPort p { t with passed := some (msg.source, msg.seqId, residence) }
    else m
  let add : Int := match msg.kind, t.passed with
    | .sync, _ => if msg.twoStep then 0 else residence + link
    | .followUp, some (source, sid, r) => if source = msg.source && sid = msg.seqId then r + link else 0
    | _, _ => 0
  let out := if add = 0 then bytes else ptpCorrected bytes (msg.correction + add)
  (List.range 8).foldl (fun m q =>
    if q ≠ p && m.get F.TIME_ETH_CTL_ROLE q = 3 then
      ((if msg.kind.event then m.count 23 else m).emit (.ptpPass q out)).frameSent q
    else m) m

/-- The peer delay mechanism on a port that has a role: a request is answered in one step, the turnaround in the
correction (log entry 71); a response, and the Follow_Up of a two-step one, give the mean link delay. -/
def Mach.ptpPeer (m : Mach) (p : Nat) (msg : PtpMsg) : Mach :=
  let t := m.ptpPort p
  match msg.kind with
  | .pdelayReq =>
    let turnaround : Int := Config.ptpResidence m.freeIdx
    let m := m.fresh.2
    m.sendPtp p { m.ownAnnounce p with kind := .pdelayResp, seqId := msg.seqId, timestamp := 0,
                                       requester := msg.source, correction := msg.correction + turnaround }
  | .pdelayResp =>
    let corr := msg.correction + m.ptpAsym p
    match t.delayReq with
    | some (sid, sent) =>
      if sid ≠ msg.seqId || msg.requester ≠ m.ptpIdentity p then m
      else if msg.twoStep then m.setPtpPort p { t with response := some (m.wallFx, msg.timestamp, corr) }
      else m.setPtpPort p { t with delayReq := none, pathDelay := ((m.wallFx : Int) - sent - corr) / 2 }
    | none => m
  | .pdelayRespFollowUp =>
    match t.delayReq, t.response with
    | some (sid, sent), some (arrival, receipt, corr) =>
      if sid ≠ msg.seqId || msg.requester ≠ m.ptpIdentity p then m
      else
        let held := nsFx ((msg.timestamp : Int) - receipt)
        m.setPtpPort p { t with
          delayReq := none, response := none, pathDelay := ((arrival : Int) - sent - held - corr - msg.correction) / 2 }
    | _, _ => m
  | _ => m

/-- A MASTER port: the BMCA makes it passive while a better foreign master is present; it answers delay requests. -/
def Mach.ptpMaster (m : Mach) (p : Nat) (msg : PtpMsg) : Mach :=
  let t := m.ptpPort p
  match msg.kind with
  | .announce =>
    if announceBetter msg (m.ownAnnounce p) then
      (m.setPtpPort p { t with best := some msg, quiet := 0 }).setPtpState p .passive
    else if (t.best.map (·.source)) = some msg.source then
      (m.setPtpPort p { t with best := none, quiet := 0 }).setPtpState p .master
    else m
  | .delayReq =>
    if t.state = .passive || m.peerProfile then m
    else m.sendPtp p { m.ownAnnounce p with kind := .delayResp, seqId := msg.seqId, requester := msg.source,
                                            correction := msg.correction - m.wallFrac }
  | _ => m

/-- A SLAVE port selects its grandmaster by the BMCA and measures its offset: arrival less origin, corrections, mean path
delay and delayAsymmetry. -/
def Mach.ptpSlave (m : Mach) (p : Nat) (msg : PtpMsg) : Mach :=
  let t := m.ptpPort p
  let asym := m.ptpAsym p
  let chosen : Bool := (t.best.map (·.source)) = some msg.source
  match msg.kind with
  | .announce =>
    let better : Bool := match t.best with
      | some b => chosen || announceBetter msg b
      | none => true
    if better then (m.setPtpPort p { t with best := some msg }).setPtpState p .slave else m
  | .sync =>
    if !chosen then m
    else if msg.twoStep then m.setPtpPort p { t with sync := some (msg.seqId, m.wallFx, msg.correction) }
    else m.ptpSample p ((m.wallFx : Int) - nsFx msg.timestamp - msg.correction - t.pathDelay - asym)
  | .followUp =>
    match t.sync with
    | some (sid, arrival, corr) =>
      if chosen && sid = msg.seqId then
        (m.setPtpPort p { t with sync := none }).ptpSample p
          ((arrival : Int) - nsFx msg.timestamp - corr - msg.correction - t.pathDelay - asym)
      else m
    | none => m
  | .delayResp =>
    match t.delayReq with
    | some (sid, sent) =>
      if sid = msg.seqId && msg.requester = m.ptpIdentity p && !m.peerProfile then
        -- (t4 - t3) + (t2 - t1), the latter as the last offset measured it.
        let sum := nsFx msg.timestamp - sent - msg.correction + m.time.ptpOffset + t.pathDelay
        m.setPtpPort p { t with delayReq := none, pathDelay := sum / 2 }
      else m
    | none => m
  | _ => m

/-- A PTP message arrives on Ethernet port p (R86), by the port's role. -/
def Mach.ptpMessage (m : Mach) (p : Nat) (msg : PtpMsg) (bytes : List Nat) : Mach :=
  let m := if msg.kind.event then m.count 22 else m
  let role := m.get F.TIME_ETH_CTL_ROLE p
  if role = 3 && !(m.peerProfile && msg.kind.peer) then m.ptpPass p msg bytes
  else if role = 0 || msg.domain ≠ m.get F.TIME_PTP_CFG_DOMAIN then m
  else if msg.kind.peer then m.ptpPeer p msg
  else if role = 2 then m.ptpMaster p msg
  else if role = 1 then m.ptpSlave p msg
  else m

/-! ### Pulse outputs (R89) -/

def Mach.pulse (m : Mach) (k : Nat) : Pulse := tGet m.time.pulses pulse0 k

def Mach.setPulse (m : Mach) (k : Nat) (x : Pulse) : Mach :=
  { m with time := { m.time with pulses := tPut m.time.pulses pulse0 k x } }

/-- The wall time of edge i in 2^-16 ns. -/
def Pulse.edgeFx (x : Pulse) (i : Nat) : Nat := x.start * 65536 + i * x.period

/-- Arming: the settings are latched. An edge that has not returned yet returns as it would have. A one-shot whose START
lies less than 100 ns ahead emits nothing; a periodic output in that case starts at its first edge at least 100 ns
ahead. -/
def Mach.pulseArm (m : Mach) (k : Nat) : Mach :=
  let periodic := m.on F.TIME_PULSE_CTL_PERIODIC k
  let x : Pulse := { armed := true, periodic := periodic, activeLow := m.on F.TIME_PULSE_CTL_POLARITY k,
                     start := m.get F.TIME_PULSE_START_START k, period := m.get F.TIME_PULSE_PERIOD_PERIOD k,
                     width := m.get F.TIME_PULSE_WIDTH_WIDTH k, nextEdge := 0, active := (m.pulse k).active,
                     rest := (m.pulse k).rest }
  let ahead := m.wallFx + 100 * 65536
  let m := m.putB F.TIME_PULSE_CTL_EN true k
  if ahead ≤ x.start * 65536 then m.setPulse k x
  else if periodic then
    m.setPulse k { x with nextEdge := if x.period = 0 then 0 else ceilDiv (ahead - x.start * 65536) x.period }
  else
    (m.putB F.TIME_PULSE_CTL_EN false k).setPulse k { x with armed := false }
      |>.trouble F.TIME_TROUBLE_PULSE_MISSED 0 k |>.raise 28

/-- PULSE_ARM (R89): EN goes from 0 to 1 with this PERIODIC and POLARITY; the whole write is checked first (R11). -/
def Mach.pulseArmCmd (m : Mach) (k : Nat) (periodic polarity : Bool) : Mach :=
  if m.on F.TIME_PULSE_CTL_EN k then m
  else
    let per := m.get F.TIME_PULSE_PERIOD_PERIOD k / 65536
    let width := m.get F.TIME_PULSE_WIDTH_WIDTH k
    if periodic && !(100 ≤ per && per ≤ 4294967295 && width + 8 ≤ per) then m.refuse .TIME_PULSE_CTL k
    else (m.putB F.TIME_PULSE_CTL_PERIODIC periodic k |>.putB F.TIME_PULSE_CTL_POLARITY polarity k).pulseArm k

/-- PULSE_EDGE (R89): the edge is driven; a one-shot is then disarmed and clears EN. -/
def Mach.pulseEdge (m : Mach) (k : Nat) : Mach :=
  let x := m.pulse k
  if !x.armed then m
  else
    let m := (m.emit (.pin (.pulse k) (!x.activeLow))).count 29
    let m := m.setPulse k { x with active := true, rest := x.activeLow, nextEdge := x.nextEdge + 1, armed := x.periodic }
    if x.periodic then m else m.putB F.TIME_PULSE_CTL_EN false k

/-- PULSE_RETURN (R89): WIDTH ns after the edge the output is inactive again. -/
def Mach.pulseReturn (m : Mach) (k : Nat) : Mach :=
  let x := m.pulse k
  if x.active then (m.setPulse k { x with active := false }).emit (.pin (.pulse k) x.rest) else m

/-! ### Capture inputs (R90) -/

def Mach.capIn (m : Mach) (k : Nat) : CapIn := tGet m.time.caps capIn0 k

/-- A capture input's FIFO as its registers show it. -/
def Mach.setCapIn (m : Mach) (k : Nat) (x : CapIn) : Mach :=
  { m with time := { m.time with caps := tPut m.time.caps capIn0 k x } }
    |>.put F.TIME_CAP_STATUS_COUNT x.fifo.length k
    |>.putB F.TIME_CAP_STATUS_HEAD_RISING ((x.fifo.head?.map Prod.snd).getD false) k
    |>.put F.TIME_CAP_STAMP_STAMP ((x.fifo.head?.map Prod.fst).getD 0) k

/-- CAPTURE_EDGE (R90): dropped and counted within DEAD of the previous accepted edge, or when the FIFO of 16 is full;
otherwise stamped at the first crossing of the input, before the filter delay. An edge dropped because the FIFO is full
is the previous accepted edge for DEAD all the same: the spec does not say whether it counts (log entry 72). -/
def Mach.captureEdge (m : Mach) (k : Nat) (rising : Bool) : Mach :=
  let sel := m.get F.TIME_CAP_CTL_EDGE k
  let wanted := if rising then sel = 1 || sel = 3 else sel = 2 || sel = 3
  if !m.on F.TIME_CAP_CTL_EN k || !wanted then m
  else
    let stamp := m.now - m.get F.TIME_CAP_CTL_FILTER k
    let x := m.capIn k
    let dead : Bool := match x.last with
      | some t => decide ((stamp : Int) - t < m.get F.TIME_CAP_CTL_DEAD k)
      | none => false
    if dead then (m.bump F.TIME_CAP_STATUS_DROPPED k).count 28
    else if 16 ≤ x.fifo.length then
      (m.setCapIn k { x with last := some stamp }).bump F.TIME_CAP_STATUS_DROPPED k |>.count 28
        |>.trouble F.TIME_TROUBLE_CAP_OVERFLOW 0 k
    else (m.setCapIn k { fifo := x.fifo ++ [(stamp, rising)], last := some stamp }).count (24 + k) |>.raise (24 + k)

/-- A read of TIME_CAP_STAMP[k] pops the oldest entry; an empty FIFO gives 0 and pops nothing (R90). -/
def Mach.popCapture (m : Mach) (k : Nat) : Nat × Mach :=
  let x := m.capIn k
  match x.fifo with
  | [] => (0, m)
  | (stamp, _) :: rest => (stamp, m.setCapIn k { x with fifo := rest })

end Sys2Proof.Machine
end

