-- ==== Sys2Proof/Machine/Fabric.lean ====
section
/-! DEFINITION. Halyadal's ports (R94 to R105): training, CONFIG, replay, credits and the order of a port's slots, and
forwarding by label and by route. -/

namespace Sys2Proof.Machine

/-! ### Drops -/

/-- A flit or a packet is dropped at port p (R21, R123). -/
def Mach.fabDrop (m : Mach) (p : Nat) : Mach :=
  let (m, es) := m.countDrop p
  settle settleFuel es m

/-- A malformed flit (R99). -/
def Mach.malformed (m : Mach) (p : Nat) : Mach := (m.trouble F.FAB_PORT_TROUBLE_MALFORMED p).fabDrop p

/-- A routed flit without a route (R104, R105). -/
def Mach.noRoute (m : Mach) (p : Nat) : Mach := (m.trouble F.FAB_PORT_TROUBLE_NO_ROUTE p).fabDrop p

/-! ### Control messages on a link (R96, R108) -/

/-- The commands of CTRL flits. -/
def cmdConfig : Nat := 1
def cmdJoin : Nat := 2
def cmdAccept : Nat := 3
def cmdRefuse : Nat := 4
def cmdLeave : Nat := 5
def cmdFlowDown : Nat := 6

def CtrlMsg.words (cmd : Nat) (c : CtrlMsg) : List Nat :=
  [cmd <<< 56 ||| (if c.key.span then 2 ^ 55 else 0) ||| (c.key.part % 16) <<< 51 ||| (c.vc % 4) <<< 49
      ||| (c.label % 1024) <<< 38 ||| (c.key.origin % 4096) <<< 24 ||| (c.member % 4096) <<< 12 ||| c.refuser % 4096,
    (c.key.id % 2 ^ 32) <<< 32 ||| (c.resv % 65536) <<< 16 ||| (c.status % 16) <<< 12]

def CtrlMsg.ofWords (ws : List Nat) : CtrlMsg :=
  let w0 := ws.getD 0 0
  let w1 := ws.getD 1 0
  { key := { origin := bits w0 24 12, span := w0.testBit 55, id := bits w1 32 32, part := bits w0 51 4 },
    vc := bits w0 49 2, label := bits w0 38 10, member := bits w0 12 12, refuser := bits w0 0 12,
    resv := bits w1 16 16, status := bits w1 12 4 }

def ConfigBody.words (c : ConfigBody) : List Nat :=
  [cmdConfig <<< 56 ||| (c.port % 8) <<< 53 ||| (if c.idValid then 2 ^ 52 else 0) ||| (c.node % 4096) <<< 40
      ||| (c.mode % 16) <<< 36 ||| (c.topo % 4) <<< 34 ||| (c.x % 32) <<< 29 ||| (c.y % 32) <<< 24 ||| (c.z % 32) <<< 19,
    c.serial]

def ConfigBody.ofWords (ws : List Nat) : ConfigBody :=
  let w0 := ws.getD 0 0
  { port := bits w0 53 3, idValid := w0.testBit 52, node := bits w0 40 12, mode := bits w0 36 4, topo := bits w0 34 2,
    x := bits w0 29 5, y := bits w0 24 5, z := bits w0 19 5, serial := ws.getD 1 0 }

/-- A link-local CTRL flit of 16 body bytes joins the port's queue. -/
def Mach.sendCtrlWords (m : Mach) (p : Nat) (ws : List Nat) : Mach :=
  m.enqueue p (.flit { flit0 with type := 2, vc := 1, bodyLen := 16, body := ws })

def Mach.sendCtrl (m : Mach) (p cmd : Nat) (c : CtrlMsg) : Mach := m.sendCtrlWords p (c.words cmd)

/-- The node's own CONFIG (R96). -/
def Mach.ownConfig (m : Mach) (p : Nat) : ConfigBody :=
  { port := p, idValid := m.on F.FAB_NODE_ID_VALID, node := m.nodeId, mode := m.get F.SYS_MODE_MODE,
    topo := m.get F.FAB_NODE_TOPO_MODE, x := m.get F.FAB_NODE_TOPO_X, y := m.get F.FAB_NODE_TOPO_Y,
    z := m.get F.FAB_NODE_TOPO_Z, serial := m.cfg.serial }

/-! ### Training (R95) -/

def portDown : Nat := 0
def portTrainSt : Nat := 1
def portConfig : Nat := 2
def portActiveSt : Nat := 3
def portDisabled : Nat := 4

def Mach.portState (m : Mach) (p : Nat) : Nat := m.get F.FAB_PORT_STATUS_STATE p

/-- The back-off doubles after each further failure, up to 1 s. -/
def nextBackoff (b : Nat) : Nat := if b = 0 then 1 else min 1000 (b * 2)

/-- The port leaves for DOWN: nothing queued or unacknowledged survives on the link, and RATE and WIDTH show none. -/
def Mach.portToDown (m : Mach) (p st : Nat) : Mach :=
  let x := m.fabPort p
  let m := m.setFabPort p { fabPort0 with backoff := x.backoff, drops := x.drops, dropEvent := x.dropEvent,
                                          naksInRow := 0 }
  m.put F.FAB_PORT_STATUS_STATE st p |>.put F.FAB_PORT_STATUS_RATE 0 p |>.put F.FAB_PORT_STATUS_WIDTH 0 p

/-- PORT_TRAIN: the back-off of a DOWN port with EN set has passed. -/
def Mach.portTrain (m : Mach) (p : Nat) : Mach :=
  if m.portState p = portDown ∧ m.on F.FAB_PORT_CTL_EN p then m.put F.FAB_PORT_STATUS_STATE portTrainSt p else m

/-- A failed training attempt: DOWN with TRAIN_FAIL, event 34 + 8p, and the back-off grows (R95, R120). -/
def Mach.trainFail (m : Mach) (p : Nat) : Mach :=
  if m.portState p = portTrainSt then
    let m := m.portToDown p portDown
    let x := m.fabPort p
    (m.setFabPort p { x with backoff := nextBackoff x.backoff }).trouble F.FAB_PORT_TROUBLE_TRAIN_FAIL p
      |>.trouble F.FAB_PORT_TROUBLE_LINK_DOWN p |>.raise (34 + 8 * p) |>.raise (33 + 8 * p)
  else m

/-- TRAIN_LOCK: lock on 4 lanes, or on 2 when WIDTH_MIN allows it (R94), at no more than RATE_MAX; any other result is
a failed attempt. -/
def Mach.trainLock (m : Mach) (p lanes rate : Nat) : Mach :=
  if m.portState p ≠ portTrainSt then m
  else if (lanes = 4 ∨ (lanes = 2 ∧ m.get F.FAB_PORT_CTL_WIDTH_MIN p = 2))
      ∧ 1 ≤ rate ∧ rate ≤ m.get F.FAB_PORT_CTL_RATE_MAX p then
    m.put F.FAB_PORT_STATUS_STATE portConfig p |>.put F.FAB_PORT_STATUS_RATE rate p
      |>.put F.FAB_PORT_STATUS_WIDTH lanes p
  else m.trainFail p

/-- CONFIG_TIMEOUT: no valid CONFIG exchange within 1 ms; DOWN, and the attempt has failed. -/
def Mach.configTimeout (m : Mach) (p : Nat) : Mach :=
  if m.portState p = portConfig then
    let m := m.portToDown p portDown
    let x := m.fabPort p
    (m.setFabPort p { x with backoff := nextBackoff x.backoff }).raise (34 + 8 * p)
  else m

/-- A CONFIG flit of a port that is not yet ACTIVE: the link's counts start as it becomes ACTIVE, so the flit carries
count 0, and acknowledges nothing (log entry 65). -/
def configFlit (ws : List Nat) : Flit :=
  let f := { flit0 with type := 2, vc := 1, bodyLen := 16, body := ws, ackSeq := 4095 }
  { f with crc := f.crcFor 0 }

/-- CONFIG_SEND: in CONFIG each end sends a CONFIG flit every 10 µs until it has received one. The port is not ACTIVE
yet, so the flit leaves at once. -/
def Mach.configSend (m : Mach) (p : Nat) : Mach :=
  if m.portState p = portConfig then (m.emit (.flit p (configFlit (m.ownConfig p).words))).flitSent p else m

/-- The ports that R114 pairs in a dimension-order topology. -/
def pairedPort (p : Nat) : Nat := if p % 2 = 0 then p + 1 else p - 1

/-- The neighbour of a node ID across port p, in the torus of FAB_NODE_TOPO. -/
def Mach.acrossPort (m : Mach) (d p : Nat) : Nat :=
  let step := fun (c n : Nat) (up : Bool) => if n = 0 then c else if up then (c + 1) % n else (c + n - 1) % n
  let x := bits d 0 4
  let y := bits d 4 4
  let z := bits d 8 4
  let x := if p / 2 = 0 then step x (m.get F.FAB_NODE_TOPO_X) (p % 2 = 0) else x
  let y := if p / 2 = 1 then step y (m.get F.FAB_NODE_TOPO_Y) (p % 2 = 0) else y
  let z := if p / 2 = 2 then step z (m.get F.FAB_NODE_TOPO_Z) (p % 2 = 0) else z
  z <<< 8 ||| y <<< 4 ||| x

/-- R114: a link that pairs other ports, whose peer's topology differs, or whose peer's ID disagrees with the node's own
coordinates. Ports 6 and 7 serve links outside the torus. -/
def Mach.topoMismatch (m : Mach) (p : Nat) (c : ConfigBody) : Bool :=
  m.get F.FAB_NODE_TOPO_MODE ≠ 0 && p < 6 &&
    (c.port ≠ pairedPort p || c.topo ≠ m.get F.FAB_NODE_TOPO_MODE || c.x ≠ m.get F.FAB_NODE_TOPO_X
      || c.y ≠ m.get F.FAB_NODE_TOPO_Y || c.z ≠ m.get F.FAB_NODE_TOPO_Z
      || (c.idValid && m.on F.FAB_NODE_ID_VALID && c.node ≠ m.acrossPort m.nodeId p))

/-- R114: a node set to WALK takes its ID from the lowest-numbered ACTIVE peer on ports 0 to 5 whose ID is valid. Event
39 tells that the ID became valid. -/
def Mach.walkId (m : Mach) : Mach :=
  if m.on F.FAB_NODE_ID_VALID ∨ m.get F.FAB_NODE_ID_SOURCE = 0 ∨ m.get F.FAB_NODE_TOPO_MODE = 0 then m
  else
    match (List.range 6).find? (fun p => m.portActive p && m.on F.FAB_PORT_STATUS_PEER_ID_VALID p) with
    | some p =>
      (m.put F.FAB_NODE_ID_NODE (m.acrossPort (m.get F.FAB_PORT_STATUS_PEER_NODE p) (pairedPort p))
        |>.putB F.FAB_NODE_ID_VALID true).raise 39
    | none => m

/-! ### Sending on a slot (R100 to R103) -/

/-- The key of a credit: virtual channel and buffer class. -/
def Flit.creditKey (f : Flit) : Nat := f.vc % 4 * 2 + (if f.cl then 1 else 0)

def FabPort.credit (x : FabPort) (k : Nat) : Nat := tGet x.credits 0 k

def TxFlit.vc : TxFlit → Nat
  | .flit f => f.vc
  | _ => 0

/-- The credit a waiting flit needs: its virtual channel's, and its buffer class's. -/
def TxFlit.creditKey : TxFlit → Nat
  | .flit f => f.creditKey
  | _ => 0

/-- The port holds a credit for a waiting flit. -/
def FabPort.mayGo (x : FabPort) (t : TxFlit) : Bool := 0 < x.credit t.creditKey

/-- A waiting flit that is part of a flow, by its label. -/
def TxFlit.flowLabel : TxFlit → Option Nat
  | .flit f => if f.labelled then some f.label else none
  | _ => none

/-- Flits that reserved units allow in 100 µs: one unit is 1 million flits per second (R109, R113). -/
def resvFlits (resv : Nat) : Nat := resv * 100

/-- The reservation of the branch that carries a label on a port. -/
def Mach.labelResv (m : Mach) (p label : Nat) : Nat :=
  match m.fab.branches.find? (fun b => b.port = p && b.label = label) with
  | some b => b.resv
  | none => 0

/-- A flit is within its flow's reservation in this window. -/
def Mach.withinResv (m : Mach) (p : Nat) (t : TxFlit) : Bool :=
  match t.flowLabel with
  | some l => tGet (m.fabPort p).sent 0 l < resvFlits (m.labelResv p l)
  | none => false

/-- Among the waiting flits of flows within reservation, the first one of the flow with the least share sent: weighted
round robin by RESV (R111). -/
def Mach.pickWeighted (m : Mach) (p : Nat) (l : List TxFlit) : Option TxFlit :=
  let x := m.fabPort p
  let share : TxFlit → Nat × Nat := fun t => match t.flowLabel with
    | some l => (tGet x.sent 0 l, max 1 (m.labelResv p l))
    | none => (0, 1)
  l.foldl (fun best t => match best with
    | none => some t
    | some b => if (share t).1 * (share b).2 < (share b).1 * (share t).2 then some t else some b) none

/-- The order among waiting flits of one of the channels that carry flows (R111): first what is part of no flow, in
order of arrival (log entry 66), then flows within reservation, then the others. -/
def Mach.pickFlow (m : Mach) (p : Nat) (l : List TxFlit) : Option TxFlit :=
  (l.find? fun t => t.flowLabel.isNone).orElse fun _ =>
    (m.pickWeighted p (l.filter (m.withinResv p))).orElse fun _ => l.head?

/-- R103: what the port sends in its next slot, in order of precedence; none is an IDLE flit. -/
def Mach.pickFlit (m : Mach) (p : Nat) : Option TxFlit :=
  let x := m.fabPort p
  let ok := x.txq.filter x.mayGo
  let time := ok.find? (fun t => t.vc = 0)
  let bulk := ok.find? (fun t => t.vc = 3)
  time.orElse fun _ => (if 31 ≤ x.sinceBulk then bulk else none).orElse fun _ =>
    (m.pickFlow p (ok.filter fun t => t.vc = 1)).orElse fun _ =>
      (m.pickFlow p (ok.filter fun t => t.vc = 2)).orElse fun _ => bulk

/-- The trailer of a flit that leaves under a link count: it acknowledges what has been accepted and carries a NAK that
is due (R98, R100). -/
def FabPort.trail (x : FabPort) (f : Flit) (count : Nat) : Flit × FabPort :=
  let f := { f with txSeq := count % 4096, ackSeq := (x.rxCount + 2 ^ 32 - 1) % 4096, nak := x.nakDue }
  ({ f with crc := f.crcFor count }, { x with nakDue := false })

/-- The credits that a new flit returns. They stay with the flit when it is sent again, so that each is returned once
(log entry 19). -/
def FabPort.returns (x : FabPort) (f : Flit) : Flit × FabPort :=
  match x.owed.find? (fun e => 8 ≤ e.2) with
  | some (k, o) =>
    let n := min 15 (o / 8)
    ({ f with ccl := k % 2 == 1, cvc := k / 2, credits := n }, { x with owed := tPut x.owed 0 k (o - 8 * n) })
  | none => (f, x)

/-- The slot that a flit takes is part of the port's 100 µs window and of BULK's share. -/
def FabPort.spent (x : FabPort) (f : Flit) : FabPort :=
  { x with sinceBulk := if f.vc = 3 ∧ f.type ≠ 0 then 0 else x.sinceBulk + 1, contacts := x.contacts || f.type = 4 }

/-- A flit is on the wire: it is counted by kind (R420), and its CRC is a unit of the port's channel. -/
def Mach.onWire (m : Mach) (p : Nat) (f : Flit) : Mach :=
  let m := (m.emit (.flit p f)).flitSent p
  if f.vc = 1 then m.count (37 + 8 * p) else if f.vc = 2 then m.count (38 + 8 * p) else m

/-- The credit of a new flit is used, and a flow's share counted. -/
def FabPort.charged (x : FabPort) (f : Flit) : FabPort :=
  { x with credits := tPut x.credits 0 f.creditKey (x.credit f.creditKey - 1),
           sent := if f.labelled then tIns x.sent f.label (tGet x.sent 0 f.label + 1) else x.sent }

/-- A new flit leaves: it takes the next link count, and a copy stays in the replay buffer of 512. -/
def Mach.transmit (m : Mach) (p : Nat) (f : Flit) : Mach :=
  let (g, x) := (m.fabPort p).returns f
  let (g, y) := x.trail g x.txCount
  let y := (if f.type = 0 then y else y.charged f).spent f
  (m.setFabPort p { y with txCount := x.txCount + 1, replay := x.replay ++ [(x.txCount, g)] }).onWire p g

/-- A flit leaves again under its own count (R100). The credit it took as it first left still stands for it. -/
def Mach.retransmit (m : Mach) (p count : Nat) (f : Flit) : Mach :=
  let (g, y) := (m.fabPort p).trail f count
  ((m.setFabPort p (y.spent f)).onWire p g).count (36 + 8 * p)

/-- A slot in which the replay buffer holds new flits back carries an IDLE flit under the count sent last, which the
peer does not take for a new one (log entry 15). -/
def Mach.holdSlot (m : Mach) (p : Nat) : Mach :=
  let x := m.fabPort p
  let (g, y) := x.trail { flit0 with fi := false, la := false } (x.txCount - 1)
  (m.setFabPort p (y.spent g)).onWire p g

/-- A time flit leaves (R101): its trailer carries the count of the next non-time flit, and it is not kept. -/
def Mach.transmitTime (m : Mach) (p : Nat) (f : TimeFlit) : Mach :=
  let (f, m) := m.stampTimeFlit p f
  let x := m.fabPort p
  let next := (x.resend.head?.map Prod.fst).getD x.txCount
  let (g, y) := x.trail f.flit next
  (m.setFabPort p ((y.charged g).spent g)).onWire p g

/-- Whether the replay buffer holds new flits back: it keeps the last 512. -/
def FabPort.full (x : FabPort) : Bool := 512 ≤ x.replay.length

/-- The waiting time flit that leaves, as it leaves (R71, R73). -/
def Mach.timeOut (m : Mach) (p : Nat) (t : TxFlit) : Option TimeFlit :=
  match t with
  | .origin => some m.rootFlit
  | .reverse => some (m.reverseFlit p)
  | .time f arrival dIn => some (m.forwarded f arrival dIn)
  | .flit _ => none

/-- The labels of the VIDEO flows with no flit waiting on a port (R113). -/
def Mach.noteGaps (m : Mach) (p : Nat) : Mach :=
  let x := m.fabPort p
  let waits (l : Nat) : Bool := x.txq.any fun t => t.vc = 2 && t.flowLabel = some l
  let idle := (m.fab.branches.filter fun b => b.port = p && b.vc = 2 && 0 < b.resv && !waits b.label
    && !x.gaps.contains b.label).map (·.label)
  if idle.isEmpty then m else m.setFabPort p { x with gaps := x.gaps ++ idle }

/-- A flit slot of an ACTIVE port: a waiting time flit first, then a replay before new flits, and an IDLE flit when
nothing may go, which is numbered like any other non-time flit (log entry 15). -/
def Mach.slot (m : Mach) (p : Nat) : Mach :=
  let m := m.noteGaps p
  let x := m.fabPort p
  let pick := m.pickFlit p
  match pick.bind (m.timeOut p) with
  | some f =>
    let t := pick.getD .origin
    let m := (m.setFabPort p { x with txq := x.txq.erase t }).transmitTime p f
    if t.forward then m.count 17 else m
  | none =>
    match x.resend, pick with
    | (c, f) :: rest, _ => (m.setFabPort p { x with resend := rest }).retransmit p c f
    | [], some (.flit f) => if x.full then m.holdSlot p else (m.setFabPort p { x with txq := x.txq.erase (.flit f) }).transmit p f
    | [], _ => if x.full then m.holdSlot p else m.transmit p { flit0 with fi := false, la := false }

/-- The time a flit takes on the wire of a port (R94), in 1/256 ticks: 4.0625 ns on 4 lanes at 32 Gbit/s. -/
def Mach.slotFx (m : Mach) (p : Nat) : Nat :=
  1625 * (if m.get F.FAB_PORT_STATUS_RATE p = 1 then 2 else 1) * (if m.get F.FAB_PORT_STATUS_WIDTH p = 2 then 2 else 1)

/-- A port whose wire is free takes its next slot. A slot that starts late does not let the wire catch up. -/
def Mach.slotDue (m : Mach) (p : Nat) : Mach :=
  let x := m.fabPort p
  if !m.portActive p || m.raw * 256 < x.wireFree then m
  else (m.setFabPort p { x with wireFree := max x.wireFree (m.raw * 256 - 255) + m.slotFx p }).slot p

/-- The slots that start at this tick. -/
def Mach.slots (m : Mach) : Mach := (List.range 8).foldl (fun m p => m.slotDue p) m

/-! ### Receiving (R99, R100) -/

/-- The flits after `ackSeq` are to be sent again, and how many flits the acknowledgement newly covers. -/
def FabPort.ack (x : FabPort) (ackSeq : Nat) : Nat × FabPort :=
  match x.replay.find? (fun e => e.1 % 4096 = ackSeq) with
  | some (c, _) =>
    let keep := x.replay.filter (fun e => c < e.1)
    (x.replay.length - keep.length, { x with replay := keep, acked := c + 1 })
  | none => (0, x)

/-- The virtual channels of each type and the length its body needs (R99): 16 bytes of a control or STATE message, 32
of a contact report (R300), the one byte of a DOORBELL; none for a reserved type. -/
def flitRow : Nat → Option (List Nat × Nat)
  | 0 => some ([0, 1, 2, 3], 0) | 1 => some ([0], 48) | 2 => some ([1], 16) | 3 => some ([1], 16)
  | 4 => some ([1], 32) | 5 => some ([1, 2], 48) | 6 => some ([1, 2], 48) | 7 => some ([1, 2], 48)
  | 8 => some ([1, 2], 48) | 9 => some ([3], 48) | 10 => some ([3], 48) | 11 => some ([3], 48)
  | 12 => some ([1], 1) | _ => none

def Mach.entryAt (m : Mach) (p label : Nat) : Option FlowEntry :=
  m.fab.entries.find? (fun e => !e.origin && e.port = p && e.label = label)

/-- The flow entry of a key: a node holds at most one (R109). -/
def Mach.entryOf (m : Mach) (key : FlowKey) : Option FlowEntry := m.fab.entries.find? (fun e => e.key = key)

/-- The channel on which a flit's packet started differs from the flit's own. -/
def FlowEntry.offChannel (e : FlowEntry) (f : Flit) : Bool := (f.type = 6 || f.type = 8) && e.headVc ≠ f.vc

/-- R99: reserved type, wrong channel, bad length, or a label with no flow entry. -/
def Mach.isMalformed (m : Mach) (p : Nat) (f : Flit) : Bool :=
  match flitRow f.type with
  | none => true
  | some (vcs, len) => !vcs.contains f.vc || len < f.bodyLen || (f.labelled &&
      match m.entryAt p f.label with
      | none => true
      | some e => e.offChannel f)

/-- The head of a packet sets the channel of the data that follows it (R99). -/
def Mach.noteHead (m : Mach) (e : FlowEntry) (f : Flit) : Mach :=
  if f.type = 5 || f.type = 7 then
    { m with fab := { m.fab with entries := m.fab.entries.map fun x => if x.key = e.key then { x with headVc := f.vc } else x } }
  else m

/-- A label-switched flit goes down every branch of its flow, each with the branch's own label (R108); a peer in
QUARANTINE gets none (R117). -/
def Mach.forwardLabel (m : Mach) (e : FlowEntry) (f : Flit) : Mach :=
  (m.fab.branches.filter (fun b => b.key = e.key && !m.peerOut b.port)).foldl
    (fun m b => m.enqueue b.port (.flit { f with label := b.label })) m

/-- A routed flit for another node is forwarded by R104 and R105. -/
def Mach.forwardRouted (m : Mach) (p : Nat) (f : Flit) : Mach :=
  if 63 < f.hops + 1 then m.noRoute p
  else
    match m.route f.dest with
    | none => m.noRoute p
    | some q => m.enqueue q (.flit { f with hops := f.hops + 1, cl := m.nextClass (some p) q f.cl })

/-- The flits of a packet in assembly continue: the first, or the next of the same PKT_SEQ behind it. -/
def continues (held : List Flit) (f : Flit) : Bool :=
  f.fi || ((held.head?.map fun g => g.fi && g.pktSeq = f.pktSeq).getD false)

/-- A delivered flit joins its packet; the whole packet when it is the last. A packet that is cut short by another's first
flit, or whose first flit is missing, is dropped whole and counted once (R21); the flits that are left of it stand in the
assembly as a list without a first flit. -/
def Mach.assemble (m : Mach) (p key : Nat) (f : Flit) : Option (List Flit) × Mach :=
  let x := m.fabPort p
  let held := tGet x.assembly [] key
  let whole : Bool := (held.head?.map (·.fi)).getD false
  let stray : Bool := match held.head? with
    | some g => !g.fi && g.pktSeq = f.pktSeq
    | none => false
  let ok := continues held f
  let l := if f.fi then [f] else if ok then held ++ [f] else [f]
  let m := m.setFabPort p { x with assembly := tPut x.assembly [] key (if f.la then [] else l) }
  let m := if whole && (f.fi || !ok) then m.fabDrop p else m
  let m := if ok || stray then m else m.fabDrop p
  (if ok && f.la then some l else none, m)

/-- The 32-bit count a flit was sent under: the one near the count expected whose low 12 bits its TX_SEQ holds. -/
def FabPort.countOf (x : FabPort) (f : Flit) : Int := x.rxCount + toSigned (ofSigned ((f.txSeq : Int) - x.rxCount) 12) 12

/-- The CRC of a flit is right under its count (R98). -/
def FabPort.crcOk (x : FabPort) (f : Flit) : Bool :=
  let c := x.countOf f
  0 ≤ c && f.crc = f.crcFor c.toNat

/-- The credits that an accepted flit brings (R98). -/
def FabPort.granted (x : FabPort) (f : Flit) : FabPort :=
  let k := f.cvc % 4 * 2 + (if f.ccl then 1 else 0)
  if f.credits = 0 then x else { x with credits := tPut x.credits 0 k (x.credit k + 8 * f.credits) }

/-- A flit is taken out of its receive buffer: its credit is owed to the peer. -/
def FabPort.owes (x : FabPort) (k : Nat) : FabPort := { x with owed := tPut x.owed 0 k (tGet x.owed 0 k + 1) }

end Sys2Proof.Machine
end

