-- ==== Sys2Proof/Machine/FabricNet.lean ====
section
/-! DEFINITION. Flows (R109 to R113), link down (R120, R121), rejoining (R122), STATE floods and ID clashes (R115,
R116). -/

namespace Sys2Proof.Machine

/-! ### The flow table and the groups as registers show them (R125) -/

def Mach.branchesOf (m : Mach) (key : FlowKey) : List Branch := m.fab.branches.filter (fun b => b.key = key)

/-- The registers of one entry follow the entry. -/
def Mach.showEntry (m : Mach) (e : FlowEntry) : Mach :=
  let bs := m.branchesOf e.key
  let m := match e.group with
    | some g =>
      let ports := bs.foldl (fun a b => setBit a b.port) 0
      let labels := bs.foldl (fun a b => a ||| (b.label % 1024) <<< (10 * b.port)) 0
      m.putB F.FAB_MCAST_0_VALID true g |>.putB F.FAB_MCAST_0_LOCAL e.local_ g |>.put F.FAB_MCAST_0_PORTS ports g
        |>.put F.FAB_MCAST_LABELS_1_LABELS labels g |>.put F.FAB_MCAST_LABELS_2_LABELS (labels / 2 ^ 32) g
        |>.put F.FAB_MCAST_LABELS_3_LABELS (labels / 2 ^ 64) g
    | none => m
  if e.origin then m
  else
    let i := e.port * 1024 + e.label
    let b := bs.head?
    m.putB F.FAB_FLOW_0_VALID true i |>.putB F.FAB_FLOW_0_LOCAL e.local_ i
      |>.putB F.FAB_FLOW_0_GROUPED e.group.isSome i |>.put F.FAB_FLOW_0_VC e.vc i
      |>.put F.FAB_FLOW_0_OUT_PORT (if e.group.isSome then 0 else (b.map (·.port)).getD 0) i
      |>.put F.FAB_FLOW_0_OUT_LABEL (if e.group.isSome then 0 else (b.map (·.label)).getD 0) i
      |>.put F.FAB_FLOW_0_GROUP (e.group.getD 0) i |>.put F.FAB_FLOW_1_ORIGIN e.key.origin i
      |>.put F.FAB_FLOW_1_PART e.key.part i |>.putB F.FAB_FLOW_1_KIND e.key.span i |>.put F.FAB_FLOW_2_ID e.key.id i
      |>.put F.FAB_FLOW_3_RESV e.resv i

/-- The counts of entries, reservations and groups (FAB_PORT_FLOWS, FAB_PORT_RESV, FAB_NODE_ADMIT). -/
def Mach.showCounts (m : Mach) : Mach :=
  let m := (List.range 8).foldl (fun m p =>
    m.put F.FAB_PORT_FLOWS_USED (m.fab.entries.filter (fun e => !e.origin && e.port = p)).length p
      |>.put F.FAB_PORT_RESV_USED ((m.fab.branches.filter (fun b => b.port = p)).foldl (fun a b => a + b.resv) 0) p) m
  m.put F.FAB_NODE_ADMIT_GROUPS (m.fab.entries.filter (fun e => e.group.isSome)).length

/-- An entry replaces the one with its key. -/
def Mach.setEntry (m : Mach) (e : FlowEntry) : Mach :=
  let rest := m.fab.entries.filter (fun x => x.key ≠ e.key)
  let m := { m with fab := { m.fab with entries := rest ++ [e] } }
  (m.showEntry e).showCounts

/-- An entry and its branches are removed, and its registers read as at reset. -/
def Mach.freeEntry (m : Mach) (e : FlowEntry) : Mach :=
  let m := { m with fab := { m.fab with entries := m.fab.entries.filter (fun x => x.key ≠ e.key),
                                        branches := m.fab.branches.filter (fun b => b.key ≠ e.key) } }
  let m := match e.group with
    | some g => m.wr .FAB_MCAST_0 g 0 |>.wr .FAB_MCAST_LABELS_1 g 0 |>.wr .FAB_MCAST_LABELS_2 g 0
                  |>.wr .FAB_MCAST_LABELS_3 g 0
    | none => m
  let i := e.port * 1024 + e.label
  let m := if e.origin then m else m.wr .FAB_FLOW_0 i 0 |>.wr .FAB_FLOW_1 i 0 |>.wr .FAB_FLOW_2 i 0 |>.wr .FAB_FLOW_3 i 0
  m.showCounts

def Mach.setBranches (m : Mach) (bs : List Branch) : Mach := { m with fab := { m.fab with branches := bs } }

def Mach.freeLabel (m : Mach) (p : Nat) : Option Nat :=
  (List.range 1024).find? fun l => (m.entryAt p l).isNone

def Mach.freeGroup (m : Mach) : Option Nat :=
  (List.range 256).find? fun g => !m.fab.entries.any (fun e => e.group = some g)

/-! ### Refusals (R112) -/

def stFlowFull : Nat := 1
def stGroupFull : Nat := 2
def stNoBandwidth : Nat := 3
def stNoRoute : Nat := 4
def stPathDown : Nat := 5
def stBadValue : Nat := 6
def stOriginAbsent : Nat := 7

/-- A refusal recorded at this node: the trouble bit of its status, the count, the last status and refuser, and event
35 + 8q for the port of the branch or member. -/
def Mach.noteRefusal (m : Mach) (q status refuser : Nat) (own : Bool) : Mach :=
  let m := if own ∧ status = stFlowFull then m.trouble F.FAB_NODE_TROUBLE_FLOW_FULL 0 q
    else if own ∧ status = stGroupFull then (m.trouble F.FAB_NODE_TROUBLE_GROUP_FULL 0 q).raise 55 else m
  m.bump F.FAB_NODE_REFUSALS_COUNT |>.put F.FAB_NODE_ADMIT_LAST_STATUS status
    |>.put F.FAB_NODE_ADMIT_LAST_REFUSER refuser |>.raise (35 + 8 * q)

/-- This node refuses a JOIN that came on port q. -/
def Mach.refuseJoin (m : Mach) (q : Nat) (c : CtrlMsg) (status : Nat) : Mach :=
  (m.noteRefusal q status m.nodeId true).sendCtrl q cmdRefuse { c with status := status, refuser := m.nodeId }

/-! ### Branches (R109 to R111) -/

/-- The reservation check of R111 for one more branch on port q. -/
def Mach.resvFits (m : Mach) (q resv : Nat) : Bool :=
  m.get F.FAB_PORT_RESV_USED q + resv ≤ m.get F.FAB_PORT_RESV_LIMIT q

/-- A branch is added to an entry: its reservation must fit, and a second port branch, like any branch of an origin,
needs a multicast group (R110). The answer is the refusal's status, 0 when it was added. -/
def Mach.addBranch (m : Mach) (e : FlowEntry) (q : Nat) (c : CtrlMsg) (accepted : Bool) : Nat × Mach :=
  let others := m.fab.branches.filter (fun b => !(b.key = e.key && b.port = q))
  let used := (others.filter (fun b => b.port = q)).foldl (fun a b => a + b.resv) 0
  let needGroup := e.group.isNone && (e.origin || others.any (fun b => b.key = e.key))
  let g := if needGroup then m.freeGroup else e.group
  if m.get F.FAB_PORT_RESV_LIMIT q < used + c.resv then (stNoBandwidth, m)
  else if needGroup && g.isNone then (stGroupFull, m)
  else
    let b : Branch := { key := e.key, port := q, label := c.label, resv := c.resv, vc := c.vc, accepted := accepted }
    let m := { m with fab := { m.fab with branches := others ++ [b] } }
    (0, m.setEntry { e with group := g })

/-- What an origin answers to a JOIN for a key it is the origin of (R109, R179). -/
inductive OriginAns where
  | accept | refuse (status : Nat) | hold
  deriving DecidableEq, Repr

/-- Towards an origin (R112): the ACTIVE port, or the status that its absence gives. -/
def Mach.towards (m : Mach) (origin : Nat) : Nat ⊕ Nat :=
  match m.routePorts origin, m.route origin with
  | [], _ => .inr stNoRoute
  | _, none => .inr stPathDown
  | _, some p => .inl p

/-- The branch of a JOIN at the origin: added and accepted, or refused (R109). -/
def Mach.originAccept (m : Mach) (q : Nat) (c : CtrlMsg) : Mach :=
  let e := (m.entryOf c.key).getD { key := c.key, origin := true, port := 0, label := 0, local_ := false,
                                    group := none, vc := c.vc, resv := 0, pktSeq := 0, headVc := c.vc }
  match m.addBranch e q c true with
  | (0, m) => m.sendCtrl q cmdAccept c
  | (s, m) => m.refuseJoin q c s

/-- JOIN on port q (R109), with the origin's answer where this node is the origin. -/
def Mach.joinMsg (m : Mach) (q : Nat) (c : CtrlMsg) (ans : OriginAns) : Mach :=
  match m.entryOf c.key with
  | some e =>
    match m.addBranch e q c true with
    | (0, m) => m.sendCtrl q cmdAccept c
    | (s, m) => m.refuseJoin q c s
  | none =>
    if c.key.origin = m.nodeId ∧ m.on F.FAB_NODE_ID_VALID then
      match ans with
      | .accept => m.originAccept q c
      | .refuse s => m.refuseJoin q c s
      | .hold => { m with fab := { m.fab with heldJoins := m.fab.heldJoins ++ [(q, c)] } }
    else
      match m.towards c.key.origin with
      | .inr s => m.refuseJoin q c s
      | .inl p =>
        match m.freeLabel p with
        | none => m.refuseJoin q c stFlowFull
        | some l =>
          let e : FlowEntry := { key := c.key, origin := false, port := p, label := l, local_ := false,
                                 group := none, vc := c.vc, resv := c.resv, pktSeq := 0, headVc := c.vc }
          match m.addBranch e q c false with
          | (0, m) => m.sendCtrl p cmdJoin { c with label := l }
          | (s, m) => m.refuseJoin q c s

/-! ### Members -/

def Mach.member (m : Mach) (key : FlowKey) : Option Member := m.fab.members.find? (fun x => x.key = key)

def Mach.setMember (m : Mach) (x : Member) : Mach :=
  { m with fab := { m.fab with members := m.fab.members.filter (fun y => y.key ≠ x.key) ++ [x] } }

/-- The layers of a flow. -/
def flowFeed (key : FlowKey) (f : Feed) : Bool :=
  match f with
  | .flow k => k = key
  | .span k => k = key
  | _ => false

/-- The member's own join (R109, R112): local delivery on the entry it holds, or a new entry and a JOIN. The spec gives
no rule for the units a member reserves: they are a free value (log entry 20). A node without an ID joins no flows
(R114). A join that finds no port towards its origin raises the event of port 0: the spec names no port for it (log
entry 73). -/
def Mach.joinOwn (m : Mach) (key : FlowKey) (vc : Nat) : Mach :=
  let resv := Config.flowResv key.id (key.part + (if key.span then 16 else 0)) % 65536
  let x : Member := { key := key, resv := resv, vc := vc, accepted := false, status := 0 }
  let refuse := fun (m : Mach) (p s : Nat) => (m.noteRefusal p s m.nodeId true).setMember { x with status := s }
  if !m.on F.FAB_NODE_ID_VALID then (m.trouble F.FAB_NODE_TROUBLE_NO_ID).setMember x
  else
    match m.entryOf key with
    | some e =>
      (m.setEntry { e with local_ := true }).setMember { x with accepted := true }
    | none =>
      match m.towards key.origin with
      | .inr s => refuse m ((m.routePorts key.origin).headD 0) s
      | .inl p =>
        match m.freeLabel p with
        | none => refuse m p stFlowFull
        | some l =>
          let e : FlowEntry := { key := key, origin := false, port := p, label := l, local_ := true, group := none,
                                 vc := vc, resv := resv, pktSeq := 0, headVc := vc }
          let m := (m.setEntry e).setMember x
          m.sendCtrl p cmdJoin { key := key, vc := vc, label := l, member := m.nodeId, refuser := 0, resv := resv,
                                 status := 0 }

/-- An entry left with no branch and no local delivery is freed, with LEAVE towards the origin (R112). -/
def Mach.reapEntry (m : Mach) (key : FlowKey) : Mach :=
  match m.entryOf key with
  | some e =>
    if e.local_ || !(m.branchesOf key).isEmpty then m.showEntry e |>.showCounts
    else if e.origin then m.freeEntry e
    else
      (m.freeEntry e).sendCtrl e.port cmdLeave
        { key := key, vc := e.vc, label := e.label, member := m.nodeId, refuser := 0, resv := e.resv, status := 0 }
  | none => m

/-- A member no longer needs a flow: local delivery is cleared (R112). -/
def Mach.leaveOwn (m : Mach) (key : FlowKey) : Mach :=
  let m := { m with fab := { m.fab with members := m.fab.members.filter (fun x => x.key ≠ key) } }
  match m.entryOf key with
  | some e => (m.setEntry { e with local_ := false }).reapEntry key
  | none => m

/-- ACCEPT on port p: it travels down the branches that wait for it, each under its own label. -/
def Mach.acceptMsg (m : Mach) (p : Nat) (c : CtrlMsg) : Mach :=
  match m.entryAt p c.label with
  | some e =>
    if e.key ≠ c.key then m
    else
      let m := (m.branchesOf e.key).foldl (fun m b =>
        if b.accepted then m else m.sendCtrl b.port cmdAccept { c with label := b.label }) m
      let m := m.setBranches (m.fab.branches.map fun (b : Branch) =>
        if b.key = e.key then { b with accepted := true } else b)
      match m.member e.key with
      | some x => if e.local_ then m.setMember { x with accepted := true, status := 0 } else m
      | none => m
  | none => m

/-- REFUSE on port p: each node that it passes counts it (FAB_NODE_REFUSALS), removes the state that the join installed
and passes it on; the member records it (R112). -/
def Mach.refuseMsg (m : Mach) (p : Nat) (c : CtrlMsg) : Mach :=
  match m.entryAt p c.label with
  | some e =>
    if e.key ≠ c.key then m
    else
      let m := if e.local_ then m.noteRefusal p c.status c.refuser false else m.bump F.FAB_NODE_REFUSALS_COUNT
      let m := (m.branchesOf e.key).foldl (fun m b => m.sendCtrl b.port cmdRefuse { c with label := b.label }) m
      let m := m.freeEntry e
      match m.member e.key with
      | some x => m.setMember { x with accepted := false, status := c.status }
      | none => m
  | none => m

/-- LEAVE on port q: the branch to q is removed. An entry that falls back to one port branch keeps its multicast group: the
spec is silent on giving it up (log entry 74). -/
def Mach.leaveMsg (m : Mach) (q : Nat) (c : CtrlMsg) : Mach :=
  match m.entryOf c.key with
  | some e =>
    let m := m.setBranches (m.fab.branches.filter (fun b => !(b.key = c.key && b.port = q)))
    (m.showEntry e).reapEntry c.key
  | none => m

/-- The flow of an entry is cut upstream (R121, R122): FLOW_DOWN on every branch, the entry removed, event 36 + 8p; a
member's layers take the stop cause LINK DOWN and it joins again at once. -/
def Mach.cutEntry (m : Mach) (e : FlowEntry) : Mach :=
  let c : CtrlMsg := { key := e.key, vc := e.vc, label := 0, member := m.nodeId, refuser := 0, resv := e.resv,
                       status := 0 }
  let m := (m.branchesOf e.key).foldl (fun m b => m.sendCtrl b.port cmdFlowDown { c with label := b.label }) m
  let m := (m.freeEntry e).raise (36 + 8 * e.port)
  if e.local_ then (m.stopFeeds (flowFeed e.key) reasonLinkDown).joinOwn e.key e.vc else m

/-- FLOW_DOWN on port p. -/
def Mach.flowDownMsg (m : Mach) (p : Nat) (c : CtrlMsg) : Mach :=
  match m.entryAt p c.label with
  | some e => if e.key = c.key then m.cutEntry e else m
  | none => m

/-- REJOIN (R112, R122): an entry not accepted, or refused with PATH_DOWN or ORIGIN_ABSENT, is joined again. -/
def Mach.rejoin (m : Mach) (key : FlowKey) : Mach :=
  match m.member key with
  | some x =>
    if x.accepted then m
    else if x.status = 0 ∨ x.status = stPathDown ∨ x.status = stOriginAbsent then
      match m.entryOf key with
      | some e =>
        m.sendCtrl e.port cmdJoin { key := key, vc := e.vc, label := e.label, member := m.nodeId, refuser := 0,
                                    resv := e.resv, status := 0 }
      | none => m.joinOwn key x.vc
    else m
  | none => m

/-- The mode that FAB_PEER_MODE shows of a node. -/
def Mach.peerMode (m : Mach) (node : Nat) : Nat := bits (m.rd .FAB_PEER_MODE (node / 8)).toNat (4 * (node % 8)) 4

/-- FLOW_SILENT (R122, R196): an accepted flow delivers no more, with no FLOW_DOWN. Its layers take SHED when the origin
reports SHED or ESSENTIAL, and otherwise NO SIGNAL; for a span, R50 makes bands that stop arriving LINK DOWN (log
entry 75). -/
def Mach.flowSilent (m : Mach) (key : FlowKey) : Mach :=
  let mode := m.peerMode key.origin
  match m.member key, m.entryOf key with
  | some x, some e =>
    if x.accepted && e.local_ then
      m.stopFeeds (flowFeed key)
        (if mode = 6 ∨ mode = 7 then reasonShed else if key.span then reasonLinkDown else reasonNoSignal)
    else m
  | _, _ => m

/-! ### CONFIG on a link (R96, R114) -/

/-- A link is gone (R121): a packet cut short is dropped whole and counted, the entries of its flows are cut, its branches
removed. -/
def Mach.portFell (m : Mach) (p st : Nat) : Mach :=
  let m := ((m.fabPort p).assembly).foldl (fun m _ => m.fabDrop p) m
  let m := m.portToDown p st
  let m := (m.fab.entries.filter fun e => !e.origin && e.port = p).foldl (fun m e => m.cutEntry e) m
  let gone := m.fab.branches.filter (fun b => b.port = p)
  let m := m.setBranches (m.fab.branches.filter (fun b => b.port ≠ p))
  gone.foldl (fun m b => m.reapEntry b.key) m

/-- The port becomes ACTIVE: link counts start again at 0 on both ends of a new link, and the receiver grants its credits
anew; the spec states neither how many credits it grants nor where the counts start (log entry 19). -/
def Mach.portActivate (m : Mach) (p : Nat) : Mach :=
  let x := m.fabPort p
  let m := m.setFabPort p { x with backoff := 0, credits := (List.range 8).map fun i => (i, Config.fabCredits i % 512) }
  (m.put F.FAB_PORT_STATUS_STATE portActiveSt p).raise (32 + 8 * p)

/-- CONFIG (R96): the peer's values are copied; a port in CONFIG becomes ACTIVE. A mismatch leaves the port DISABLED, and
an ACTIVE port's link is gone with it. -/
def Mach.config (m : Mach) (p : Nat) (c : ConfigBody) : Mach :=
  let st := m.portState p
  if st ≠ portConfig ∧ st ≠ portActiveSt then m
  else
    let changed := m.get F.FAB_PORT_STATUS_PEER_MODE p ≠ c.mode ∨ m.get F.FAB_PORT_STATUS_PEER_NODE p ≠ c.node
      ∨ m.on F.FAB_PORT_STATUS_PEER_ID_VALID p ≠ c.idValid
    let m := m.put F.FAB_PORT_STATUS_PEER_PORT c.port p |>.putB F.FAB_PORT_STATUS_PEER_ID_VALID c.idValid p
      |>.put F.FAB_PORT_STATUS_PEER_NODE c.node p |>.put F.FAB_PORT_STATUS_PEER_MODE c.mode p
    let m := if changed then m.raise (38 + 8 * p) else m
    if m.topoMismatch p c then (m.portFell p portDisabled).trouble F.FAB_PORT_TROUBLE_TOPO_MISMATCH p
    else (if st = portConfig then m.portActivate p else m).walkId

/-! ### Link down (R120, R121) -/

/-- A link is declared down: LINK_DOWN beside the cause bit, event 33 + 8p, and what R121 lays down. -/
def Mach.linkDown (m : Mach) (p st : Nat) (cause : Option Field) : Mach :=
  let m := match cause with
    | some f => m.trouble f p
    | none => m
  ((m.trouble F.FAB_PORT_TROUBLE_LINK_DOWN p).raise (33 + 8 * p)).portFell p st

/-- Every port goes down on the way into SLEEP (R394). -/
def Mach.portsFall (m : Mach) : Mach := (List.range 8).foldl (fun m p => m.portFell p portDown) m

/-- A port that carries flits: a CONFIG is exchanged before it is ACTIVE (R95, R96). -/
def Mach.portUp (m : Mach) (p : Nat) : Bool := m.portState p = portConfig || m.portState p = portActiveSt

/-- IDLE_LIMIT (R120). -/
def Mach.idleLimit (m : Mach) (p : Nat) : Mach :=
  if m.portActive p then m.linkDown p portDown (some F.FAB_PORT_TROUBLE_IDLE_LIMIT) else m

/-- A write of 0 to EN (R120), in whatever state the port trains or carries a link: the link is declared down and the port
is DISABLED. -/
def Mach.portDisable (m : Mach) (p : Nat) : Mach :=
  if m.on F.FAB_PORT_CTL_EN p then (m.putB F.FAB_PORT_CTL_EN false p).linkDown p portDisabled none else m

/-- A write of EN = 1 (R95): a DISABLED port goes DOWN, from where it trains. -/
def Mach.portEnable (m : Mach) (p : Nat) : Mach :=
  let m := m.putB F.FAB_PORT_CTL_EN true p
  if m.portState p = portDisabled then m.put F.FAB_PORT_STATUS_STATE portDown p else m

/-- A write of 1 to RETRAIN (R95, R123): DOWN, then TRAIN, and event 34 + 8p. -/
def Mach.retrain (m : Mach) (p : Nat) : Mach :=
  let m := m.raise (34 + 8 * p)
  if m.portActive p then
    (m.linkDown p portDown none).put F.FAB_PORT_STATUS_STATE portTrainSt p
  else m

/-- NAK (R100, R102): everything after ACK_SEQ is sent again, in order; REPLAY_LIMIT in a row without a newly
acknowledged flit bring the link down. -/
def Mach.nakMsg (m : Mach) (p ackSeq : Nat) : Mach :=
  if !m.portActive p then m
  else
    let (n, x) := (m.fabPort p).ack ackSeq
    let naks := if 0 < n then 0 else x.naksInRow + 1
    let m := m.setFabPort p { x with resend := x.replay, naksInRow := naks }
    if 0 < naks && m.get F.FAB_PORT_LIMITS_REPLAY_LIMIT p ≤ naks then m.linkDown p portDown (some F.FAB_PORT_TROUBLE_REPLAY_LIMIT)
    else m

/-- RESV_CHECK (R113): over 100 µs, a VIDEO flow that had flits waiting at every slot sent less than it reserves. Rung 3
when contacts took slots, rung 2 otherwise, is kept over rung 6. -/
def Mach.resvCheck (m : Mach) (p : Nat) : Mach :=
  let x := m.fabPort p
  let short := m.fab.branches.any fun b => b.port = p && b.vc = 2 && 0 < b.resv && !x.gaps.contains b.label
    && (x.txq.any fun t => t.vc = 2 && t.flowLabel = some b.label) && tGet x.sent 0 b.label < resvFlits b.resv
  let kept := if x.contacts then 3 else 2
  let m := m.setFabPort p { x with sent := [], gaps := [], contacts := false }
  if short then
    let m := (m.troubleNoEntry F.FAB_NODE_TROUBLE_RESV_BROKEN).raise 63
    m.ladder kept 6 .fab
  else m

/-! ### STATE (R115, R116) -/

def StateMsg.words (c : StateMsg) : List Nat :=
  [(c.origin % 4096) <<< 52 ||| (c.mode % 16) <<< 48 ||| (c.seq % 65536) <<< 32, c.serial]

def StateMsg.ofWords (ws : List Nat) : StateMsg :=
  let w0 := ws.getD 0 0
  { origin := bits w0 52 12, mode := bits w0 48 4, seq := bits w0 32 16, serial := ws.getD 1 0 }

/-- STATE on every ACTIVE port but one; not to a peer in QUARANTINE, which would have to pass it on (R117). -/
def Mach.sendState (m : Mach) (except : Option Nat) (c : StateMsg) : Mach :=
  (List.range 8).foldl (fun m p =>
    if m.portActive p && !m.peerOut p && except ≠ some p then
      m.enqueue p (.flit { flit0 with type := 3, vc := 1, bodyLen := 16, body := c.words })
    else m) m

/-- A node with a valid ID floods its own STATE (R116). -/
def Mach.stateFlood (m : Mach) : Mach :=
  if !m.on F.FAB_NODE_ID_VALID then m
  else
    let seq := (m.fab.ownSeq + 1) % 65536
    let m := { m with fab := { m.fab with ownSeq := seq, peerSeq := tIns m.fab.peerSeq m.nodeId seq } }
    m.sendState none { origin := m.nodeId, mode := m.get F.SYS_MODE_MODE, seq := seq, serial := m.cfg.serial }

/-- FAB_PEER_MODE of an origin. -/
def Mach.setPeerMode (m : Mach) (node mode : Nat) : Mach :=
  m.wr .FAB_PEER_MODE (node / 8)
    (BitVec.ofNat 64 (setBits (m.rd .FAB_PEER_MODE (node / 8)).toNat (4 * (node % 8)) 4 mode))

/-- An ID clash (R115): a STATE flit with this node's own ID and another serial; and whether this node yields. -/
def Mach.clash (m : Mach) (c : StateMsg) : Bool × Mach :=
  if c.origin = m.nodeId ∧ m.on F.FAB_NODE_ID_VALID ∧ c.serial ≠ m.cfg.serial then
    let settled := fun (x : Nat) => x = 5 || x = 6 || x = 7 || x = 8
    ((settled c.mode && !settled (m.get F.SYS_MODE_MODE)) || (c.mode = 4 && m.mode = .join && c.serial < m.cfg.serial),
      (m.trouble F.FAB_NODE_TROUBLE_ID_CLASH).raise 47)
  else (false, m)

/-- A STATE flit (R116): passed on and recorded when its SEQ is newer, also when it brings an ID clash (R115); and whether
the node yields to one. The first STATE of an origin of which no SEQ is stored is newer (log entry 76). -/
def Mach.stateMsg (m : Mach) (p : Nat) (c : StateMsg) : Bool × Mach :=
  let (yields, m) := m.clash c
  let newer : Bool := match tFind m.fab.peerSeq c.origin with
    | some s => decide <| 0 < toSigned (ofSigned ((c.seq : Int) - s) 16) 16
    | none => true
  if newer then
    let m := { m with fab := { m.fab with peerSeq := tIns m.fab.peerSeq c.origin c.seq } }
    let m := if m.mode = .quarantine then m else m.sendState (some p) c
    (yields, m.setPeerMode c.origin c.mode)
  else (yields, m)

/-- PEER_UNKNOWN (R116): 3 s without a STATE of the origin. Its stored SEQ is forgotten, so that its next STATE is newer
(log entry 76). -/
def Mach.peerUnknown (m : Mach) (origin : Nat) : Mach :=
  let m := { m with fab := { m.fab with peerSeq := tDel m.fab.peerSeq origin } }
  m.setPeerMode origin 15

/-! ### Sending packets on a flow (R99, R118) -/

/-- The node originates the flow's packets: in SERVICE no stream and no span (R396); in ESSENTIAL no VIDEO flow but
those of ESS 2 streams and the spans decoded from them (R388). -/
def Mach.originates (m : Mach) (key : FlowKey) (vc : Nat) : Bool :=
  let ess2 := m.cfg.streams.any fun e => b1 e 6 = 2 &&
    (if key.span then m.cfg.spans.any (fun x => le4 x 0 = key.id && le4 x 4 = le4 e 0) else le4 e 0 = key.id)
  m.mode ≠ .service && (m.mode ≠ .essential || vc ≠ 2 || ess2)

/-- A packet of `head` and `len` bytes of data in 64-bit words goes to every branch of a flow this node originates. -/
def Mach.sendFlow (m : Mach) (key : FlowKey) (headType vc : Nat) (head data : List Nat) (len : Nat) : Mach :=
  match if m.originates key vc then m.entryOf key else none with
  | none => m
  | some e =>
    let seq := e.pktSeq
    let m := m.setEntry { e with pktSeq := (seq + 1) % 256 }
    ((m.branchesOf key).filter fun b => !m.peerOut b.port).foldl (fun m b =>
      let f := { flit0 with type := headType, vc := vc, label := b.label, pktSeq := seq, bodyLen := 48, body := head,
                            fi := true, la := len = 0 }
      let m := m.enqueue b.port (.flit f)
      if len = 0 then m
      else (packetFlits { f with type := headType + 1, fi := false } data len).foldl
        (fun m g => m.enqueue b.port (.flit { g with fi := false })) m) m

/-! ### The link layer (R100, R101) -/

/-- What the trailer of a flit with a good CRC acknowledges: a NAK has the rest sent again. -/
def Mach.takeAck (m : Mach) (p : Nat) (f : Flit) : Mach :=
  if f.nak then m.nakMsg p f.ackSeq
  else
    let (n, x) := (m.fabPort p).ack f.ackSeq
    m.setFabPort p (if 0 < n then { x with naksInRow := 0 } else x)

/-- What the link layer does with an arriving non-time flit (R100): accepted or not, and the machine after it. A flit
under a count that has already been accepted is no gap: it only acknowledges (log entry 15). -/
def Mach.linkAccept (m : Mach) (p : Nat) (f : Flit) : Bool × Mach :=
  let x := m.fabPort p
  let ok := x.crcOk f
  let m := m.chkUnit p ok
  let c := x.countOf f
  if ok && c = x.rxCount then
    let y := x.granted f
    let y := { y with rxCount := x.rxCount + 1, nakSent := false }
    let m := (m.setFabPort p (if f.type = 0 then y else y.owes f.creditKey)).count (33 + 8 * p)
    (true, m.takeAck p f)
  else if ok && c < x.rxCount then (false, m.takeAck p f)
  else
    let m := if ok then m else m.count (34 + 8 * p)
    (false, if x.nakSent then m else (m.setFabPort p { x with nakSent := true, nakDue := true }).count (35 + 8 * p))

/-- TIME_FLIT_RECEIVE (R74, R101): a time flit with a bad CRC, or damaged on the way, is dropped and counted, with no
NAK. In QUARANTINE the contents of a good one are discarded (R117). -/
def Mach.timeFlitReceive (m : Mach) (p : Nat) (f : Flit) (crcGood : Bool) : Mach :=
  let x := m.fabPort p
  if !m.portActive p || f.type ≠ 1 then m
  else if !(crcGood && x.crcOk f) then ((m.count (34 + 8 * p)).chkUnit p false).fabDrop p
  else
    let m := (((m.setFabPort p (x.owes f.creditKey)).count (33 + 8 * p)).chkUnit p true).takeAck p f
    if !m.portActive p || m.mode = .quarantine then m
    else if m.isMalformed p f then m.malformed p
    else m.timeFlitTaken p (TimeFlit.ofWords f.body)

end Sys2Proof.Machine
end

