-- ==== Sys2Proof/Machine/Decoder.lean ====
section
/-! DEFINITION. Video decoding, first part: decode contexts, their causes and admission (R151 to R155, R174), access units
and parameter sets (R156, R165, R169), and the scheduling of the engines (R157, R158). -/

namespace Sys2Proof.Machine

def decCtx0 : DecCtx :=
  { fromEth := none, flow := none, aus := [], cur := none, waiting := [], pics := [], picSeq := 0, bucket := none,
    measure := (0, 0, 0), rowsSent := 0, skippedPic := none, usedBytes := 0, memKib := 0,
    startCra := false, rasl := false, seqs := [], psets := [], refs := [], spoilt := false, spoiltNum := none,
    degraded := false }

def Mach.decCtx (m : Mach) (n : Nat) : DecCtx := tGet m.dec.ctxs decCtx0 n

def Mach.setDecCtx (m : Mach) (n : Nat) (c : DecCtx) : Mach :=
  { m with dec := { m.dec with ctxs := tPut m.dec.ctxs decCtx0 n c } }

/-- Context states (R155). -/
def decFree : Nat := 0
def decWaitKey : Nat := 1
def decRunning : Nat := 2
def decReset : Nat := 3
def decShed : Nat := 4

def Mach.decState (m : Mach) (n : Nat) : Nat := m.get F.DEC_CTX_STATUS_STATE n

/-- The context of a stream on this node. -/
def Mach.ctxOfStream (m : Mach) (id : Nat) : Option Nat :=
  (List.range 64).find? fun n => m.decState n ≠ decFree && m.get F.DEC_CTX_STREAM_ID n = id

/-! ### Causes (R174) -/

/-- A cause bit of context n sets: event 144 + n while its mask bit is 1. -/
def Mach.decCause (m : Mach) (n : Nat) (f : Field) : Mach :=
  let m := m.putB f true n
  if (m.rd .DEC_CTX_MASK n).toNat.testBit f.lo then m.raise (144 + n) else m

def Mach.decNodeCause (m : Mach) (f : Field) : Mach :=
  let m := m.putB f true
  if (m.rd .DEC_NODE_MASK 0).toNat.testBit f.lo then m.raise 144 else m

/-- A bit of DEC_TROUBLE sets; its rise sets the node cause TROUBLE (`Mach.decTroubled`). -/
def Mach.decTrouble (m : Mach) (f : Field) (i : Nat) : Mach := m.trouble f 0 i

/-- A unit, parameter set or slice of context n is dropped (R156, R169): LAST_FAULT takes the code, none being 0. -/
def Mach.decDrop (m : Mach) (n code : Nat) (k : Nat := 1) : Mach :=
  let m := m.bump F.DEC_CTX_DROPPED_COUNT n k
  if code = 0 then m else m.put F.DEC_CTX_STATUS_LAST_FAULT code n

def Mach.setDecState (m : Mach) (n st : Nat) : Mach :=
  if m.decState n = st then m else (m.put F.DEC_CTX_STATUS_STATE st n).decCause n F.DEC_CTX_CAUSE_STATE

/-- The unit at the head is being decoded: an engine has taken a slice of it. -/
def DecCtx.busy (c : DecCtx) : Bool :=
  match c.cur with
  | some d => 0 < d.taken
  | none => false

/-- Units that wait: all but the one whose picture is being decoded (R159). -/
def DecCtx.waits (c : DecCtx) : List Au := if c.busy then c.aus.drop 1 else c.aus

def Mach.decH264 (m : Mach) (n : Nat) : Bool := m.get F.DEC_CTX_CFG_CODEC n = 1

/-- QUEUED and CONTEXTS follow the hidden state. -/
def Mach.showQueue (m : Mach) (n : Nat) : Mach :=
  m.put F.DEC_CTX_STATUS_QUEUED (min 255 ((m.decCtx n).waits.filter (·.closed)).length) n

def Mach.showContexts (m : Mach) : Mach :=
  m.put F.DEC_ADMIT_LAST_CONTEXTS ((List.range 64).filter (fun n => m.decState n ≠ decFree)).length

/-! ### Admission (R152 to R154) -/

/-- Bytes of a luma line in a format (R160), and the stride (R161). -/
def lineBytes (fmt w : Nat) : Nat := if fmt < 2 then w else ceilDiv w 3 * 4
def stride64 (b : Nat) : Nat := ceilDiv b 64 * 64

/-- Bytes of a picture slot (R161, R162): 4 KiB aligned, both planes. -/
def slotBytes (fmt w h : Nat) : Nat :=
  let h16 := ceilDiv h 16 * 16
  let lines := if fmt % 2 = 0 then h16 + h16 / 2 else 2 * h16
  ceilDiv (stride64 (lineBytes fmt w) * lines) 4096 * 4096

/-- The declared rate of R153, in Mpixel/s. -/
def declaredRate (w h fps : Nat) : Nat := ceilDiv (w * h * fps) 1000000

/-- The declared values lie in R151 and the format fits the codec (R160). -/
def decodeSupported (e : List Nat) : Bool :=
  let codec := b1 e 8
  let fmt := b1 e 9
  let w := le2 e 12
  let h := le2 e 14
  codec ≤ 1 && fmt ≤ 3 && (codec = 0 || fmt % 2 = 0) && 1 ≤ b1 e 10 && b1 e 10 ≤ 16 && 0 < w && w ≤ 4096 && 0 < h
    && h ≤ 2304 && w * h ≤ 8912896 && 1 ≤ le2 e 16 && le2 e 16 ≤ 240

/-- The shedding stage at which a context of an essential level is shed (R173, R196). -/
def shedAt (ess : Nat) : Nat := if ess = 0 then 2 else if ess = 1 then 4 else 5

def Mach.shedsEss (m : Mach) (ess : Nat) : Bool := shedAt ess ≤ m.stage

def stContextFull : Nat := 1
def stNoThroughput : Nat := 2
def stNoMemory : Nat := 3
def stUnsupported : Nat := 4
def stShed : Nat := 5

/-- KiB that the contexts hold of the pool region, and those of slots still on lease after a release (R154). -/
def Mach.decPoolUsed (m : Mach) : Nat := m.dec.ctxs.foldl (fun a e => a + e.2.memKib) m.dec.lent

/-- KiB of a context's slot. -/
def Mach.slotKib (m : Mach) (n : Nat) : Nat :=
  slotBytes (m.get F.DEC_CTX_CFG_FMT n) (m.get F.DEC_CTX_LIMITS_MAX_W n) (m.get F.DEC_CTX_LIMITS_MAX_H n) / 1024

/-- A refused request (R153). -/
def Mach.decRefuse (m : Mach) (id status : Nat) : Mach :=
  (m.put F.DEC_ADMIT_LAST_STATUS status |>.put F.DEC_ADMIT_LAST_ID_ID id |>.bump F.DEC_REFUSALS_COUNT).count 182
    |>.decTrouble F.DEC_TROUBLE_ADMIT_REFUSED id |>.decNodeCause F.DEC_NODE_CAUSE_REFUSED

/-- The counters of a context restart at 0 at its admission (R176), and nothing is known of a newest picture. -/
def Mach.restartCounters (m : Mach) (n : Nat) : Mach :=
  m.put F.DEC_CTX_PICS_DECODED 0 n |>.put F.DEC_CTX_CONCEALED_COUNT 0 n |>.put F.DEC_CTX_FAULTS_COUNT 0 n
    |>.put F.DEC_CTX_SKIPPED_COUNT 0 n |>.put F.DEC_CTX_DROPPED_COUNT 0 n |>.put F.DEC_CTX_LAST_POC_POC 0 n
    |>.put F.DEC_CTX_STATUS_CONSEC_FAULTS 0 n |>.putB F.DEC_CTX_STATUS_CONCEALING false n

/-- Ticks of a second. -/
def secondTicks : Nat := msTicks 1000

/-- The request for a decode context of a stream (R152, R153): status 0 and the context, or the status of the first
check that fails. -/
def Mach.decRequest (m : Mach) (id : Nat) (fromEth : Option Nat) (flow : Option FlowKey) : Nat × Mach :=
  match m.decodeEntry id with
  | none => (stUnsupported, m.decRefuse id stUnsupported)
  | some e =>
    let rate := declaredRate (le2 e 12) (le2 e 14) (le2 e 16)
    let kib := ((b1 e 10 + 3) * slotBytes (b1 e 9) (le2 e 12) (le2 e 14)) / 1024 + le2 e 18
    let free := (List.range 64).find? fun n => m.decState n = decFree
    let status :=
      if !decodeSupported e then stUnsupported
      else if m.shedsEss (b1 e 6) then stShed
      else if free.isNone then stContextFull
      else if m.get F.DEC_ADMIT_LIMIT < m.get F.DEC_ADMIT_USED + rate then stNoThroughput
      else if m.get F.DEC_POOL_SIZE_SIZE / 1024 < m.decPoolUsed + kib then stNoMemory
      else 0
    match status, free with
    | 0, some n =>
      let m := m.put F.DEC_ADMIT_USED (m.get F.DEC_ADMIT_USED + rate) |>.count 181
      let m := m.putB F.DEC_CTX_CFG_VALID true n |>.put F.DEC_CTX_CFG_CODEC (b1 e 8) n
        |>.put F.DEC_CTX_CFG_ESS (b1 e 6) n |>.put F.DEC_CTX_CFG_FMT (b1 e 9) n
        |>.put F.DEC_CTX_CFG_MAX_DPB (b1 e 10) n |>.put F.DEC_CTX_CFG_START_ANY (b1 e 11) n
        |>.put F.DEC_CTX_LIMITS_MAX_W (le2 e 12) n |>.put F.DEC_CTX_LIMITS_MAX_H (le2 e 14) n
        |>.put F.DEC_CTX_RATE_DECLARED rate n |>.put F.DEC_CTX_WORK_WORK_X (b1 e 20) n
        |>.put F.DEC_CTX_WORK_FAULT_LIMIT (b1 e 21) n |>.put F.DEC_CTX_WORK_BACKLOG (b1 e 22) n
        |>.put F.DEC_CTX_WORK_TARGET (le2 e 24) n |>.put F.DEC_CTX_STREAM_ID id n
        |>.put F.DEC_CTX_BS_BS_KIB (le2 e 18) n |>.wr .DEC_CTX_MASK n (Reg.por .DEC_CTX_MASK n)
      let m := m.setDecCtx n { decCtx0 with fromEth := fromEth, flow := flow, memKib := kib, measure := (m.raw / secondTicks, 0, 0) }
      (0, ((m.restartCounters n).setDecState n decWaitKey).showContexts)
    | s, _ => (s, m.decRefuse id s)

/-- The reason a layer shows for a refused request (R153). -/
def refusedReason (status : Nat) : Nat := if status = stShed then reasonShed else reasonNotAdmitted

/-- The engines that hold slices of context n finish them for nobody: their slices' results go nowhere. -/
def orphan : Nat := 64

def Mach.orphanEngines (m : Mach) (n : Nat) : Mach :=
  { m with dec := { m.dec with engines := m.dec.engines.map fun e => if e.2 = n then (e.1, orphan) else e } }

/-- CONTEXT_RELEASE (R154): engines stop at the end of their slices, and slots, buffer and rate are free. A slot that the
frame in composition still has on lease returns with that frame's end. -/
def Mach.decRelease (m : Mach) (n : Nat) : Mach :=
  if m.decState n = decFree then m
  else
    let rate := m.get F.DEC_CTX_RATE_DECLARED n
    let lent := if m.cmp.composing then (m.decCtx n).pics.length * m.slotKib n else 0
    let m := { m with dec := { m.dec with lent := m.dec.lent + lent } }
    let m := (m.put F.DEC_ADMIT_USED (m.get F.DEC_ADMIT_USED - rate) |>.setDecCtx n decCtx0
      |>.setDecState n decFree).orphanEngines n
    let m := m.putB F.DEC_CTX_CFG_VALID false n |>.put F.DEC_CTX_RATE_DECLARED 0 n |>.put F.DEC_CTX_STREAM_ID 0 n
    (m.showQueue n).showContexts

/-- MEASURED (R176): luma Mpixel decoded in the last whole second of the raw counter. -/
def Mach.measuredDec (m : Mach) (n : Nat) : Nat :=
  let (sec, now, before) := (m.decCtx n).measure
  let cur := m.raw / secondTicks
  min 65535 ((if cur = sec then before else if cur = sec + 1 then now else 0) / 1000000)

/-- Luma samples of a slice count in the second in which it is done. -/
def Mach.measureDec (m : Mach) (n samples : Nat) : Mach :=
  let c := m.decCtx n
  let (sec, now, before) := c.measure
  let cur := m.raw / secondTicks
  m.setDecCtx n { c with measure := if cur = sec then (sec, now + samples, before)
                                    else (cur, samples, if cur = sec + 1 then now else 0) }

/-! ### Access units (R156, R159, R165) -/

/-- The slices of a unit: its NAL units that hold slice data, each with its time. -/
def Au.slices (h264 : Bool) (a : Au) : List (List Nat × Nat) := (a.nals.zip a.times).filter fun x => sliceNal h264 x.1

/-- The unit is one that no later picture uses as a reference (R159): a HEVC sub-layer non-reference picture, or an
H.264 picture with nal_ref_idc = 0. -/
def Au.nonRef (h264 : Bool) (a : Au) : Bool :=
  let s := a.nals.filter (sliceNal h264)
  !s.isEmpty && s.all fun nal =>
    if h264 then nal.headD 0 / 32 % 4 = 0 else nalType false nal < 16 && nalType false nal % 2 = 0

/-- The unit holds a HEVC NAL unit with a type from a to b. -/
def Au.hasNal (u : Au) (a b : Nat) : Bool := u.nals.any fun n => decide (a ≤ nalType false n) && decide (nalType false n ≤ b)

/-- A H.264 slice of an I picture. -/
def intraSlice (nal : List Nat) : Bool :=
  let ty := (ueMany 2 (nalBits true (nal.take 32))).1.getD 1 0
  nalType true nal = 1 && (ty = 2 || ty = 7)

/-- A start point (R165): an IDR, CRA or BLA picture; in H.264 an IDR, or an I picture with a recovery point SEI whose
recovery_frame_cnt is 0. -/
def Au.startPoint (h264 : Bool) (a : Au) : Bool :=
  if h264 then
    let s := a.nals.filter (sliceNal true)
    a.nals.any (fun n => nalType true n = 5) || (!s.isEmpty && s.all intraSlice && a.nals.any recoverySei)
  else a.hasNal 16 21

/-- A RASL picture (R165). -/
def Au.isRasl (h264 : Bool) (a : Au) : Bool := !h264 && a.hasNal 8 9

/-- The unit at the head leaves the buffer. RASL pictures are discarded after the CRA or BLA picture of a start, and after
any other BLA picture, until the next IRAP picture (R165). -/
def DecCtx.dropUnit (c : DecCtx) (h264 : Bool) : DecCtx :=
  match c.aus with
  | [] => { c with cur := none, rowsSent := 0 }
  | a :: rest =>
    let rasl : Bool := if h264 then false else if a.hasNal 16 21 then c.startCra || a.hasNal 16 18 else c.rasl
    { c with aus := rest, usedBytes := c.usedBytes - a.bytes, cur := none, rowsSent := 0, rasl := rasl, startCra := false }

/-- A waiting unit is discarded and counted as SKIPPED. -/
def Mach.skipUnit (m : Mach) (n : Nat) (a : Au) (cause : Option Field) : Mach :=
  let c := m.decCtx n
  let cur := if c.aus.head? = some a then none else c.cur
  let m := m.setDecCtx n { c with aus := c.aus.erase a, usedBytes := c.usedBytes - a.bytes, cur := cur }
  let m := (m.bump F.DEC_CTX_SKIPPED_COUNT n).count 180
  match cause with
  | some f => m.decCause n f
  | none => m

/-- BACKLOG_DISCARD (R159): while more than BACKLOG complete units wait undecoded, the oldest that no later picture
references goes. The unit being decoded does not wait. -/
def Mach.backlog (m : Mach) (n : Nat) : Nat → Mach
  | 0 => m
  | k + 1 =>
    let wait := (m.decCtx n).waits
    if (wait.filter (·.closed)).length ≤ m.get F.DEC_CTX_WORK_BACKLOG n then m
    else
      match wait.find? (fun a => a.closed && a.nonRef (m.decH264 n)) with
      | none => m
      | some a => (m.skipUnit n a (some F.DEC_CTX_CAUSE_SKIPPED)).backlog n k

/-- START_POINT (R165): units before a start point are discarded in WAIT_KEY; the start point starts the context. -/
def Mach.startPoint (m : Mach) (n : Nat) : Nat → Mach
  | 0 => m
  | k + 1 =>
    let c := m.decCtx n
    if m.decState n ≠ decWaitKey then m
    else
      match c.aus with
      | [] => m
      | a :: _ =>
        let h264 := m.decH264 n
        if m.on F.DEC_CTX_CFG_START_ANY n || a.key || a.startPoint h264 then
          (m.setDecCtx n { c with startCra := !h264 && a.hasNal 16 21 && !a.hasNal 19 20, rasl := false }).setDecState n
            decRunning
        else if !a.closed then m
        else (m.skipUnit n a (some F.DEC_CTX_CAUSE_NEED_KEY)).startPoint n k

/-- RASL pictures after a start at a CRA or BLA picture are discarded and counted (R165), each when its unit is closed;
until then no engine takes its slices. -/
def Mach.raslDrop (m : Mach) (n : Nat) : Nat → Mach
  | 0 => m
  | k + 1 =>
    let c := m.decCtx n
    match c.aus with
    | [] => m
    | a :: _ =>
      if m.decState n = decRunning && c.rasl && a.isRasl (m.decH264 n) && a.closed then
        (m.skipUnit n a none).raslDrop n k
      else m

/-! ### Parameter sets and slice headers (R157, R162, R169) -/

/-- A parameter set is taken, or dropped as PS_BAD; a held set with the same number then stays in force. -/
def Mach.takeSet (m : Mach) (n : Nat) (nal : List Nat) : Mach :=
  let h264 := m.decH264 n
  let c := m.decCtx n
  if nalType h264 nal = (if h264 then 7 else 33) then
    let s := seqSetOf h264 nal
    if s.supported h264 && s.fits (m.get F.DEC_CTX_LIMITS_MAX_W n) (m.get F.DEC_CTX_LIMITS_MAX_H n)
        (m.get F.DEC_CTX_CFG_MAX_DPB n) (m.get F.DEC_CTX_CFG_FMT n) then
      m.setDecCtx n { c with seqs := s :: c.seqs.filter (fun x => x.id ≠ s.id) }
    else m.decDrop n 1
  else
    let s := picSetOf h264 nal
    if s.id < (if h264 then 256 else 64) && s.seq < (if h264 then 32 else 16) then
      m.setDecCtx n { c with psets := s :: c.psets.filter (fun x => x.id ≠ s.id) }
    else m.decDrop n 1

/-- A NAL unit with a sequence or picture parameter set. -/
def setNal (h264 : Bool) (nal : List Nat) : Bool :=
  if h264 then nalType true nal = 7 || nalType true nal = 8 else nalType false nal = 33 || nalType false nal = 34

/-- The parameter sets of the unit at the head are taken in their order. -/
def Mach.takeSets (m : Mach) (n : Nat) : Mach :=
  let c := m.decCtx n
  match c.aus with
  | [] => m
  | a :: rest =>
    let h264 := m.decH264 n
    let kept := (a.nals.zip a.times).filter fun x => !setNal h264 x.1
    let m := m.setDecCtx n { c with aus := { a with nals := kept.map (·.1), times := kept.map (·.2) } :: rest }
    (a.nals.filter (setNal h264)).foldl (fun m nal => m.takeSet n nal) m

/-- The lowest free slot of a context (R162; log entry 81): no picture held for reference, waiting or leased lies in it. -/
def DecCtx.freeSlot (c : DecCtx) : Nat :=
  let used := c.refs.map (·.slot) ++ c.waiting.map (·.2.form.slot) ++ c.pics.map (·.form.slot)
  ((List.range 32).find? fun s => !used.contains s).getD 0

/-- The picture of the unit at the head. -/
def Mach.newDecPic (m : Mach) (n : Nat) (a : Au) : DecPic :=
  { pic := { id := 0, wit := a.wit, lines := 0, rows := [], width := 0, height := 0, cropX := 0, cropY := 0,
             fmt := m.get F.DEC_CTX_CFG_FMT n, last := false, concealed := false, clean := false, arrived := a.raw,
             usedBy := none, form := { slot := (m.decCtx n).freeSlot } } }

/-- A picture takes the geometry of its sequence set: the cropped rectangle and the coded height (R161). -/
def DecPic.withSet (d : DecPic) (s : SeqSet) : DecPic :=
  { d with set := some s, pic := { d.pic with
      width := s.cropW, height := s.cropH, cropX := s.cropX, cropY := s.cropY,
      form := { d.pic.form with coded := s.height, bits8 := s.luma8 = 0, mono := s.chroma = 0 } } }

/-- OPEN: in RUNNING, the unit at the head gives its parameter sets and, with its first slice, starts its picture. -/
def Mach.openUnit (m : Mach) (n : Nat) : Mach :=
  let c := m.decCtx n
  match c.aus with
  | [] => m
  | a :: _ =>
    let h264 := m.decH264 n
    if m.decState n ≠ decRunning || (c.rasl && a.isRasl h264) then m
    else
      let m := m.takeSets n
      let c := m.decCtx n
      if c.cur.isSome || (a.slices h264).isEmpty then m else m.setDecCtx n { c with cur := some (m.newDecPic n a) }

/-- What R169 finds in the header of the next slice of a picture: the sets in force and the header's head, or the
LAST_FAULT code of the drop. -/
def DecCtx.checkSlice (c : DecCtx) (h264 : Bool) (d : DecPic) (nal : List Nat) : Except Nat (SeqSet × SliceHead) :=
  match c.psets.find? (fun p => p.id = sliceSet h264 nal) with
  | none => .error 2
  | some p =>
    match c.seqs.find? (fun s => s.id = p.seq) with
    | none => .error 2
    | some s =>
      let h := sliceHead h264 p s nal
      let after := match d.lastAddr with
        | some a => decide (a < h.addr)
        | none => !h.dep
      if h.addr < s.blocks && after && (d.set.isNone || d.set = some s) then .ok (s, h) else .error 3

/-- The next slice of context n that no engine has taken, with its time. -/
def Mach.nextSlice (m : Mach) (n : Nat) : Option (DecPic × List Nat × Nat) :=
  let c := m.decCtx n
  match c.aus, c.cur with
  | a :: _, some d =>
    if m.decState n ≠ decRunning then none else ((a.slices (m.decH264 n))[d.taken]?).map fun x => (d, x)
  | _, _ => none

/-- Slices whose headers fail R169 are dropped, and their picture is concealed. -/
def Mach.skim (m : Mach) (n : Nat) : Nat → Mach
  | 0 => m
  | k + 1 =>
    match m.nextSlice n with
    | none => m
    | some (d, nal, _) =>
      match (m.decCtx n).checkSlice (m.decH264 n) d nal with
      | .ok _ => m
      | .error code =>
        let d := { d with taken := d.taken + 1, slices := d.slices + 1, dropCode := code,
                          pic := { d.pic with concealed := true } }
        ((m.setDecCtx n { m.decCtx n with cur := some d }).decDrop n code).skim n k

/-! ### Engines (R157, R158) -/

def Mach.showEngines (m : Mach) : Mach :=
  m.put F.DEC_ENGINE_BUSY_BUSY (m.dec.engines.foldl (fun a e => setBit a e.1) 0)

/-- A token bucket: level after refilling `rate` per tick up to `depth`, when it holds the cost. -/
def takeTokens (b : Option (Nat × Nat)) (now rate depth cost : Nat) : Option (Nat × Nat) :=
  let level := match b with
    | none => depth
    | some (l, t) => min depth (l + (now - t) * rate)
  if cost ≤ level then some (level - cost, now) else none

/-- The level of a context's bucket, refilled at its declared rate up to one picture at its maximum size. A slice larger
than the level leaves a debt (log entry 81). -/
def Mach.decTokens (m : Mach) (n : Nat) : Int :=
  let depth := m.get F.DEC_CTX_LIMITS_MAX_W n * m.get F.DEC_CTX_LIMITS_MAX_H n * 100000
  match (m.decCtx n).bucket with
  | none => depth
  | some (l, t) => min depth (l + (m.raw - t) * m.get F.DEC_CTX_RATE_DECLARED n * 64)

/-- Samples in 10^-5 that a declared rate in Mpixel/s earns in a tick of 0.64 ns. -/
def tickSamples (rate : Nat) : Nat := rate * 64

/-- Luma samples of the first k coding blocks of a picture. -/
def SeqSet.samplesTo (s : SeqSet) (k : Nat) : Nat :=
  let r := k / max 1 s.rowBlocks
  let y := min s.height (r * s.ctb)
  y * s.width + min s.width (k % max 1 s.rowBlocks * s.ctb) * min s.ctb (s.height - y)

/-- Luma samples of a slice: up to the next slice's address or, of the unit's newest slice, to the picture's end once the
unit is closed and to the end of its row of blocks before (log entry 81). -/
def Au.sliceCost (a : Au) (h264 : Bool) (s : SeqSet) (h : SliceHead) (p : PicSet) (index : Nat) : Nat :=
  let behind := match (a.slices h264)[index + 1]? with
    | some x => (sliceHead h264 p s x.1).addr
    | none => if a.closed then s.blocks else min s.blocks ((h.addr / max 1 s.rowBlocks + 1) * s.rowBlocks)
  s.samplesTo behind - s.samplesTo h.addr

/-- A slice that an engine may take: its deadline, luma samples, sequence set and address. -/
structure ReadySlice where
  deadline : Nat
  cost : Nat
  set : SeqSet
  addr : Nat
  deriving DecidableEq, Repr

/-- An engine may take slices: not removed by the Badger, its Sett runs, and at S4 only those of ESS = 2 (R173). -/
def Mach.engineMay (m : Mach) (e n : Nat) : Bool :=
  !(m.get F.TST_ENGINES_OUT_DEC).testBit e && !m.dec.stopped.testBit (e / 8)
    && (m.dec.stage < 4 || m.get F.DEC_CTX_CFG_ESS n = 2)

/-- R157: the slice of context n that engine e may take. One picture of a context is in decode at a time, so the
references of its slices are final; a dependent segment goes to the engine of the segment before it, which is free once
that one is done. Where that engine may take slices no longer, any engine takes it when every slice is done (log entry
81). -/
def Mach.readySlice (m : Mach) (n e : Nat) : Option ReadySlice :=
  match m.nextSlice n with
  | none => none
  | some (d, nal, time) =>
    let c := m.decCtx n
    let h264 := m.decH264 n
    match c.checkSlice h264 d nal, c.psets.find? (fun p => p.id = sliceSet h264 nal), c.aus with
    | .ok (s, h), some p, a :: _ =>
      if !m.engineMay e n then none
      else if h.dep && e ≠ d.lastEngine && (m.engineMay d.lastEngine n || d.slices ≠ d.taken) then none
      else some { deadline := time + m.get F.DEC_CTX_WORK_TARGET n * 1000, cost := a.sliceCost h264 s h p d.taken, set := s,
                  addr := h.addr }
    | _, _, _ => none

/-- R158: what a free engine takes: within reservation first, then the earliest deadline, then the lower context. -/
def Mach.pickSlice (m : Mach) (e : Nat) : Option (Nat × ReadySlice) :=
  let cands := (List.range 64).filterMap fun n => (m.readySlice n e).map fun r => (n, r)
  cands.foldl (fun (best : Option (Nat × ReadySlice)) x =>
    match best with
    | none => some x
    | some b =>
      let inX := decide (0 < m.decTokens x.1)
      let inB := decide (0 < m.decTokens b.1)
      if (inX && !inB) || (inX = inB && x.2.deadline < b.2.deadline) then some x else best) none

/-- An engine takes a slice: its luma samples are charged. -/
def Mach.takeSlice (m : Mach) (e n : Nat) (r : ReadySlice) : Mach :=
  let c := m.decCtx n
  match c.cur with
  | none => m
  | some d =>
    let d := { d.withSet r.set with taken := d.taken + 1, lastAddr := some r.addr, lastEngine := e }
    let m := m.setDecCtx n { c with cur := some d, bucket := some (m.decTokens n - r.cost * 100000, m.raw) }
    { m with dec := { m.dec with engines := tIns m.dec.engines e n } }

/-- After a slice has been taken, the slices behind it whose headers fail are dropped. -/
def Mach.skimMore (m : Mach) (n : Nat) : Mach :=
  match (m.decCtx n).aus with
  | [] => m
  | a :: _ => m.skim n (a.nals.length + 1)

/-- Every free engine takes a slice, lowest engine first. -/
def Mach.dispatchEngines (m : Mach) : Mach :=
  ((List.range 24).foldl (fun m e =>
    if m.dec.engines.any (fun x => x.1 = e) then m
    else
      match m.pickSlice e with
      | none => m
      | some (n, r) => ((m.takeSlice e n r).skimMore n).showQueue n) m).showEngines

end Sys2Proof.Machine
end

