-- ==== Sys2Proof/Machine/DecodePics.lean ====
section
/-! DEFINITION. Video decoding, second part: pictures and their slice-ready records (R160 to R164), span distribution
(R118), references and concealment (R166 to R168), faults (R169 to R172), bits in (R156), shedding (R173), span pools
(R119). -/

namespace Sys2Proof.Machine

/-! ### Samples in memory (R160) -/

/-- Bytes of a band-row: luma lines, then chroma lines. -/
def rowBytes (fmt w lines : Nat) : Nat := lineBytes fmt w * (lines + if fmt % 2 = 0 then (lines + 1) / 2 else lines)

/-- Three 10-bit samples in a 32-bit word. -/
def packTens : List Nat → List Nat
  | a :: b :: c :: rest => natBytes 4 (a + b * 2 ^ 10 + c * 2 ^ 20) ++ packTens rest
  | [a, b] => natBytes 4 (a + b * 2 ^ 10)
  | [a] => natBytes 4 a
  | [] => []

def packLine (fmt : Nat) (samples : List Nat) : List Nat := if fmt < 2 then samples else packTens samples

/-- A sample of a picture's luma plane, or of its interleaved chroma plane. The value is the codec standards', which the
spec does not restate (log entry 42); a 10-bit code holds 8-bit samples shifted left by 2, and monochrome has chroma at mid
value. -/
def Pic.sample (p : Pic) (key : Nat) (chroma : Bool) (x y : Nat) : Nat :=
  let v := Config.pixels key ((if chroma then 2 ^ 26 else 0) + y * 8192 + x)
  let v := if chroma && p.form.mono then (if p.form.bits8 then 128 else 512)
    else if p.form.bits8 then v % 256 else v % 1024
  if p.form.bits8 && 2 ≤ p.fmt then v * 4 else v

/-- The bytes of band-row r: the cropped width of its luma lines, then of its chroma lines (R161). -/
def Pic.rowData (p : Pic) (key r : Nat) : List Nat :=
  let lines := min 16 (p.height - 16 * r)
  let line := fun (chroma : Bool) (y : Nat) =>
    packLine p.fmt ((List.range p.width).map fun x => p.sample key chroma (p.cropX + x) y)
  let luma := (List.range lines).flatMap fun k => line false (p.cropY + 16 * r + k)
  let chroma := if p.fmt % 2 = 0 then
      (List.range ((lines + 1) / 2)).flatMap fun k => line true (p.cropY / 2 + 8 * r + k)
    else (List.range lines).flatMap fun k => line true (p.cropY + 16 * r + k)
  luma ++ chroma

/-! ### Records for the compositor and the spans (R163, R164, R210, R118) -/

/-- A picture's first record: the compositor leases it when fewer than two are held, or when the older one is done with
(R210); otherwise it is never composed. -/
def Mach.offer (m : Mach) (n : Nat) (p : Pic) : Mach :=
  let c := m.decCtx n
  match c.pics with
  | x :: rest =>
    if x.id = p.id then m.setDecCtx n { c with pics := p :: rest }
    else if c.pics.length < 2 then m.setDecCtx n { c with pics := p :: c.pics }
    else m.setDecCtx n { c with skippedPic := some p.id }
  | [] => if c.skippedPic = some p.id then m else m.setDecCtx n { c with pics := [p] }

/-- Complete band-rows of the cropped picture. -/
def Pic.doneRows (p : Pic) : Nat :=
  if p.cropY + p.height ≤ p.lines then ceilDiv p.height 16 else (p.lines - p.cropY) / 16

/-- SPAN_SEND (R118): each band-row that has become final goes to every part whose range contains it, unless that part
is this node's own. -/
def Mach.spanSend (m : Mach) (n : Nat) (p : Pic) (degraded : Bool) (fromRow : Nat) : Mach :=
  let id := m.get F.DEC_CTX_STREAM_ID n
  let rows := (List.range p.doneRows).filter (fromRow ≤ ·)
  m.ownSpans.foldl (fun m e =>
    if le4 e 4 ≠ id then m
    else
      rows.foldl (fun m r =>
        if le2 e 12 ≤ r && r ≤ le2 e 14 then
          let key : FlowKey := { origin := m.nodeId, span := true, id := le4 e 0, part := b1 e 10 }
          let lines := min 16 (p.height - 16 * r)
          let len := rowBytes p.fmt p.width lines
          let w4 := (le4 e 0 % 65536) <<< 48 ||| (b1 e 10 % 16) <<< 44 ||| (r % 4096) <<< 32 ||| lines <<< 27
            ||| (if degraded then 2 ^ 26 else 0) ||| (if 16 * (r + 1) ≥ p.height then 2 ^ 25 else 0)
            ||| (p.fmt % 16) <<< 21
          let w5 := (p.width % 65536) <<< 48 ||| (len % 2 ^ 24) <<< 24
          m.sendFlow key 7 (m.streamVc id) (p.wit.words ++ [w4, w5]) (bytesWords (len + 1) (p.rowData (n * 2 ^ 20 + p.id) r))
            len
        else m) m) m

/-- The slice-ready record's word (R163). -/
def Pic.record (p : Pic) (n : Nat) : Nat :=
  (n % 64) <<< 58 ||| (p.form.slot % 64) <<< 52 ||| (p.id % 2 ^ 20) <<< 32 ||| (p.lines % 2 ^ 16) <<< 16
    ||| (p.fmt % 16) <<< 12 ||| (if p.last then 2 ^ 11 else 0) ||| (if p.concealed then 2 ^ 10 else 0)

/-- A slice-ready record (R163). The DEGRADED mark of the context's span band-rows stands from the first CONCEALED picture
to the first CLEAN one (R48). -/
def Mach.sliceReady (m : Mach) (n : Nat) (p : Pic) : Mach :=
  let c := m.decCtx n
  let degraded := p.concealed || (!p.clean && c.degraded)
  let m := ((m.emit (.sliceReady (p.record n))).offer n p).count 183
  let m := m.spanSend n p degraded c.rowsSent
  let c := m.decCtx n
  let m := m.setDecCtx n { c with rowsSent := if p.last then 0 else p.doneRows, degraded := degraded }
  let m := if m.on F.DEC_CTX_MASK_SLICE n then m.decCause n F.DEC_CTX_CAUSE_SLICE else m
  if p.last then m.decCause n F.DEC_CTX_CAUSE_PIC_DONE else m

/-- The picture's own number in output order, and the context that has used it. -/
def DecCtx.nextSeq (c : DecCtx) : Nat × DecCtx := (c.picSeq, { c with picSeq := (c.picSeq + 1) % 2 ^ 20 })

/-- The streams whose pictures leave in decoding order (R164). -/
def DecPic.inOrder (d : DecPic) : Bool :=
  match d.set with
  | some s => s.reorder = 0
  | none => true

/-- The picture in decode issues a record when its final lines have grown by 16 or have reached its coded height. -/
def Mach.issueRecord (m : Mach) (n : Nat) (d : DecPic) : Mach :=
  let p := d.pic
  let full := decide (p.form.coded ≤ p.lines)
  if !d.inOrder || !d.shown || d.recorded = p.form.coded || !(full || decide (d.recorded + 16 ≤ p.lines)) then
    m.setDecCtx n { m.decCtx n with cur := some d }
  else
    let (seq, c) := match d.seq with
      | some s => (s, m.decCtx n)
      | none => (m.decCtx n).nextSeq
    let p := { p with id := seq, last := full }
    (m.setDecCtx n { c with cur := some { d with pic := p, recorded := p.lines, seq := some seq } }).sliceReady n p

/-- PICTURE_OUTPUT (R164): the output process releases waiting pictures, in its order, each with one record of the
full height. -/
def Mach.outputPictures (m : Mach) (n : Nat) (pocs : List Int) : Mach :=
  pocs.foldl (fun m poc =>
    let c := m.decCtx n
    match c.waiting.find? (fun x => x.1 = poc) with
    | none => m
    | some (_, p) =>
      let (s, c) := c.nextSeq
      let m := m.setDecCtx n { c with waiting := c.waiting.filter (fun x => x.1 ≠ poc), rowsSent := 0 }
      m.sliceReady n { p with id := s, lines := p.form.coded, last := true }) m

/-! ### Faults (R170 to R172) -/

/-- The layers whose pictures come from context n. -/
def ctxFeed (id : Nat) (f : Feed) : Bool :=
  match f with
  | .eth _ s => s = id
  | .flow k => !k.span && k.id = id
  | .ownSpan _ s => s = id
  | _ => false

/-- A picture that was offered and then dropped is no longer shown (R40, R172). -/
def DecCtx.forget (c : DecCtx) : DecCtx :=
  match c.cur.bind (·.seq) with
  | some s => { c with pics := c.pics.filter (fun p => p.id ≠ s) }
  | none => c

/-- The further slices of the unit at the head are to be dropped, while it is open. -/
def DecCtx.spoil (c : DecCtx) : DecCtx :=
  match c.aus with
  | a :: _ => if a.closed then c else { c with spoilt := true, spoiltNum := some a.wit.frameNum }
  | [] => c

/-- The engines of context n are free again. -/
def Mach.freeEngines (m : Mach) (n : Nat) : Mach :=
  { m with dec := { m.dec with engines := m.dec.engines.filter (fun e => e.2 ≠ n) } }.showEngines

/-- DECODE_FAULT (R172): the picture is not shown, its slot is free, and it is never received; FAULT_LIMIT in a row put the
context into RESET, without references, parameter sets and waiting units. -/
def Mach.decodeFault (m : Mach) (n code : Nat) : Mach :=
  let m := (m.setDecCtx n ((m.decCtx n).forget.spoil.dropUnit (m.decH264 n))).freeEngines n
  let m := m.put F.DEC_CTX_STATUS_LAST_FAULT code n |>.bump F.DEC_CTX_FAULTS_COUNT n
    |>.bump F.DEC_CTX_STATUS_CONSEC_FAULTS n |>.count 179 |>.decCause n F.DEC_CTX_CAUSE_FAULT
  let m := if code = 6 then m.decTrouble F.DEC_TROUBLE_CONTAIN n
    else if code = 5 then m.decTrouble F.DEC_TROUBLE_WORK_LIMIT n else m
  if m.get F.DEC_CTX_STATUS_CONSEC_FAULTS n < m.get F.DEC_CTX_WORK_FAULT_LIMIT n then m
  else
    let c := m.decCtx n
    let m := m.setDecCtx n { c with aus := [], usedBytes := 0, cur := none, waiting := [], refs := [], seqs := [], psets := [] }
    let m := (m.setDecState n decReset).decCause n F.DEC_CTX_CAUSE_RESET |>.decTrouble F.DEC_TROUBLE_CONTEXT_RESET n
    (m.stopFeeds (ctxFeed (m.get F.DEC_CTX_STREAM_ID n)) reasonDecodeFault).showQueue n

/-! ### Pictures -/

/-- A finished picture without a fault: counts, LAST_POC, CONSEC_FAULTS = 0 (R172). -/
def Mach.pictureDone (m : Mach) (n : Nat) (p : Pic) (poc : Int) : Mach :=
  let m := m.advance F.DEC_CTX_PICS_DECODED n |>.put F.DEC_CTX_LAST_POC_POC (ofSigned poc 32) n
    |>.put F.DEC_CTX_STATUS_CONSEC_FAULTS 0 n |>.putB F.DEC_CTX_STATUS_CONCEALING p.concealed n |>.count 177
  if p.concealed then (m.bump F.DEC_CTX_CONCEALED_COUNT n).count 178 |>.decCause n F.DEC_CTX_CAUSE_CONCEALED else m

/-- The picture as it stands at its end: every line is final, lines that no slice covered are concealed (R167; log entry
84), and CLEAN holds at a start point without concealment. -/
def DecPic.finished (d : DecPic) (start : Bool) : DecPic :=
  let concealed := d.pic.concealed || decide (d.covered < d.pic.form.coded)
  { d with pic := { d.pic with lines := d.pic.form.coded, concealed := concealed, clean := start && !concealed } }

/-- A context keeps a decoded picture for reference, at most MAX_DPB of them (R162). -/
def DecCtx.hold (c : DecCtx) (d : DecPic) (max : Nat) : DecCtx :=
  { c with refs := (⟨d.pic.form.slot, d.poc, d.pic.concealed⟩ :: c.refs).take max }

/-- A picture's slices are all done and its unit is closed: it issues its last record, or waits for the output process,
which then releases and drops what it says (R164). -/
def Mach.finishPicture (m : Mach) (n : Nat) (a : Au) (d : DecPic) : Mach :=
  let h264 := m.decH264 n
  let d := d.finished (a.startPoint h264)
  let m := m.issueRecord n d
  let c := (m.decCtx n).dropUnit h264
  let c := if h264 && a.nonRef true then c else c.hold d (m.get F.DEC_CTX_CFG_MAX_DPB n)
  let c := if !d.inOrder && d.shown then { c with waiting := (d.poc, d.pic) :: c.waiting } else c
  let c := { c with waiting := c.waiting.filter fun x => !d.discards.contains x.1 }
  ((m.setDecCtx n c).pictureDone n d.pic d.poc).outputPictures n d.outputs

/-- The unit at the head leaves the buffer when it is closed and each of its slices is done; whether it did. A picture with
no slice decoded ends as DECODE FAULT (R169). A unit without slices has no picture, unless it has lost them. -/
def Mach.endUnit (m : Mach) (n : Nat) : Bool × Mach :=
  let c := m.decCtx n
  match c.aus with
  | [] => (false, m)
  | a :: _ =>
    let h264 := m.decH264 n
    let total := (a.slices h264).length
    if m.decState n ≠ decRunning || !a.closed || (c.rasl && a.isRasl h264) then (false, m)
    else match c.cur with
      | none => if total ≠ 0 then (false, m)
                else (true, if a.loss then m.decodeFault n 3 else m.setDecCtx n (c.dropUnit h264))
      | some d =>
        if d.slices < total then (false, m)
        else if d.good = 0 then (true, m.decodeFault n (if d.dropCode = 2 then 2 else 3))
        else (true, m.finishPicture n a d)

/-- What follows of itself for context n: a start point starts it, units are discarded, the head's sets are taken and its
picture starts, bad slices are dropped, and finished units leave. -/
def Mach.decSettle (m : Mach) (n : Nat) : Nat → Mach
  | 0 => m
  | k + 1 =>
    let m := (((((m.startPoint n (k + 1)).raslDrop n (k + 1)).backlog n (k + 1)).openUnit n).skimMore n)
    let (again, m) := m.endUnit n
    if again then m.decSettle n k else m

/-- After units or slices came, were done or were discarded: settle, show, and let engines take slices. -/
def Mach.decAdvance (m : Mach) (n : Nat) : Mach :=
  ((m.decSettle n ((m.decCtx n).aus.length + 1)).showQueue n).dispatchEngines

/-! ### What engines report (R163, R166 to R171) -/

/-- The held picture nearest in picture order to one that is missing, the earlier on a tie (R166). -/
def nearestRef (refs : List RefPic) (poc : Int) : Option Int :=
  refs.foldl (fun (best : Option Int) r =>
    match best with
    | none => some r.poc
    | some b =>
      let x := (r.poc - poc).natAbs
      let y := (b - poc).natAbs
      if x < y || (x = y && r.poc < b) then some r.poc else best) none

/-- The references of a slice: those not held are replaced and recorded as REF_MISSING, and a picture that references a
substitute or a CONCEALED picture is CONCEALED (R166, R167). -/
def Mach.useRefs (m : Mach) (n : Nat) (d : DecPic) (r : SliceResult) : DecPic × Mach :=
  let refs := (m.decCtx n).refs
  let missing := r.refs.filter fun x => !refs.any (fun y => y.poc = x)
  let fresh := missing.filter fun x => !d.subst.any (fun y => y.1 = x)
  let bad := !missing.isEmpty || refs.any (fun y => y.concealed && r.refs.contains y.poc)
  let d := { d with subst := d.subst ++ fresh.map (fun x => (x, nearestRef refs x)),
                    pic := { d.pic with concealed := d.pic.concealed || bad } }
  (d, if missing.isEmpty then m else m.put F.DEC_CTX_STATUS_LAST_FAULT 9 n)

/-- The slice's data and hash: an error conceals its rest, a hash that does not match conceals the picture (R168, R169). -/
def Mach.useData (m : Mach) (n : Nat) (d : DecPic) (r : SliceResult) : DecPic × Mach :=
  let m := if r.fault = .data then m.put F.DEC_CTX_STATUS_LAST_FAULT 4 n else m
  let m := if r.hashBad then m.put F.DEC_CTX_STATUS_LAST_FAULT 8 n else m
  let concealed := d.pic.concealed || r.fault = .data || r.hashBad
  let covered := max d.covered r.covered
  let coded := d.pic.form.coded
  let lines := if coded ≤ covered then coded else if r.crosses then covered - 8 else covered
  ({ d with good := d.good + 1, covered := covered, poc := r.poc, shown := r.shown, outputs := d.outputs ++ r.outputs,
            discards := d.discards ++ r.discards,
            pic := { d.pic with concealed := concealed, lines := max d.pic.lines lines } }, m)

/-- The cycles that a picture may take (R170): WORK_X times 4 for each luma sample of its sequence set's size. -/
def Mach.workBound (m : Mach) (n : Nat) (d : DecPic) : Nat :=
  match d.set with
  | some s => m.get F.DEC_CTX_WORK_WORK_X n * 4 * (s.width * s.height)
  | none => 0

/-- A slice of the picture in decode is done. The pictures it does not keep are no references any longer. -/
def Mach.sliceDone (m : Mach) (n : Nat) (d : DecPic) (r : SliceResult) : Mach :=
  let d := { d with cycles := d.cycles + r.cycles, slices := d.slices + 1 }
  if r.contain then m.decodeFault n 6
  else if m.workBound n d < d.cycles then m.decodeFault n 5
  else if r.fault = .header then
    let d := { d with dropCode := 3, pic := { d.pic with concealed := true } }
    (m.setDecCtx n { m.decCtx n with cur := some d }).decDrop n 3
  else
    let (d, m) := m.useRefs n d r
    let (d, m) := m.useData n d r
    let c := m.decCtx n
    (m.setDecCtx n { c with refs := c.refs.filter fun x => r.keep.contains x.poc }).issueRecord n d

/-- SLICE_DECODED (R163): engine e has finished a slice of context n, or one whose context no longer wants it. -/
def Mach.sliceDecoded (m : Mach) (e n : Nat) (r : SliceResult) : Mach :=
  match tFind m.dec.engines e with
  | none => m
  | some k =>
    if k ≠ n && k ≠ orphan then m
    else
      let m := { m with dec := { m.dec with engines := tDel m.dec.engines e } }.showEngines.count 176
      if k = orphan then m.dispatchEngines
      else match (m.decCtx n).cur with
        | none => m
        | some d => ((m.measureDec n r.samples).sliceDone n d r).decAdvance n

/-- WORK_LIMIT (R170): the cycles of the picture's slices, those in progress included, exceed the bound. -/
def Mach.workLimit (m : Mach) (n : Nat) : Mach :=
  if (m.decCtx n).busy then (m.decodeFault n 5).decAdvance n else m

/-- CONTEXT_RESET_END (R155). -/
def Mach.contextResetEnd (m : Mach) (n : Nat) : Mach :=
  if m.decState n = decReset then (m.setDecState n decWaitKey).decAdvance n else m

/-! ### Bits in (R156) -/

/-- A unit without the NAL units whose headers are out of range; each of them is dropped and counted (R169). -/
def Mach.cleanUnit (m : Mach) (n : Nat) (nals : List (List Nat)) : List (List Nat) × Mach :=
  let good := nals.filter (nalHeaderOk (m.decH264 n))
  (good, if good.length = nals.length then m else m.decDrop n 3 (nals.length - good.length))

/-- AU_ENQUEUE (R156): a released access unit enters the ring, whole, or finds no room and is dropped; whether it
entered. A context in SHED drops its incoming bits (R173). -/
def Mach.auEnqueue (m : Mach) (n : Nat) (a : Au) : Bool × Mach :=
  let c := m.decCtx n
  if m.decState n = decShed ∨ m.decState n = decFree then (false, m)
  else if m.get F.DEC_CTX_BS_BS_KIB n * 1024 < c.usedBytes + a.bytes then (false, m)
  else
    let (nals, m) := m.cleanUnit n a.nals
    let m := m.setDecCtx n { c with aus := c.aus ++ [{ a with nals := nals, times := nals.map fun _ => m.now }],
                                    usedBytes := c.usedBytes + a.bytes }
    (true, m.decAdvance n)

/-- The open unit of a context, and the units before it. -/
def DecCtx.openUnit (c : DecCtx) : List Au × Option Au :=
  match c.aus.getLast? with
  | some a => if a.closed then (c.aus, none) else (c.aus.dropLast, some a)
  | none => ([], none)

/-- A slice whose witness record fails its check is dropped with its picture (R40): the unit that is open, unless the
slice begins a picture. -/
def Mach.spoilPicture (m : Mach) (n : Nat) (s : SliceIn) : Mach :=
  let c := m.decCtx n
  let m := m.decDrop n 0
  match c.openUnit with
  | (_, none) => m.setDecCtx n { c with spoilt := !s.last, spoiltNum := none }
  | (front, some a) =>
    if s.index = 0 then
      (m.setDecCtx n { c with aus := front ++ [{ a with closed := true, loss := true }], spoilt := !s.last,
                              spoiltNum := none }).decAdvance n
    else
      let c := if front.isEmpty then { c.forget with cur := none, rowsSent := 0 } else c
      let m := m.setDecCtx n { c with aus := front, usedBytes := c.usedBytes - a.bytes, spoilt := !s.last,
                                      spoiltNum := some a.wit.frameNum }
      (if front.isEmpty then m.orphanEngines n else m).decAdvance n

/-- The slice belongs to a picture that was dropped. -/
def DecCtx.ofSpoilt (c : DecCtx) (index frameNum : Nat) : Bool :=
  c.spoilt && index ≠ 0 && (c.spoiltNum.isNone || c.spoiltNum = some frameNum)

/-- A slice joins its access unit, or begins one: the unit before it then closes with LOSS. The newest record of a picture
is the one held (R187). The unit closes at LAST_SLICE. -/
def Mach.joinSlice (m : Mach) (n : Nat) (w : Witness) (s : SliceIn) : Mach :=
  let (nals, m) := m.cleanUnit n (streamNals s.data)
  let times := nals.map fun _ => m.now
  let c := m.decCtx n
  let fresh : Au := { wit := w, nals := nals, times := times, bytes := s.bytes, loss := false, closed := s.last, key := s.key,
                      raw := m.raw }
  let aus : List Au := match c.openUnit with
    | (front, none) => front ++ [fresh]
    | (front, some a) =>
      if a.wit.frameNum = w.frameNum then
        front ++ [{ a with nals := a.nals ++ nals, times := a.times ++ times, bytes := a.bytes + s.bytes, closed := s.last,
                           wit := w }]
      else front ++ [{ a with closed := true, loss := true }, fresh]
  let cur := if aus.length = 1 then c.cur.map fun d => { d with pic := { d.pic with wit := w } } else c.cur
  (m.setDecCtx n { c with aus := aus, usedBytes := c.usedBytes + s.bytes, cur := cur, spoilt := false }).decAdvance n

/-- STREAM_SLICE_RECEIVE (R156): a fabric slice has ended. One of another length than SLICE_BYTES, of a dropped picture, for
a context in SHED, or that finds no room is dropped whole. Its record must pass (R40). -/
def Mach.sliceReceive (m : Mach) (key : FlowKey) (s : SliceIn) : Mach :=
  match m.ctxOfStream key.id with
  | none => m
  | some n =>
    let c := m.decCtx n
    if m.decState n = decShed || s.data.length ≠ s.bytes then m.decDrop n 0
    else
      match Witness.ofWords s.record with
      | none => ((m.chkUnit 10 false).witnessBad).spoilPicture n s
      | some w =>
        let m := m.chkUnit 10 true
        if c.ofSpoilt s.index w.frameNum then
          (m.setDecCtx n { c with spoilt := !s.last }).decDrop n 0
        else if m.get F.DEC_CTX_BS_BS_KIB n * 1024 < c.usedBytes + s.bytes then m.decDrop n 0
        else m.joinSlice n w s

/-! ### Shedding (R173) -/

/-- The context decodes a span for other nodes (R118). -/
def Mach.decodesSpan (m : Mach) (n : Nat) : Bool := m.ownSpans.any (fun e => le4 e 4 = m.get F.DEC_CTX_STREAM_ID n)

/-- A context is shed: its engines stop at the end of their slices, and its units, references and unleased slots go. -/
def Mach.shedCtx (m : Mach) (n : Nat) : Mach :=
  let c := m.decCtx n
  let m := (m.setDecCtx n { c with aus := [], usedBytes := 0, cur := none, waiting := [], refs := [] }).orphanEngines n
  (m.setDecState n decShed).showQueue n

/-- Contexts that the stage sheds stop, and those of a fallen stage wait for a key. In STANDBY every context is shed
but those that decode a span for other nodes (R393). -/
def Mach.decShedNow (m : Mach) : Mach :=
  (List.range 64).foldl (fun (m : Mach) n =>
    let sheds := m.shedsEss (m.get F.DEC_CTX_CFG_ESS n) || (m.mode = .standby && !m.decodesSpan n)
    if m.decState n = decFree then m
    else if sheds && m.decState n ≠ decShed then m.shedCtx n
    else if !sheds && m.decState n = decShed then m.setDecState n decWaitKey
    else m) m

/-- The decode Sett that runs on at S4: the lowest in which at least two engines are not removed (R173). -/
def Mach.keptSett (m : Mach) : Nat :=
  let out := m.get F.TST_ENGINES_OUT_DEC
  ((List.range 3).find? fun s => 2 ≤ ((List.range 8).filter fun i => !out.testBit (8 * s + i)).length).getD 0

/-- The decode Setts whose islands stop, a bit each: at S4 all but the kept one, and all three without an ESS = 2
context. -/
def Mach.stoppedSetts (m : Mach) : Nat :=
  if m.stage < 4 then 0
  else if (List.range 64).any fun n => m.decState n ≠ decFree && m.get F.DEC_CTX_CFG_ESS n = 2 then 7 - 2 ^ m.keptSett
  else 7

/-- SHED_AT_FRAME_START: what the stage sheds, and the decode Setts that stop at S4. -/
def Mach.decStage (m : Mach) : Mach :=
  let m := m.decShedNow
  ({ m with dec := { m.dec with stage := m.stage, stopped := m.stoppedSetts } }).dispatchEngines

/-! ### Span pools (R119) -/

def Mach.spanPool (m : Mach) (key : FlowKey) : SpanPool :=
  (m.cmp.spans.find? (fun s => s.key = key)).getD { key := key, slots := [] }

def Mach.setSpanPool (m : Mach) (s : SpanPool) : Mach :=
  { m with cmp := { m.cmp with spans := m.cmp.spans.filter (fun x => x.key ≠ s.key) ++ [s] } }

/-- What R20 requires of a band-row's header: its span and part, a row of the part, LINES below 16 only in the last row,
a format, and BYTES as these and WIDTH give it. -/
def Mach.rowFits (m : Mach) (key : FlowKey) (r : BandRow) : Bool :=
  r.spanId = key.id && r.part = key.part && 0 < r.lines && r.lines ≤ 16 && (r.lines = 16 || r.lastRow) && r.fmt ≤ 3
    && 0 < r.width && r.width ≤ 4096 && r.bytes = rowBytes r.fmt r.width r.lines
    && match m.spanEntry key.id key.part with
      | some e => decide (le2 e 12 ≤ r.row) && decide (r.row ≤ le2 e 14)
      | none => true

/-- A band-row is dropped whole and counted, at the port its flow comes from (R21, R119). -/
def Mach.rowDrop (m : Mach) (key : FlowKey) : Mach :=
  match m.entryOf key with
  | some e => m.fabDrop e.port
  | none => m

/-- The band-row r belongs to the picture that a bad record has dropped: its rows rise, so one that does not is another
picture's (log entry 80). -/
def SpanPool.spoilt (s : SpanPool) (row : Nat) : Bool :=
  match s.bad with
  | some b => decide (b < row)
  | none => false

/-- A band-row with a bad record drops its picture: the newest one, while its last row has not come, and the rows of the
same picture that follow (R40; log entry 80). -/
def SpanPool.spoil (s : SpanPool) (r : BandRow) : SpanPool :=
  let slots := match s.slots with
    | p :: rest => if !p.last && p.rows.all (fun q => decide (q < r.row)) then rest else s.slots
    | [] => []
  { s with slots := slots, bad := if r.lastRow then none else some r.row }

/-- A band-row of a picture that is held: its record must be the same in every bit. -/
def SpanPool.addRow (s : SpanPool) (p : Pic) (r : BandRow) : SpanPool :=
  let p' := { p with rows := if p.rows.contains r.row then p.rows else r.row :: p.rows,
                     concealed := p.concealed || r.degraded, last := p.last || r.lastRow }
  { s with slots := s.slots.map fun (x : Pic) => if x.id = p.id then p' else x, bad := none }

/-- The first band-row of a picture: it takes a free slot, or the oldest that no band of the frame in composition uses. -/
def Mach.newSpanPic (m : Mach) (s : SpanPool) (w : Witness) (r : BandRow) : Option SpanPool :=
  let usedNow := fun (p : Pic) => m.cmp.composing && p.usedBy = some m.cmp.frame
  let p : Pic := { id := (s.slots.map (·.id)).foldl max 0 + 1, wit := w, lines := 0, rows := [r.row], width := r.width,
                   height := 0, cropX := 0, cropY := 0, fmt := r.fmt, last := r.lastRow, concealed := r.degraded,
                   clean := true, arrived := m.raw, usedBy := none }
  if s.slots.length < 3 then some { s with slots := p :: s.slots, bad := none }
  else (s.slots.reverse.find? fun x => !usedNow x).map fun old =>
    { s with slots := p :: s.slots.filter (fun x => x.id ≠ old.id), bad := none }

/-- SPAN_BAND_ROW_RECEIVE (R119): complete with BYTES bytes in an unbroken sequence and with the record of the
picture's other band-rows, into one of three slots; any other band-row is dropped whole and counted. -/
def Mach.spanBandRow (m : Mach) (key : FlowKey) (r : BandRow) : Mach :=
  let s := m.spanPool key
  if !r.unbroken || r.received ≠ r.bytes then m.rowDrop key
  else
    match Witness.ofWords r.record with
    | none => (((m.chkUnit 10 false).witnessBad).setSpanPool (s.spoil r)).rowDrop key
    | some w =>
      let m := m.chkUnit 10 true
      if !m.rowFits key r || s.spoilt r.row then m.rowDrop key
      else
        match s.slots.find? (fun p => p.wit.frameNum = w.frameNum && p.wit.srcNode = w.srcNode) with
        | some p =>
          if p.wit = w && p.width = r.width && p.fmt = r.fmt then m.setSpanPool (s.addRow p r) else m.rowDrop key
        | none =>
          match m.newSpanPic s w r with
          | some s => m.setSpanPool s
          | none => m.rowDrop key

end Sys2Proof.Machine
end

