-- ==== Sys2Proof/Machine/Encoder.lean ====
section
/-! DEFINITION. Video encoding (R177 to R197): contexts and admission, frames from the capture pool, rows and slices,
witness records of slices, key pictures, rate control, fallback, statistics and shedding. -/

namespace Sys2Proof.Machine

def encCtx0 : EncCtx :=
  { cur := none, next := none, bucket := none, divCount := 0, sinceKey := 0, sinceLtr := 0, keyWanted := false,
    refreshWanted := false, lastReq := none, nextKey := false, counted := [], refStamps := [], ltr := [], ltrNext := 0,
    releasing := false, restart := false }

def Mach.encCtx (m : Mach) (n : Nat) : EncCtx := tGet m.enc.ctxs encCtx0 n

def Mach.setEncCtx (m : Mach) (n : Nat) (c : EncCtx) : Mach :=
  { m with enc := { m.enc with ctxs := tPut m.enc.ctxs encCtx0 n c } }

/-- Context states (R180). -/
def encFree : Nat := 0
def encWaitFrame : Nat := 1
def encRunning : Nat := 2
def encShed : Nat := 3

def Mach.encState (m : Mach) (n : Nat) : Nat := m.get F.ENC_CTX_CFG_STATE n

def Mach.encCtxOf (m : Mach) (id : Nat) : Option Nat :=
  (List.range 16).find? fun n => m.encState n ≠ encFree && m.get F.ENC_CTX_STREAM_ID n = id

/-! ### Causes (R197) -/

def Mach.encCause (m : Mach) (n : Nat) (f : Field) : Mach :=
  let m := m.putB f true n
  if (m.rd .ENC_CTX_MASK n).toNat.testBit f.lo then m.raise ((if f.lo < 2 then 208 else 209) + 2 * n) else m

def Mach.encNodeCause (m : Mach) (f : Field) : Mach :=
  let m := m.putB f true
  if (m.rd .ENC_NODE_MASK 0).toNat.testBit f.lo then m.raise 209 else m

def Mach.setEncState (m : Mach) (n st : Nat) : Mach :=
  if m.encState n = st then m else (m.put F.ENC_CTX_CFG_STATE st n).encCause n F.ENC_CTX_CAUSE_STATE

def Mach.showEncContexts (m : Mach) : Mach :=
  m.put F.ENC_ADMIT_LAST_CONTEXTS ((List.range 16).filter (fun n => m.encState n ≠ encFree)).length

/-! ### Admission (R178, R179) -/

/-- Bytes of the four reconstruction slots of R179. -/
def encPoolBytes (main10 : Bool) (w h : Nat) : Nat := 4 * slotBytes (if main10 then 2 else 0) w h

def Mach.encPoolUsed (m : Mach) : Nat :=
  (List.range 16).foldl (fun a n =>
    if m.encState n = encFree then a
    else a + encPoolBytes (m.on F.ENC_CTX_CFG_MAIN10 n) (m.get F.ENC_CTX_GEOM_WIDTH n) (m.get F.ENC_CTX_GEOM_HEIGHT n)) 0

/-- The declared values lie in R177 and R181. -/
def Mach.encodeSupported (m : Mach) (e : List Nat) : Bool :=
  let port := b1 e 8
  let scale := b1 e 11
  let w := le2 e 20
  let h := le2 e 22
  let cx := le2 e 16
  let cy := le2 e 18
  port ≤ 1 && 1 ≤ b1 e 10 && b1 e 10 ≤ 4 && (scale = 1 || scale = 2 || scale = 4) && 1 ≤ b1 e 12 && b1 e 12 ≤ 8
    && 64 ≤ w && w ≤ 4096 && 64 ≤ h && h ≤ 2160 && w % 2 = 0 && h % 2 = 0 && cx % 2 = 0 && cy % 2 = 0
    && cx + w * scale ≤ m.get F.CAP_GEOM_WIDTH port && cy + h * scale ≤ m.get F.CAP_GEOM_HEIGHT port

/-- The declared rate of R179. The spec names no register or table field that holds a port's frame rate: it is the
camera's own (log entry 21). -/
def encRate (e : List Nat) : Nat :=
  ceilDiv (le2 e 20 * le2 e 22 * Config.captureFps (b1 e 8)) (max 1 (b1 e 12) * 1000000)

/-- ENCODE_REQUEST (R179): 0 and the context, or the status of the first check that fails. -/
def Mach.encRequest (m : Mach) (e : List Nat) : Nat × Mach :=
  let id := le4 e 0
  let rate := encRate e
  let flags := b1 e 13
  let main10 := flags.testBit 0
  let free := (List.range 16).find? fun n => m.encState n = encFree
  let status :=
    if !m.encodeSupported e then stUnsupported
    else if m.shedsEss (b1 e 6) then stShed
    else if free.isNone then stContextFull
    else if m.get F.ENC_ADMIT_LIMIT < m.get F.ENC_ADMIT_USED + rate then stNoThroughput
    else if m.get F.ENC_POOL_SIZE_SIZE < m.encPoolUsed + encPoolBytes main10 (le2 e 20) (le2 e 22) then stNoMemory
    else 0
  match status, free with
  | 0, some n =>
    let m := { m with enc := { m.enc with refused := m.enc.refused.filter (· ≠ id) } }
    let m := m.put F.ENC_ADMIT_USED (m.get F.ENC_ADMIT_USED + rate)
    let m := m.putB F.ENC_CTX_CFG_VALID true n |>.put F.ENC_CTX_CFG_ESS (b1 e 6) n
      |>.putB F.ENC_CTX_CFG_PRIV (flags.testBit 2) n |>.putB F.ENC_CTX_CFG_MAIN10 main10 n
      |>.put F.ENC_CTX_CFG_PORT (b1 e 8) n |>.put F.ENC_CTX_CFG_START (b1 e 9) n
      |>.putB F.ENC_CTX_CFG_HASH (flags.testBit 1) n |>.put F.ENC_CTX_CFG_ROWS (b1 e 10) n
      |>.put F.ENC_CTX_CFG_SCALE (b1 e 11) n |>.put F.ENC_CTX_CFG_DIV (b1 e 12) n
      |>.put F.ENC_CTX_STREAM_ID id n |>.put F.ENC_CTX_GEOM_WIDTH (le2 e 20) n
      |>.put F.ENC_CTX_GEOM_HEIGHT (le2 e 22) n |>.put F.ENC_CTX_CROP_CROP_X (le2 e 16) n
      |>.put F.ENC_CTX_CROP_CROP_Y (le2 e 18) n |>.put F.ENC_CTX_RC_QTARGET (b1 e 24) n
      |>.put F.ENC_CTX_RC_QMAX (b1 e 25) n |>.put F.ENC_CTX_RC_QMIN (b1 e 26) n
      |>.put F.ENC_CTX_RC_QSTEP (b1 e 27) n |>.put F.ENC_CTX_PIC_CAP_PIC_CAP (le4 e 28) n
      |>.put F.ENC_CTX_WIN_CAP_WIN_CAP (le4 e 32) n |>.put F.ENC_CTX_WIN_WIN_PICS (b1 e 36) n
      |>.put F.ENC_CTX_KEY_TYPE (b1 e 37) n |>.put F.ENC_CTX_KEY_GOP (le2 e 38) n
      |>.put F.ENC_CTX_KEY_HOLD (le2 e 40) n |>.put F.ENC_CTX_LTR_LTR_PERIOD (le2 e 42) n
      |>.put F.ENC_CTX_LTR_REFRESH (b1 e 44) n |>.put F.ENC_CTX_LTR_HELD 0 n
      |>.put F.ENC_CTX_STATUS_Q_NOW (b1 e 24) n |>.put F.ENC_CTX_STATUS_WIN_USED 0 n
      |>.put F.ENC_CTX_PICS_CODED 0 n |>.put F.ENC_CTX_CAP_HITS_COUNT 0 n |>.put F.ENC_CTX_SKIPPED_COUNT 0 n
      |>.put F.ENC_CTX_KEYS_COUNT 0 n |>.put F.ENC_CTX_ROWS_STARVED_COUNT 0 n
      |>.wr .ENC_CTX_MASK n (Reg.por .ENC_CTX_MASK n)
    (0, ((m.setEncCtx n encCtx0).setEncState n encWaitFrame).showEncContexts)
  | s, _ =>
    let m := { m with enc := { m.enc with refused := m.enc.refused.filter (· ≠ id) ++ [id] } }
    (s, (m.put F.ENC_ADMIT_LAST_STATUS s |>.put F.ENC_ADMIT_LAST_ID_ID id |>.bump F.ENC_REFUSALS_COUNT).count 191
      |>.trouble F.ENC_TROUBLE_ADMIT_REFUSED 0 id |>.encNodeCause F.ENC_NODE_CAUSE_REFUSED)

/-- ALWAYS entries request their contexts, in entry order (R178); `all` on entering LIVE, otherwise only the refused. -/
def Mach.encStart (m : Mach) (all : Bool) : Mach :=
  m.cfg.streams.foldl (fun m e =>
    if b1 e 4 = 1 && b1 e 9 = 0 && (m.encCtxOf (le4 e 0)).isNone && (all || m.enc.refused.contains (le4 e 0)) then
      (m.encRequest e).2
    else m) m

/-- What this node answers as origin to a JOIN (R109, R137, R179): a stream it forwards or encodes, a span it decodes. -/
def Mach.originAnswer (m : Mach) (key : FlowKey) : OriginAns × Mach :=
  if key.span then
    if m.ownSpans.any (fun e => le4 e 0 = key.id && b1 e 10 = key.part) then (.accept, m)
    else (.refuse stOriginAbsent, m)
  else if (List.range 512).any (fun i =>
      m.on F.ETH_STREAM_CTL_EN i && m.on F.ETH_STREAM_CTL_FWD i && m.get F.ETH_STREAM_ID_ID i = key.id) then (.accept, m)
  else
    match m.encodeEntry key.id with
    | none => (.refuse stOriginAbsent, m)
    | some e =>
      if (m.encCtxOf key.id).isSome then (.accept, m)
      else if b1 e 9 = 0 then (.refuse stBadValue, m)
      else
        match m.encRequest e with
        | (0, m) => (.accept, m)
        | (_, m) => (.refuse stBadValue, m)

/-- JOIN (R109) with the origin's answer, which the node's own admission decides. -/
def Mach.joinCommand (m : Mach) (q : Nat) (c : CtrlMsg) : Mach :=
  if c.key.origin = m.nodeId && (m.entryOf c.key).isNone then
    let (a, m) := m.originAnswer c.key
    m.joinMsg q c a
  else m.joinMsg q c .accept

/-! ### Rate control and rows (R190 to R194) -/

def rowCost (key : Bool) (w : Nat) : Nat := 24 + (if key then 4 else 1) * ceilDiv w 64

def minPic (w h : Nat) : Nat := 256 + ceilDiv h 64 * (24 + 4 * ceilDiv w 64)

def Mach.encRows (m : Mach) (n : Nat) : Nat := ceilDiv (m.get F.ENC_CTX_GEOM_HEIGHT n) 64

/-- budget(k) of R191. -/
def Mach.encBudget (m : Mach) (n : Nat) : Nat :=
  let before := ((m.encCtx n).counted.take (m.get F.ENC_CTX_WIN_WIN_PICS n - 1)).foldl (· + ·) 0
  min (m.get F.ENC_CTX_PIC_CAP_PIC_CAP n) (m.get F.ENC_CTX_WIN_CAP_WIN_CAP n - before)

/-- R190 after a picture. -/
def Mach.rateControl (m : Mach) (n bytes budget : Nat) (capHit : Bool) : Mach :=
  let q := m.getS F.ENC_CTX_STATUS_Q_NOW n
  let target := m.getS F.ENC_CTX_RC_QTARGET n
  let qmax := m.getS F.ENC_CTX_RC_QMAX n
  let q' := if capHit then min (q + m.get F.ENC_CTX_RC_QSTEP n) qmax
    else if bytes * 2 < budget ∧ q > target then q - 1
    else if q < target then target else q
  m.put F.ENC_CTX_STATUS_Q_NOW (ofSigned q' 7) n

def encRow0 : EncRow := { st := 0, ready := none, bytes := 0, lim := 0, fallback := false, content := 0 }

/-- The reference of a P picture's copied rows: the short-term one, or the long-term slot in a refresh picture. -/
def EncCtx.refStamp (c : EncCtx) (refresh : Bool) (slot r dflt : Nat) : Nat :=
  let l := if refresh then tGet c.ltr [] slot else c.refStamps
  l.getD r dflt

/-- Row r of the picture starts (R192): its limit, or fallback. -/
def Mach.startRow (m : Mach) (n r : Nat) (c : EncCtx) (p : EncPic) : EncPic :=
  let cost := rowCost p.key (m.get F.ENC_CTX_GEOM_WIDTH n)
  let waiting := (p.rows.filter (fun x => x.st = 0)).length - 1
  let lim := p.rem - p.held - waiting * cost
  let fb := p.fallen || decide (lim < cost)
  let content := if fb && !p.key then c.refStamp p.refresh (m.get F.ENC_CTX_LTR_REFRESH n) r p.frame.wit.capture
    else p.frame.wit.capture
  { p with held := p.held + lim, fallen := fb, starved := p.starved + (if fb then 1 else 0),
           rows := p.rows.set r { p.rows.getD r encRow0 with st := 1, bytes := 0, lim := lim, fallback := fb, content := content } }

/-- A row ends with its bytes (R192). -/
def EncPic.endRow (p : EncPic) (r bytes : Nat) : EncPic :=
  let x := p.rows.getD r encRow0
  { p with held := p.held - x.lim, rem := p.rem - bytes, rows := p.rows.set r { x with st := 2, bytes := bytes } }

/-- Capture lines that row r needs; the last row is ready at the frame's last line (R184). -/
def Mach.rowLines (m : Mach) (n r : Nat) : Nat :=
  if r + 1 = m.encRows n then m.get F.CAP_GEOM_HEIGHT (m.get F.ENC_CTX_CFG_PORT n)
  else m.get F.ENC_CTX_CROP_CROP_Y n + 64 * m.get F.ENC_CTX_CFG_SCALE n * (r + 1)

/-- Rows of a picture of frame `num` whose lines are in the pool now that it holds `lines` of them. -/
def Mach.markRows (m : Mach) (n num lines : Nat) (p : EncPic) : EncPic :=
  if p.frame.wit.frameNum ≠ num then p
  else { p with rows := (p.rows.zip (List.range p.rows.length)).map fun (x, r) =>
    if x.ready.isNone && m.rowLines n r ≤ lines then { x with ready := some m.raw } else x }

/-- A line of the frame in progress of port c is in the pool (R184). -/
def Mach.encLines (m : Mach) (c num lines : Nat) : Mach :=
  (List.range 16).foldl (fun m n =>
    let x := m.encCtx n
    if m.encState n = encFree ∨ m.get F.ENC_CTX_CFG_PORT n ≠ c ∨ (x.cur.isNone ∧ x.next.isNone) then m
    else m.setEncCtx n { x with cur := x.cur.map (m.markRows n num lines), next := x.next.map (m.markRows n num lines) }) m

/-- Row r is ready (R184); a fallen-back P picture's rows do not wait for their lines (R193). -/
def rowReady (r : Nat) (p : EncPic) : Bool := (p.fallen && !p.key) || (p.rows.getD r encRow0).ready.isSome

/-- The first row of the picture in progress that has not started and is ready. -/
def Mach.nextRow (m : Mach) (n : Nat) : Option Nat :=
  match (m.encCtx n).cur with
  | none => none
  | some p =>
    if m.encState n ≠ encRunning then none
    else (List.range (m.encRows n)).find? fun r => (p.rows.getD r encRow0).st = 0 && rowReady r p

def Mach.showEncEngines (m : Mach) : Mach :=
  m.put F.ENC_ENGINE_BUSY_BUSY (m.enc.engines.foldl (fun a e => setBit a e.1) 0)

/-- Parameter sets precede a key picture, and only a picture hash is sent as SEI (R177). -/
def Mach.encHeader (m : Mach) (n : Nat) (key : Bool) : Nat :=
  let hash := m.on F.ENC_CTX_CFG_HASH n
  if key || hash then Config.encHeaderBytes n key hash else 0

/-- Row 0 of the picture in progress starts (R188 to R191): the requests that have come by now are taken, so whether it is
a key or a refresh picture is settled, and its budget. -/
def Mach.settlePicture (m : Mach) (n : Nat) : Mach :=
  let c := m.encCtx n
  match c.cur with
  | none => m
  | some p =>
    let held := match c.lastReq with
      | some t => decide (m.raw < t + msTicks (m.get F.ENC_CTX_KEY_HOLD n))
      | none => false
    let keyReq := c.keyWanted && !held
    let refReq := c.refreshWanted && !held
    let gop := m.get F.ENC_CTX_KEY_GOP n
    let key := c.nextKey || keyReq || (0 < gop && gop ≤ c.sinceKey)
      || (refReq && (tFind c.ltr (m.get F.ENC_CTX_LTR_REFRESH n)).isNone)
    let budget := m.encBudget n
    m.setEncCtx n { c with
      cur := some { p with key := key, refresh := refReq && !key, budget := budget, rem := budget - m.encHeader n key,
                           requested := keyReq || refReq }
      nextKey := if key then false else c.nextKey
      keyWanted := if keyReq then false else c.keyWanted
      refreshWanted := if refReq then false else c.refreshWanted
      lastReq := if keyReq || refReq then some m.raw else c.lastReq
      sinceKey := if key then 1 else c.sinceKey + 1 }

/-- The declared rate of an admitted context in Mpixel/s (R179). -/
def Mach.encDeclared (m : Mach) (n : Nat) : Nat :=
  ceilDiv (m.get F.ENC_CTX_GEOM_WIDTH n * m.get F.ENC_CTX_GEOM_HEIGHT n * Config.captureFps (m.get F.ENC_CTX_CFG_PORT n))
    (max 1 (m.get F.ENC_CTX_CFG_DIV n) * 1000000)

/-- The level of a context's bucket, as of a decode context's (R184, R158; log entry 81). -/
def Mach.encTokens (m : Mach) (n : Nat) : Int :=
  let depth := m.get F.ENC_CTX_GEOM_WIDTH n * m.get F.ENC_CTX_GEOM_HEIGHT n * 100000
  match (m.encCtx n).bucket with
  | none => depth
  | some (l, t) => min depth (l + (m.raw - t) * tickSamples (m.encDeclared n))

/-- Luma samples of row r. -/
def Mach.rowSamples (m : Mach) (n r : Nat) : Nat :=
  m.get F.ENC_CTX_GEOM_WIDTH n * min 64 (m.get F.ENC_CTX_GEOM_HEIGHT n - 64 * r)

/-- The row that a free engine takes: of a context within its reservation first, then the earliest ready time, then the
lower context. -/
def Mach.pickRow (m : Mach) : Option (Nat × Nat) :=
  let cands := (List.range 16).filterMap fun n =>
    match m.nextRow n, (m.encCtx n).cur with
    | some r, some p => some (n, r, (p.rows.getD r encRow0).ready.getD m.raw)
    | _, _ => none
  let best := cands.foldl (fun (best : Option (Nat × Nat × Nat)) x =>
    match best with
    | none => some x
    | some y =>
      let inX := decide (0 < m.encTokens x.1)
      let inY := decide (0 < m.encTokens y.1)
      if (inX && !inY) || (inX = inY && x.2.2 < y.2.2) then some x else best) none
  best.map fun x => (x.1, x.2.1)

/-- Engine e starts row r of context n; the row's samples are charged. -/
def Mach.takeRow (m : Mach) (e n r : Nat) : Mach :=
  let m := if r = 0 then m.settlePicture n else m
  let c := m.encCtx n
  match c.cur with
  | none => m
  | some p =>
    let m := m.setEncCtx n { c with cur := some (m.startRow n r c p),
                                    bucket := some (m.encTokens n - m.rowSamples n r * 100000, m.raw) }
    { m with enc := { m.enc with engines := tIns m.enc.engines e (n * 64 + r) } }

/-- Free engines take ready rows (R184). -/
def Mach.dispatchRows (m : Mach) : Mach :=
  ((List.range 8).foldl (fun m e =>
    if m.enc.engines.any (fun x => x.1 = e) || (m.get F.TST_ENGINES_OUT_ENC).testBit e then m
    else match m.pickRow with
      | none => m
      | some (n, r) => m.takeRow e n r) m).showEncEngines

/-- The engines of context n are free again. -/
def Mach.freeRows (m : Mach) (n : Nat) : Mach :=
  { m with enc := { m.enc with engines := m.enc.engines.filter (fun e => e.2 / 64 ≠ n) } }.showEncEngines

/-- ROW_CODED (R184). -/
def Mach.rowCoded (m : Mach) (e n r bytes : Nat) : Mach :=
  let c := m.encCtx n
  match c.cur, tFind m.enc.engines e with
  | some p, some x =>
    if x ≠ n * 64 + r then m
    else
      let m := { m with enc := { m.enc with engines := tDel m.enc.engines e } }
      let m := if (p.rows.getD r encRow0).fallback then m.count 187 else m
      (m.setEncCtx n { c with cur := some (p.endRow r bytes) }).dispatchRows
  | _, _ => m

/-- ROW_LIMIT_REACHED (R192): the row is abandoned and coded again as a fallback row; the picture has fallen back. -/
def Mach.rowLimitReached (m : Mach) (n r : Nat) : Mach :=
  let c := m.encCtx n
  match c.cur with
  | none => m
  | some p =>
    let x := p.rows.getD r encRow0
    if x.st ≠ 1 then m
    else
      let content := if p.key then x.content else c.refStamp p.refresh (m.get F.ENC_CTX_LTR_REFRESH n) r x.content
      let p := { p with fallen := true, starved := p.starved + (if x.fallback then 0 else 1),
                        rows := p.rows.set r { x with fallback := true, content := content } }
      (m.setEncCtx n { c with cur := some p }).dispatchRows

/-- PICTURE_END_FALLBACK (R194): every row not yet coded is coded at once, skip-copied or, in a key picture, mid-grey;
after such a key picture the next is a key picture. -/
def Mach.endFallback (m : Mach) (n : Nat) (captureLost : Bool) : Mach :=
  let c := m.encCtx n
  match c.cur with
  | none => m
  | some p =>
    let open_ := (List.range p.rows.length).filter fun r => (p.rows.getD r encRow0).st ≠ 2
    let p' := open_.foldl (fun p r =>
      let x := p.rows.getD r encRow0
      let content := if p.key then p.frame.wit.capture
        else c.refStamp p.refresh (m.get F.ENC_CTX_LTR_REFRESH n) r p.frame.wit.capture
      { p with rows := p.rows.set r { x with st := 2, fallback := true, content := content } }) p
    let p' := { p' with lost := p.lost + open_.length, fallen := true }
    let m := m.setEncCtx n { m.encCtx n with cur := some p', nextKey := c.nextKey || (p.key && !open_.isEmpty) }
    let m := m.freeRows n
    let m := if open_.isEmpty then m else m.encCause n F.ENC_CTX_CAUSE_ROWS_LOST
    if captureLost then m.trouble F.ENC_TROUBLE_CAPTURE_LOST 0 n else m

/-- Row 0 of a picture has not started. -/
def EncPic.unstarted (p : EncPic) : Bool := (p.rows.headD encRow0).st = 0

/-- A frame was never coded: its slot is free, and the skip counts (R183). -/
def Mach.encSkip (m : Mach) (n : Nat) : Mach :=
  (m.bump F.ENC_CTX_SKIPPED_COUNT n).count 189 |>.encCause n F.ENC_CTX_CAUSE_SKIPPED

/-- The picture in progress ends under R194; one whose row 0 has not started is not in progress and is dropped. -/
def Mach.encEnd (m : Mach) (n : Nat) (captureLost : Bool) : Mach :=
  let c := m.encCtx n
  match c.cur with
  | some p => if p.unstarted then m.setEncCtx n { c with cur := none } else m.endFallback n captureLost
  | none => m

/-- Frame `num` of port c fails (R143): it is dropped where coding has not begun, and its pictures end (R194). -/
def Mach.encFrameFailed (m : Mach) (c num : Nat) : Mach :=
  (List.range 16).foldl (fun m n =>
    if m.encState n = encFree ∨ m.get F.ENC_CTX_CFG_PORT n ≠ c then m
    else
      let is (p : EncPic) : Bool := p.frame.wit.frameNum = num
      let x := m.encCtx n
      let m := if x.next.any is then m.setEncCtx n { x with next := none } else m
      if x.cur.any is then m.encEnd n true else m) m

/-- Frame f of port c is accepted: the record of its last slice is known (R186). -/
def Mach.encFrameDone (m : Mach) (c : Nat) (f : Pic) : Mach :=
  (List.range 16).foldl (fun m n =>
    if m.encState n = encFree ∨ m.get F.ENC_CTX_CFG_PORT n ≠ c then m
    else
      let upd (p : EncPic) : EncPic := if p.frame.id = f.id then { p with frame := f } else p
      let x := m.encCtx n
      if x.cur.isNone ∧ x.next.isNone then m
      else m.setEncCtx n { x with cur := x.cur.map upd, next := x.next.map upd }) m

/-- Frame `num` of port c starts: a context still at the frame two before it ends that picture at once (R182). -/
def Mach.encLate (m : Mach) (c num : Nat) : Mach :=
  (List.range 16).foldl (fun m n =>
    if m.encState n = encFree ∨ m.get F.ENC_CTX_CFG_PORT n ≠ c then m
    else
      let old (p : EncPic) : Bool := p.frame.wit.frameNum + 2 ≤ num
      let x := m.encCtx n
      let m := if x.next.any old then (m.setEncCtx n { x with next := none }).encSkip n else m
      match x.cur with
      | some p => if !old p then m else if p.unstarted then (m.encEnd n false).encSkip n else m.encEnd n false
      | none => m) m

/-- A picture of a frame (R181, R188): whether it is a key or a refresh picture is settled when its row 0 starts. -/
def Mach.newEncPic (m : Mach) (n : Nat) (f : Pic) (repeats : Nat) (frozen : Bool) : EncPic :=
  { frame := f, key := false, refresh := false, budget := 0, rem := 0, held := 0,
    rows := List.replicate (m.encRows n) encRow0, fallen := false, starved := 0, lost := 0, emitted := 0,
    out := 0, requested := false, prevRepeats := repeats, prevFrozen := frozen }

/-- The waiting frame becomes the picture in progress. -/
def Mach.beginPicture (m : Mach) (n : Nat) : Mach :=
  let c := m.encCtx n
  match c.cur, c.next with
  | none, some p => m.setEncCtx n { c with cur := some p, next := none }
  | _, _ => m

/-- A frame start of the port, for one context (R181, R183). Entering RUNNING begins a key picture (R188). -/
def Mach.encFrameStart (m : Mach) (n : Nat) (f : Pic) (repeats : Nat) (frozen : Bool) : Mach :=
  let c := m.encCtx n
  let st := m.encState n
  if st ≠ encWaitFrame ∧ st ≠ encRunning then m
  else
    let first := decide (st = encWaitFrame)
    let take := first || c.divCount % max 1 (m.get F.ENC_CTX_CFG_DIV n) = 0
    let c := { c with divCount := (if first then 0 else c.divCount) + 1, nextKey := c.nextKey || first }
    if !take then m.setEncCtx n c
    else
      let (c, skip) := match c.next, c.cur with
        | some _, _ => ({ c with next := none }, true)
        | none, some p => if p.unstarted then ({ c with cur := none }, true) else (c, false)
        | none, none => (c, false)
      let m := m.setEncCtx n { c with next := some (m.newEncPic n f repeats frozen) }
      let m := if skip then m.encSkip n else m
      (if first then m.setEncState n encRunning else m).beginPicture n

/-! ### Emission (R185 to R187, R190, R195) -/

/-- Rows of slice k, and whether they are all coded. -/
def Mach.sliceRows (m : Mach) (n k : Nat) : List Nat :=
  let per := max 1 (m.get F.ENC_CTX_CFG_ROWS n)
  (List.range (m.encRows n)).filter fun r => r / per = k

/-- The entry of CTU i: the encoder's own measurements, free values, with MODE 3 and no motion where its row was coded as
fallback, and another MODE where it was not. -/
def Mach.ctuEntry (m : Mach) (n : Nat) (p : EncPic) (i : Nat) : Nat :=
  let x := Config.ctuStats (m.get F.ENC_CTX_PICS_CODED n) i
  let wide := ceilDiv (m.get F.ENC_CTX_GEOM_WIDTH n) 64
  let fb := (p.rows.getD (i / max 1 wide) encRow0).fallback
  let motion := if fb then 0 else x / 2 ^ 32 % 2 ^ 32
  motion <<< 32 ||| (x / 8 % 2 ^ 29) <<< 3 ||| (if fb then 3 else x / 2 % 3) <<< 1

/-- The statistics of R195 as words. -/
def Mach.statsBlock (m : Mach) (n : Nat) (p : EncPic) (bytes : Nat) : List Nat :=
  let ctus := ceilDiv (m.get F.ENC_CTX_GEOM_WIDTH n) 64 * m.encRows n
  let stamps := p.rows.map (·.content)
  let oldest := stamps.foldl min (stamps.headD p.frame.wit.capture)
  [oldest, (m.get F.ENC_CTX_STREAM_ID n) <<< 32 ||| (m.get F.ENC_CTX_PICS_CODED n % 2 ^ 20) <<< 12,
    bytes <<< 32 ||| (ctus % 65536) <<< 16 ||| (p.starved % 64) <<< 10 ||| (p.lost % 64) <<< 4
      ||| (if p.key then 8 else 0) ||| (if 0 < p.starved then 4 else 0),
    (32 + 8 * ctus) <<< 32 ||| ofSigned (m.getS F.ENC_STAT_QP n) 8 <<< 24]
    ++ (List.range ctus).map (m.ctuEntry n p)

/-- A privileged context writes its block into the ring, or drops it whole: the words, their address in the ring. No
block while stage S1 or higher is active. -/
def Mach.stats (m : Mach) (n : Nat) (p : EncPic) (bytes : Nat) : List (Nat × Nat) × Mach :=
  if !m.on F.ENC_CTX_CFG_PRIV n || 1 ≤ m.stage then ([], m)
  else
    let ws := m.statsBlock n p bytes
    -- WR and RD are byte offsets in the ring; a block that would make a full ring look empty does not fit.
    let size := m.get F.ENC_PRIV_RING_CTL_SIZE * 1024
    let wr := m.get F.ENC_PRIV_RING_WR_WR
    let used := (wr + size - m.get F.ENC_PRIV_RING_RD_RD % max 1 size) % max 1 size
    let len := 8 * ws.length
    if size ≤ used + len then
      ([], (m.bump F.ENC_PRIV_DROPS_COUNT).encCause n F.ENC_CTX_CAUSE_STATS_DROPPED)
    else
      ((ws.zip (List.range ws.length)).map fun (w, i) => (m.get F.ENC_PRIV_RING_BASE_BASE + (wr + 8 * i) % max 1 size, w),
        (m.put F.ENC_PRIV_RING_WR_WR ((wr + len) % max 1 size)).count 190)

/-- The record of slice k (R186). -/
def Mach.sliceRecord (m : Mach) (n : Nat) (p : EncPic) (k : Nat) (last : Bool) : Witness :=
  let per := max 1 (m.get F.ENC_CTX_CFG_ROWS n)
  let stamps := (p.rows.take ((k + 1) * per)).map (·.content)
  let port := m.get F.ENC_CTX_CFG_PORT n
  { p.frame.wit with capture := stamps.foldl min (stamps.headD p.frame.wit.capture), pixelCrc := 0,
                     streamId := m.get F.ENC_CTX_STREAM_ID n,
                     repeats := if !last then p.prevRepeats
                       else if p.frame.last then p.frame.wit.repeats else m.get F.CAP_STATUS_REPEATS port,
                     frozen := if !last then p.prevFrozen
                       else if p.frame.last then p.frame.wit.frozen else m.on F.CAP_STATUS_FROZEN port }

/-- The Ethernet copy of a slice (R137): single NAL unit packets, and fragmentation units within MAX_FRAME, the record
on the slice's first packet (R186). Every packet of a picture bears the RTP timestamp of its frame's capture. Nothing goes to a
destination that the neighbour cache does not hold (R128). -/
def Mach.sendRtp (m : Mach) (id port capture : Nat) (w : Witness) (nals : List (List Nat)) (last : Bool) : Mach :=
  let room := m.get F.ETH_PORT_CTL_MAX_FRAME port - 140
  let payloads := nals.flatMap fun nal =>
    if nal.length ≤ room then [nal]
    else
      let h0 := nal.headD 0
      let body := nal.drop 2
      let per := max 1 (room - 3)
      let cnt := ceilDiv body.length per
      (List.range cnt).map fun i =>
        let s := if i = 0 then 128 else 0
        let e := if i + 1 = cnt then 64 else 0
        [h0 % 2 + 98 + h0 / 128 * 128, nal.getD 1 0, s + e + h0 / 2 % 64] ++ (body.drop (i * per)).take per
  let ts := capture * 9 / 100000 % 2 ^ 32
  let cnt := payloads.length
  let dest := Config.rtpDest id
  match m.linkMac port dest with
  | none => m
  | some mac => (payloads.zip (List.range cnt)).foldl (fun m (pl, i) =>
    let seq := tGet m.eth.rtpSeq 0 id
    let m := { m with eth := { m.eth with rtpSeq := tPut m.eth.rtpSeq 0 id ((seq + 1) % 65536) } }
    (m.emit (.ethTx port (.rtp mac dest id seq ts (last && i + 1 = cnt) (if i = 0 then some w.words else none)
      pl))).frameSent port) m

/-- The registers of context n take their POR values, but for its state (R403). -/
def Mach.encCtxPor (m : Mach) (n : Nat) : Mach :=
  m.returnFields fun d i f => d.block = .enc && 0x1000 ≤ d.off && i = n && f.rst = .reset && f.field ≠ F.ENC_CTX_CFG_STATE

/-- The context is released once its picture is complete (R180, R179: refused ALWAYS entries are requested again, and
after a SOFT restart the entry itself, R403). -/
def Mach.encReap (m : Mach) (n : Nat) : Mach :=
  let c := m.encCtx n
  if !c.releasing ∨ c.cur.isSome then m
  else
    let id := m.get F.ENC_CTX_STREAM_ID n
    let e := (m.encodeEntry id).getD []
    -- A DEMAND stream that has been joined anew meanwhile asks again.
    let ask := m.enc.again.contains id
      || (b1 e 9 = 1 && (m.entryOf { origin := m.nodeId, span := false, id := id, part := 0 }).isSome)
    let m := m.put F.ENC_ADMIT_USED (m.get F.ENC_ADMIT_USED - encRate e) |>.setEncCtx n encCtx0
      |>.setEncState n encFree |>.putB F.ENC_CTX_CFG_VALID false n |>.put F.ENC_CTX_STREAM_ID 0 n
    let m := if c.restart then m.encCtxPor n else m
    let m := m.showEncContexts
    let m := if ask then ({ m with enc := { m.enc with again := m.enc.again.filter (· ≠ id) } }.encRequest e).2 else m
    m.encStart false

/-- A picture is complete (R188 to R195). -/
def Mach.encPictureDone (m : Mach) (n : Nat) (p : EncPic) : List (Nat × Nat) × Mach :=
  let c := m.encCtx n
  let bytes := p.out
  let w := m.get F.ENC_CTX_GEOM_WIDTH n
  let h := m.get F.ENC_CTX_GEOM_HEIGHT n
  let period := m.get F.ENC_CTX_LTR_LTR_PERIOD n
  let mark := 0 < period && period ≤ c.sinceLtr + 1
  let stamps := p.rows.map (·.content)
  let counted := (max bytes (minPic w h)) :: c.counted
  let c := { c with cur := none, counted := counted.take 256, refStamps := stamps,
                    ltr := if mark then tIns c.ltr c.ltrNext stamps else c.ltr,
                    ltrNext := if mark then 1 - c.ltrNext else c.ltrNext,
                    sinceLtr := if mark then 0 else c.sinceLtr + 1 }
  let hit := decide (0 < p.starved)
  let m := m.setEncCtx n c
  let m := m.putB F.ENC_STAT_CAP_HIT hit n |>.putB F.ENC_STAT_KEY p.key n |>.putB F.ENC_STAT_REFRESH p.refresh n
    |>.putB F.ENC_STAT_LTR_MARK mark n |>.put F.ENC_STAT_ROWS_STARVED p.starved n |>.put F.ENC_STAT_ROWS_LOST p.lost n
    |>.put F.ENC_STAT_QP (m.get F.ENC_CTX_STATUS_Q_NOW n) n |>.put F.ENC_STAT_BYTES_BYTES bytes n
    |>.put F.ENC_STAT_FRAME_FRAME_NUM p.frame.wit.frameNum n |>.put F.ENC_STAT_BUDGET_BUDGET p.budget n
    |>.put F.ENC_CTX_STATUS_WIN_USED
      (min (2 ^ 24 - 1) ((counted.take (m.get F.ENC_CTX_WIN_WIN_PICS n - 1)).foldl (· + ·) 0 / 16)) n
    |>.put F.ENC_CTX_LTR_HELD (c.ltr.foldl (fun a e => setBit a e.1) 0) n
    |>.advance F.ENC_CTX_PICS_CODED n |>.count 185
  let m := if p.key then (m.bump F.ENC_CTX_KEYS_COUNT n).count 188 else m
  let m := if 0 < p.starved then m.bump F.ENC_CTX_ROWS_STARVED_COUNT n p.starved else m
  let m := if hit then (m.bump F.ENC_CTX_CAP_HITS_COUNT n).count 186 |>.encCause n F.ENC_CTX_CAUSE_CAP_HIT
      |>.trouble F.ENC_TROUBLE_CAP_HIT 0 n else m
  let m := if p.requested && p.key then m.encCause n F.ENC_CTX_CAUSE_KEY_DONE else m
  let m := (m.rateControl n bytes p.budget hit).encCause n F.ENC_CTX_CAUSE_PIC_DONE
  let (ws, m) := m.stats n p bytes
  (ws, ((m.encReap n).beginPicture n).dispatchRows)

/-- SLICE_EMIT (R185): the next slice in order goes out once all its rows are coded. -/
def Mach.sliceEmit (m : Mach) (n : Nat) (nals : List (List Nat)) : List (Nat × Nat) × Mach :=
  let c := m.encCtx n
  match c.cur with
  | none => ([], m)
  | some p =>
    let k := p.emitted
    let rows := m.sliceRows n k
    if rows.isEmpty || rows.any (fun r => (p.rows.getD r encRow0).st ≠ 2) then ([], m)
    else
      let last := rows.contains (m.encRows n - 1)
      let id := m.get F.ENC_CTX_STREAM_ID n
      let w := m.sliceRecord n p k last
      let m := m.chkUnit 10 true
      let bytes := nalStream nals
      let p := { p with emitted := k + 1, out := p.out + (nals.map (·.length)).foldl (· + ·) 0 }
      let w4 := bytes.length <<< 32 ||| (k % 65536) <<< 16 ||| (if p.key then 2 ^ 15 else 0)
        ||| (if last then 2 ^ 14 else 0)
      let key : FlowKey := { origin := m.nodeId, span := false, id := id, part := 0 }
      let m := (m.sendFlow key 5 (m.streamVc id) (w.words ++ [w4, 0]) (bytesWords (bytes.length + 1) bytes)
        bytes.length).count 184
      let m := match m.encodeEntry id with
        | some e => if (b1 e 13).testBit 3 then m.sendRtp id (b1 e 14) p.frame.wit.capture w nals last else m
        | none => m
      let m := (m.setEncCtx n { c with cur := some p }).encCause n F.ENC_CTX_CAUSE_SLICE
      if last then m.encPictureDone n p else ([], m)

/-- A context's release (R180): the picture in progress completes under R194 first. -/
def Mach.encRelease (m : Mach) (n : Nat) : Mach :=
  if m.encState n = encFree then m
  else
    let m := m.encEnd n false
    let c := m.encCtx n
    (m.setEncCtx n { c with next := none, releasing := true }).encReap n

/-! ### Key requests (R188, R189) -/

/-- A request for a stream that no running context codes is dropped and counted. -/
def Mach.encRequestPicture (m : Mach) (id : Nat) (refresh : Bool) : Mach :=
  match m.encCtxOf id with
  | some n =>
    if m.encState n ≠ encRunning then m.bump F.ENC_KEY_DROPS_COUNT
    else
      let c := m.encCtx n
      let c := if refresh then { c with refreshWanted := true } else { c with keyWanted := true }
      m.setEncCtx n c
  | none => m.bump F.ENC_KEY_DROPS_COUNT

/-- A stream's last branch has left: a DEMAND context is released (R178). -/
def Mach.encUnjoined (m : Mach) (key : FlowKey) : Mach :=
  if key.span ∨ key.origin ≠ m.nodeId ∨ (m.entryOf key).isSome then m
  else
    match m.encCtxOf key.id with
    | some n => if m.get F.ENC_CTX_CFG_START n = 1 then m.encRelease n else m
    | none => m

/-- Shedding at a frame start of the port (R196); in SERVICE every context is shed (R396). -/
def Mach.encStage (m : Mach) (port : Nat) : Mach :=
  (List.range 16).foldl (fun m n =>
    if m.encState n = encFree ∨ m.get F.ENC_CTX_CFG_PORT n ≠ port then m
    else
      let sheds := m.shedsEss (m.get F.ENC_CTX_CFG_ESS n) || m.mode = .service
      if sheds && m.encState n ≠ encShed then
        let m := m.encEnd n false
        let c := m.encCtx n
        (m.setEncCtx n { c with next := none }).setEncState n encShed
      else if !sheds && m.encState n = encShed then m.setEncState n encWaitFrame
      else m) m

end Sys2Proof.Machine
end

