-- ==== Sys2Proof/Machine/Ingest.lean ====
section
/-! DEFINITION. Camera capture (R142 to R145) and Ethernet (R126 to R137, R146): frames on the two CSI-2 ports, packet
checks and classes, neighbours, memberships, RTP reassembly, sender reports, witness records and forwarding. The
management protocol is in Manage.lean. -/

namespace Sys2Proof.Machine

/-! ### Capture ports -/

def capPort0 : CapPort :=
  { frameNum := 0, prevFnum := none, current := none, crc := 0, lineCount := 0, failed := 0, frames := [], store := [], crcs := [],
    goodRun := 0, gap := false, slotsUsed := 0 }

def Mach.capPort (m : Mach) (c : Nat) : CapPort := tGet m.cap.ports capPort0 c

def Mach.setCapPort (m : Mach) (c : Nat) (x : CapPort) : Mach :=
  { m with cap := { m.cap with ports := tPut m.cap.ports capPort0 c x } }

def capOff : Nat := 0
def capWaiting : Nat := 1
def capReceiving : Nat := 2
def capSilentSt : Nat := 3

def Mach.capState (m : Mach) (c : Nat) : Nat := m.get F.CAP_STATUS_STATE c

/-- CAP_PORT_START (R145). -/
def Mach.capStart (m : Mach) (c : Nat) : Mach :=
  if m.on F.CAP_CTL_EN c then
    let x := m.capPort c
    (m.setCapPort c { capPort0 with frames := x.frames, store := x.store }).put F.CAP_STATUS_STATE capWaiting c
  else m.put F.CAP_STATUS_STATE capOff c

/-- CAP_EN_WRITE (R145): EN goes from 0 to 1. A port enabled in a mode in which none works starts with the node's
services. -/
def Mach.capEnWrite (m : Mach) (c : Nat) : Mach :=
  if m.on F.CAP_CTL_EN c then m
  else
    let m := m.putB F.CAP_CTL_EN true c
    if m.mode.runs then m.capStart c else m

/-- Slots of the capture pool in use (R143, R182): frames that an encode context or the compositor holds. -/
def Mach.capHeld (m : Mach) (c : Nat) : List Nat :=
  let enc := m.enc.ctxs.flatMap fun e =>
    if m.get F.ENC_CTX_CFG_PORT e.1 = c then ((e.2.cur.toList ++ e.2.next.toList).filter fun p =>
      p.rows.any fun r => r.st ≠ 2).map (fun p => p.frame.wit.frameNum)
    else []
  let cmp := (m.capPort c).frames.map (fun p => p.wit.frameNum)
  (enc ++ cmp).eraseDups

def Mach.capSlots (m : Mach) (c : Nat) : Nat := (m.capHeld c).length

/-! ### Pool contents (R143, R160) -/

/-- Samples of a line packet in their order, U Y V Y, of 8 or 10 bits: the layouts of MIPI CSI-2 (log entry 87). -/
def csiTens : List Nat → List Nat
  | a :: b :: c :: d :: e :: rest =>
    [a * 4 + e % 4, b * 4 + e / 4 % 4, c * 4 + e / 16 % 4, d * 4 + e / 64] ++ csiTens rest
  | _ => []

/-- Luma and interleaved chroma samples of a line. -/
def splitUyvy : List Nat → List Nat × List Nat
  | u :: y :: rest => let (ys, cs) := splitUyvy rest; (y :: ys, u :: cs)
  | _ => ([], [])

/-- A quotient whose rounding the spec leaves open. -/
def openQuot (a b : Nat) : Nat := a / b + if a % b ≠ 0 && Config.roundsUp a b then 1 else 0

/-- A sample of the camera in the pool format: 8 bits in a 10-bit code are shifted left by 2 (R160); the spec does not say
how 10 bits become 8, and their rounding is open. -/
def poolSample (fmt : Nat) (ten : Bool) (v : Nat) : Nat :=
  if ten && fmt < 2 then min 255 (openQuot v 4) else if !ten && 2 ≤ fmt then v * 4 else v

/-- A line enters the pool: its luma, and its chroma as it is, or averaged with the line's above for 4:2:0. -/
def CapStore.addLine (x : CapStore) (fmt : Nat) (ten : Bool) (data : List Nat) : CapStore :=
  let (ys, cs) := splitUyvy (if ten then csiTens data else data)
  let ys := ys.map (poolSample fmt ten)
  let cs := cs.map (poolSample fmt ten)
  let x := { x with luma := packLine fmt ys :: x.luma }
  if fmt % 2 = 1 then { x with chroma := packLine fmt cs :: x.chroma }
  else match x.half with
    | none => { x with half := some cs }
    | some above =>
      { x with chroma := packLine fmt ((above.zip cs).map fun p => openQuot (p.1 + p.2) 2) :: x.chroma, half := none }

/-- A slot is freed when neither the compositor nor an encode context holds its frame any longer. -/
def Mach.trimStore (m : Mach) (c : Nat) : Mach :=
  let held := m.capHeld c
  let x := m.capPort c
  m.setCapPort c { x with store := x.store.filter fun s => held.contains s.frame }

/-- At a frame start the compositor gives the older frame up within a band time (R210): at its next slot start, or at
once while no frame is in composition. -/
def Mach.releaseFrames (m : Mach) (c : Nat) : Mach :=
  let x := m.capPort c
  (m.setCapPort c { x with frames := x.frames.take 2 }).trimStore c

/-- A frame is dropped whole (R143, R148), with the cause of its first failure: 1 ECC or CRC, 2 geometry, 3 overflow, 4 a
missing frame end. -/
def Mach.dropFrame (m : Mach) (c cause : Nat) : Mach :=
  let m := (m.bump F.CAP_DROPS_COUNT (c * 4 + (cause - 1))).count (130 + 8 * c)
  let m := if cause = 3 then m.trouble F.CAP_TROUBLE_OVERFLOW c else m.trouble F.CAP_TROUBLE_FORMAT c
  let m := if cause = 2 then m.raise (135 + 8 * c) else m
  m.raise (131 + 8 * c)

/-- CSI_FRAME_START (R144, R182, R183): stamped, a slot taken, encode contexts start or skip. -/
def Mach.csiFrameStart (m : Mach) (c vc fnum : Nat) : Mach :=
  if m.capState c = capOff ∨ vc ≠ m.get F.CAP_CTL_VC c then m
  else
    let x := m.capPort c
    let m := m.count (128 + 8 * c)
    -- A frame still open has lost its frame end (R143).
    let m := match x.current with
      | some _ => m.dropFrame c (if x.failed ≠ 0 then x.failed else 4)
      | none => m
    let lostEnd := x.current.isSome
    let m := if lostEnd && x.failed = 0 then m.encFrameFailed c x.frameNum else m
    let frames := if lostEnd then x.frames.filter (fun p => p.wit.frameNum ≠ x.frameNum) else x.frames
    let num := x.frameNum + 1
    let cont : Bool := m.on F.CAP_CTL_FNUM_CHECK c && (fnum = 0 || (match x.prevFnum with
      | some q => decide (fnum ≠ q + 1 ∧ fnum ≠ 1)
      | none => false))
    let adj := m.get F.CAP_TIMING_STAMP_ADJ c * 1000
    let w : Witness := { capture := m.now - adj, uStamp := 0, frameNum := num, pixelCrc := 0, cls := 2, repeats := 0,
                         frozen := false, gap := x.gap || lostEnd, continuity := cont,
                         holdover := decide (m.servo = servoHoldover ∨ m.servo = servoSlew),
                         srcNode := m.nodeId, streamId := m.get F.CAP_ID_ID c }
    let u := ceilDiv m.uNode 1000
    let w := { w with uStamp := u }
    let shed := fun n => m.encState n = encShed
    let m := (m.encStage c).encLate c num
    let full := decide (4 ≤ m.capSlots c)
    let f : Pic := { id := num, wit := w, lines := 0, rows := [], width := m.get F.CAP_GEOM_WIDTH c,
                     height := m.get F.CAP_GEOM_HEIGHT c, cropX := 0, cropY := 0, fmt := m.get F.CAP_CTL_POOL_FMT c,
                     last := false, concealed := false, clean := true, arrived := m.raw, usedBy := none,
                     form := { coded := m.get F.CAP_GEOM_HEIGHT c } }
    let x' := { x with frameNum := num, prevFnum := some fnum, current := some f, crc := 0xFFFFFFFF, lineCount := 0,
                       failed := if full then 3 else 0, gap := x.gap || lostEnd,
                       frames := if full then frames else f :: frames,
                       store := if full then x.store else { frame := num } :: x.store }
    let m := m.setCapPort c x'
    let m := if m.cmp.composing then m else m.releaseFrames c
    if full then m
    else
      let m := (List.range 16).foldl (fun m n =>
        if m.get F.ENC_CTX_CFG_PORT n = c ∧ !shed n then
          m.encFrameStart n f (m.get F.CAP_STATUS_REPEATS c) (m.on F.CAP_STATUS_FROZEN c) else m) m
      m.dispatchRows

/-- The frame in progress as the pool shows it now. -/
def Mach.showFrame (m : Mach) (c : Nat) (f : Pic) : Mach :=
  let x := m.capPort c
  m.setCapPort c { x with frames := x.frames.map fun (p : Pic) => if p.id = f.id then f else p }

/-- A frame has failed (R143): no band whose slot starts later chooses it, and the encoder ends its pictures (R21). -/
def Mach.failFrame (m : Mach) (c cause : Nat) : Mach :=
  let x := m.capPort c
  if x.failed ≠ 0 then m
  else (m.setCapPort c { x with failed := cause, frames := x.frames.filter (fun p => p.id ≠ x.frameNum) }).encFrameFailed c
    x.frameNum

/-- CSI_LINE (R143): other channels and data types are dropped uncounted; a line's payload joins PIXEL_CRC, which is
computed byte by byte with the algorithm of channel 8 + c. -/
def Mach.csiLine (m : Mach) (c vc dt : Nat) (data : List Nat) (good : Bool) : Mach :=
  let x := m.capPort c
  match x.current with
  | none => m
  | some f =>
    if vc ≠ m.get F.CAP_CTL_VC c ∨ dt ≠ m.get F.CAP_CTL_DT c then m
    else if x.failed ≠ 0 then m
    else
      -- A line of YUV422 10-bit carries four samples in five bytes, one of 8 bits two bytes a pixel.
      let w := m.get F.CAP_GEOM_WIDTH c
      let bytes := if dt = 0x1F then w * 5 / 2 else 2 * w
      if !good then m.failFrame c 1
      else if data.length ≠ bytes ∨ m.get F.CAP_GEOM_HEIGHT c ≤ x.lineCount then m.failFrame c 2
      else
        let crc := data.foldl CrcAlg.crc32c.step x.crc
        let f := { f with lines := x.lineCount + 1 }
        let fmt := m.get F.CAP_CTL_POOL_FMT c
        let store := x.store.map fun (s : CapStore) => if s.frame = x.frameNum then s.addLine fmt (dt = 0x1F) data else s
        let m := m.setCapPort c { x with crc := crc, lineCount := x.lineCount + 1, current := some f, store := store }
        (((m.showFrame c f).count (133 + 8 * c)).encLines c x.frameNum (x.lineCount + 1)).dispatchRows

/-- FROZEN_DETECT (R41). -/
def Mach.frozenDetect (m : Mach) (c crc : Nat) : Mach :=
  let x := m.capPort c
  let repeat_ := x.crcs.contains crc
  let rep := if repeat_ then min 255 (m.get F.CAP_STATUS_REPEATS c + 1) else 0
  let n := m.get F.CAP_CTL_FROZEN_N c
  let good := if repeat_ then 0 else x.goodRun + 1
  let was := m.on F.CAP_STATUS_FROZEN c
  let now := if was then decide (good < n) else decide (n - 1 ≤ rep)
  let m := m.setCapPort c { x with crcs := (crc :: x.crcs).take 2, goodRun := good }
  let m := m.put F.CAP_STATUS_REPEATS rep c |>.putB F.CAP_STATUS_FROZEN now c
  let m := if repeat_ then m.count (131 + 8 * c) else m
  if now && !was then m.raise (129 + 8 * c) else if was && !now then m.raise (130 + 8 * c) else m

/-- CSI_FRAME_END (R143, R144): the frame is accepted with its record, or dropped whole. -/
def Mach.csiFrameEnd (m : Mach) (c vc : Nat) : Mach :=
  let x := m.capPort c
  match x.current with
  | none => m
  | some f =>
    if vc ≠ m.get F.CAP_CTL_VC c then m
    else
      let cause := if x.failed ≠ 0 then x.failed else if x.lineCount ≠ m.get F.CAP_GEOM_HEIGHT c then 2 else 0
      if cause ≠ 0 then
        let m := m.failFrame c cause
        let x := m.capPort c
        (m.setCapPort c { x with current := none, gap := true }).dropFrame c cause
      else
        let crc := x.crc ^^^ 0xFFFFFFFF
        let m := (m.chkUnit (8 + c) true).frozenDetect c crc
        let w := { f.wit with pixelCrc := crc, repeats := m.get F.CAP_STATUS_REPEATS c,
                              frozen := m.on F.CAP_STATUS_FROZEN c }
        let f := { f with wit := w, last := true, lines := f.height }
        let m := m.showFrame c f
        let x := m.capPort c
        let m := (m.setCapPort c { x with current := none, gap := false }).count (129 + 8 * c) |>.chkUnit 10 true
        let m := m.put F.CAP_FRAMES_FRAME_NUM w.frameNum c
        let m := if w.continuity then (m.trouble F.CAP_TROUBLE_CONTINUITY c).count (135 + 8 * c) |>.raise (132 + 8 * c)
          else m
        let m := if m.capState c = capSilentSt then m.raise (134 + 8 * c) else m
        (((m.put F.CAP_STATUS_STATE capReceiving c).raise (128 + 8 * c)).encFrameDone c f).dispatchRows

/-- CAP_SILENT (R145). -/
def Mach.capSilent (m : Mach) (c : Nat) : Mach :=
  if m.capState c = capWaiting ∨ m.capState c = capReceiving then
    ((m.put F.CAP_STATUS_STATE capSilentSt c).stopFeeds (fun f => f = .cap c) reasonNoSignal).raise (133 + 8 * c)
  else m

/-! ### Ethernet: entries and drops -/

def ethStream0 : EthStream :=
  { started := false, highSeq := 0, lastTs := none, seen := [], released := [], aus := [], dropped := [], sr := none, ssrc := 0,
    frameNum := 0, sinceRaw := 0, bucket := none }

/-- Entry i = port × 64 + s. -/
def Mach.ethStream (m : Mach) (i : Nat) : EthStream := tGet m.eth.streams ethStream0 i

def Mach.setEthStream (m : Mach) (i : Nat) (x : EthStream) : Mach :=
  { m with eth := { m.eth with streams := tPut m.eth.streams ethStream0 i x } }

/-- Entry states (R146). -/
def entOff : Nat := 0
def entIdle : Nat := 1
def entWaiting : Nat := 2
def entReceiving : Nat := 3
def entSilent : Nat := 4
def entRefused : Nat := 5

def Mach.entState (m : Mach) (i : Nat) : Nat := m.get F.ETH_STREAM_STATUS_STATE i

/-- An entry changes its state: event 97 + 4p (R148). -/
def Mach.setEnt (m : Mach) (i st : Nat) : Mach :=
  if m.entState i = st then m else (m.put F.ETH_STREAM_STATUS_STATE st i).raise (97 + 4 * (i / 64))

/-- A packet is dropped and counted (R127, R148): event 99 + 4p at most once per 1 ms. -/
def Mach.ethDrop (m : Mach) (p k : Nat) : Mach :=
  ((m.bump F.ETH_DROP_COUNT (p * 16 + k)).count (97 + 4 * p)).raiseLimited (99 + 4 * p) (msTicks 1)

/-- A value of several 32-bit words, lowest word first. -/
def Mach.wide (m : Mach) (r : Reg) (i n : Nat) : Nat :=
  (List.range n).foldl (fun a k => a + (m.rd r (i * n + k)).toNat % 2 ^ 32 * 2 ^ (32 * k)) 0

/-! ### Membership (R130) and entries in use (R147, R152) -/

/-- The memberships of a port hold group and source; entries with the same pair share one. -/
def Mach.showGroups (m : Mach) (p : Nat) : Mach := m.put F.ETH_PORT_STATUS_GROUPS (m.ethPort p).groups.length p

def Mach.entDst (m : Mach) (i : Nat) : Nat := m.wide .ETH_STREAM_DST i 4
def Mach.entSrc (m : Mach) (i : Nat) : Nat := m.wide .ETH_STREAM_SRC i 4

/-- The entry's group is joined: false when the port already holds 64 others. -/
def Mach.joinGroup (m : Mach) (i : Nat) : Bool × Mach :=
  let p := i / 64
  let g := (m.entDst i, m.entSrc i)
  let x := m.ethPort p
  if !isGroup g.1 || x.groups.contains g then (true, m)
  else if 64 ≤ x.groups.length then
    (false, (m.trouble F.ETH_TROUBLE_GROUPS_FULL p))
  else
    let m := m.setEthPort p { x with groups := x.groups ++ [g], repeats := x.repeats ++ [g] }
    (true, (m.showGroups p).emit (.ethTx p (.report g.1 g.2 true)) |>.frameSent p)

/-- The membership ends, with a leave report, when no other entry in use needs it. -/
def Mach.leaveGroup (m : Mach) (i : Nat) : Mach :=
  let p := i / 64
  let g := (m.entDst i, m.entSrc i)
  let x := m.ethPort p
  let shared := (List.range 64).any fun s =>
    p * 64 + s ≠ i && 2 ≤ m.entState (p * 64 + s) && m.entState (p * 64 + s) ≤ 4
      && m.entDst (p * 64 + s) = g.1 && m.entSrc (p * 64 + s) = g.2
  if shared || !x.groups.contains g then m
  else
    let m := m.setEthPort p { x with groups := x.groups.erase g, repeats := x.repeats.erase g }
    (m.showGroups p).emit (.ethTx p (.report g.1 g.2 false)) |>.frameSent p

/-- MEMBERSHIP_REPORT (R130): the second unsolicited report of a group, for each source it was joined with. -/
def Mach.membershipReport (m : Mach) (p group : Nat) : Mach :=
  let x := m.ethPort p
  let due := x.repeats.filter fun g => g.1 = group
  let m := m.setEthPort p { x with repeats := x.repeats.filter fun g => g.1 ≠ group }
  due.foldl (fun m g => (m.emit (.ethTx p (.report g.1 g.2 true))).frameSent p) m

/-- An entry starts to be used (R146, R152): WAITING, its group joined; false when the membership is refused. -/
def Mach.entUse (m : Mach) (i : Nat) : Bool × Mach :=
  match m.joinGroup i with
  | (false, m) => (false, m.setEnt i entRefused)
  | (true, m) => (true, (m.setEthStream i { ethStream0 with sinceRaw := m.raw }).setEnt i entWaiting)

/-- The entry forwards its stream to the fabric (R137), which is a use of its own (log entry 86). -/
def Mach.entForwards (m : Mach) (i : Nat) : Bool := m.on F.ETH_STREAM_CTL_EN i && m.on F.ETH_STREAM_CTL_FWD i

/-- An entry's last user leaves (R147): IDLE, or OFF when it is not enabled. A forward keeps it in use. -/
def Mach.entIdleNow (m : Mach) (i : Nat) : Mach :=
  if m.entForwards i then m
  else
    let m := m.leaveGroup i
    let m := m.setEthStream i ethStream0 |>.putB F.ETH_STREAM_STATUS_SR_VALID false i
    m.setEnt i (if m.on F.ETH_STREAM_CTL_EN i then entIdle else entOff)

/-- The layers that an entry feeds, itself or through the span that this node decodes from its stream. -/
def Mach.entFeed (m : Mach) (i : Nat) (f : Feed) : Bool :=
  match f with
  | .eth e _ => e = i
  | .ownSpan _ s => s = m.get F.ETH_STREAM_ID_ID i
  | _ => false

/-- STREAM_SILENT (R134). -/
def Mach.streamSilent (m : Mach) (i : Nat) : Mach :=
  if m.entState i = entWaiting ∨ m.entState i = entReceiving then
    (m.setEnt i entSilent).stopFeeds (m.entFeed i) reasonNoSignal
  else m

/-! ### Witness records and release (R132, R135 to R137) -/

/-- NAL units of an access unit's packets (RFC 7798, RFC 6184); a fragmented unit without a fragment is dropped. `part`
holds the fragments so far and the sequence number expected next. -/
def nalUnits (h264 : Bool) : List RtpPkt → Option (List Nat × Nat) → List (List Nat)
  | [], _ => []
  | p :: rest, part =>
    let b := p.payload
    let ty := if h264 then b.headD 0 % 32 else b.headD 0 / 2 % 64
    let hdr := if h264 then 1 else 2
    if (h264 && ty = 24) || (!h264 && ty = 48) then
      aggregate (b.drop hdr) (b.length + 1) ++ nalUnits h264 rest none
    else if (h264 && ty = 28) || (!h264 && ty = 49) then
      let fu := b.getD hdr 0
      let nal0 := if h264 then [b.headD 0 / 32 * 32 + fu % 32]
        else [b.headD 0 % 2 + b.headD 0 / 128 * 128 + fu % 64 * 2, b.getD 1 0]
      let body := b.drop (hdr + 1)
      let held := if fu / 128 = 1 then some (nal0 ++ body)
        else match part with
          | some (l, s) => if s = p.seq then some (l ++ body) else none
          | none => none
      match held with
      | some l =>
        if fu / 64 % 2 = 1 then l :: nalUnits h264 rest none
        else nalUnits h264 rest (some (l, (p.seq + 1) % 65536))
      | none => nalUnits h264 rest none
    else b :: nalUnits h264 rest none
where
  aggregate : List Nat → Nat → List (List Nat)
    | _, 0 => []
    | l, k + 1 =>
      if l.length < 2 then []
      else
        let n := l.headD 0 * 256 + l.getD 1 0
        (l.drop 2).take n :: aggregate (l.drop (2 + n)) k

/-- Signed differences of sequence numbers and timestamps. -/
def seqDiff (a b : Nat) : Int := toSigned (ofSigned ((a : Int) - b) 16) 16
def tsDiff (a b : Nat) : Int := toSigned (ofSigned ((a : Int) - b) 32) 32

/-- The capture time of R135 by a mapping (wall ns, RTP timestamp), rounded down to a nanosecond. -/
def mapCapture (map : Int × Nat × Nat) (ts : Nat) : Int := map.1 + tsDiff ts map.2.1 * 100000 / 9

/-- The element on the unit's first packet (R136). -/
def AuIn.record (a : AuIn) : Option (List Nat) := a.pkts.head?.bind (·.record)

/-- WITNESS_BUILD (R136): none drops the unit with its record (R40). The flag tells a fall back from CLASS_CFG. -/
def Mach.buildWitness (m : Mach) (i : Nat) (a : AuIn) (frame : Nat) : Option (Witness × Bool) :=
  let cfg := m.get F.ETH_STREAM_CTL_CLASS_CFG i
  let base : Witness := { capture := a.arrival, uStamp := ceilDiv m.uNode 1000, frameNum := frame, pixelCrc := 0,
                          cls := 0, repeats := 0, frozen := false, gap := false, continuity := false,
                          holdover := false, srcNode := m.nodeId, streamId := m.get F.ETH_STREAM_ID_ID i }
  let classB := match a.map with
    | some mp =>
      if m.raw ≤ mp.2.2 + msTicks (1000 * m.get F.ETH_STREAM_TIMES_REPORT i) then
        let u := m.get F.ETH_STREAM_RATE_SENDER_ERR i
          + (if m.on F.ETH_STREAM_CTL_WALL_TIMED i then 0 else ceilDiv m.rootU 1000)
        some { base with cls := 1, capture := (mapCapture mp a.ts).toNat, uStamp := u }
      else none
    | none => none
  let below : Option (Witness × Bool) := if cfg = 0 then some (base, false) else match classB with
    | some w => some (w, cfg = 2)
    | none => some (base, true)
  match a.record with
  | none => below
  | some ws => match Witness.ofWords ws with
    | none => none
    | some w => if cfg = 2 then some (w, false) else below

/-- A unit leaves reassembly; packets of it that come later are not accepted (R132). -/
def Mach.endAu (m : Mach) (i : Nat) (a : AuIn) : Mach :=
  let x := m.ethStream i
  m.setEthStream i { x with aus := x.aus.filter (fun b => b.ts ≠ a.ts), released := (a.ts :: x.released).take 64 }

/-- The flow of a forwarded stream carries a released unit as one slice (R137; log entry 82). -/
def Mach.forwardAu (m : Mach) (i : Nat) (au : Au) : Mach :=
  if !m.entForwards i then m
  else
    let id := m.get F.ETH_STREAM_ID_ID i
    let h264 := m.on F.ETH_STREAM_CTL_CODEC i
    let key : FlowKey := { origin := m.nodeId, span := false, id := id, part := 0 }
    let data := nalStream au.nals
    let w4 := data.length <<< 32 ||| (if au.startPoint h264 then 2 ^ 15 else 0) ||| 2 ^ 14
      ||| (if h264 then 2 ^ 10 else 0)
    m.sendFlow key 5 (m.streamVc id) (au.wit.words ++ [w4, 0]) (bytesWords (data.length + 1) data) data.length

/-- The decode context that takes the units of an entry. -/
def Mach.entCtx (m : Mach) (i : Nat) : Option Nat :=
  (m.ctxOfStream (m.get F.ETH_STREAM_ID_ID i)).bind fun n => if (m.decCtx n).fromEth = some i then some n else none

/-- A unit is released (R132): forwarding, the decode context's buffer, RECEIVING. -/
def Mach.passAu (m : Mach) (i : Nat) (au : Au) : Mach :=
  let m := (m.forwardAu i au).setEnt i entReceiving
  match m.entCtx i with
  | none => m
  | some n => match m.auEnqueue n au with
    | (true, m) => m
    | (false, m) => if m.decState n = decShed then m else m.ethDrop (i / 64) 15

/-- A unit is complete, or its time has passed: it is dropped with a bad record (R136) or as larger than its context's
buffer (R132), or else released, counted and passed on. -/
def Mach.releaseAu (m : Mach) (i : Nat) (a : AuIn) (loss : Bool) : Mach :=
  let x := m.ethStream i
  let m := m.endAu i a
  let nals := nalUnits (m.on F.ETH_STREAM_CTL_CODEC i) a.pkts none
  let bytes := (nals.map (·.length)).foldl (· + ·) 0
  match m.buildWitness i a (x.frameNum + 1) with
  | none => (m.chkUnit 10 false).witnessBad
  | some (w, down) =>
    let m := if a.record.isSome then m.chkUnit 10 true else m
    let big := match m.entCtx i with
      | some n => decide (m.get F.DEC_CTX_BS_BS_KIB n * 1024 < bytes)
      | none => false
    if big then m.ethDrop (i / 64) 10
    else
      let m := m.setEthStream i { m.ethStream i with lastTs := some a.ts, frameNum := x.frameNum + 1, sinceRaw := m.raw }
      let m := if loss then (m.bump F.ETH_STREAM_LOSS_AU_LOSS i).count (99 + 4 * (i / 64)) else m
      let m := m.put F.ETH_STREAM_STATUS_CLASS_NOW w.cls i
      let m := if down then m.raise 252 else m
      m.passAu i { wit := w, nals := nals, times := nals.map fun _ => m.now, bytes := bytes, loss := loss, closed := true,
                   key := false, raw := m.raw }

/-- Every sequence number of the unit from its first packet through its marker has arrived (R132): its first packet
follows a packet of another unit, or is the entry's first. -/
def EthStream.complete (x : EthStream) (a : AuIn) : Bool :=
  let first := x.lastTs.isNone && x.aus.head? = some a
  match a.pkts.head?, a.pkts.getLast? with
  | some f, some l =>
    l.marker && (seqDiff l.seq f.seq + 1 = a.pkts.length) && x.lastTs ≠ some a.ts
      && (first || (x.seen.contains ((f.seq + 65535) % 65536) && !a.pkts.any (fun q => q.seq = (f.seq + 65535) % 65536)))
  | _, _ => false

/-- Packets of a unit in sequence order. -/
def insertPkt (p : RtpPkt) : List RtpPkt → List RtpPkt
  | [] => [p]
  | q :: rest => if seqDiff p.seq q.seq < 0 then p :: q :: rest else q :: insertPkt p rest

/-- Every unit that is complete is released, the oldest first. -/
def Mach.releaseComplete (m : Mach) (i : Nat) : Nat → Mach
  | 0 => m
  | k + 1 =>
    let x := m.ethStream i
    match x.aus.find? x.complete with
    | some a => (m.releaseAu i a false).releaseComplete i k
    | none => m

/-- An accepted packet joins its access unit; the units that it completes are released at once. -/
def Mach.acceptRtp (m : Mach) (i : Nat) (pk : RtpPkt) (ts : Nat) : Mach :=
  let x := m.ethStream i
  let high := if !x.started || 0 < seqDiff pk.seq x.highSeq then pk.seq else x.highSeq
  let seen := (pk.seq :: x.seen).filter (fun s => -200 ≤ seqDiff s high)
  let aus := if x.aus.any (fun a => a.ts = ts) then
      x.aus.map fun (b : AuIn) => if b.ts = ts then { b with pkts := insertPkt pk b.pkts, lastRaw := m.raw } else b
    else x.aus ++ [{ ts := ts, pkts := [pk], arrival := pk.arrival, lastRaw := m.raw, map := x.sr }]
  (m.setEthStream i { x with started := true, highSeq := high, seen := seen, aus := aus, dropped := [] }).releaseComplete i
    (aus.length + 1)

/-- RESYNC (R133): 8 packets dropped in a row that agree in sequence and timestamp are the new reference. The sequence
numbers before it count as seen, so that no packet of an older unit is accepted. -/
def Mach.ethResync (m : Mach) (i seq ts : Nat) : Mach :=
  let x := m.ethStream i
  let d := (x.dropped ++ [(seq, ts)]).drop (x.dropped.length - 7)
  let agree := d.length = 8 && (d.zip (d.drop 1)).all fun (a, b) =>
    (a.1 + 1) % 65536 = b.1 && (tsDiff b.2 a.2).natAbs ≤ 90000
  if agree then
    (m.setEthStream i { x with dropped := [], started := true, highSeq := seq, seen := (List.range 33).map fun k => (seq + 65536 - k) % 65536,
                               aus := [], released := [], lastTs := some ts }).raise (97 + 4 * (i / 64))
  else m.setEthStream i { x with dropped := d }

/-- AU_RELEASE_TIMEOUT (R132): an incomplete unit is released with LOSS when a packet of a later unit has arrived. -/
def Mach.auReleaseTimeout (m : Mach) (i ts : Nat) : Mach :=
  let x := m.ethStream i
  match x.aus.find? (fun a => a.ts = ts) with
  | some a =>
    if (x.aus.map (·.ts) ++ x.released).any (fun t => 0 < tsDiff t ts) then m.releaseAu i a true else m
  | none => m

/-! ### RTP and RTCP packets (R131 to R135) -/

/-- The element of an RFC 8285 two-byte header extension with an ID. -/
def extElement (id : Nat) : List Nat → Nat → Option (List Nat)
  | _, 0 => none
  | l, k + 1 =>
    match l with
    | [] => none
    | [_] => none
    | e :: n :: rest => if e = 0 then extElement id (n :: rest) k
      else if e = id then some (rest.take n) else extElement id (rest.drop n) k

/-- An entry that nothing uses, or that is refused, drops its packets with reason 6 (R146). -/
def Mach.entUnused (m : Mach) (i : Nat) : Bool := [entOff, entIdle, entRefused].contains (m.entState i)

/-- RTP (R129, R131 to R133) for entry i: the payload of the UDP datagram. Its bytes are what the token bucket counts, and
a packet that R131 drops takes no tokens (log entry 61). -/
def Mach.rtp (m : Mach) (i : Nat) (l : List Nat) : Mach :=
  let p := i / 64
  if m.entUnused i then m.ethDrop p 6
  else if ((m.ctxOfStream (m.get F.ETH_STREAM_ID_ID i)).map m.decState) = some decShed then
    m.ethDrop p 6
  else
    let b0 := l.headD 0
    let b1' := l.getD 1 0
    let cc := b0 % 16
    let hdr := 12 + 4 * cc
    let hasExt := b0 / 16 % 2 = 1
    let extLen := if hasExt then ofBe ((l.drop (hdr + 2)).take 2) * 4 + 4 else 0
    let profile := ofBe ((l.drop hdr).take 2)
    let pad := if b0 / 32 % 2 = 1 then l.getLastD 0 else 0
    let seq := ofBe ((l.drop 2).take 2)
    let ts := ofBe ((l.drop 4).take 4)
    let ssrc := ofBe ((l.drop 8).take 4)
    let want := m.get F.ETH_STREAM_SSRC_SSRC i
    let body := ((l.drop (hdr + extLen)).take (l.length - hdr - extLen - pad))
    let h264 := m.on F.ETH_STREAM_CTL_CODEC i
    let ty := if h264 then body.headD 0 % 32 else body.headD 0 / 2 % 64
    let badTy := if h264 then [25, 26, 27, 29].contains ty else ty = 50
    if b0 / 64 ≠ 2 ∨ l.length < hdr + extLen + pad ∨ (b0 / 32 % 2 = 1 ∧ pad = 0) ∨ body = []
        ∨ b1' % 128 ≠ m.get F.ETH_STREAM_CTL_PT i ∨ (want ≠ 0 ∧ ssrc ≠ want) ∨ badTy then m.ethDrop p 7
    else
      let x := m.ethStream i
      let rate := m.get F.ETH_STREAM_RATE_MAX_RATE i
      match takeTokens x.bucket m.raw (rate * 64) (4000 * rate * 100000) (8 * l.length * 100000) with
      | none => m.ethDrop p 11
      | some b =>
        let x := { x with bucket := some b, ssrc := ssrc }
        let m := m.setEthStream i x
        let d := seqDiff seq x.highSeq
        let inWindow := !x.started || (1 ≤ d && d ≤ 100)
          || (-32 ≤ d && d ≤ 0 && !x.seen.contains seq && !x.released.contains ts)
        let farTs : Bool := match x.lastTs with
          | some t => decide <| 90000 < (tsDiff ts t).natAbs
          | none => false
        if farTs then (m.ethDrop p 9).ethResync i seq ts
        else if !inWindow then (m.ethDrop p 8).ethResync i seq ts
        else
          let ext := m.get F.ETH_STREAM_CTL_EXT_ID i
          let elem := if hasExt && ext ≠ 0 && profile / 16 = 0x100 then
              extElement ext ((l.drop (hdr + 4)).take (extLen - 4)) extLen else none
          let record := elem.map fun e => if e.length = 32 then
              [ofNatBytes (e.take 8), ofNatBytes ((e.drop 8).take 8), ofNatBytes ((e.drop 16).take 8),
                ofNatBytes (e.drop 24)] else []
          m.acceptRtp i { seq := seq, marker := b1' / 128 = 1, payload := body, arrival := m.now, record := record } ts

/-- RTCP (R135): a sender report replaces the mapping, or is rejected with reason 12; other types are discarded. -/
def Mach.rtcp (m : Mach) (i : Nat) (l : List Nat) : Mach :=
  if m.entUnused i then m.ethDrop (i / 64) 6
  else if l.getD 1 0 ≠ 200 ∨ l.length < 28 then m
  else
    let ssrc := ofBe ((l.drop 4).take 4)
    let sec := ofBe ((l.drop 8).take 4)
    let frac := ofBe ((l.drop 12).take 4)
    let rtpTs := ofBe ((l.drop 16).take 4)
    let x := m.ethStream i
    let want := if m.get F.ETH_STREAM_SSRC_SSRC i ≠ 0 then m.get F.ETH_STREAM_SSRC_SSRC i else x.ssrc
    let utc := m.on F.ETH_STREAM_CTL_LEAP_SRC i
    let leap : Int := if utc then m.getS F.TIME_UTC_OFFSET else m.getS F.ETH_STREAM_TIMES_LEAP i
    let wall : Int := ((sec : Int) - 2208988800 + leap) * 1000000000 + ((frac * 1000000000 / 2 ^ 32 : Nat) : Int)
    let near := (wall - m.now).natAbs ≤ 10000000000
    if ssrc = want ∧ near ∧ (!utc || m.on F.TIME_UTC_VALID) then
      (m.setEthStream i { x with sr := some (wall, rtpTs, m.raw) }).putB F.ETH_STREAM_STATUS_SR_VALID true i
    else m.ethDrop (i / 64) 12

/-- RTCP_SR_SEND (R137): wall time as UTC, by the leap value that travels with it. -/
def Mach.rtcpSrSend (m : Mach) (id : Nat) : Mach :=
  match m.encodeEntry id with
  | some e =>
    if (b1 e 13).testBit 3 && (m.encCtxOf id).isSome then
      let port := b1 e 14
      let dest := Config.rtpDest id
      match m.linkMac port dest with
      | some mac => (m.emit (.ethTx port (.senderReport mac dest id (m.now - m.getS F.TIME_UTC_OFFSET * 1000000000)
          (m.now * 9 / 100000 % 2 ^ 32)))).frameSent port
      | none => m
    else m
  | none => m

/-! ### Link, neighbours (R128) -/

/-- NEIGHBOUR_REQUEST: an ARP request, or a neighbour solicitation, within the reply limit (R129). -/
def Mach.neighbourRequest (m : Mach) (p addr : Nat) : Mach :=
  let x := m.ethPort p
  let rate := m.get F.ETH_LIMITS_ARP_RATE p
  match takeTokens x.arp m.raw rate (16 * 1562500000) 1562500000 with
  | none => m.ethDrop p 11
  | some b =>
    let known := x.neigh.any (fun n => n.addr = addr)
    let x := { x with arp := some b,
                      wanted := if known then x.wanted else tIns x.wanted addr m.raw,
                      neigh := x.neigh.map fun (n : Neighbour) => if n.addr = addr then { n with asked := true } else n }
    ((m.setEthPort p x).emit (.ethTx p (if addr / 2 ^ 32 = 0xFFFF then .arpRequest addr else .ndSolicit addr))).frameSent p

/-- NEIGHBOUR_EXPIRE: 90 s since the entry's last reply. -/
def Mach.neighbourExpire (m : Mach) (p addr : Nat) : Mach :=
  let x := m.ethPort p
  m.setEthPort p { x with neigh := x.neigh.filter (fun n => n.addr ≠ addr) }

/-- A reply to a request of this node fills the cache of 32 entries (R128). -/
def Mach.neighbourReply (m : Mach) (p addr mac : Nat) : Mach :=
  let x := m.ethPort p
  if x.neigh.any (fun n => n.addr = addr) then
    m.setEthPort p { x with neigh := x.neigh.map fun (n : Neighbour) =>
      if n.addr = addr && n.asked then { n with mac := mac, replyRaw := m.raw, asked := false } else n }
  else if (tFind x.wanted addr).isNone then m
  else
    let keep := if x.neigh.length < 32 then x.neigh else x.neigh.drop 1
    m.setEthPort p { x with wanted := tDel x.wanted addr,
                            neigh := keep ++ [{ addr := addr, mac := mac, replyRaw := m.raw, asked := false }] }

/-- A reply that a bucket of R129 limits. -/
def Mach.limitedReply (m : Mach) (p : Nat) (echo : Bool) (t : EthTx) : Mach :=
  let x := m.ethPort p
  let rate := if echo then m.get F.ETH_LIMITS_ECHO_RATE p else m.get F.ETH_LIMITS_ARP_RATE p
  match (if rate = 0 then none
    else takeTokens (if echo then x.echo else x.arp) m.raw rate (16 * 1562500000) 1562500000) with
  | none => m.ethDrop p 11
  | some b =>
    let x := if echo then { x with echo := some b } else { x with arp := some b }
    ((m.setEthPort p x).emit (.ethTx p t)).frameSent p

end Sys2Proof.Machine
end

