-- ==== Sys2Proof/Machine/Freshness.lean ====
section
/-! DEFINITION. The freshness contract (R26 to R58) and the choice of pictures (R209, R210): ages, states, reasons,
badges, labels and their events. -/

namespace Sys2Proof.Machine

/-! ### The frame schedule (R87) in units of 2^-16 ns -/

def Mach.framePeriodFx (m : Mach) : Nat := m.get F.TIME_FRAME_PERIOD_NS * 65536 + m.get F.TIME_FRAME_PERIOD_FRAC

def Mach.tFrameFx (m : Mach) (n : Nat) : Nat := m.get F.TIME_FRAME_EPOCH_EPOCH * 65536 + n * m.framePeriodFx

def Mach.vtotal (m : Mach) : Nat :=
  m.get F.SCN_V_VTOTAL

def Mach.vactive (m : Mach) : Nat := m.get F.SCN_V_VACTIVE
def Mach.hactive (m : Mach) : Nat := m.get F.SCN_H_HACTIVE

/-- t_scan(n, L). -/
def Mach.tScanFx (m : Mach) (n line : Nat) : Nat := m.tFrameFx n + line * m.framePeriodFx / max 1 m.vtotal

/-! ### Rectangles -/

structure Rect where
  x0 : Int
  y0 : Int
  x1 : Int
  y1 : Int
  deriving DecidableEq, Repr

def Rect.inter (a b : Rect) : Rect := ⟨max a.x0 b.x0, max a.y0 b.y0, min a.x1 b.x1, min a.y1 b.y1⟩
def Rect.nonempty (a : Rect) : Bool := decide (a.x0 < a.x1 ∧ a.y0 < a.y1)
def Rect.has (a : Rect) (x y : Int) : Bool := decide (a.x0 ≤ x ∧ x < a.x1 ∧ a.y0 ≤ y ∧ y < a.y1)
def Rect.inside (a b : Rect) : Bool := decide (b.x0 ≤ a.x0 ∧ b.y0 ≤ a.y0 ∧ a.x1 ≤ b.x1 ∧ a.y1 ≤ b.y1)

def Mach.outputRect (m : Mach) : Rect := ⟨0, 0, m.hactive, m.vactive⟩

/-- A layer's output rectangle, unclipped (R203). -/
def Mach.rect (m : Mach) (n : Nat) : Rect :=
  let x := m.actS F.CMP_LAYER_DST_POS_DST_X n
  let y := m.actS F.CMP_LAYER_DST_POS_DST_Y n
  ⟨x, y, x + m.act F.CMP_LAYER_DST_SIZE_DST_W n, y + m.act F.CMP_LAYER_DST_SIZE_DST_H n⟩

def Mach.clipped (m : Mach) (n : Nat) : Rect := (m.rect n).inter m.outputRect

def bandRect (m : Mach) (b : Nat) : Rect := ⟨0, 16 * b, m.hactive, 16 * b + 16⟩

/-- The layer is composed and touches the band. -/
def Mach.touches (m : Mach) (n b : Nat) : Bool := m.composed n && ((m.clipped n).inter (bandRect m b)).nonempty

/-- The treatment region of R35 holds a point: the clipped rectangle less those of higher layers with F = 1. -/
def Mach.treatable (m : Mach) (n : Nat) (x y : Int) : Bool :=
  (m.clipped n).has x y &&
    !(List.range 64).any fun k => decide (n < k) && m.composed k && m.act F.CMP_LAYER_FRS_CTL_F k = 1 && (m.rect k).has x y

/-! ### Sources of a layer -/

/-- The context that feeds a layer. -/
def Mach.feedCtx (m : Mach) (f : Feed) : Option Nat :=
  match f with
  | .eth _ s => m.ctxOfStream s
  | .flow k => m.ctxOfStream k.id
  | .ownSpan _ s => m.ctxOfStream s
  | _ => none

/-- The pictures of a feed that the compositor holds, newest first. -/
def Mach.feedPics (m : Mach) (f : Feed) : List Pic :=
  match f with
  | .cap c => (m.capPort c).frames
  | .span k => (m.spanPool k).slots
  | f => match m.feedCtx f with
    | some n => (m.decCtx n).pics
    | none => []

/-- The node that a feed's stream or span comes from over the fabric. -/
def feedOrigin : Feed → Option Nat
  | .flow k => some k.origin
  | .span k => some k.origin
  | _ => none

/-- The last source line that lines up to y of the layer need, with the taps of R204 and, for 4:2:0, of the chroma
lines; in lines of the cropped picture. -/
def Mach.lastSourceLine (m : Mach) (n : Nat) (fmt : Nat) (line : Int) : Nat :=
  let ch : Int := m.act F.CMP_LAYER_CROP_SIZE_CROP_H n
  let dh : Int := max 1 (m.act F.CMP_LAYER_DST_SIZE_DST_H n : Int)
  let rel := line - (m.rect n).y0
  -- floor(p) of R204, for p = (rel + 1/2) × CROP_H / DST_H − 1/2.
  let fp := ((2 * rel + 1) * ch - dh) / (2 * dh)
  let nearest := m.act F.CMP_LAYER_CTL_NEAREST n = 1
  let luma := min (ch - 1) (if nearest then ((2 * rel + 1) * ch) / (2 * dh) else fp + 3)
  let fc := ((2 * rel + 1) * ch - dh) / (4 * dh)
  let chroma := if fmt % 2 = 0 && !nearest then min (ch - 1) (2 * (fc + 3) + 1) else luma
  (m.act F.CMP_LAYER_CROP_POS_CROP_Y n : Int) + max luma chroma |>.toNat

/-- The first source line that line y needs. -/
def Mach.firstSourceLine (m : Mach) (n : Nat) (line : Int) : Nat :=
  let ch : Int := m.act F.CMP_LAYER_CROP_SIZE_CROP_H n
  let dh : Int := max 1 (m.act F.CMP_LAYER_DST_SIZE_DST_H n : Int)
  let rel := line - (m.rect n).y0
  let fp := ((2 * rel + 1) * ch - dh) / (2 * dh)
  (m.act F.CMP_LAYER_CROP_POS_CROP_Y n : Int) + max 0 (fp - 3) |>.toNat

/-- The picture's lines that the band's lines of the layer need are all final (R209). -/
def Mach.picReady (m : Mach) (n : Nat) (f : Feed) (p : Pic) (first last : Int) : Bool :=
  match f with
  | .span _ =>
    let a := m.firstSourceLine n first / 16
    let z := m.lastSourceLine n p.fmt last / 16
    (List.range (z + 1)).all fun r => decide (r < a) || p.rows.contains r
      || (p.last && p.rows.all (fun q => q < r))
  | _ =>
    let need := min (m.lastSourceLine n p.fmt last + p.cropY + 1) p.form.coded
    decide (need ≤ p.lines)

/-- R209: the newest picture of the layer's source that is ready for the band. A capture frame still in progress shows
the REPEATS and FROZEN that the port held after the frame before. -/
def Mach.choosePic (m : Mach) (n b : Nat) : Option Pic :=
  let l := m.layer n
  let r := (m.clipped n).inter (bandRect m b)
  let pics := m.feedPics l.feed
  (pics.find? (fun p => m.picReady n l.feed p r.y0 (r.y1 - 1))).map fun p =>
    match l.feed with
    | .cap c => if p.last then p else
        { p with wit := { p.wit with repeats := m.get F.CAP_STATUS_REPEATS c, frozen := m.on F.CAP_STATUS_FROZEN c } }
    | _ => p

/-! ### What a layer offers to the check -/

/-- A picture as the check of R31 sees it: capture in ns, U_STAMP in µs, class, FROZEN, CONCEALED, CLEAN, the raw
counter of its arrival and its number. -/
structure Offer where
  cap : Nat
  u : Nat
  cls : Nat
  frozen : Bool
  concealed : Bool
  clean : Bool
  arrived : Nat
  id : Nat
  deriving DecidableEq, Repr

/-- The fields of a READOUT layer visible in a band (R228): indices p × 64 + f. -/
def Mach.visibleFields (m : Mach) (n : Nat) (r : Rect) : List Nat :=
  let src := m.act F.CMP_LAYER_SRC_SOURCE n
  let plane := bits src 8 2
  let mask := bits src 0 8
  let o := m.rect n
  ((List.range 64).map (plane * 64 + ·)).filter fun i =>
    m.on F.CMP_FIELD_0_EN i && mask.testBit (m.get F.CMP_FIELD_1_GROUP i) &&
      ((Rect.mk (o.x0 + m.get F.CMP_FIELD_0_X i) (o.y0 + m.get F.CMP_FIELD_0_Y i)
          (o.x0 + m.get F.CMP_FIELD_0_X i + m.get F.CMP_FIELD_1_COLS i * m.get F.CMP_FONT_CELL_W)
          (o.y0 + m.get F.CMP_FIELD_0_Y i + m.get F.CMP_FONT_CELL_H)).inter (r.inter o)).nonempty

/-- The node whose contacts a CURSOR layer shows (R302). -/
def Mach.cursorNode (m : Mach) : Nat := if m.on F.TCH_CURSOR_REMOTE then m.get F.TCH_CURSOR_NODE else m.nodeId

def Mach.offerOf (m : Mach) (n b : Nat) : Option Offer :=
  match m.act F.CMP_LAYER_CTL_KIND n with
  | 3 | 6 =>
    some { cap := m.act F.CMP_LAYER_GFX_STAMP_STAMP n, u := 0, cls := 1, frozen := false, concealed := false,
           clean := true, arrived := m.raw, id := 0 }
  | 4 =>
    let fields := m.visibleFields n ((m.clipped n).inter (bandRect m b))
    let recs := fields.map fun i => tFind m.cmp.readouts (m.get F.CMP_FIELD_1_ID i)
    if recs.any (·.isNone) then none
    else
      let rs := recs.filterMap id
      match rs with
      | [] => some { cap := m.now, u := 0, cls := 1, frozen := false, concealed := false, clean := true,
                     arrived := m.raw, id := 0 }
      | r :: _ =>
        some { cap := (rs.map (fun r => r.getD 0 0)).foldl min (r.getD 0 0),
               u := (rs.map (fun r => bits (r.getD 1 0) 16 16)).foldl max 0, cls := 1, frozen := false,
               concealed := false, clean := true, arrived := m.raw, id := 0 }
  | 5 =>
    (tFind m.tch.cycles m.cursorNode).map fun c =>
      { cap := c.sample, u := c.u, cls := 1, frozen := false, concealed := false, clean := true, arrived := m.raw,
        id := 0 }
  | _ =>
    (m.choosePic n b).map fun p =>
      { cap := p.wit.capture, u := match (m.layer n).feed with | .cap _ => 0 | _ => p.wit.uStamp, cls := p.wit.cls,
        frozen := p.wit.frozen, concealed := p.concealed, clean := p.clean, arrived := p.arrived, id := p.id }

/-! ### Causes (R38, R51) -/

/-- Layer n is named by a guard region that is enabled. -/
def Mach.guardLayer (m : Mach) (n : Nat) : Bool :=
  (List.range 16).any fun r => m.act F.SIG_REGION_CTL_EN r = 1 && m.act F.SIG_REGION_CTL_LAYER r = n

/-- The member's join was refused with a status that only a commit tries again (R112). -/
def Mach.memberRefused (m : Mach) (k : FlowKey) : Bool :=
  match m.member k with
  | some x => [1, 2, 3, 4, 6].contains x.status
  | none => false

/-- The status of the refused request for a span that this node decodes (R153); 0 none. -/
def Mach.spanStatus (m : Mach) (id : Nat) : Nat :=
  if (m.ctxOfStream id).isSome then 0 else tGet m.dec.spanRefused 0 id

/-- The admission that the layer needs was refused: the status' reason. -/
def Mach.refusalReason (m : Mach) (n : Nat) : Option Nat :=
  let l := m.layer n
  if l.refused ≠ 0 then some (refusedReason l.refused)
  else match l.feed with
    | .absent => some reasonNotAdmitted
    | .flow k => if m.memberRefused k then some reasonNotAdmitted else none
    | .span k => if m.memberRefused k then some reasonNotAdmitted else none
    | .ownSpan _ s => if m.spanStatus s ≠ 0 then some (refusedReason (m.spanStatus s)) else none
    | _ => none

/-- The origin of the feed reports SHED or ESSENTIAL (R196). -/
def Mach.originSheds (m : Mach) (f : Feed) : Bool :=
  match feedOrigin f with
  | some o => m.peerMode o = 6 || m.peerMode o = 7
  | none => false

/-- A forced LOST (R31), with the first reason in the order of R38. -/
def Mach.forcedReason (m : Mach) (n : Nat) : Option Nat :=
  let l := m.layer n
  let quarantine : Bool := match feedOrigin l.feed with
    | some o => decide (m.peerMode o = 3)
    | none => false
  let ctxShed : Bool := match m.feedCtx l.feed with
    | some c => decide (m.decState c = decShed)
    | none => false
  let essential : Bool := match m.feedCtx l.feed with
    | some c => decide (m.get F.DEC_CTX_CFG_ESS c = 2)
    | none => false
  let s4 := decide (4 ≤ m.dec.stage) && !m.guardLayer n && !essential
  let srcShed := (tFind l.stops reasonShed).isSome && m.originSheds l.feed
  if quarantine then some reasonQuarantine
  else if ctxShed || s4 || srcShed || m.refusalReason n = some reasonShed then some reasonShed
  else m.refusalReason n

/-- The reason of a layer without a valid picture: of its stop causes the first in the order of R38, LINK DOWN also for a
join refused with PATH_DOWN, and NO SIGNAL otherwise. -/
def Mach.stopReason (m : Mach) (n : Nat) : Nat :=
  let l := m.layer n
  let down : Bool := match l.feed with
    | .flow k => decide ((m.member k).map (·.status) = some stPathDown)
    | .span k => decide ((m.member k).map (·.status) = some stPathDown)
    | _ => false
  if down || (tFind l.stops reasonLinkDown).isSome then reasonLinkDown
  else if (tFind l.stops reasonDecodeFault).isSome then reasonDecodeFault else reasonNoSignal

/-! ### The check (R31) -/

def stLive : Nat := 0
def stLate : Nat := 1
def stStale : Nat := 2
def stFrozen : Nat := 3
def stLost : Nat := 4
def stUnchecked : Nat := 7

/-- What one check gives. -/
structure Check where
  st : Nat
  reason : Nat
  age : Nat
  u : Nat
  forcedU : Bool
  future : Bool
  belowMin : Bool
  deriving DecidableEq, Repr

def sat32 (x : Nat) : Nat := min x 0xFFFFFFFF

/-- The age of R26 before U, in µs, rounded up. -/
def ageUs (tScan cap : Nat) : Nat := sat32 (ceilDiv (tScan - cap * 65536) 65536000)

/-- The check of a picture, step by step as R31 orders it. `tScan` is in 2^-16 ns, `uNode` and `bound` in µs. -/
def checkPicture (tScan uNode bound b s minClass : Nat) (localA : Bool) (o : Offer) : Check :=
  let u := uNode + o.u
  if tScan + bound * 65536000 < o.cap * 65536 then
    { st := stLost, reason := reasonTimeUnsure, age := 0, u := u, forcedU := false, future := true, belowMin := false }
  else
    let age := sat32 (ageUs tScan o.cap + u)
    let st := if age ≤ b then stLive else if age ≤ s then stLate else stStale
    let st := if o.frozen then max st stFrozen else st
    let (st, forced) :=
      if localA then (st, false)
      else if 10 * bound < u then (stLost, true)
      else if bound < u then (max st stLate, true)
      else (st, false)
    let below := decide (o.cls < minClass)
    { st := if below then stLost else st, reason := if below || st = stLost then reasonTimeUnsure else 0, age := age,
      u := u, forcedU := forced, future := false, belowMin := below }

/-- The frame whose showing gives t_scan: the second one while every composed frame is shown twice (R52). -/
def Mach.scanFrame (m : Mach) : Nat := m.cmp.frame + (if 3 ≤ m.dec.stage then 1 else 0)

/-- The shown state of layer n becomes st, with reason (R58). -/
def Mach.showState (m : Mach) (n st reason : Nat) : Mach :=
  let old := m.get F.CMP_LAYER_STATE_STATE n
  let m := m.put F.CMP_LAYER_STATE_STATE st n |>.put F.CMP_LAYER_STATE_REASON (if st = stLost then reason else 0) n
  if old = st then m
  else
    let m := m.put F.CMP_LAYER_STATE_FRAMES 0 n
      |>.put F.CMP_FRS_CHANGED_LAYER (setBit (m.get F.CMP_FRS_CHANGED_LAYER) n)
    let m := if old = stUnchecked ∨ st = stUnchecked then m
      else if old < st then (m.count 207).raise 248 else m.raise 249
    if st = stFrozen then m.raise 250 else m

/-- Event 253 and the two uncertainty bits (R57, R58). -/
def Mach.noteU (m : Mach) (n u : Nat) : Mach :=
  let bound := m.get F.CMP_FRS_UBOUND_BOUND
  let side := if 10 * bound < u then 2 else if bound < u then 1 else 0
  let l := m.layer n
  let m := m.setLayer n { l with uSide := side, uNow := max l.uNow u }
  let m := if 1 ≤ side then m.trouble F.CMP_FRS_TROUBLE_U_BOUND 0 n else m
  let m := if 2 ≤ side then m.trouble F.CMP_FRS_TROUBLE_U_LOST 0 n else m
  if side = l.uSide then m else m.raise 253

/-- Badges and class follow the picture shown (R44, R48, R167). -/
def Mach.noteBadges (m : Mach) (n : Nat) (o : Offer) : Mach :=
  let l := m.layer n
  let deg := if o.concealed then true else if o.clean then false else l.degraded
  m.setLayer n { l with degraded := deg } |>.putB F.CMP_LAYER_STATE_UNVERIFIED (o.cls = 0) n
    |>.putB F.CMP_LAYER_STATE_DEGRADED deg n |>.put F.CMP_LAYER_STATE_CLASS o.cls n
    |>.put F.CMP_LAYER_CAP_STAMP_CAPTURE o.cap n |>.put F.CMP_LAYER_STATUS_PIC_SEQ o.id n

/-- No badge is shown while the layer is LOST (R37, R59). -/
def Mach.hideBadges (m : Mach) (n : Nat) : Mach :=
  m.putB F.CMP_LAYER_STATE_UNVERIFIED false n |>.putB F.CMP_LAYER_STATE_DEGRADED false n

/-- R39: the picture of a stopped layer is withdrawn when its age before U passes the limit; it stays withdrawn until a
picture arrives after the stop began. -/
def Mach.withdraw (m : Mach) (n : Nat) (o : Offer) (age : Nat) : Bool × Mach :=
  let l := m.layer n
  let stops := l.stops.filter fun s => o.arrived ≤ s.2
  let expired := m.act F.CMP_LAYER_FRS_CTL_WITHDRAW_EN n = 1 && m.act F.CMP_LAYER_WITHDRAW_LIMIT n < age
  let w := !stops.isEmpty && (l.withdrawn || expired)
  (w, m.setLayer n { l with stops := stops, withdrawn := w })

/-- FRESHNESS_CHECK (R27, R31) of layer n in band b. A layer that is forced lost or whose picture is withdrawn shows no
picture in the band. -/
def Mach.checkLayer (m : Mach) (n b : Nat) : Mach :=
  let m := m.setLayer n { m.layer n with hidden := false }
  if m.act F.CMP_LAYER_FRS_CTL_F n = 0 then
    let m := match m.offerOf n b with
      | some o => m.noteBadges n o
      | none => m
    m.showState n stUnchecked 0
  else
    let line := (((m.clipped n).inter (bandRect m b)).y1 - 1).toNat
    let tScan := m.tScanFx m.scanFrame line
    let lost := fun (m : Mach) (reason : Nat) => (m.putB F.CMP_LAYER_STATE_FORCED_U false n, stLost, reason)
    let hide := fun (m : Mach) => m.setLayer n { m.layer n with hidden := true }
    let (m, st, reason) :=
      match m.forcedReason n with
      | some r => lost (hide m) r
      | none =>
        match m.offerOf n b with
        | none => lost m (m.stopReason n)
        | some o =>
          let reason0 := m.stopReason n
          let (gone, m) := m.withdraw n o (ageUs tScan o.cap)
          if gone then lost (hide m) reason0
          else
            let localA := match (m.layer n).feed with | .cap _ => true | _ => false
            let c := checkPicture tScan (m.get F.CMP_FRS_UNCERT_U_NODE) (m.get F.CMP_FRS_UBOUND_BOUND)
              (m.act F.CMP_LAYER_BUDGET_B n) (m.act F.CMP_LAYER_STALE_S n) (m.act F.CMP_LAYER_FRS_CTL_MIN_CLASS n)
              localA o
            let m := m.noteBadges n o |>.noteU n c.u |>.putB F.CMP_LAYER_STATE_FORCED_U c.forcedU n
            let m := if c.future then (m.trouble F.CMP_FRS_TROUBLE_FUTURE_STAMP 0 n).raise 251 else m
            let m := if c.belowMin then (m.trouble F.CMP_FRS_TROUBLE_WITNESS_BELOW_MIN 0 n).raise 252 else m
            let l := m.layer n
            (m.setLayer n { l with ageNow := max l.ageNow c.age, aged := l.aged || !c.future }, c.st, c.reason)
    let l := m.layer n
    let checked := max l.checked st
    let m := m.setLayer n { l with checked := checked }
    let shown := max l.carry checked
    let m := if shown = stLost then m.hideBadges n else m
    m.showState n shown (if st = stLost then reason else m.get F.CMP_LAYER_STATE_REASON n)

/-- The last band of a frame is written: AGE and UNCERT show that frame (R59). A layer whose picture was not checked in
the frame keeps them (DEDUCED, log entry 60). -/
def Mach.showAges (m : Mach) : Mach :=
  (List.range 64).foldl (fun (m : Mach) n =>
    if !m.composed n || !(m.layer n).aged then m
    else m.put F.CMP_LAYER_AGE_AGE (m.layer n).ageNow n |>.put F.CMP_LAYER_UNCERT_U (m.layer n).uNow n) m

/-- FRAME_CARRY (R32): at the first band of a frame. A layer that the frame before did not compose carries LIVE. -/
def Mach.frameCarry (m : Mach) : Mach :=
  (List.range 64).foldl (fun m n =>
    let l := m.layer n
    let m := if m.composed n then m.bump F.CMP_LAYER_STATE_FRAMES n else m
    m.setLayer n { l with carry := l.checked, checked := stLive, agePrev := l.ageNow, ageNow := 0, uNow := 0, aged := false,
                          label := none }) m

/-! ### Labels (R34, R37) -/

/-- Decimal digits of a number, as characters. -/
def digits (n : Nat) : List Nat := (Nat.toDigits 10 n).map Char.toNat

/-- n / 10^d with d decimals. -/
def decimals (n d : Nat) : List Nat :=
  if d = 0 then digits n
  else digits (n / 10 ^ d) ++ [46] ++ ((digits (10 ^ d + n % 10 ^ d)).drop 1)

def text (s : String) : List Nat := s.toList.map Char.toNat

/-- The text of a label: the value is rounded up (R34). -/
def labelText (st us : Nat) : List Nat :=
  let secs := fun (d : Nat) => decimals (ceilDiv us (10 ^ (6 - d))) d
  let sat := us = 0xFFFFFFFF
  if st = stFrozen then text "FROZEN"
  else
    let num := if sat then text ">4294" else if us < 10000000 then secs (if st = stLate then 2 else 1)
      else if us < 100000000 then secs 1 else secs 0
    (if st = stLate then text "+" else text "STALE ") ++ num ++ text " s"

/-- The reason text of a LOST layer (R38). -/
def reasonText : Nat → List Nat
  | 7 => text "QUARANTINE" | 3 => text "SHED" | 2 => text "NOT ADMITTED" | 6 => text "LINK DOWN"
  | 5 => text "TIME UNSURE" | 4 => text "DECODE FAULT" | _ => text "NO SIGNAL"

/-- The label's plate (R34, R224): at the top right of the clipped rectangle, inset by 6 pixels. -/
def Mach.plate (m : Mach) (n chars : Nat) : Rect :=
  let r := m.clipped n
  let h : Int := m.get F.CMP_FRS_LABEL_HEIGHT
  let w : Int := chars * ceilDiv (m.get F.CMP_FRS_LABEL_HEIGHT) 2
  ⟨r.x1 - 6 - w, r.y0 + 6, r.x1 - 6, r.y0 + 6 + h⟩

/-- The plate fits (R37): with a margin of 6 pixels it lies wholly in the treatment region. -/
def Mach.plateFits (m : Mach) (n : Nat) (p : Rect) : Bool :=
  let q : Rect := ⟨p.x0 - 6, p.y0 - 6, p.x1 + 6, p.y1 + 6⟩
  q.inside (m.clipped n) && !(List.range 64).any fun k =>
    decide (n < k) && m.composed k && m.act F.CMP_LAYER_FRS_CTL_F k = 1 && ((m.rect k).inter q).nonempty

/-- The label of the frame is fixed in the first band that holds a line of its plate (R34), or in the layer's last band when
its rectangle ends above the plate, which then does not fit (R37). -/
def Mach.fixLabel (m : Mach) (n b : Nat) : Mach :=
  let l := m.layer n
  let top := min ((m.clipped n).y0 + 6) ((m.clipped n).y1 - 1)
  let here := decide (16 * (b : Int) ≤ top ∧ top < 16 * (b : Int) + 16)
  let st := m.get F.CMP_LAYER_STATE_STATE n
  if !here || l.label.isSome || !(1 ≤ st && st ≤ 3) || m.act F.CMP_LAYER_FRS_CTL_F n = 0 then m
  else
    let v := max l.ageNow l.agePrev
    if m.plateFits n (m.plate n (labelText st v).length) then m.setLayer n { l with label := some (st, v) }
    else (m.trouble F.CMP_FRS_TROUBLE_LABEL_CLIPPED 0 n).raise 255

/-- CMP_FRS_SUMMARY: layers shown in each state in the last frame; one wholly off the output is not shown. -/
def Mach.summary (m : Mach) : Mach :=
  let count := fun (st : Nat) =>
    ((List.range 64).filter fun n => m.composed n && (m.clipped n).nonempty && m.get F.CMP_LAYER_STATE_STATE n = st).length
  m.put F.CMP_FRS_SUMMARY_LOST (count 4) |>.put F.CMP_FRS_SUMMARY_FROZEN (count 3)
    |>.put F.CMP_FRS_SUMMARY_STALE (count 2) |>.put F.CMP_FRS_SUMMARY_LATE (count 1)

/-! ### Leases of pictures (R210, R119) -/

/-- At a slot start: the older of two decode leases goes once the newer picture is complete; a capture port's older
frame goes as it is not among the two newest. Span slots used by this frame are marked. -/
def Mach.releasePics (m : Mach) : Mach :=
  let m := (List.range 2).foldl (fun (m : Mach) c => m.releaseFrames c) m
  m.dec.ctxs.foldl (fun m e =>
    let c := m.decCtx e.1
    match c.pics with
    | p :: _ :: _ => if p.last then m.setDecCtx e.1 { c with pics := [p] } else m
    | _ => m) m

def Mach.markSpan (m : Mach) (n b : Nat) : Mach :=
  match (m.layer n).feed, m.choosePic n b with
  | .span k, some p =>
    let s := m.spanPool k
    m.setSpanPool { s with slots := s.slots.map fun (x : Pic) =>
      if x.id = p.id then { x with usedBy := some m.cmp.frame } else x }
  | _, _ => m

end Sys2Proof.Machine
end

