-- ==== Sys2Proof/Machine/Compose.lean ====
section
/-! DEFINITION. Layer composition (R200 to R230) but for the pixels: sources of layers (R202), commit groups (R214 to
R220), fences (R217), load (R212, R213), leases (R221, R222), readouts (R225 to R228), and the band slots' bookkeeping
(R209 to R211, R229). -/

namespace Sys2Proof.Machine

/-! ### Modes, layers and their registers -/

/-- The compositor works and commits are decided (R388): JOIN, the operating modes and SERVICE. -/
def Mode.composes : Mode → Bool
  | .join | .live | .shed | .essential | .service => true
  | _ => false

/-- The shadowed registers of a layer (R214, R55). -/
def layerRegs : List Reg :=
  [.CMP_LAYER_CTL, .CMP_LAYER_SRC, .CMP_LAYER_CROP_POS, .CMP_LAYER_CROP_SIZE, .CMP_LAYER_DST_POS, .CMP_LAYER_DST_SIZE,
    .CMP_LAYER_ALPHA, .CMP_LAYER_BUF, .CMP_LAYER_STRIDE, .CMP_LAYER_FRS_CTL, .CMP_LAYER_BUDGET, .CMP_LAYER_STALE,
    .CMP_LAYER_WITHDRAW, .CMP_LAYER_GFX_STAMP]

/-- The shadowed registers of a guard region (R243) and their instances. -/
def regionRegs (r : Nat) : List (Reg × Nat) :=
  [(.SIG_REGION_CTL, r), (.SIG_REGION_POS, r), (.SIG_REGION_SIZE, r)] ++
    (List.range 4).flatMap fun k => [(.SIG_EXP_CMP, 4 * r + k), (.SIG_EXP_OUT, 4 * r + k)]

/-- A table of register words in which the named registers hold what their shadows hold. -/
def Mach.shadowed (m : Mach) (t : List (Nat × DWord)) (rs : List (Reg × Nat)) : List (Nat × DWord) :=
  rs.foldl (fun t e => tPut t (e.1.por e.2) (regKey e.1 e.2) (m.rd e.1 e.2)) t

/-- A table of register words in which the named registers hold what is staged for them. -/
def Mach.unstage (m : Mach) (t : List (Nat × DWord)) (rs : List (Reg × Nat)) : List (Nat × DWord) :=
  rs.foldl (fun t e => tPut t (e.1.por e.2) (regKey e.1 e.2) (tGet m.cmp.staged (e.1.por e.2) (regKey e.1 e.2))) t

def Mach.setActive (m : Mach) (t : List (Nat × DWord)) : Mach := { m with cmp := { m.cmp with active := t } }

/-- The machine as it would be with the shadows of layers ns active, for the checks of R216 and R217. -/
def Mach.ifCommitted (m : Mach) (ns : List Nat) : Mach :=
  ns.foldl (fun (m : Mach) n =>
    let l := m.layer n
    let m := match l.next with
      | some (f, refused, res) => m.setLayer n { l with feed := f, refused := refused, resolved := res, stops := [] }
      | none => m
    m.setActive (m.shadowed m.cmp.active (layerRegs.map fun r => (r, n)))) m

/-- Layers of a commit group. -/
def Mach.members (m : Mach) (g : Nat) : List Nat :=
  (List.range 64).filter fun n => m.act F.CMP_LAYER_CTL_GROUP n = g

/-- ACTIVE, LEASES and MEMBERS follow the active state. -/
def Mach.showLayers (m : Mach) : Mach :=
  let m := (List.range 64).foldl (fun m n =>
    m.put F.CMP_LAYER_STATUS_ACTIVE (m.act F.CMP_LAYER_CTL_EN n) n) m
  (List.range 8).foldl (fun m g => m.put F.CMP_GROUP_STATUS_MEMBERS (m.members g).length g) m

/-- Bits of a list of layer numbers. -/
def layerMask (ns : List Nat) : Nat := ns.foldl setBit 0

/-! ### Sources (R202, R147, R152 to R154) -/

/-- A stream on Ethernet shows its decode context (R150). -/
def Mach.showContext (m : Mach) (id i : Nat) : Mach := m.put F.ETH_STREAM_STATUS_CONTEXT ((m.ctxOfStream id).getD 0) i

/-- A decode context is requested for a stream that has none; a refusal puts its Ethernet entry in REFUSED. The answer
is the refusal's status, or 0. -/
def Mach.needContext (m : Mach) (id : Nat) (eth : Option Nat) (flow : Option FlowKey) : Nat × Mach :=
  let shown := fun (m : Mach) => match eth with
    | some i => m.showContext id i
    | none => m
  if (m.ctxOfStream id).isSome then (0, shown m)
  else
    match m.decRequest id eth flow with
    | (0, m) => (0, shown m)
    | (s, m) => (s, match eth with | some i => m.setEnt i entRefused | none => m)

/-- The Ethernet entry of a stream ID (R147). -/
def Mach.ethEntryOf (m : Mach) (id : Nat) : Option Nat :=
  (List.range 512).find? fun i => m.on F.ETH_STREAM_CTL_EN i && m.get F.ETH_STREAM_ID_ID i = id

/-- The refusal of a 65th membership (R130), beside the statuses of R153. -/
def stMembership : Nat := 6

/-- A stream on an entry: the entry is used, and its context requested. -/
def Mach.askEth (m : Mach) (src i : Nat) : Nat × Mach :=
  let (ok, m) := if m.entUnused i then m.entUse i else (true, m)
  if ok then m.needContext src (some i) none else (stMembership, m)

/-- The member joins a flow it needs, and joins again one that only a commit tries again (R109, R112). -/
def Mach.needFlow (m : Mach) (key : FlowKey) (vc : Nat) : Mach :=
  if (m.member key).isSome && !m.memberRefused key then m else m.joinOwn key vc

/-- R202: where a stream's pictures will come from; with `ask`, the admission it needs is requested. -/
def Mach.resolveStream (m : Mach) (src : Nat) (ask : Bool) : (Feed × Nat) × Mach :=
  match (List.range 2).find? (fun c => m.on F.CAP_CTL_EN c && m.get F.CAP_ID_ID c = src) with
  | some c => ((.cap c, 0), m)
  | none =>
    match m.ethEntryOf src with
    | some i =>
      if !ask then ((.eth i src, 0), m)
      else
        let (st, m) := m.askEth src i
        ((.eth i src, st), m)
    | none =>
      match m.decodeEntry src with
      | none => ((.absent, stUnsupported), if ask then (m.decRequest src none none).2 else m)
      | some e =>
        let key : FlowKey := { origin := le2 e 28, span := false, id := src, part := 0 }
        if !ask then ((.flow key, 0), m)
        else
          let (st, m) := (m.needFlow key (m.streamVc src)).needContext src none (some key)
          ((.flow key, st), m)

/-- The request for the stream of a span that this node decodes (R152), and its answer (R153). -/
def Mach.spanRequest (m : Mach) (id : Nat) : Mach :=
  if (m.ctxOfStream id).isSome then m
  else
    let ((_, st), m) := m.resolveStream id true
    { m with dec := { m.dec with spanRefused := tPut m.dec.spanRefused 0 id st } }

/-- R202: where a STREAM or SPAN layer's pictures will come from. The part that this node decodes takes its stream's
context, whose request a commit makes again when it was refused. -/
def Mach.resolveSource (m : Mach) (kind src : Nat) (ask : Bool) : (Feed × Nat) × Mach :=
  if kind = kindStream then m.resolveStream src ask
  else if kind = kindSpan then
    let id := bits src 4 16
    let part := bits src 0 4
    match m.spanEntry id part with
    | none => ((.absent, stUnsupported), m)
    | some e =>
      let key : FlowKey := { origin := le2 e 8, span := true, id := id, part := part }
      let stream := le4 e 4
      if le2 e 8 = m.nodeId then
        ((.ownSpan key stream, 0), if ask && m.spanStatus stream ≠ 0 then m.spanRequest stream else m)
      else ((.span key, 0), if ask then m.needFlow key (m.streamVc stream) else m)
  else ((.none, 0), m)

/-- The kind of layer n's shadow and the source it names. -/
def Mach.wanted (m : Mach) (n : Nat) : Nat × Nat :=
  let kind := if m.on F.CMP_LAYER_CTL_EN n then m.get F.CMP_LAYER_CTL_KIND n else 0
  (kind, if kind = kindStream ∨ kind = kindSpan then m.get F.CMP_LAYER_SRC_SOURCE n else 0)

/-- The resolution of layer n's shadow at its evaluation (R216): a source already resolved keeps its resolution, and a
refused request is made again. -/
def Mach.resolveLayer (m : Mach) (n : Nat) (ask : Bool) : Mach :=
  let l := m.layer n
  let (kind, src) := m.wanted n
  if kind = kindStream ∨ kind = kindSpan then
    if l.resolved = (kind, src) ∧ (m.refusalReason n).isNone ∧ l.feed ≠ .none then m.setLayer n { l with next := none }
    else
      let ((f, st), m) := m.resolveSource kind src ask
      let l := m.layer n
      m.setLayer n { l with next := some (f, st, (kind, src)) }
  else m.setLayer n { l with next := some (.none, 0, (kind, 0)) }

/-- A decoding node of a span requests a context for the span's stream on entering LIVE (R152). -/
def Mach.spanContexts (m : Mach) : Mach :=
  ((m.ownSpans.map fun e => le4 e 4).eraseDups).foldl (fun (m : Mach) id => m.spanRequest id) m

/-- A span that this node decodes holds the stream's context while the layout names it (R152). -/
def Mach.spanHolds (m : Mach) (id : Nat) : Bool := m.ownSpans.any fun e => le4 e 4 = id

/-- After a SOFT restart of the decoder the layers ask for their contexts again, in rising order, and so do the spans
(R403). -/
def Mach.decAgain (m : Mach) : Mach :=
  if !m.dec.again then m
  else
    let m := { m with dec := { m.dec with again := false } }
    let m := (List.range 64).foldl (fun (m : Mach) n =>
      let ask (id : Nat) (eth : Option Nat) (flow : Option FlowKey) : Mach :=
        let (st, m) := m.needContext id eth flow
        m.setLayer n { m.layer n with refused := st }
      match (m.layer n).feed with
      | .eth i id => ask id (some i) none
      | .flow k => ask k.id none (some k)
      | _ => m) m
    m.spanContexts

/-- A feed's last user has left (R147, R112, R154): its entry goes IDLE, its flow is left, its context released. -/
def Mach.dropFeed (m : Mach) (f : Feed) : Mach :=
  let free := fun (m : Mach) (id : Nat) => match m.ctxOfStream id with
    | some n => m.decRelease n
    | none => m
  match f with
  | .eth i id => if m.spanHolds id then m else (free (m.entIdleNow i) id).showContext id i
  | .flow k => if m.spanHolds k.id then m else free (m.leaveOwn k) k.id
  | .span k =>
    let m := m.leaveOwn k
    { m with cmp := { m.cmp with spans := m.cmp.spans.filter (fun s => s.key ≠ k) } }
  | _ => m

/-! ### Fences (R217) -/

/-- The first band that layer n's rectangle touches, in the machine's active state. -/
def Mach.firstBand (m : Mach) (n : Nat) : Option Nat :=
  (List.range (ceilDiv m.vactive 16)).find? fun b => ((m.clipped n).inter (bandRect m b)).nonempty

/-- A member is ready: by the fence mode its shadow asks for. -/
def Mach.ready (m : Mach) (n : Nat) : Bool :=
  match m.get F.CMP_LAYER_CTL_FENCE_MODE n with
  | 0 => true
  | 1 => (m.get F.CMP_FENCE_LAYER).testBit n
  | _ =>
    if !m.on F.CMP_LAYER_CTL_EN n then true
    else
      let v := m.ifCommitted [n]
      let l := v.layer n
      match m.get F.CMP_LAYER_CTL_KIND n with
      | 1 | 2 =>
        l.refused ≠ 0 || (v.refusalReason n).isSome ||
          (match v.firstBand n with
            | some b => (v.choosePic n b).isSome
            | none => true)
      | 4 => (v.visibleFields n (v.clipped n)).all fun i => (tFind v.cmp.readouts (v.get F.CMP_FIELD_1_ID i)).isSome
      | 5 => (tFind v.tch.cycles v.cursorNode).isSome
      | _ => true

/-! ### Culling and load (R212, R213) -/

/-- Highest opaque layer that covers a whole tile, with F = 0 or a state other than LOST. -/
def Mach.cullOf (m : Mach) (tx ty : Nat) : Option Nat :=
  let t : Rect := ⟨64 * tx, 64 * ty, min (64 * tx + 64) m.hactive, min (64 * ty + 64) m.vactive⟩
  (List.range 64).reverse.find? fun n =>
    m.composed n && m.act F.CMP_LAYER_CTL_ALPHA_MODE n = 0 && m.act F.CMP_LAYER_ALPHA_LA n = 1023
      && m.act F.CMP_LAYER_CTL_KIND n ≠ kindReadout && m.act F.CMP_LAYER_CTL_KIND n ≠ kindCursor
      && (m.act F.CMP_LAYER_FRS_CTL_F n = 0 || m.get F.CMP_LAYER_STATE_STATE n ≠ stLost)
      && decide (t.inside (m.clipped n))

/-- The cull of every tile, row × 64 + column. -/
def Mach.cullTable (m : Mach) : List (Nat × Nat) :=
  (List.range (ceilDiv m.vactive 64)).flatMap fun ty =>
    (List.range (ceilDiv m.hactive 64)).filterMap fun tx => (m.cullOf tx ty).map fun n => (ty * 64 + tx, n)

/-- Pixels of layer n in a strip-band that are not culled, by tiles of 64 columns. -/
def Mach.loadPixels (m : Mach) (cull : List (Nat × Nat)) (n k b : Nat) : Nat :=
  (List.range 8).foldl (fun a i =>
    let tx := 8 * k + i
    let t : Rect := ⟨64 * tx, 16 * b, 64 * tx + 64, 16 * b + 16⟩
    let r := (m.clipped n).inter t
    let hidden := match tFind cull (b / 4 * 64 + tx) with
      | some h => decide (n < h)
      | none => false
    if r.nonempty && !hidden then a + ((r.x1 - r.x0) * (r.y1 - r.y0)).toNat else a) 0

/-- The load of strip k of band b (R213). -/
def Mach.stripLoad (m : Mach) (cull : List (Nat × Nat)) (k b : Nat) : Nat :=
  (List.range 64).foldl (fun a n =>
    if !m.composed n then a
    else
      let px := m.loadPixels cull n k b
      let kind := m.act F.CMP_LAYER_CTL_KIND n
      let scaled := kind = kindStream ∨ kind = kindSpan ∨ kind = kindGraphics
      let tall := decide scaled &&
        decide (2 * m.act F.CMP_LAYER_DST_SIZE_DST_H n < m.act F.CMP_LAYER_CROP_SIZE_CROP_H n)
      if px = 0 then a else a + 32 + px + (if tall then px else 0)) 0

/-- The highest load of all strip-bands. -/
def Mach.maxLoad (m : Mach) : Nat :=
  let cull := m.cullTable
  (List.range (ceilDiv m.vactive 16)).foldl (fun a b =>
    (List.range 8).foldl (fun a k => max a (m.stripLoad cull k b)) a) 0

/-- CMP_LOAD_CAP: floor(16 × FRAME_PERIOD / VTOTAL × 800 MHz) − 2,304. -/
def Mach.loadCap (m : Mach) : Nat := 16 * m.framePeriodFx * 8 / (max 1 m.vtotal * 10 * 65536) - 2304

/-! ### Leases (R221, R222) -/

/-- The range of a GRAPHICS layer's buffer in the active state: base page and pages. -/
def Mach.bufferRange (m : Mach) (n : Nat) : Option (Nat × Nat) :=
  if m.composed n && m.act F.CMP_LAYER_CTL_KIND n = kindGraphics then
    some (m.act F.CMP_LAYER_BUF_BUF n / 4096,
      ceilDiv (m.act F.CMP_LAYER_STRIDE_STRIDE n
        * (m.act F.CMP_LAYER_CROP_POS_CROP_Y n + m.act F.CMP_LAYER_CROP_SIZE_CROP_H n)) 4096)
  else none

/-- CMP_LAYER_STATUS.LEASES (R210, R221): the pictures leased from the layer's source, or its leased buffer. -/
def Mach.leasesHeld (m : Mach) (n : Nat) : Nat :=
  match m.bufferRange n with
  | some _ => 1
  | none => min 2 (m.feedPics (m.layer n).feed).length

def Mach.leaseOf (m : Mach) (r : Nat × Nat) : Option Nat :=
  (List.range 64).find? fun j => match tFind m.cmp.leases j with
    | some l => l.base = r.1 && l.pages = r.2
    | none => false

def Mach.setLeases (m : Mach) (ls : List (Nat × Lease)) : Mach := { m with cmp := { m.cmp with leases := ls } }

/-- The lease rules and their count as the gate and CMP_LEASES show them. -/
def Mach.showLeases (m : Mach) : Mach :=
  let m := (List.range 64).foldl (fun m j => match tFind m.cmp.leases j with
    | some l => m.put F.GATE_LEASE_BASE_BASE l.base j |>.putB F.GATE_LEASE_STATUS_VALID true j
        |>.put F.GATE_LEASE_STATUS_PAGES l.pages j |>.put F.GATE_LEASE_STATUS_LAYER l.layer j
    | none => m.putB F.GATE_LEASE_STATUS_VALID false j |>.put F.GATE_LEASE_STATUS_PAGES 0 j) m
  m.put F.CMP_LEASES_USED m.cmp.leases.length

/-- LEASE_TAKE: each range gets a rule, shared with layers of the same range; none when the rules run out. `v` is the
machine with the layers committed. -/
def Mach.takeLeases (m v : Mach) (ns : List Nat) : Option Mach :=
  ns.foldl (fun (acc : Option Mach) n =>
    match acc, v.bufferRange n with
    | none, _ => none
    | some m, none => some m
    | some m, some r =>
      match m.leaseOf r with
      | some j =>
        some (m.setLeases (m.cmp.leases.map fun (e : Nat × Lease) =>
          if e.1 = j then (e.1, { e.2 with ending := false }) else e))
      | none =>
        ((List.range 64).find? fun j => (tFind m.cmp.leases j).isNone).map fun j =>
          (m.setLeases (tIns m.cmp.leases j
            { base := r.1, pages := r.2, layer := n, frame := 0, ending := false })).count 205)
    (some m)

/-- The release records that wait for the FIFO of 32 are written, lease by lease (R222). -/
def Mach.writeReleases (m : Mach) : Mach :=
  (m.cmp.leases.foldl (fun (m : Mach) (e : Nat × Lease) =>
    if !e.2.ending then m
    else if m.cmp.releases.length < 32 then
      let rec_ := [e.2.base * 4096, (e.2.frame % 2 ^ 48) <<< 16 ||| e.2.layer]
      let m := { m with cmp := { m.cmp with leases := tDel m.cmp.leases e.1, releases := m.cmp.releases ++ [rec_] } }
      (m.put F.CMP_RELEASE_STATUS_COUNT m.cmp.releases.length).raise 245
    else m.trouble F.CMP_TROUBLE_LEASE_HELD) m).showLeases

/-- LEASE_END: at an apply point, leases whose range no active layer uses end; the others were composed from by the
frame before. -/
def Mach.endLeases (m : Mach) : Mach :=
  let used := (List.range 64).filterMap m.bufferRange
  (m.setLeases (m.cmp.leases.map fun (e : Nat × Lease) =>
    (e.1, { e.2 with ending := !used.contains (e.2.base, e.2.pages) }))).writeReleases

/-! ### Receipts (R220) -/

def rcDone : Nat := 0
def rcEmpty : Nat := 1
def rcPartial : Nat := 2
def rcStraggler : Nat := 3
def rcOverload : Nat := 4
def rcLeaseFull : Nat := 5

/-- ST of a COMMIT by the STAT of its receipt (R321). -/
def commitSt (st : Nat) : Nat := if st = rcDone then 0 else if st = rcEmpty then 1 else if st ≤ rcStraggler then 5 else 6

/-- A COMMIT that waits for a receipt of the group completes with it (R321). -/
def Mach.commitWaiters (m : Mach) (g st w0 : Nat) : Mach :=
  m.evc.seqs.foldl (fun (m : Mach) e =>
    if e.2.wait = .commit g then
      { m with evc := { m.evc with seqs := tIns m.evc.seqs e.1 { e.2 with wait := .none } } }
        |>.put F.SEQ_ST_ST (commitSt st) e.1 |>.put F.SEQ_LAST_LAST w0 e.1 |>.put F.SEQ_STATE_STATE 3 e.1
        |>.put F.SEQ_STATE_PC (m.get F.SEQ_STATE_PC e.1 + 1) e.1
    else m) m

/-- RECEIPT_WRITE. -/
def Mach.receipt (m : Mach) (g st defer_ frame tag merged done notDone : Nat) : Mach :=
  let ws := [(frame % 2 ^ 48) <<< 16 ||| st <<< 12 ||| (defer_ % 16) <<< 8 ||| g <<< 5,
    (tag % 2 ^ 32) <<< 32 ||| (merged % 256) <<< 24, done, notDone]
  let m := (List.range 8).foldl (fun m k =>
    m.put F.CMP_GROUP_RECEIPT_RECEIPT (ws.getD (k / 2) 0 / 2 ^ (32 * (k % 2))) (8 * g + k)) m
  let m := if m.cmp.receipts.length < 16 then
      { m with cmp := { m.cmp with receipts := m.cmp.receipts ++ [ws] } }
        |>.put F.CMP_RECEIPT_STATUS_COUNT (m.cmp.receipts.length + 1)
    else (m.bump F.CMP_RECEIPT_STATUS_DROPPED).trouble F.CMP_TROUBLE_RECEIPT_LOST
  let m := m.commitWaiters g st (ws.headD 0)
  let m := if st = rcDone ∨ st = rcPartial ∨ st = rcStraggler then (m.raise 241).count 202
    else if st = rcEmpty then m.raise 241 else (m.raise 241).count 204
  if st = rcPartial then (m.trouble F.CMP_TROUBLE_PARTIAL).raise 243
  else if st = rcOverload then (m.trouble F.CMP_TROUBLE_LOAD_REFUSED).raise 244
  else if st = rcLeaseFull then (m.trouble F.CMP_TROUBLE_LEASE_FULL).raise 244
  else if st = rcStraggler then m.raise 266
  else m

/-! ### Deciding commits (R216) -/

/-- The first frame shown with what a latch line in the present frame stages (R219). -/
def Mach.shownFrame (m : Mach) : Nat := m.get F.SCN_FRAME_N + (if m.on F.CMP_CTL_MODE then 1 else 2)

/-- The shadows of layers ns are staged, with the guard regions they carry (R243); each layer's SOFT fence bit clears,
and raised limits are reported (R56). -/
def Mach.stage_ (m : Mach) (g frame : Nat) (ns : List Nat) : Mach :=
  let m := ns.foldl (fun (m : Mach) n =>
    let raised := m.act F.CMP_LAYER_BUDGET_B n < m.get F.CMP_LAYER_BUDGET_B n
      ∨ m.act F.CMP_LAYER_STALE_S n < m.get F.CMP_LAYER_STALE_S n
      ∨ (m.act F.CMP_LAYER_FRS_CTL_F n = 1 ∧ m.get F.CMP_LAYER_FRS_CTL_F n = 0 ∧ m.on F.CMP_LAYER_FRS_CTL_STATIC n)
    let regions := (List.range 16).filter fun r => m.get F.SIG_REGION_CTL_LAYER r = n
    let rs := (layerRegs.map fun r => (r, n)) ++ regions.flatMap regionRegs
    let m := { m with cmp := { m.cmp with
      staged := m.shadowed m.cmp.staged rs, stagedLayers := n :: m.cmp.stagedLayers.filter (· ≠ n),
      stagedRegions := regions ++ m.cmp.stagedRegions.filter (fun r => !regions.contains r) } }
    let m := m.put F.CMP_FENCE_LAYER (clearBit (m.get F.CMP_FENCE_LAYER) n)
      |>.putB F.CMP_LAYER_STATUS_PENDING false n |>.put F.CMP_LAYER_FRAME_FRAME frame n
      |>.putB F.CMP_LAYER_STATE_NOT_COMMITTED false n
    if raised then (m.trouble F.CMP_FRS_TROUBLE_LIMIT_RAISED 0 n).raise 254 else m) m
  { m with cmp := { m.cmp with stagedGroups := g :: m.cmp.stagedGroups.filter (· ≠ g) } }

def Mach.isPending (m : Mach) (g : Nat) : Bool := m.on F.CMP_GROUP_STATUS_PENDING g

/-- The layers marked not committed in group g. -/
def Mach.stragglersOf (m : Mach) (g : Nat) : List Nat := bitsSet (tGet m.cmp.stragglers 0 g) 64

def Mach.setStragglers (m : Mach) (g : Nat) (ns : List Nat) : Mach :=
  { m with cmp := { m.cmp with stragglers := tPut m.cmp.stragglers 0 g (layerMask ns) } }
    |>.putB F.CMP_GROUP_STATUS_STRAGGLERS (!ns.isEmpty) g

/-- The request of group g ends. -/
def Mach.endRequest (m : Mach) (g : Nat) : Mach :=
  { m with cmp := { m.cmp with evaluated := m.cmp.evaluated.filter (· ≠ g), merged := tPut m.cmp.merged 0 g 0 } }
    |>.putB F.CMP_GROUP_STATUS_PENDING false g |>.put F.CMP_GROUP_STATUS_DEFERRED 0 g

/-- One group at a latch line, as R216 writes it. -/
def Mach.decideGroup (m : Mach) (g : Nat) : Mach :=
  let pending := m.isPending g
  let want := if pending then m.members g else m.stragglersOf g
  let ready := want.filter m.ready
  let deferred := m.get F.CMP_GROUP_STATUS_DEFERRED g
  if pending ∧ ready ≠ want ∧ deferred < m.get F.CMP_GROUP_CFG_DEFER_LIMIT g then
    (m.put F.CMP_GROUP_STATUS_DEFERRED (deferred + 1) g).raise 242 |>.count 203
  else if ready.isEmpty ∧ !pending then m
  else
    let frame := m.shownFrame
    let tag := m.get F.CMP_GROUP_COMMIT_TAG g
    let merged := tGet m.cmp.merged 0 g
    let rest := want.filter fun n => !ready.contains n
    let v := (m.setActive (m.unstage m.cmp.active
      (m.cmp.stagedLayers.flatMap fun n => layerRegs.map fun r => (r, n)))).ifCommitted ready
    let fail := fun (st : Nat) =>
      ((m.receipt g st deferred frame tag merged 0 (layerMask want)).setStragglers g []).endRequest g
    if m.get F.CMP_LOAD_CAP_CAP < v.maxLoad then fail rcOverload
    else
      match m.takeLeases v ready with
      | none => fail rcLeaseFull
      | some m =>
        let m := (m.showLeases.stage_ g frame ready).setStragglers g rest
        let m := rest.foldl (fun m n => m.putB F.CMP_LAYER_STATE_NOT_COMMITTED true n) m
        let st := if !pending then rcStraggler else if rest.isEmpty then rcDone else rcPartial
        (m.receipt g st deferred frame tag merged (layerMask ready) (layerMask rest)).endRequest g

/-- The shadow of layer n names another source than the one evaluated for it. -/
def Mach.renamed (m : Mach) (n : Nat) : Bool :=
  match (m.layer n).next with
  | some (_, _, res) => res ≠ m.wanted n
  | none => (m.layer n).resolved ≠ m.wanted n

/-- Sources of the pending groups not yet evaluated, in ascending layer number (R216, R154), and of members and stragglers
whose shadows have come to name another source since: that ID is first evaluated here (R202). -/
def Mach.evaluate (m : Mach) (ask : Bool) : Mach :=
  let gs := (List.range 8).filter fun g => m.isPending g && !m.cmp.evaluated.contains g
  let ns := (List.range 64).filter fun n =>
    let g := m.act F.CMP_LAYER_CTL_GROUP n
    gs.contains g || ((m.isPending g || (m.stragglersOf g).contains n) && m.renamed n)
  let m := ns.foldl (fun m n => m.resolveLayer n ask) m
  { m with cmp := { m.cmp with evaluated := m.cmp.evaluated ++ gs } }

def Mach.decideGroups (m : Mach) : Mach := (List.range 8).foldl (fun m g => m.decideGroup g) m

/-- A latch line has effect: at stage S3 only one that precedes a composed frame (R219, R52). -/
def Mach.latchEffective (m : Mach) : Bool := m.mode.composes && !(decide (3 ≤ m.dec.stage) && m.cmp.repeatNext)

/-- The feeds that leave by the commits of a trial (R154). -/
def Mach.releaseBy (m : Mach) (leave : List Nat) (trial : Mach) : Mach :=
  let stays := (List.range 64).flatMap fun k =>
    let l := trial.layer k
    (if leave.contains k && l.next.isSome then [] else [(m.layer k).feed]) ++ (l.next.map Prod.fst).toList
  let gone := (leave.filterMap fun k => if (trial.layer k).next.isSome then some (m.layer k).feed else none).eraseDups
  gone.foldl (fun m f => if stays.contains f then m else m.dropFeed f) m

/-- LATCH_LINE (R216): contexts whose last user leaves are released before the requests of the same latch line are made
(R154). The layers that leave first are those that commit whatever these requests answer; a layer that commits because
its request was refused leaves its source after it. -/
def Mach.latchCommits (m : Mach) : Mach :=
  if !m.latchEffective then m
  else
    let m := m.put F.CMP_LOAD_CAP_CAP m.loadCap
    let trial := (m.evaluate false).decideGroups
    let before := m.cmp.stagedLayers
    let m := m.releaseBy (trial.cmp.stagedLayers.filter fun n => !before.contains n) trial
    let m := (m.evaluate true).decideGroups
    (m.releaseBy (m.cmp.stagedLayers.filter fun n => !before.contains n) m).raise 240

/-! ### The apply point (R219) -/

def sigRegion0 : SigRegion := { recs := [], changed := false }

def Mach.sigRegion (m : Mach) (r : Nat) : SigRegion := tGet m.sig.regions sigRegion0 r

def Mach.setSigRegion (m : Mach) (r : Nat) (x : SigRegion) : Mach :=
  { m with sig := { m.sig with regions := tPut m.sig.regions sigRegion0 r x } }

/-- The stop causes of a source that a layer switches to (R38, R39): those of a layer that shows it already, or of a silent
port or entry. -/
def Mach.sourceStops (m : Mach) (f : Feed) : List (Nat × Nat) :=
  match (List.range 64).find? fun k => (m.layer k).feed = f with
  | some k => (m.layer k).stops
  | none =>
    let silent : Bool := match f with
      | .cap c => m.capState c = capSilentSt
      | .eth i _ => m.entState i = entSilent
      | .ownSpan _ s => ((m.ethEntryOf s).map m.entState) = some entSilent
      | _ => false
    if silent then [(reasonNoSignal, m.raw)] else []

/-- The staged state becomes active: event 256 + g for each group, leases end, tiles are culled (R212). -/
def Mach.applyStaged (m : Mach) : Mach :=
  let m := m.cmp.stagedLayers.foldl (fun (m : Mach) n =>
    let l := m.layer n
    let l := match l.next with
      | some (f, refused, res) => { l with feed := f, refused := refused, resolved := res, next := none,
                                           stops := if f = l.feed then l.stops else m.sourceStops f,
                                           withdrawn := l.withdrawn && decide (f = l.feed) }
      | none => l
    let m := m.setLayer n l
    m.setActive (m.unstage m.cmp.active (layerRegs.map fun r => (r, n)))) m
  let m := m.cmp.stagedRegions.foldl (fun (m : Mach) r =>
    let geometry := fun (m : Mach) => (m.act F.SIG_REGION_POS_X r, m.act F.SIG_REGION_POS_Y r,
      m.act F.SIG_REGION_SIZE_W r, m.act F.SIG_REGION_SIZE_H r, m.act F.SIG_REGION_CTL_LAYER r)
    let m' := m.setActive (m.unstage m.cmp.active (regionRegs r))
    let x := m.sigRegion r
    m'.setSigRegion r { x with changed := x.changed || decide (geometry m ≠ geometry m') }) m
  let gs := (List.range 8).filter m.cmp.stagedGroups.contains
  let m := { m with cmp := { m.cmp with staged := [], stagedLayers := [], stagedGroups := [], stagedRegions := [] } }
  gs.foldl (fun m g => m.raise (256 + g)) m.showLayers

/-- APPLY_POINT. -/
def Mach.applyPoint (m : Mach) : Mach :=
  if !m.mode.composes then m
  else if 3 ≤ m.dec.stage ∧ m.cmp.repeatNext then
    { m with cmp := { m.cmp with repeatNext := false, skip := true } }
  else
    let frame := m.get F.SCN_FRAME_N + 1
    let m := (List.range 16).foldl (fun (m : Mach) r => m.setSigRegion r { m.sigRegion r with changed := false }) m
    let m := m.applyStaged.endLeases
    let m := m.setLeases (m.cmp.leases.map fun (e : Nat × Lease) => (e.1, { e.2 with frame := frame }))
    let m := { m with cmp := { m.cmp with
      repeatNext := decide (3 ≤ m.dec.stage), skip := false, frame := frame, band := 0, treated := 0, filled := 0,
      back := if m.on F.CMP_CTL_MODE then 0 else 1 - m.cmp.back } }
    let cull := m.cullTable
    { m with cmp := { m.cmp with cull := cull, loadNow := m.maxLoad } }

/-- CMP_GROUP_COMMIT (R215): a request, merged into a pending one; a group with no members completes at once. -/
def Mach.groupCommit (m : Mach) (g tag : Nat) : Mach :=
  if (m.members g).isEmpty then
    (m.put F.CMP_GROUP_COMMIT_TAG tag g).receipt g rcEmpty 0 (m.get F.SCN_FRAME_N) tag 0 0 0
  else
    let pending := m.isPending g
    let m := m.put F.CMP_GROUP_COMMIT_TAG tag g
    if pending then
      { m with cmp := { m.cmp with merged := tPut m.cmp.merged 0 g (min 255 (tGet m.cmp.merged 0 g + 1)) } }
    else m.putB F.CMP_GROUP_STATUS_PENDING true g

/-- CMP_FENCE and CMP_FENCE_CLR (R217). -/
def Mach.fenceSet (m : Mach) (mask : Nat) : Mach := m.put F.CMP_FENCE_LAYER (m.get F.CMP_FENCE_LAYER ||| mask)

def Mach.fenceClr (m : Mach) (mask : Nat) : Mach :=
  m.put F.CMP_FENCE_LAYER (m.get F.CMP_FENCE_LAYER &&& (2 ^ 64 - 1 - mask % 2 ^ 64))

/-- A receipt is popped (R220); an empty FIFO gives 0. -/
def Mach.popReceipt (m : Mach) : List Nat × Mach :=
  match m.cmp.receipts with
  | [] => ([0, 0, 0, 0], m)
  | r :: rest => (r, { m with cmp := { m.cmp with receipts := rest } } |>.put F.CMP_RECEIPT_STATUS_COUNT rest.length)

/-- A release record is popped (R222); the entry it frees takes a record that waits. -/
def Mach.popRelease (m : Mach) : List Nat × Mach :=
  match m.cmp.releases with
  | [] => ([0, 0], m)
  | r :: rest =>
    (r, ({ m with cmp := { m.cmp with releases := rest } } |>.put F.CMP_RELEASE_STATUS_COUNT rest.length).writeReleases)

/-! ### Readout records (R225, R226) -/

def Mach.setReadoutIn (m : Mach) (t : List (Nat × (List Nat × Nat))) : Mach :=
  { m with cmp := { m.cmp with readoutIn := t } }

/-- A readout record is dropped. -/
def Mach.readoutDrop (m : Mach) : Mach :=
  (m.bump F.CMP_READOUT_DROPS_COUNT).trouble F.CMP_TROUBLE_READOUT_BAD |>.raiseLimited 247 (msTicks 1)

/-- The checks of a complete record. -/
def Mach.installReadout (m : Mach) (ws : List Nat) : Mach :=
  let w1 := ws.getD 1 0
  let id := bits w1 0 16
  let crc := crc32cFold id (wordBytes (ws.take 3) ++ natBytes 4 (ws.getD 3 0))
  let good := crc = bits (ws.getD 3 0) 32 32
  let m := m.chkUnit 11 good
  let later := match tFind m.cmp.readouts id with
    | some r => 0 < toSigned (ofSigned ((ws.getD 0 0 : Int) - r.getD 0 0) 64) 64
    | none => true
  if !good || 1 < bits w1 48 4 || 1023 < id || !later then m.readoutDrop
  else
    let m := { m with cmp := { m.cmp with readouts := tIns m.cmp.readouts id ws } }
    m.count 206

/-- CMP_READOUT_IN: a 64-bit write adds a word to its master's record; a 32-bit write drops the record. -/
def Mach.readoutIn (m : Mach) (master : Nat) (w : Width) (word : Nat) : Mach :=
  match w with
  | .w32 => (m.setReadoutIn (tDel m.cmp.readoutIn master)).readoutDrop
  | .w64 =>
    let (held, since) := tGet m.cmp.readoutIn ([], m.raw) master
    let ws := held ++ [word % 2 ^ 64]
    if ws.length < 4 then m.setReadoutIn (tIns m.cmp.readoutIn master (ws, since))
    else (m.setReadoutIn (tDel m.cmp.readoutIn master)).installReadout ws

/-- READOUT_TIMEOUT. -/
def Mach.readoutTimeout (m : Mach) (master : Nat) : Mach :=
  match tFind m.cmp.readoutIn master with
  | some _ => (m.setReadoutIn (tDel m.cmp.readoutIn master)).readoutDrop
  | none => m

/-! ### Band slots (R208, R209, R229) -/

/-- The slot of band b starts, but for the pixels: pictures are chosen, checked and marked. -/
def Mach.bandSlot (m : Mach) (b : Nat) : Mach :=
  if !m.mode.composes || m.cmp.skip then m
  else
    let m := if b = 0 then m.frameCarry else m
    let m := { m with cmp := { m.cmp with band := b, composing := true, overruns := [] } }
    let m := m.put F.CMP_STATUS_BAND b |>.putB F.CMP_STATUS_COMPOSING true |>.put F.CMP_STATUS_FRAME m.cmp.frame
    let m := if m.get F.CMP_BAND_MARK_BAND = b then m.raise 265 else m
    let m := (m.releasePics).count 200
    let ns := (List.range 64).filter fun n => m.touches n b
    let pics := ns.filterMap fun n => (m.choosePic n b).map fun p => (n, p.id)
    let m := { m with cmp := { m.cmp with bandPics := pics } }
    ns.foldl (fun (m : Mach) n => ((m.markSpan n b).checkLayer n b).fixLabel n b) m

/-- BAND_OVERRUN (R211): counted; the pixels are `fillOverrun`'s. -/
def Mach.bandOverrun (m : Mach) (k : Nat) (ns : List Nat) : Mach :=
  if !m.cmp.composing then m
  else
    let m := { m with cmp := { m.cmp with overruns := tIns m.cmp.overruns k ns } }
    ((m.bump F.CMP_OVERRUNS_COUNT).count 201).trouble F.CMP_TROUBLE_OVERRUN |>.raise 246

/-- CMP_FRAME_DONE (R229), but for the signatures. -/
def Mach.frameDone (m : Mach) : Mach :=
  if !m.cmp.composing then m
  else
    let m := { m with cmp := { m.cmp with composing := false, overruns := [], bandPics := [] },
                      dec := { m.dec with lent := 0 } }
    let m := (List.range 2).foldl (fun (m : Mach) c => m.releaseFrames c) m
    let m := (m.putB F.CMP_STATUS_COMPOSING false |>.put F.CMP_LOAD_PEAK_PEAK m.cmp.loadNow).summary.showAges
    m.raise 264

end Sys2Proof.Machine
end

