-- ==== Sys2Proof/Machine/Gate.lean ====
section
/-! DEFINITION. The address map (R332, R333), the access gate's decision (R343 to R350), its faults and notices
(R351), its records (R352), and the bytes of the memories behind it. -/

namespace Sys2Proof.Machine

/-! ### Regions and memory bytes -/

/-- The regions of R332. -/
inductive Region where
  | regs | cistern | action | dram
  deriving DecidableEq, Repr

def cisternBase : Nat := 0x10000000
def cisternSize : Nat := 0x5000000
def actionBase : Nat := 0x18000000
def actionSize : Nat := 0x100000
def dramBase : Nat := 0x100000000

/-- The region of a node-local address; none where it is unmapped. DRAM reaches as far as MEM_STATUS.VISIBLE says. -/
def Mach.region (m : Mach) (a : Nat) : Option Region :=
  if a < 0x10000000 then some .regs
  else if cisternBase ≤ a ∧ a < cisternBase + cisternSize then some .cistern
  else if actionBase ≤ a ∧ a < actionBase + actionSize then some .action
  else if dramBase ≤ a ∧ a < dramBase + m.get F.MEM_STATUS_VISIBLE * 1048576 then some .dram
  else none

/-- The byte at a node-local address of the Cistern, action memory or DRAM; a byte not listed reads 0. -/
def State.byte (s : State) (a : Nat) : Byte := tGet s.mem 0 a

def State.setByte (s : State) (a : Nat) (b : Byte) : State := { s with mem := tPut s.mem 0 a b }

/-- n bytes from an address, as numbers. -/
def State.bytes (s : State) (a : Nat) : Nat → List Nat
  | 0 => []
  | n + 1 => (s.byte a).toNat :: s.bytes (a + 1) n

/-- Bytes stored from an address up. -/
def State.setBytes (s : State) (a : Nat) : List Nat → State
  | [] => s
  | b :: bs => (s.setByte a (BitVec.ofNat 8 b)).setBytes (a + 1) bs

/-- A little-endian word of n bytes. -/
def State.word (s : State) (a n : Nat) : Nat := ofNatBytes (s.bytes a n)

/-- A word of action memory (R318). -/
def State.actionWord (s : State) (i : Nat) : Nat := s.word (actionBase + 8 * i) 8

/-! ### Rules, locks and leases -/

/-- Rule i as its registers hold it. -/
def Mach.ruleIn (m : Mach) (i : Nat) : GateRule :=
  { base := m.get F.GATE_RULE_BASE_BASE i * 4096, pages := m.get F.GATE_RULE_PAGES_PAGES i,
    mask := m.get F.GATE_RULE_MASK_MASK i, en := m.on F.GATE_RULE_ATTR_EN i, lock := m.on F.GATE_RULE_ATTR_LOCK i,
    w := m.on F.GATE_RULE_ATTR_W i, r := m.on F.GATE_RULE_ATTR_R i }

/-- Rule i is written to its registers. -/
def Mach.setRule (m : Mach) (i : Nat) (g : GateRule) : Mach :=
  m.put F.GATE_RULE_BASE_BASE (g.base / 4096) i |>.put F.GATE_RULE_PAGES_PAGES g.pages i
    |>.put F.GATE_RULE_MASK_MASK g.mask i |>.putB F.GATE_RULE_ATTR_EN g.en i |>.putB F.GATE_RULE_ATTR_LOCK g.lock i
    |>.putB F.GATE_RULE_ATTR_W g.w i |>.putB F.GATE_RULE_ATTR_R g.r i

/-- Rule i as an access is checked against it: a rule that a commit not yet synced has replaced may still be seen
(R347); `old` says which this access sees. -/
def Mach.rule (m : Mach) (old : Bool) (i : Nat) : GateRule :=
  match old, tFind m.gate.unsynced i with
  | true, some g => g
  | _, _ => m.ruleIn i

/-- The pages of a rule or lease cover an address (a rule with PAGES = 0 covers none, R8). -/
def covers (base pages a : Nat) : Bool := base ≤ a && a < base + pages * 4096

/-- A locked rule covers the address (R349): whatever its mask and EN. Rules 0 to 7 are always locked (R345). -/
def Mach.lockedAt (m : Mach) (a : Nat) : Bool :=
  (List.range 256).any fun i =>
    let g := m.ruleIn i
    (g.lock || i < 8) && covers g.base g.pages a

/-- An active lease covers the address (R350). -/
def Mach.leasedAt (m : Mach) (a : Nat) : Bool :=
  (List.range 64).any fun j =>
    m.on F.GATE_LEASE_STATUS_VALID j
      && covers (m.get F.GATE_LEASE_BASE_BASE j * 4096) (m.get F.GATE_LEASE_STATUS_PAGES j) a

/-- The lowest-numbered rule with EN = 1, the address in its range and the master in its mask (R344). -/
def Mach.ruleAt (m : Mach) (old : Bool) (master a : Nat) : Option Nat :=
  (List.range 256).find? fun i =>
    let g := m.rule old i
    g.en && g.mask.testBit master && covers g.base g.pages a

/-- Master ID classes (R343): P masters. -/
def Mach.privileged (m : Mach) (master : Nat) : Bool := (m.get F.GATE_MASTER_P_P).testBit master

/-! ### The decision (R344) -/

/-- Causes of R352. -/
inductive GateCause where
  | noMatch | denied | unmapped | crossing | leased | locked | align | ecc | remote
  deriving DecidableEq, Repr

def GateCause.code : GateCause → Nat
  | .noMatch => 1 | .denied => 2 | .unmapped => 3 | .crossing => 4 | .leased => 5 | .locked => 6 | .align => 7
  | .ecc => 8 | .remote => 9

/-- An access at the gate: its first byte, its length and whether it writes. -/
structure Access where
  addr : Nat
  len : Nat
  write : Bool
  deriving DecidableEq, Repr

/-- What decides an address: leased, rule number or default map, region. -/
structure GateSource where
  leased : Bool
  rule : Option Nat
  region : Option Region
  deriving DecidableEq, Repr

def Mach.gateSource (m : Mach) (old : Bool) (master a : Nat) : GateSource :=
  { leased := m.leasedAt a, rule := m.ruleAt old master a, region := m.region a }

/-- Register space accepts only aligned 32-bit and 64-bit accesses (R3). -/
def alignedReg (x : Access) : Bool := (x.len = 4 && x.addr % 4 = 0) || (x.len = 8 && x.addr % 8 = 0)

/-- In QUARANTINE the gate grants master 28 R and W on the CFG block and R on the SYS block, and nothing else (R383). -/
def quarantineGrants (x : Access) : Bool :=
  let last := x.addr + x.len - 1
  (0x20000 ≤ x.addr && last < 0x30000) || (!x.write && last < 0x10000)

/-- The gate's decision: none allows the access. -/
def Mach.gateDecide (m : Mach) (old : Bool) (master : Nat) (x : Access) : Option GateCause :=
  let last := x.addr + x.len - 1
  let r1 := m.region x.addr
  let r2 := m.region last
  if r1 = some .regs ∧ !alignedReg x then some .align
  else if r1 = none ∨ r2 = none then some .unmapped
  else if m.mode = .quarantine ∧ master = 28 then (if quarantineGrants x then none else some .noMatch)
  else if master = 2 ∧ (m.lockedAt x.addr ∨ m.lockedAt last) then some .locked
  else
    let d1 := m.gateSource old master x.addr
    let d2 := m.gateSource old master last
    if d1 ≠ d2 then some .crossing
    else if x.write ∧ d1.leased then some .leased
    else match d1.rule with
      | some i =>
        let g := m.rule old i
        if (if x.write then g.w else g.r) then none else some .denied
      | none => if m.privileged master then none else some .noMatch

/-! ### Faults, records and notices (R351, R352) -/

/-- The wall address of a node-local address. -/
def Mach.wallAddr (m : Mach) (a : Nat) : Nat := m.nodeId * 2 ^ 40 + a % 2 ^ 40

/-- A gate record (R352). -/
def gateRecord (time : Nat) (cause : GateCause) (write imprecise : Bool) (wall master node len : Nat) : List Nat :=
  [time, cause.code * 2 ^ 60 + (if write then 2 ^ 59 else 0) + (if imprecise then 2 ^ 58 else 0) + wall % 2 ^ 52,
    master * 2 ^ 58 + node % 4096 * 2 ^ 40 + len % 8192, 0]

/-- A record enters the FIFO of 16, or is dropped and counted (R352, event 340). -/
def Mach.pushGateRecord (m : Mach) (r : List Nat) : Mach :=
  if m.gate.records.length < 16 then
    { m with gate := { m.gate with records := m.gate.records ++ [r] } }
      |>.put F.GATE_RECORD_STATUS_COUNT (m.gate.records.length + 1)
  else (m.bump F.GATE_RECORD_STATUS_DROPPED).trouble F.GATE_TROUBLE_RECORD_LOST |>.raise 340

/-- The requester's pending-fault flag is set (R351). -/
def Mach.flagFault (m : Mach) (q : Requester) : Mach :=
  if m.gate.faulted.contains q then m
  else { m with gate := { m.gate with faulted := m.gate.faulted ++ [q] } }

/-- The requester's fence (R340): whether a posted write of it was dropped since its last fence; the flag clears. -/
def Mach.fence (m : Mach) (q : Requester) : Bool × Mach :=
  (m.gate.faulted.contains q, { m with gate := { m.gate with faulted := m.gate.faulted.filter (· ≠ q) } })

/-- A rejected access (R351): counted, recorded, with event 336, or 338 for LEASED; a posted write's notice is
imprecise. `node` is the origin node of the request. -/
def Mach.gateFault (m : Mach) (by_ : Master) (cause : GateCause) (x : Access) (wall node : Nat) (posted : Bool) : Mach :=
  let im := posted && x.write
  let m := (m.bump F.GATE_FAULTS_COUNT).count 265 |>.trouble F.GATE_TROUBLE_FAULT
  let m := m.pushGateRecord (gateRecord m.now cause x.write im wall by_.id node x.len)
  let m := if cause = .leased then (m.raise 338).count 267 else m.raise 336
  let m := if cause = .locked then m.trouble F.DBG_TROUBLE_LOCKED_HIT else m
  if im then ((m.trouble F.GATE_TROUBLE_IMPRECISE).raise 337 |>.count 266).flagFault by_.who else m

/-- An access decided by the gate: the cause of its rejection, none when it is allowed, and the machine after the
decision. The node of the record is the origin of a remote request, or the node's own ID. -/
def Mach.gateCheck (m : Mach) (by_ : Master) (x : Access) (posted : Bool) : Option GateCause × Mach :=
  let unsynced := !m.gate.unsynced.isEmpty
  let old := unsynced && Config.seesOldRule m.freeIdx
  let m := (if unsynced then m.fresh.2 else m).count 264
  match m.gateDecide old by_.id x with
  | none => (none, m)
  | some c =>
    let node := match by_.who with
      | .remote n => n
      | _ => m.nodeId
    (some c, m.gateFault by_ c x (m.wallAddr x.addr) node posted)

end Sys2Proof.Machine
end

