-- ==== Sys2Proof/Machine/Render.lean ====
section
/-! DEFINITION. The pixels of a band (R203 to R208, R211, R224, R227): each layer's source pixel, the blend, the
treatments, and the Cistern write. Where the spec leaves a rounding, a filter or a glyph open, the value comes from
`Config`. Components run at 12 bits; the write rounds to 10. -/

namespace Sys2Proof.Machine

/-- A colour of three components. -/
structure Rgb where
  r : Nat
  g : Nat
  b : Nat
  deriving DecidableEq, Repr

def Rgb.map (f : Nat → Nat) (c : Rgb) : Rgb := ⟨f c.r, f c.g, f c.b⟩

/-- The components of a colour register, RED [29:20], GREEN [19:10], BLUE [9:0], at 12 bits. -/
def rgbOf (v : Nat) : Rgb := ⟨4 * bits v 20 10, 4 * bits v 10 10, 4 * bits v 0 10⟩

/-- The components of a Cistern or RGB 10:10:10 pixel, R [9:0], G [19:10], B [29:20], at 12 bits. -/
def rgbOfPixel (v : Nat) : Rgb := ⟨4 * bits v 0 10, 4 * bits v 10 10, 4 * bits v 20 10⟩

/-- N / D, with the rounding of an inexact value left open. -/
def roundOpen (n d : Nat) : Nat := n / d + (if n % d ≠ 0 ∧ Config.roundsUp n d then 1 else 0)

/-- The blend of R206 for one component, with α = num / den. -/
def blend1 (mode la num den src dst : Nat) : Nat :=
  match mode with
  | 0 => roundOpen (src * la + dst * (1023 - la)) 1023
  | 1 => roundOpen (src * num * la + dst * (den * 1023 - num * la)) (den * 1023)
  | _ => min 4095 (roundOpen (src * la * den + dst * (den * 1023 - num * la)) (den * 1023))

def blendRgb (mode la num den : Nat) (src dst : Rgb) : Rgb :=
  ⟨blend1 mode la num den src.r dst.r, blend1 mode la num den src.g dst.g, blend1 mode la num den src.b dst.b⟩

/-- One draw of a layer at a pixel: a colour with coverage num / den. -/
structure Draw where
  c : Rgb
  num : Nat
  den : Nat
  deriving DecidableEq, Repr

/-! ### Source pixels -/

/-- The nearest source sample of R204 to output sample i, held in the crop. -/
def nearest (i crop dst : Nat) : Nat := min (crop - 1) ((2 * i + 1) * crop / (2 * max 1 dst))

/-- The source samples that the filter of `taps` taps reads for output sample i, `lead` of them before the position: those
outside the crop read the nearest inside it (R204). -/
def tapsOf (taps lead i crop dst : Nat) : List Nat :=
  let d : Int := max 1 dst
  let floor : Int := (((2 * i + 1) * crop : Nat) - d) / (2 * d)
  (List.range taps).map fun (k : Nat) => (max 0 (min ((crop : Int) - 1) (floor - lead + k))).toNat

/-- A pixel of a graphics buffer. -/
def State.gfxSample (s : State) (n sx sy : Nat) : Nat :=
  s.word (s.mach.act F.CMP_LAYER_BUF_BUF n + sy * s.mach.act F.CMP_LAYER_STRIDE_STRIDE n + 4 * sx) 4

/-- A pixel word of format FMT as a draw (R205). -/
def gfxDraw (fmt w : Nat) : Draw :=
  if fmt = 8 then
    let e := fun (v : Nat) => Config.expand8 v % 4096
    ⟨⟨e (bits w 0 8), e (bits w 8 8), e (bits w 16 8)⟩, bits w 24 8, 255⟩
  else ⟨rgbOfPixel w, bits w 30 2, 3⟩

/-- GRAPHICS at column x, row y of the layer. With NEAREST = 0 the built-in filters give the value. -/
def State.gfxPixel (s : State) (n x y : Nat) : Draw :=
  let m := s.mach
  let cx := m.act F.CMP_LAYER_CROP_POS_CROP_X n
  let cy := m.act F.CMP_LAYER_CROP_POS_CROP_Y n
  let sx := nearest x (m.act F.CMP_LAYER_CROP_SIZE_CROP_W n) (m.act F.CMP_LAYER_DST_SIZE_DST_W n)
  let sy := nearest y (m.act F.CMP_LAYER_CROP_SIZE_CROP_H n) (m.act F.CMP_LAYER_DST_SIZE_DST_H n)
  let fmt := m.act F.CMP_LAYER_CTL_FMT n
  let d :=
    if m.act F.CMP_LAYER_CTL_NEAREST n = 1 then gfxDraw fmt (s.gfxSample n (cx + sx) (cy + sy))
    else
      let xs := tapsOf 8 3 x (m.act F.CMP_LAYER_CROP_SIZE_CROP_W n) (m.act F.CMP_LAYER_DST_SIZE_DST_W n)
      let ys := tapsOf 6 2 y (m.act F.CMP_LAYER_CROP_SIZE_CROP_H n) (m.act F.CMP_LAYER_DST_SIZE_DST_H n)
      let taps := ys.flatMap fun sy => xs.map fun sx => s.gfxSample n (cx + sx) (cy + sy)
      let v := Config.filtered taps x y
      ⟨⟨bits v 0 12, bits v 12 12, bits v 24 12⟩, bits v 36 8 % 256, 255⟩
  if m.act F.CMP_LAYER_CTL_ALPHA_MODE n = 0 then { d with num := 1, den := 1 } else d

/-- Decimal text of a NUMBER (R227). -/
def numberText (value : Int) (decimals_ : Nat) : List Nat :=
  (if value < 0 then [45] else []) ++ decimals value.natAbs decimals_

/-- The text of field i in its cells (R227): one character code per column; 32 where there is none. -/
def Mach.fieldText (m : Mach) (i : Nat) : Option (List Nat) :=
  let cols := m.get F.CMP_FIELD_1_COLS i
  match tFind m.cmp.readouts (m.get F.CMP_FIELD_1_ID i) with
  | none => none
  | some ws =>
    let w1 := ws.getD 1 0
    if w1.testBit 44 then some (List.replicate cols 45)
    else if bits w1 48 4 = 0 then
      let t := numberText (toSigned (ws.getD 2 0) 64) (m.get F.CMP_FIELD_1_DECIMALS i)
      if cols < t.length then some (List.replicate cols 35)
      else
        let pad := List.replicate (cols - t.length) 32
        some (if m.get F.CMP_FIELD_0_ALIGN i = 0 then pad ++ t else t ++ pad)
    else
      let bytes := natBytes 8 (ws.getD 2 0) ++ natBytes 4 (ws.getD 3 0)
      let t := ((bytes.takeWhile (· ≠ 0)).take cols).map fun c => if c < 0x20 ∨ 0x7E < c then 63 else c
      some (t ++ List.replicate (cols - t.length) 32)

/-- Coverage of a character's pixel in the font atlas (R376). -/
def State.coverage (s : State) (c x y : Nat) : Nat :=
  let w := s.mach.get F.CMP_FONT_CELL_W
  let h := s.mach.get F.CMP_FONT_CELL_H
  (s.byte (cisternBase + s.mach.cfg.fontBase + ((c - 0x20) * h + y) * w + x)).toNat

/-- READOUT at column x, row y of the layer: the fields' backgrounds and glyphs, in field order. -/
def State.readoutDraws (s : State) (n x y : Nat) : List Draw :=
  let m := s.mach
  let w := m.get F.CMP_FONT_CELL_W
  let h := m.get F.CMP_FONT_CELL_H
  (m.visibleFields n (m.clipped n)).flatMap fun i =>
    let fx := m.get F.CMP_FIELD_0_X i
    let fy := m.get F.CMP_FIELD_0_Y i
    let cols := m.get F.CMP_FIELD_1_COLS i
    let p := i / 64
    if x < fx ∨ fx + cols * w ≤ x ∨ y < fy ∨ fy + h ≤ y ∨ w = 0 ∨ h = 0 then []
    else
      match m.fieldText i with
      | none => []
      | some t =>
        let bg := if m.on F.CMP_PLANE_CFG_BG_EN p then [⟨rgbOf (m.get F.CMP_PLANE_CFG_BG p), 1, 1⟩] else []
        let c := t.getD ((x - fx) / w) 32
        bg ++ [⟨rgbOf (m.get F.CMP_PLANE_INK_INK (8 * p + m.get F.CMP_FIELD_1_INK i)),
          s.coverage c ((x - fx) % w) (y - fy), 255⟩]

/-- The ring of R302: SIZE pixels across and 3 wide, centred on (cx, cy) in 1/8 pixel; a pixel belongs to it when its
centre does. -/
def onRing (size x y cx cy : Nat) : Bool :=
  let dx : Int := 8 * (x : Int) + 4 - cx
  let dy : Int := 8 * (y : Int) + 4 - cy
  let d2 := dx * dx + dy * dy
  let outer : Int := 4 * size
  let inner : Int := 4 * size - 24
  decide (d2 ≤ outer * outer ∧ inner * inner < d2)

/-- CURSOR at output pixel (x, y). -/
def Mach.cursorDraws (m : Mach) (x y : Nat) : List Draw :=
  match tFind m.tch.cycles m.cursorNode with
  | none => []
  | some c => c.contacts.filterMap fun (_, cx, cy, stuck) =>
    if onRing (m.get F.TCH_CURSOR_SIZE) x y cx cy then
      some ⟨rgbOf (m.get F.TCH_CURSOR_COLOR_COLOR (if stuck then 1 else 0)), 1, 1⟩
    else none

/-! ### Camera pictures (R203 to R205) -/

/-- The luma weights of a matrix in 10^-4, of red and blue: BT.601, BT.709 and BT.2020 (R205; log entry 88). -/
def lumaWeights (matrix : Nat) : Nat × Nat :=
  match matrix with
  | 1 => (2990, 1140)
  | 2 => (2126, 722)
  | _ => (2627, 593)

/-- A component as a fraction of full scale: its distance from `mid` over `span`, at 12 bits, clamped to `lo` and `hi`. -/
def partOf (v lo hi mid : Nat) : Int := (max lo (min hi v) : Nat) - (mid : Int)

/-- A fraction of full scale at 12 bits, clamped, with its rounding open. -/
def toScale (n : Int) (d : Nat) : Nat := min 4095 (roundOpen (n * 4095).toNat d)

/-- R205: YCbCr at 12 bits to RGB. With FULL_RANGE = 0, luma 256 to 3760 and chroma 256 to 3840 are full scale. -/
def toRgb (matrix : Nat) (full : Bool) (y cb cr : Nat) : Rgb :=
  let (kr, kb) := lumaWeights matrix
  let kg := 10000 - kr - kb
  let yd := if full then 4095 else 3504
  let cd := if full then 4095 else 3584
  let yn := if full then (y : Int) else partOf y 256 3760 256
  let bn := if full then (cb : Int) - 2048 else partOf cb 256 3840 2048
  let rn := if full then (cr : Int) - 2048 else partOf cr 256 3840 2048
  let den := yd * cd * 10000
  let r2 : Int := (2 * (10000 - kr) * yd : Nat)
  let b2 : Int := (2 * (10000 - kb) * yd : Nat)
  let y1 : Int := yn * (cd * 10000 : Nat)
  { r := toScale (y1 + r2 * rn) den, g := toScale (y1 * kg - kr * r2 * rn - kb * b2 * bn) (den * kg),
    b := toScale (y1 + b2 * bn) den }

/-- A sample of a packed line (R160). -/
def lineSample (fmt : Nat) (line : List Nat) (x : Nat) : Nat :=
  if fmt < 2 then line.getD x 0 else bits (ofNatBytes ((line.drop (4 * (x / 3))).take 4)) (10 * (x % 3)) 10

/-- The number by which `Config.pixels` knows a picture of a feed. -/
def Mach.pixelKey (m : Mach) (f : Feed) (id : Nat) : Nat :=
  match f with
  | .span k => 2 ^ 64 + ((k.origin * 16 + k.part) * 65536 + k.id) * 2 ^ 24 + id
  | f => (m.feedCtx f).getD 0 * 2 ^ 20 + id

/-- A sample of a source picture: a capture frame's from the pool, a decoded one's as R160 stores it, a span's as its
band-rows brought it. -/
def Mach.sourceSample (m : Mach) (f : Feed) (p : Pic) (chroma : Bool) (x y : Nat) : Nat :=
  match f with
  | .cap c =>
    match (m.capPort c).store.find? fun s => s.frame = p.id with
    | some s =>
      let lines := if chroma then s.chroma else s.luma
      lineSample p.fmt (lines.getD (lines.length - 1 - y) []) x
    | none => 0
  | .span _ => Config.pixels (m.pixelKey f p.id) ((if chroma then 2 ^ 26 else 0) + y * 8192 + x) % (if p.fmt < 2 then 256 else 1024)
  | f => p.sample (m.pixelKey f p.id) chroma x y

/-- A component of a source picture at column x, row y of the layer, at 12 bits: component 0 luma, 1 Cb, 2 Cr. Chroma is
co-sited horizontally and centred vertically, and scaled to 4:4:4 with the same filters (R204). -/
def Mach.component (m : Mach) (n : Nat) (f : Feed) (p : Pic) (comp x y : Nat) : Nat :=
  let cw := m.act F.CMP_LAYER_CROP_SIZE_CROP_W n
  let ch := m.act F.CMP_LAYER_CROP_SIZE_CROP_H n
  let dw := m.act F.CMP_LAYER_DST_SIZE_DST_W n
  let dh := m.act F.CMP_LAYER_DST_SIZE_DST_H n
  let x0 := p.cropX + m.act F.CMP_LAYER_CROP_POS_CROP_X n
  let y0 := p.cropY + m.act F.CMP_LAYER_CROP_POS_CROP_Y n
  let half := p.fmt % 2 = 0
  -- Beyond a picture smaller than the crop lie its edge samples (R203); a span's part always covers the taps.
  let xEnd := p.cropX + p.width - 1
  let yEnd := if p.height = 0 then 2 ^ 16 else p.cropY + p.height - 1
  let at_ := fun (sx sy : Nat) =>
    let v := if comp = 0 then m.sourceSample f p false (min sx xEnd) (min sy yEnd)
      else m.sourceSample f p true (2 * min sx (xEnd / 2) + (comp - 1)) (min sy (if half then yEnd / 2 else yEnd))
    if p.fmt < 2 then 16 * v else 4 * v
  if m.act F.CMP_LAYER_CTL_NEAREST n = 1 then
    let sx := x0 + nearest x cw dw
    let sy := y0 + nearest y ch dh
    if comp = 0 then at_ sx sy else at_ (sx / 2) (if half then sy / 2 else sy)
  else
    let (cx, xs) := if comp = 0 then (x0, tapsOf 8 3 x cw dw) else (x0 / 2, tapsOf 8 3 x ((cw + 1) / 2) dw)
    let (cy, ys) := if comp ≠ 0 && half then (y0 / 2, tapsOf 6 2 y ((ch + 1) / 2) dh) else (y0, tapsOf 6 2 y ch dh)
    Config.filtered (comp :: ys.flatMap fun sy => xs.map fun sx => at_ (cx + sx) (cy + sy)) x y % 4096

/-- STREAM and SPAN at column x, row y of the layer: the picture chosen for the band. -/
def Mach.videoDraws (m : Mach) (n x y : Nat) : List Draw :=
  let f := (m.layer n).feed
  match (tFind m.cmp.bandPics n).bind fun id => (m.feedPics f).find? fun p => p.id = id with
  | none => []
  | some p =>
    let c := fun (k : Nat) => m.component n f p k x y
    [⟨toRgb (m.act F.CMP_LAYER_CTL_MATRIX n) (m.act F.CMP_LAYER_CTL_FULL_RANGE n = 1) (c 0) (c 1) (c 2), 1, 1⟩]

/-- The draws of layer n at output pixel (x, y), inside its clipped rectangle: none while its picture is not shown. -/
def State.layerDraws (s : State) (n x y : Nat) : List Draw :=
  let m := s.mach
  let r := m.rect n
  let lx := ((x : Int) - r.x0).toNat
  let ly := ((y : Int) - r.y0).toNat
  if (m.layer n).hidden then []
  else match m.act F.CMP_LAYER_CTL_KIND n with
  | 1 | 2 => m.videoDraws n lx ly
  | 3 => [s.gfxPixel n lx ly]
  | 4 => s.readoutDraws n lx ly
  | 5 => m.cursorDraws x y
  | 6 => [⟨rgbOf (m.act F.CMP_LAYER_SRC_SOURCE n), 1, 1⟩]
  | _ => []

/-! ### Treatments (R33 to R37, R224) -/

/-- Text in the treatment font, its box's top left at (x0, y0): the pixel is ink, plate (box only) or outside. -/
def textAt (t : List Nat) (h : Nat) (x0 y0 : Int) (x y : Nat) : Option Bool :=
  let w := ceilDiv h 2
  let dx := (x : Int) - x0
  let dy := (y : Int) - y0
  if 0 ≤ dx ∧ dx < t.length * w ∧ 0 ≤ dy ∧ dy < h then
    some (Config.glyph (t.getD (dx.toNat / w) 32) h (dx.toNat % w) dy.toNat)
  else none

/-- R33: a colour whose Cb and Cr are scaled to 25 % with the layer's matrix. Cb and Cr are the differences of blue and red
from luma, so each component keeps a quarter of its distance from luma. A layer with MATRIX 0 has no matrix of its own. -/
def reduced (matrix : Nat) (c : Rgb) : Rgb :=
  let (kr, kb) := lumaWeights (if matrix = 0 then Config.rgbMatrix else matrix)
  let luma := kr * c.r + (10000 - kr - kb) * c.g + kb * c.b
  c.map fun v => roundOpen (3 * luma + 10000 * v) 40000

/-- The treatments of layer n at a pixel of its treatment region, on the colour composed there; none draws nothing.
DESIGN CHOICE (log entry 26), where the spec leaves it open: the reason text of LOST is centred in the rectangle clipped to
the output, the centre rounded down (R33); badges stand at the clipped rectangle's top left (R37); and a layer that is LOST
in a later band of its plate shows no label there, as R33 gives LOST none (R34). -/
def Mach.treat (m : Mach) (n x y : Nat) (c : Rgb) : Option Rgb :=
  let st := m.get F.CMP_LAYER_STATE_STATE n
  let r := m.rect n
  let cl := m.clipped n
  let dx := (x : Int) - r.x0
  let dy := (y : Int) - r.y0
  let h := m.get F.CMP_FRS_LABEL_HEIGHT
  let lost := rgbOf (m.rd .CMP_FRS_COLOR_LOST 0).toNat
  let late := rgbOf (m.rd .CMP_FRS_COLOR_LATE 0).toNat
  let stale := rgbOf (m.rd .CMP_FRS_COLOR_STALE 0).toNat
  let ink := rgbOf (m.rd .CMP_FRS_COLOR_INK 0).toNat
  let plate := rgbOf (m.rd .CMP_FRS_COLOR_PLATE 0).toNat
  if !m.treatable n x y then none
  else if st = stLost then
    let t := reasonText (m.get F.CMP_LAYER_STATE_REASON n)
    let w : Int := t.length * ceilDiv (2 * h) 2
    let fits := w ≤ cl.x1 - cl.x0 ∧ 2 * (h : Int) ≤ cl.y1 - cl.y0
    match textAt t (2 * h) (cl.x0 + (cl.x1 - cl.x0 - w) / 2) (cl.y0 + (cl.y1 - cl.y0 - 2 * h) / 2) x y with
    | some true => some (if fits then ink else lost)
    | _ => some lost
  else
    let out : Option Rgb := none
    let f := m.act F.CMP_LAYER_FRS_CTL_F n = 1
    let stalled := f ∧ (st = stStale ∨ st = stFrozen)
    let out := if stalled then
        some (reduced (m.act F.CMP_LAYER_CTL_MATRIX n) c)
      else out
    let out := if stalled ∧ (dx + dy) % 8 < 2 then
        let c := out.getD c
        some ⟨roundOpen (c.r + stale.r) 2, roundOpen (c.g + stale.g) 2, roundOpen (c.b + stale.b) 2⟩
      else out
    let edge := dx < 6 ∨ dy < 6 ∨ r.x1 - r.x0 - 6 ≤ dx ∨ r.y1 - r.y0 - 6 ≤ dy
    let out := if f ∧ st = stLate ∧ edge then some late else out
    let unv := m.on F.CMP_LAYER_STATE_UNVERIFIED n
    let badge := fun (out : Option Rgb) (on : Bool) (t : List Nat) (row : Int) =>
      if on then
        match textAt t h (cl.x0 + 6) (cl.y0 + 6 + row * h) x y with
        | some true => some ink
        | some false => some plate
        | none => out
      else out
    let out := badge out unv (text "UNVERIFIED") 0
    let out := badge out (m.on F.CMP_LAYER_STATE_DEGRADED n) (text "DEGRADED") (if unv then 1 else 0)
    match (m.layer n).label with
    | some (ls, v) =>
      let t := labelText ls v
      let p := m.plate n t.length
      match textAt t h p.x0 p.y0 x y with
      | some true => some (if ls = stLate then late else stale)
      | some false => some plate
      | none => out
    | none => out

/-! ### The pixel -/

/-- The blended colour of an output pixel, without the layers culled in its tile (R212); `fill` are the layers of an
overrun (R211). -/
def State.blended (s : State) (fill : List Nat) (x y : Nat) : Rgb :=
  let m := s.mach
  let culled := fun (n : Nat) => match tFind m.cmp.cull (y / 64 * 64 + x / 64) with
    | some h => decide (n < h)
    | none => false
  (List.range 64).foldl (fun c n =>
    if m.composed n && (m.clipped n).has x y && !culled n then
      if fill.contains n then rgbOf (m.rd .CMP_FRS_COLOR_LOST 0).toNat
      else
        let kind := m.act F.CMP_LAYER_CTL_KIND n
        let mode := if kind = kindReadout ∨ kind = kindCursor then 1 else m.act F.CMP_LAYER_CTL_ALPHA_MODE n
        (s.layerDraws n x y).foldl (fun c d => blendRgb mode (m.act F.CMP_LAYER_ALPHA_LA n) d.num d.den d.c c) c
    else c) (rgbOf (m.get F.CMP_BG_COLOR))

/-- The treatments drawn over it, layer by layer, and whether any drew here. -/
def Mach.treated (m : Mach) (x y : Nat) (c : Rgb) : Bool × Rgb :=
  (List.range 64).foldl (fun (a : Bool × Rgb) n =>
    if m.composed n then
      match m.treat n x y a.2 with
      | some c => (true, c)
      | none => a
    else a) (false, c)

/-- The pixel as it is written: rounded to 10 bits once. -/
def pixelWord (c : Rgb) : Nat :=
  let q := fun (v : Nat) => min 1023 (roundOpen v 4)
  q c.r + 1024 * q c.g + 2 ^ 20 * q c.b

/-- The overrun layers of the strip that holds column x. -/
def Mach.fillAt (m : Mach) (x : Nat) : List Nat := tGet m.cmp.overruns [] (x / 512)

/-- What the compositor writes for an output pixel: CMP_BG alone while CMP_CTL.EN = 0. -/
def State.pixel (s : State) (x y : Nat) : Nat :=
  if !s.mach.on F.CMP_CTL_EN then pixelWord (rgbOf (s.mach.get F.CMP_BG_COLOR))
  else pixelWord (s.mach.treated x y (s.blended (s.mach.fillAt x) x y)).2

/-- The Cistern address of a frame buffer's pixel (R208). -/
def pixelAddr (buf x y : Nat) : Nat := cisternBase + buf * 0x21C0000 + y * 16384 + 4 * x

/-- Guard regions whose pixels in the band a test holds for. -/
def Mach.regionsWhere (m : Mach) (b x0 x1 : Nat) (p : Nat → Nat → Bool) : Nat :=
  (List.range 16).foldl (fun a r =>
    let x := m.act F.SIG_REGION_POS_X r
    let y := m.act F.SIG_REGION_POS_Y r
    let xs := (List.range (m.act F.SIG_REGION_SIZE_W r)).map (x + ·)
    let ys := (List.range 16).map (16 * b + ·)
    if ys.any fun yy => y ≤ yy && yy < y + m.act F.SIG_REGION_SIZE_H r &&
        (xs.any fun xx => x0 ≤ xx && xx < x1 && p xx yy) then setBit a r else a) 0

/-- The band's pixels in columns x0 to x1 - 1 are written, and the regions that treatments and fills touch noted. -/
def State.renderColumns (s : State) (b x0 x1 : Nat) : State :=
  let m := s.mach
  let ys := ((List.range 16).map (16 * b + ·)).filter (· < m.vactive)
  let xs := ((List.range (min x1 m.hactive)).filter (x0 ≤ ·))
  let s' := ys.foldl (fun (t : State) y => xs.foldl (fun (t : State) x =>
    t.setBytes (pixelAddr m.cmp.back x y) (natBytes 4 (s.pixel x y))) t) s
  let drew := m.regionsWhere b x0 x1 fun x y => (m.treated x y (s.blended (m.fillAt x) x y)).1
  let filled := m.regionsWhere b x0 x1 fun x y =>
    (m.fillAt x).any fun n => m.composed n && (m.clipped n).has x y
  { s' with mach := { s'.mach with cmp := { s'.mach.cmp with treated := s'.mach.cmp.treated ||| drew,
                                                             filled := s'.mach.cmp.filled ||| filled } } }

/-- The band is composed and written. -/
def State.renderBand (s : State) (b : Nat) : State := s.renderColumns b 0 4096

end Sys2Proof.Machine
end

