-- ==== Sys2Proof/Machine/Colour.lean ====
section
/-! DEFINITION. Colour processing (R232 to R242): the lookup tables, their swap, the contrast bound, and what leaves
the pixel path. -/

namespace Sys2Proof.Machine

/-! ### The chain (R233 to R236) -/

/-- Entry i of a component of an active 1D table of n entries. -/
def lut1 (t : List (Nat × DWord)) (n c i : Nat) : Nat := bits (tGet t 0 (c * n + i)).toNat 0 12

/-- Node (i, j, k) of the active 3D table. -/
def lut3 (t : List (Nat × DWord)) (i j k : Nat) : Rgb :=
  let v := (tGet t 0 ((i * 33 + j) * 33 + k)).toNat
  ⟨bits v 0 12, bits v 16 12, bits v 32 12⟩

/-- Tetrahedral interpolation of R234. -/
def tetra (t : List (Nat × DWord)) (p : Rgb) : Rgb :=
  let fr := p.r % 128
  let fg := p.g % 128
  let fb := p.b % 128
  let c := fun (dr dg db : Nat) => lut3 t (p.r / 128 + dr) (p.g / 128 + dg) (p.b / 128 + db)
  let one := fun (f : Rgb → Nat) =>
    let v := fun (dr dg db : Nat) => (f (c dr dg db) : Int)
    let o : Int :=
      if fg ≤ fr ∧ fb ≤ fg then
        v 0 0 0 * 128 + (v 1 0 0 - v 0 0 0) * fr + (v 1 1 0 - v 1 0 0) * fg + (v 1 1 1 - v 1 1 0) * fb
      else if fb ≤ fr ∧ fg ≤ fb then
        v 0 0 0 * 128 + (v 1 0 0 - v 0 0 0) * fr + (v 1 0 1 - v 1 0 0) * fb + (v 1 1 1 - v 1 0 1) * fg
      else if fr ≤ fb ∧ fg ≤ fr then
        v 0 0 0 * 128 + (v 0 0 1 - v 0 0 0) * fb + (v 1 0 1 - v 0 0 1) * fr + (v 1 1 1 - v 1 0 1) * fg
      else if fr ≤ fg ∧ fb ≤ fr then
        v 0 0 0 * 128 + (v 0 1 0 - v 0 0 0) * fg + (v 1 1 0 - v 0 1 0) * fr + (v 1 1 1 - v 1 1 0) * fb
      else if fb ≤ fg ∧ fr ≤ fb then
        v 0 0 0 * 128 + (v 0 1 0 - v 0 0 0) * fg + (v 0 1 1 - v 0 1 0) * fb + (v 1 1 1 - v 0 1 1) * fr
      else
        v 0 0 0 * 128 + (v 0 0 1 - v 0 0 0) * fb + (v 0 1 1 - v 0 0 1) * fg + (v 1 1 1 - v 0 1 1) * fr
    (max 0 (min 4095 ((o + 64) / 128))).toNat
  ⟨one Rgb.r, one Rgb.g, one Rgb.b⟩

/-- The tables a colour passes through, and whether an uncorrectable error bypasses them all (R240). -/
structure Tables where
  bypass : Bool
  pre : List (Nat × DWord)
  cube : List (Nat × DWord)
  post : List (Nat × DWord)

def Mach.activeTables (m : Mach) : Tables := ⟨m.on F.LUT_CTL_FORCED_BYPASS, m.lut.pre, m.lut.cube, m.lut.post⟩

/-- A colour of 10-bit components through the chain, at 12 bits; a stage that is off passes it unchanged, and a forced
bypass passes it by every stage (R240). -/
def Mach.chain (m : Mach) (t : Tables) (c : Rgb) : Rgb :=
  if t.bypass then c.map (4 * ·)
  else
    let p := if m.on F.LUT_CTL_PRE_EN then ⟨lut1 t.pre 1024 0 c.r, lut1 t.pre 1024 1 c.g, lut1 t.pre 1024 2 c.b⟩
      else c.map (4 * ·)
    let p := if m.on F.LUT_CTL_CUBE_EN then tetra t.cube p else p
    if m.on F.LUT_CTL_POST_EN then ⟨lut1 t.post 4096 0 p.r, lut1 t.post 4096 1 p.g, lut1 t.post 4096 2 p.b⟩ else p

/-- The output depth d of R232. -/
def Mach.depth (m : Mach) : Nat := if m.on F.SCN_CTL_BPC10 then 10 else 8

/-- The depth reduction of R235. -/
def reduce (d v : Nat) : Nat := min ((v + 2 ^ (11 - d)) / 2 ^ (12 - d)) (2 ^ d - 1)

/-! ### Contrast (R54, R241, R242) -/

/-- dist ≥ min of R241, both sides times 2 × 10^4 × 18556 × 15748. -/
def contrasts (min_ : Nat) (c d : Rgb) : Bool :=
  let y := fun (c : Rgb) => (2126 * c.r + 7152 * c.g + 722 * c.b : Int)
  let cb := fun (c : Rgb) => (10000 * c.b : Int) - y c
  let cr := fun (c : Rgb) => (10000 * c.r : Int) - y c
  let dist : Int := 2 * 18556 * 15748 * ((y c - y d).natAbs : Int) + 10000 * 15748 * ((cb c - cb d).natAbs : Int)
    + 10000 * 18556 * ((cr c - cr d).natAbs : Int)
  decide ((min_ : Int) * 20000 * 18556 * 15748 ≤ dist)

/-- A colour register's 10-bit components. -/
def rgb10 (v : Nat) : Rgb := ⟨bits v 20 10, bits v 10 10, bits v 0 10⟩

def Mach.treatmentColours (m : Mach) : List Rgb :=
  [Reg.CMP_FRS_COLOR_LATE, .CMP_FRS_COLOR_STALE, .CMP_FRS_COLOR_LOST, .CMP_FRS_COLOR_INK, .CMP_FRS_COLOR_PLATE].map
    fun r => rgb10 (m.rd r 0).toNat

/-- Palette colours in use (R54): the image's palettes, plane inks that an enabled field names, plane backgrounds, and
the cursor colours while a layer's active or shadow KIND is CURSOR. -/
def Mach.paletteColours (m : Mach) : List Rgb :=
  let inks := (List.range 256).filterMap fun i =>
    if m.on F.CMP_FIELD_0_EN i then some (m.get F.CMP_PLANE_INK_INK (8 * (i / 64) + m.get F.CMP_FIELD_1_INK i)) else none
  let grounds := (List.range 4).filterMap fun p =>
    if m.on F.CMP_PLANE_CFG_BG_EN p then some (m.get F.CMP_PLANE_CFG_BG p) else none
  let cursor := (List.range 64).any fun n =>
    m.get F.CMP_LAYER_CTL_KIND n = kindCursor || m.stg F.CMP_LAYER_CTL_KIND n = kindCursor
      || m.act F.CMP_LAYER_CTL_KIND n = kindCursor
  let cursors := if cursor then [m.get F.TCH_CURSOR_COLOR_COLOR 0, m.get F.TCH_CURSOR_COLOR_COLOR 1] else []
  ((m.cfg.palettes.map fun e => le4 e 4) ++ inks ++ grounds ++ cursors).map rgb10

/-- Every pair that R54 compares meets the bound. -/
def pairsContrast (min_ : Nat) (treat palette : List Rgb) : Bool :=
  (List.range treat.length).all fun i =>
    (treat.drop (i + 1)).all (contrasts min_ (treat.getD i ⟨0, 0, 0⟩))
      && palette.all (contrasts min_ (treat.getD i ⟨0, 0, 0⟩))

/-- R242: on code values, and as the panel receives the colours through tables t. -/
def Mach.contrastOk (m : Mach) (t : Tables) : Bool :=
  let min_ := m.get F.SIG_CONTRAST_MIN
  let seen := fun (c : Rgb) => (m.chain t c).map (· / 4)
  pairsContrast min_ m.treatmentColours m.paletteColours
    && pairsContrast min_ (m.treatmentColours.map seen) (m.paletteColours.map seen)

/-! ### Swaps (R237 to R240) -/

/-- The window's entries: the inactive bank, as the register file holds it. -/
def Mach.windowBank (m : Mach) (r : Reg) : List (Nat × DWord) :=
  (m.regs.filter fun e => e.1 % 512 = r.ctorIdx).map fun e => (e.1 / 512, e.2)

/-- The window holds a bank. -/
def Mach.setWindow (m : Mach) (r : Reg) (t : List (Nat × DWord)) : Mach :=
  let m := { m with regs := m.regs.filter fun e => e.1 % 512 ≠ r.ctorIdx }
  t.foldl (fun m e => m.wr r e.1 e.2) m

/-- The tables as a swap of `bits_` would leave them: bit 0 pre, 1 cube, 2 post. -/
def Mach.tablesAfter (m : Mach) (bits_ : Nat) : Tables :=
  let pick := fun (i : Nat) (r : Reg) (t : List (Nat × DWord)) => if bits_.testBit i then m.windowBank r else t
  ⟨m.on F.LUT_CTL_FORCED_BYPASS && m.lut.bad &&& (7 - bits_ % 8) ≠ 0, pick 0 .LUT_PRE_WINDOW m.lut.pre,
    pick 1 .LUT_CUBE_WINDOW m.lut.cube, pick 2 .LUT_POST_WINDOW m.lut.post⟩

/-- The bytes of an inactive bank, in window order. -/
def Mach.windowBytes (m : Mach) (r : Reg) (n width : Nat) : List Nat :=
  (List.range n).flatMap fun i => natBytes width (m.rd r i).toNat

/-- The expected CRC of each requested table matches its inactive bank. -/
def Mach.swapCrcOk (m : Mach) (bits_ : Nat) : Bool :=
  (!bits_.testBit 0 || crc32c (m.windowBytes .LUT_PRE_WINDOW 3072 4) = m.get F.LUT_CRC_PRE_CRC)
    && (!bits_.testBit 1 || crc32c (m.windowBytes .LUT_CUBE_WINDOW 35937 8) = m.get F.LUT_CRC_CUBE_CRC)
    && (!bits_.testBit 2 || crc32c (m.windowBytes .LUT_POST_WINDOW 12288 4) = m.get F.LUT_CRC_POST_CRC)

def swDone : Nat := 0
def swEmpty : Nat := 1
def swBadCrc : Nat := 2
def swContrast : Nat := 3

/-- LUT_SWAP: a request; one with no bit set completes at once with EMPTY. -/
def Mach.lutSwap (m : Mach) (tables : Nat) : Mach :=
  if tables % 8 = 0 then m.put F.LUT_SWAP_STATUS_LAST swEmpty
  else
    -- A request made while another waits for its frame is checked with it.
    let all := m.lut.checking ||| m.lut.passed ||| tables % 8
    let m := { m with lut := { m.lut with checking := all, passed := 0, latched := false } }
    m.putB F.LUT_SWAP_STATUS_CHECKING true |>.putB F.LUT_SWAP_STATUS_PENDING false

/-- LUT_SWAP_CHECKED. -/
def Mach.lutSwapChecked (m : Mach) : Mach :=
  let t := m.lut.checking
  if t = 0 then m
  else
    let crcOk := m.swapCrcOk t
    let m := m.chkUnit 15 crcOk
    let ok := crcOk && m.contrastOk (m.tablesAfter t)
    let m := { m with lut := { m.lut with checking := 0, passed := if ok then t else 0, latched := false } }
    let m := m.putB F.LUT_SWAP_STATUS_CHECKING false |>.putB F.LUT_SWAP_STATUS_PENDING ok
    if ok then m
    else
      let m := m.put F.LUT_SWAP_STATUS_LAST (if crcOk then swContrast else swBadCrc)
      (m.trouble F.LUT_TROUBLE_SWAP_REFUSED).raise 292

/-- The latch line a passed swap waits for (R238). -/
def Mach.lutLatch (m : Mach) : Mach :=
  if m.lut.passed ≠ 0 then { m with lut := { m.lut with latched := true } } else m

/-- A swap takes effect at a frame start. -/
def Mach.lutFrame (m : Mach) : Mach :=
  let t := m.lut.passed
  if t = 0 ∨ !m.lut.latched then m
  else
    let new := m.tablesAfter t
    let old := m.activeTables
    let m := if t.testBit 0 then m.setWindow .LUT_PRE_WINDOW old.pre else m
    let m := if t.testBit 1 then m.setWindow .LUT_CUBE_WINDOW old.cube else m
    let m := if t.testBit 2 then m.setWindow .LUT_POST_WINDOW old.post else m
    let bad := m.lut.bad &&& (7 - t)
    let m := { m with lut := { m.lut with pre := new.pre, cube := new.cube, post := new.post, passed := 0,
                                          latched := false, bad := bad } }
    let m := m.putB F.LUT_SWAP_STATUS_PENDING false |>.put F.LUT_SWAP_STATUS_LAST swDone
      |>.put F.LUT_SWAP_FRAME_FRAME (m.get F.SCN_FRAME_N) |>.put F.LUT_CTL_ACTIVE (m.get F.LUT_CTL_ACTIVE ^^^ t)
    let m := if bad = 0 then m.putB F.LUT_CTL_FORCED_BYPASS false else m
    (m.raise 291).count 218

/-- A write to a window is dropped while a swap is pending or being checked (R237). -/
def Mach.lutBusy (m : Mach) : Bool := m.lut.checking ≠ 0 || m.lut.passed ≠ 0

def Mach.lutWriteDrop (m : Mach) : Mach := (m.bump F.LUT_WRITE_DROPS_COUNT).trouble F.LUT_TROUBLE_WRITE_DROPPED

/-- LUT_ECC_FATAL: an uncorrectable error in the active bank of table t (0 pre, 1 cube, 2 post). -/
def Mach.lutEccFatal (m : Mach) (t : Nat) : Mach :=
  let m := { m with lut := { m.lut with bad := setBit m.lut.bad (t % 3) } }
  (m.putB F.LUT_CTL_FORCED_BYPASS true).trouble F.LUT_TROUBLE_ECC_FATAL 0 t |>.raise 293

/-! ### What reaches point 5 (R232, R235) -/

/-- A guard region with any comparison enabled holds the pixel. -/
def Mach.comparedAt (m : Mach) (x y : Nat) (p : Nat → Bool) : Bool :=
  (List.range 16).any fun r =>
    p r && m.act F.SIG_REGION_POS_X r ≤ x && x < m.act F.SIG_REGION_POS_X r + m.act F.SIG_REGION_SIZE_W r
      && m.act F.SIG_REGION_POS_Y r ≤ y && y < m.act F.SIG_REGION_POS_Y r + m.act F.SIG_REGION_SIZE_H r

/-- The buffer the Pump reads. -/
def Mach.frontBuffer (m : Mach) : Nat := if m.on F.CMP_CTL_MODE then 0 else m.cmp.front

/-- The reduced components at point 5. A card's pixels bypass the chain; its drawing is the part's own. -/
def State.outPixel (s : State) (x y : Nat) : Rgb :=
  let m := s.mach
  let d := m.depth
  let card := m.get F.SCN_STATUS_CARD
  if card ≠ 0 then
    let ink := Config.cardInk card (m.now / 1000000000 % 100000) x y
    let c : Rgb := if ink then ⟨1023, 1023, 1023⟩ else if 5 ≤ card then ⟨640, 0, 0⟩ else ⟨96, 96, 96⟩
    c.map fun v => reduce d (4 * v)
  else
    let c := rgbOfPixel (s.word (pixelAddr m.frontBuffer x y) 4)
    let o := if m.comparedAt x y fun r => m.act F.SIG_REGION_CTL_BYPASS r = 1 then c
      else m.chain m.activeTables (c.map (· / 4))
    let guarded := m.comparedAt x y fun r => m.act F.SIG_REGION_CTL_EN r = 1 &&
      (m.act F.SIG_REGION_CTL_CMP_EXP r = 1 || m.act F.SIG_REGION_CTL_MATCH r = 1 || m.act F.SIG_REGION_CTL_OUT_EXP r = 1)
    let add := if d = 8 && m.on F.LUT_CTL_DITHER && !guarded then Config.ditherAdd (x % 4) (y % 4) else 0
    o.map fun v => reduce d (v + add)

end Sys2Proof.Machine
end

