-- ==== Sys2Proof/Machine/Scan.lean ====
section
/-! DEFINITION. The Pump (R253 to R276): frame starts, the DisplayPort link, AUX, the panel sequence, backlight and
cards. -/

namespace Sys2Proof.Machine

/-- Panel states (R277). -/
def panelOff : Nat := 0
def panelPowering : Nat := 1
def panelLink : Nat := 2
def panelVideo : Nat := 3
def panelLit : Nat := 4
def panelDown : Nat := 5

def Mach.panel (m : Mach) : Nat := m.get F.SCN_STATUS_PANEL
def Mach.setPanel (m : Mach) (st : Nat) : Mach := m.put F.SCN_STATUS_PANEL st
def Mach.setScn (m : Mach) (x : ScnSt) : Mach := { m with scn := x }

/-! ### Timing (R253, R263) -/

/-- The timing values that R253 allows. -/
def Mach.timingOk (m : Mach) : Bool :=
  let ht := m.get F.SCN_H_HTOTAL
  let ha := m.get F.SCN_H_HACTIVE
  let vt := m.get F.SCN_V_VTOTAL
  let va := m.get F.SCN_V_VACTIVE
  let p := m.framePeriodFx
  640 ≤ ha && ha ≤ 4096 && ha % 4 = 0 && ha + 80 ≤ ht && ht ≤ 8192 && ht % 4 = 0
    && m.get F.SCN_HSYNC_HFP + m.get F.SCN_HSYNC_HSYNC + 8 ≤ ht - ha
    && 480 ≤ va && va ≤ 2160 && 16 * ceilDiv va 16 ≤ vt
    && va + m.get F.SCN_VSYNC_VFP + m.get F.SCN_VSYNC_VSYNC + 4 ≤ vt && vt ≤ 4095
    -- 25 to 1,300 Mpixel/s; the period is in 2^-16 ns.
    && 25 * p ≤ ht * vt * 1000 * 65536 && ht * vt * 1000 * 65536 ≤ 1300 * p

/-- The timing of R273 when the sink gives none that R253 allows: HTOTAL, HACTIVE, VTOTAL, VACTIVE, kHz. -/
def timing1080 : List Nat := [2200, 1920, 1125, 1080, 148500]

/-- A sink's detailed timing meets the limits of R253 that it names. -/
def sinkTimingOk (t : List Nat) : Bool :=
  let ht := t.getD 0 0
  let ha := t.getD 1 0
  let vt := t.getD 2 0
  let va := t.getD 3 0
  let khz := t.getD 4 0
  640 ≤ ha && ha ≤ 4096 && ha % 4 = 0 && ha + 80 ≤ ht && ht ≤ 8192 && ht % 4 = 0 && 480 ≤ va && va ≤ 2160
    && 16 * ceilDiv va 16 ≤ vt && va + 4 ≤ vt && vt ≤ 4095 && 25000 ≤ khz && khz ≤ 1300000

/-- The pixel rate in kHz. -/
def Mach.pixelKhz (m : Mach) : Nat :=
  if m.scn.fallback.isSome then (m.scn.fallback.getD []).getD 4 0
  else m.get F.SCN_H_HTOTAL * m.get F.SCN_V_VTOTAL * 1000000 * 65536 / max 1 m.framePeriodFx

/-- Payload per lane in kbit/s by rate code (R263): HBR2, HBR3, UHBR10, UHBR13.5, with FEC while DSC is in use. -/
def payloadKbps (rate : Nat) (dsc : Bool) : Nat :=
  match rate with
  | 0 => if dsc then 4220000 else 4320000
  | 1 => if dsc then 6320000 else 6480000
  | 2 => 9671000
  | _ => 13056000

/-- The candidates of R263 in the order it takes them: rate, lanes, DSC. -/
def Mach.linkCandidates (m : Mach) (s : Sink) : List (Nat × Nat × Bool) :=
  let khz := m.pixelKhz
  let bpc := m.depth
  let plain := fun (rate lanes : Nat) => decide (khz * 3 * bpc * 102 ≤ payloadKbps rate false * lanes * 100)
  let dsc := fun (rate lanes : Nat) => m.on F.SCN_CTL_DSC_EN && s.dsc &&
    decide (khz * m.get F.SCN_DSC_BPP * 102 ≤ payloadKbps rate true * lanes * 100 * 16)
  ([3, 2, 1, 0].filter fun r => m.get F.SCN_CTL_RATE_MIN ≤ r && r ≤ m.get F.SCN_CTL_RATE_MAX && s.rates.testBit r).flatMap
    fun r => ([4, 2, 1].filter fun l => m.get F.SCN_CTL_LANES_MIN ≤ l && l ≤ s.lanes).filterMap fun l =>
      if plain r l then some (r, l, false) else if dsc r l then some (r, l, true) else none

/-! ### Link (R263, R269) -/

def Mach.showLink (m : Mach) (rate lanes : Nat) (dsc : Bool) : Mach :=
  m.put F.SCN_STATUS_RATE rate |>.put F.SCN_STATUS_LANES lanes |>.putB F.SCN_STATUS_DSC dsc

/-- A link attempt: the first candidate that trains is used (event 274); otherwise NO_FIT or TRAIN_FAIL, and the wait of
the next attempt doubles, up to 5 s. -/
def Mach.linkAttempt (m : Mach) (trains : List (Nat × Nat × Bool)) : Mach :=
  match m.scn.sink with
  | none => m
  | some s =>
    let cands := m.linkCandidates s
    match cands.find? trains.contains with
    | some (r, l, d) =>
      let m := m.setScn { m.scn with linkUp := true, retryMs := 100, step := if m.scn.step = 7 then 8 else 2 }
      ((m.showLink (r + 1) l d).setPanel panelLink).raise 274
    | none =>
      let m := m.setScn { m.scn with retryMs := min 5000 (2 * m.scn.retryMs) }
      m.trouble (if cands.isEmpty then F.SCN_TROUBLE_NO_FIT else F.SCN_TROUBLE_TRAIN_FAIL)

/-- An attempt is due, and its up sequence or lost link waits for it. -/
def Mach.linkWaits (m : Mach) : Bool := m.scn.step = 1 || m.scn.step = 7

/-- BL_PWM by SCN_BL (R268): its period, or with SYNC a whole number of periods in a frame. -/
def Mach.pwm (m : Mach) : Mach :=
  let p := m.framePeriodFx
  let freq := max 1 (m.get F.SCN_BL_FREQ)
  let second := 65536000000000
  if m.on F.SCN_BL_SYNC then m.emit (.pwm p (max 1 ((2 * p * freq + second) / (2 * second))) true m.scn.duty)
  else m.emit (.pwm second freq false m.scn.duty)

/-- BL_EN and BL_PWM. -/
def Mach.backlight (m : Mach) (on : Bool) : Mach :=
  if on then (m.emit (.pin .blEn true)).pwm else (m.emit (.pin .blEn false)).emit (.pwm 0 1 false 0)

/-- LINK_LOSS (R269): the backlight goes dark; the timing generator runs on. PANEL then shows the steps of taking the link
up again as it shows those of the up sequence (log entry 23). -/
def Mach.linkLost (m : Mach) : Mach :=
  if !m.scn.linkUp then m
  else
    let next := match m.scn.step with
      | 0 | 8 | 9 => 7
      | 1 | 2 | 3 => 1
      | k => k
    let m := (m.backlight false).setScn { m.scn with linkUp := false, step := next }
    let m := (m.showLink 0 0 false).bump F.SCN_LINK_LOSSES_COUNT |>.count 213
    let m := if m.panel = panelDown ∨ m.panel = panelOff then m else m.setPanel panelPowering
    (m.trouble F.SCN_TROUBLE_LINK_LOST).raise 275

/-! ### The panel sequence (R267, R274) -/

/-- The panel should be powered (R267). -/
def Mach.panelWanted (m : Mach) : Bool :=
  match m.mode with
  | .quarantine => true
  | .join | .live | .shed | .essential | .service => m.on F.SCN_CTL_EN
  | .standby => m.on F.SCN_CTL_EN && !m.on F.SCN_CTL_STANDBY_OFF
  | .halt => m.on F.SCN_CTL_EN && !m.scn.faultOff && 0 < m.get F.SCN_CTL_FAULT_HOLD && m.scn.stopped.isNone
  | .hold | .load | .prove | .sleep => false

/-- The down sequence starts: BL_EN low and PWM low. -/
def Mach.panelStartDown (m : Mach) : Mach :=
  ((m.backlight false).setPanel panelDown).setScn { m.scn with step := 4 }

/-- The up sequence starts: PANEL_VDD_EN high. -/
def Mach.panelStartUp (m : Mach) : Mach :=
  ((m.emit (.pin .panelVdd true)).setPanel panelPowering).setScn { m.scn with step := 1 }

/-- A request takes effect at once when no sequence runs, and at its end otherwise. -/
def Mach.panelUpdate (m : Mach) : Mach :=
  if m.scn.step = 0 ∨ 7 ≤ m.scn.step then
    if m.panelWanted ∧ m.panel = panelOff then m.panelStartUp
    else if !m.panelWanted ∧ m.panel ≠ panelOff then m.panelStartDown
    else m
  else m

/-- An attempt of the up sequence or of a lost link. A failed one leaves a sequence that is wanted no longer: it runs down
(log entry 23). -/
def Mach.linkTry (m : Mach) (trains : List (Nat × Nat × Bool)) : Mach :=
  let m := m.linkAttempt trains
  if m.linkWaits && !m.panelWanted then m.panelStartDown else m

/-- PANEL_STEP. -/
def Mach.panelStep (m : Mach) (trains : List (Nat × Nat × Bool)) : Mach :=
  match m.scn.step with
  | 1 | 7 => if m.on F.SCN_STATUS_HPD then m.linkTry trains else m
  | 3 => ((((m.backlight true).setPanel panelLit).setScn { m.scn with step := 0 }).raise 280).panelUpdate
  | 4 => (m.showLink 0 0 false).setScn { m.scn with step := 5, linkUp := false }
  | 5 => (((m.emit (.pin .panelVdd false)).setPanel panelOff).setScn { m.scn with step := 6 }).raise 280
  | 6 => (m.setScn { m.scn with step := 0 }).panelUpdate
  | 9 => (((m.backlight true).setPanel panelLit).setScn { m.scn with step := 0 }).panelUpdate
  | _ => m

/-- NO_HPD: the sequence runs down. -/
def Mach.noHpd (m : Mach) : Mach :=
  if m.scn.step = 1 ∧ !m.on F.SCN_STATUS_HPD then (m.trouble F.SCN_TROUBLE_NO_HPD).panelStartDown else m

/-- HPD_PLUG. -/
def Mach.hpdPlug (m : Mach) (s : Sink) (trains : List (Nat × Nat × Bool)) : Mach :=
  -- R273: the quarantine card follows the sink's detailed timing when R253 allows it.
  let fb := m.scn.fallback.map fun _ => match s.timing with
    | some t => if sinkTimingOk t then t else timing1080
    | none => timing1080
  let m := (m.putB F.SCN_STATUS_HPD true).setScn { m.scn with sink := some s, fallback := fb }
  let m := m.raise 276
  if m.linkWaits then m.linkTry trains else m

/-- HPD_UNPLUG. -/
def Mach.hpdUnplug (m : Mach) : Mach := ((m.putB F.SCN_STATUS_HPD false).raise 276).linkLost

/-- IRQ_HPD: on loss of lock, or when AUX fails during the status read, the link is lost and retrained at once. -/
def Mach.irqHpd (m : Mach) (lost auxFails : Bool) (trains : List (Nat × Nat × Bool)) : Mach :=
  let m := (m.raise 276).count 215
  let m := if auxFails then m.trouble F.SCN_TROUBLE_AUX_FAIL else m
  if (lost || auxFails) && m.scn.linkUp then
    let m := m.linkLost
    if m.linkWaits then m.linkTry trains else m
  else m

/-- DP_RETRY. -/
def Mach.dpRetry (m : Mach) (trains : List (Nat × Nat × Bool)) : Mach :=
  if m.linkWaits ∧ m.on F.SCN_STATUS_HPD ∧ !m.scn.linkUp then m.linkTry trains else m

def Mach.hpdShortPulse (m : Mach) : Mach := m.setScn { m.scn with shortPulses := m.scn.shortPulses + 1 }

/-- FAULT_HOLD_END (R274): the down sequence runs, and the panel stays off until a reset. -/
def Mach.faultHoldEnd (m : Mach) : Mach :=
  if m.mode = .halt then (m.setScn { m.scn with faultOff := true }).panelUpdate else m

/-! ### AUX (R266) -/

def auxOk : Nat := 0
def auxEmpty : Nat := 1
def auxNack : Nat := 2
def auxDefer : Nat := 3
def auxTimeout : Nat := 4
def auxBadValue : Nat := 6

/-- The completion status of a software request: RESULT, COUNT, event 281, AUX_FAIL when it got no answer. -/
def Mach.auxStatus (m : Mach) (result count_ : Nat) : Mach :=
  let m := m.put F.SCN_AUX_STATUS_RESULT result |>.put F.SCN_AUX_STATUS_COUNT count_
  let m := if result = auxTimeout ∨ result = auxDefer then m.trouble F.SCN_TROUBLE_AUX_FAIL else m
  m.raise 281

/-- The request that runs completes: GO is self-clearing (R2). -/
def Mach.auxDone (m : Mach) (result count_ : Nat) : Mach :=
  ((m.setScn { m.scn with aux := none }).putB F.SCN_AUX_CTL_GO false).auxStatus result count_

/-- GO (R266). Software's port holds one request; a GO while one is in flight takes its place (log entry 22). One with LEN
0 (R9) or with a refused address completes at once, and a request in flight goes on. -/
def Mach.auxGo (m : Mach) : Mach :=
  let op := m.get F.SCN_AUX_CTL_OP
  let len := m.get F.SCN_AUX_CTL_LEN
  let addr := m.get F.SCN_AUX_CTL_ADDR
  let m := m.count 214
  if len = 0 then m.auxStatus auxEmpty 0
  else if op = 1 ∧ ((0x100 ≤ addr ∧ addr ≤ 0x1FF) ∨ (addr ≤ 0x600 ∧ 0x600 < addr + len) ∨ (addr < 0x100 ∧ 0x100 < addr + len))
    then m.auxStatus auxBadValue 0
  else (m.setScn { m.scn with aux := some { op := op, len := len, addr := addr, noReply := 3, defers := 7 } }).putB
    F.SCN_AUX_CTL_GO true

/-- AUX_REPLY_TIMEOUT: repeated 3 times on a missing reply. -/
def Mach.auxReplyTimeout (m : Mach) : Mach :=
  match m.scn.aux with
  | none => m
  | some q =>
    if q.noReply = 0 then m.auxDone auxTimeout 0
    else m.setScn { m.scn with aux := some { q with noReply := q.noReply - 1 } }

/-- Byte i of SCN_AUX_DATA. -/
def Mach.putAuxByte (m : Mach) (i v : Nat) : Mach :=
  m.put F.SCN_AUX_DATA_DATA (setBits (m.get F.SCN_AUX_DATA_DATA (i / 4)) (8 * (i % 4)) 8 v) (i / 4)

/-- AUX_REPLY: one whose length or code does not fit counts as none. -/
def Mach.auxReply (m : Mach) (code : Nat) (data : List Nat) (fits : Bool) : Mach :=
  match m.scn.aux with
  | none => m
  | some q =>
    if !fits then m.auxReplyTimeout
    else if code = 2 then
      if q.defers = 0 then m.auxDone auxDefer 0
      else m.setScn { m.scn with aux := some { q with defers := q.defers - 1 } }
    else if code = 1 then m.auxDone auxNack 0
    else if q.op % 2 = 0 then
      let d := data.take q.len
      let m := (d.zip (List.range 16)).foldl (fun m e => m.putAuxByte e.2 (e.1 % 256)) m
      m.auxDone auxOk d.length
    else m.auxDone auxOk q.len

/-! ### Backlight duty (R261, R268) -/

/-- A write of SCN_BL.DUTY waits for a latch line, in place of one that waits already. -/
def Mach.dutyWrite (m : Mach) (duty : Nat) : Mach := m.setScn { m.scn with dutyNew := some duty }

def Mach.dutyLatch (m : Mach) : Mach :=
  match m.scn.dutyNew with
  | some d => m.setScn { m.scn with dutyNew := none, dutyNext := some d }
  | none => m

def Mach.dutyFrame (m : Mach) : Mach :=
  match m.scn.dutyNext with
  | some d =>
    let m := m.setScn { m.scn with dutyNext := none, duty := d }
    let m := if m.panel = panelLit then m.pwm else m
    (m.put F.SCN_BL_APPLIED_FRAME (m.get F.SCN_FRAME_N)).raise 282
  | none => m

/-! ### Frame starts (R255 to R258, R260, R271, R272) -/

/-- The card that the mode asks for (R271), 0 none; without the compositor's or the pixel island's clock the output is
blank (R14). -/
def Mach.wantedCard (m : Mach) : Nat :=
  match m.mode with
  | .quarantine => 1
  | .join => 2
  | .standby => if m.on F.SCN_CTL_STANDBY_OFF then 0 else 3
  | .service => 4
  | .halt => if m.scn.stopped.isSome then 0 else if m.get F.PWR_STATUS_STAGE = 5 then 6 else 5
  | _ => if m.get F.PWR_STATUS_STAGE = 5 then 6 else 0

/-- CARD_CHANGE: composed frames come back from the first frame start whose band 0 slot began after the mode allowed
composition, which is a frame the compositor has composed. -/
def Mach.cardFrame (m : Mach) : Mach :=
  let n := m.get F.SCN_FRAME_N
  let old := m.get F.SCN_STATUS_CARD
  let want := m.wantedCard
  let composed := m.cmp.frame % 2 ^ 48 = n || m.cmp.skip || m.scn.stopped.isSome
  let card := if want = 0 ∧ old ≠ 0 ∧ !composed then old else want
  if card = old then m else (m.put F.SCN_STATUS_CARD card).raise 279

/-- Frame starts run: the timing generator runs in every mode with an output (R388). -/
def Mode.scans : Mode → Bool
  | .hold | .load | .prove | .sleep => false
  | _ => true

/-- The timing generator runs: in every mode with an output, but in STANDBY only while the panel is on, and not without
the clock of the pixel island (number 18 of R14). -/
def Mach.timingRuns (m : Mach) : Bool :=
  m.mode.scans && !(m.mode = .standby && m.panel = panelOff) && m.scn.stopped ≠ some 18

/-- The most that the pixel clock's trim of 200 ppm takes out of one frame of p (R88, R255). -/
def trimMax (p : Nat) : Nat := p / 5000

/-- The trim is at its limit (R420). -/
def Mach.trimFull (m : Mach) : Bool := m.timingRuns && 0 < m.scn.trim.natAbs && m.scn.trim.natAbs = trimMax (max 1 m.framePeriodFx)

/-- The start of the frame whose first active line is now: stamp, N, e_f, LAG, alignment, card, flip time. -/
def Mach.scanFrameStart (m : Mach) : Mach :=
  let stamp := m.now
  let p := max 1 m.framePeriodFx
  -- floor((stamp − FRAME_EPOCH) / FRAME_PERIOD + 1/2)
  let since : Int := ((stamp : Int) - m.get F.TIME_FRAME_EPOCH_EPOCH) * 65536
  let free := m.scn.fallback.isSome
  -- The frames of R273 are not aligned to the wall: N counts on by one.
  let n : Int := if free then m.get F.SCN_FRAME_N + 1 else (2 * since + p) / (2 * p)
  let ef : Int := if free then 0 else since - n * p
  let m := m.put F.SCN_FRAME_N (ofSigned n 48) |>.put F.SCN_START_TIME_START stamp |>.put F.SCN_RATE_KHZ m.pixelKhz
  let m := (m.raise 272).count 208
  let aligned := !free && decide (ef.natAbs ≤ 60 * 65536)
  let m := if aligned = m.on F.SCN_STATUS_ALIGNED then m else (m.putB F.SCN_STATUS_ALIGNED aligned).raise 277
  let ns : Int := if ef < 0 then -((ef.natAbs / 65536 : Nat) : Int) else ((ef.natAbs / 65536 : Nat) : Int)
  let lag := if aligned ∨ ef < 0 then 0 else ceilDiv ef.natAbs 65536000
  let m := m.put F.SCN_ALIGN_E (ofSigned (clampSigned ns 32) 32) |>.put F.SCN_LAG_LAG lag
    |>.put F.CMP_FRS_UNCERT_U_NODE (sat32 (ceilDiv m.uNode 1000 + lag))
  let m := if m.scn.retiming then (m.setScn { m.scn with retiming := false }).raise 278 else m
  let m := m.cardFrame
  let card := m.get F.SCN_STATUS_CARD
  let off := decide (p < ef.natAbs * m.vtotal)
  let run := if off && card = 0 then m.scn.lateRun + 1 else 0
  -- The trim drives the error out within the frame, as far as it reaches (log entry 78).
  let trim : Int := max (-(trimMax p : Int)) (min (trimMax p) ef)
  let m := m.setScn { m.scn with lateRun := run, retiming := off && card ≠ 0, running := true, trim := trim }
  let m := if run = 16 then m.trouble F.SCN_TROUBLE_ALIGN_LOST else m
  let video := m.scn.linkUp
  -- Video is sent from the frame start after training (R267, R269).
  let m := if m.scn.step = 2 ∨ m.scn.step = 8 then (m.setPanel panelVideo).setScn { m.scn with step := m.scn.step + 1 } else m
  let repeated := m.cmp.skip || m.cmp.frame % 2 ^ 48 ≠ m.get F.SCN_FRAME_N
  let m := if m.cmp.skip then m else { m with cmp := { m.cmp with front := m.cmp.back } }
  if card ≠ 0 then m.count 211
  else if m.scn.stopped.isSome then m
  else if repeated then m.count 210
  else
    let m := m.count 209
    if video then m.put F.SCN_FLIP_TIME_FLIP stamp else m

/-- VBLANK. -/
def Mach.vblank (m : Mach) : Mach := if m.timingRuns then m.raise 273 else m

end Sys2Proof.Machine
end

