-- ==== Sys2Proof/Machine/Touch.lean ====
section
/-! DEFINITION. The Melelle touch front end (R278 to R306): scan cycles, detection, hopping, baselines, contacts,
reports, remote reports, self-test and proximity. -/

namespace Sys2Proof.Machine

def Mach.setTch (m : Mach) (x : TchSt) : Mach := { m with tch := x }

/-- Modes in which the panel is scanned (R306). -/
def Mode.touches : Mode → Bool
  | .join | .live | .shed | .essential | .service | .standby => true
  | _ => false

/-! ### Pins, factory tables and baselines (R278, R279, R289) -/

def Mach.txCount (m : Mach) : Nat := m.get F.TCH_GEOM_TX_COUNT
def Mach.rxCount (m : Mach) : Nat := m.get F.TCH_GEOM_RX_COUNT

/-- The pin of a role with an index. -/
def Mach.pinOf (m : Mach) (role i : Nat) : Option Nat :=
  (List.range 128).find? fun k => m.get F.TCH_PIN_ROLE k = role && m.get F.TCH_PIN_INDEX k = i

def Mach.usedPin (m : Mach) (k : Nat) : Bool := m.get F.TCH_PIN_ROLE k = 1 || m.get F.TCH_PIN_ROLE k = 2

/-- Node (t, r) as an index. -/
def nodeIx (t r : Nat) : Nat := t * 64 + r

/-- The nodes of the grid, t-major. -/
def Mach.gridNodes (m : Mach) : List Nat :=
  (List.range m.txCount).flatMap fun t => (List.range m.rxCount).map fun r => nodeIx t r

/-- A signed 16-bit (I, Q) pair of the touch table. -/
def Mach.touchPair (m : Mach) (off : Nat) : Int × Int :=
  (toSigned (le2 m.cfg.touch off) 16, toSigned (le2 m.cfg.touch (off + 2)) 16)

/-- Where the factory tables of frequency f start: 128 pin words come first, then a block per enabled frequency. -/
def Mach.touchBlock (m : Mach) (f : Nat) : Nat :=
  let rank := (bitsSet m.cfg.touchFreqs 8).takeWhile (· < f) |>.length
  let used := ((List.range 128).filter m.usedPin).length
  512 + rank * (4 * m.txCount * m.rxCount + 4 * used)

/-- F of a node and of a pin, at frequency f. -/
def Mach.factoryNode (m : Mach) (f n : Nat) : Int × Int :=
  m.touchPair (m.touchBlock f + 4 * (n / 64 * m.rxCount + n % 64))

def Mach.factoryPin (m : Mach) (f k : Nat) : Int × Int :=
  let i := ((List.range k).filter m.usedPin).length
  m.touchPair (m.touchBlock f + 4 * m.txCount * m.rxCount + 4 * i)

def scaleC (k : Int) (c : Int × Int) : Int × Int := (k * c.1, k * c.2)
def addC (a b : Int × Int) : Int × Int := (a.1 + b.1, a.2 + b.2)
def subC (a b : Int × Int) : Int × Int := (a.1 - b.1, a.2 - b.2)

/-- The baseline F + D, in 2^-16 counts. -/
def Mach.baseNode (m : Mach) (f n : Nat) : Int × Int :=
  addC (scaleC 65536 (m.factoryNode f n)) (tGet m.tch.drift (0, 0) n)

def Mach.basePin (m : Mach) (f k : Nat) : Int × Int :=
  addC (scaleC 65536 (m.factoryPin f k)) (tGet m.tch.driftPin (0, 0) k)

/-! ### Deltas (R284) -/

/-- Largest r with r × r ≤ n, for n below 4^k. -/
def isqrtBits (n : Nat) : Nat → Nat → Nat
  | 0, r => r
  | k + 1, r => if (r + 2 ^ k) * (r + 2 ^ k) ≤ n then isqrtBits n k (r + 2 ^ k) else isqrtBits n k r

def isqrt (n : Nat) : Nat := isqrtBits n (n.log2 / 2 + 1) 0

/-- sign × sqrt(num² / den) with the rounding of an inexact value left open, saturating at ±32,767. -/
def rootOpen (num : Int) (den : Nat) : Int :=
  let q := num.natAbs * num.natAbs
  let r := isqrt (q / max 1 den)
  let up := if r * r * den ≠ q ∧ Config.roundsUp q den then 1 else 0
  let v : Int := min 32767 (r + up)
  if num < 0 then -v else v

/-- (|b|² − Re(m b*)) / |b| with b in 2^-16 counts. -/
def deltaM (v b : Int × Int) : Int :=
  let bb := (b.1 * b.1 + b.2 * b.2).toNat
  if bb = 0 then clampSigned (toSigned (Config.deltaNoBaseline v.1 v.2) 16) 16
  else rootOpen (bb - (v.1 * b.1 + v.2 * b.2) * 65536) (2 ^ 32 * bb)

/-- Im(m b*) / |b|. -/
def deltaQ (v b : Int × Int) : Int :=
  let bb := (b.1 * b.1 + b.2 * b.2).toNat
  if bb = 0 then clampSigned (toSigned (Config.deltaNoBaseline v.2 v.1) 16) 16
  else rootOpen ((v.2 * b.1 - v.1 * b.2) * 65536) (2 ^ 32 * bb)

/-- The self delta: −(|b|² − Re(m b*)) / |b|. -/
def deltaS (v b : Int × Int) : Int := -deltaM v b

/-- The deltas of a scan: dm and dq by node, ds by pin. -/
structure Deltas where
  dm : List (Nat × Int)
  dq : List (Nat × Int)
  ds : List (Nat × Int)
  deriving DecidableEq, Repr

def Mach.deltas (m : Mach) (f : Nat) : Deltas :=
  let ns := m.gridNodes
  { dm := ns.map fun n => (n, deltaM (tGet m.tch.live (0, 0) n) (m.baseNode f n))
    dq := ns.map fun n => (n, deltaQ (tGet m.tch.live (0, 0) n) (m.baseNode f n))
    ds := ((List.range 128).filter m.usedPin).map fun k => (k, deltaS (tGet m.tch.livePin (0, 0) k) (m.basePin f k)) }

/-- ds of the node's TX pin, and ds of its RX pin. -/
def Mach.selves (m : Mach) (d : Deltas) (n : Nat) : Int × Int :=
  let s := fun (role i : Nat) => match m.pinOf role i with
    | some k => tGet d.ds 0 k
    | none => 0
  (s 1 (n / 64), s 2 (n % 64))

/-- min(ds of the node's TX pin, ds of its RX pin). -/
def Mach.selfOf (m : Mach) (d : Deltas) (n : Nat) : Int :=
  min (m.selves d n).1 (m.selves d n).2

/-- Nodes within k of node n. -/
def Mach.near (m : Mach) (k n : Nat) : List Nat :=
  m.gridNodes.filter fun o =>
    decide (((o / 64 : Int) - n / 64).natAbs ≤ k ∧ ((o % 64 : Int) - n % 64).natAbs ≤ k)

/-- The node lies on a faulty pin, or in an unbaselined region: it reports nothing (R291, R303). -/
def Mach.nodeSilent (m : Mach) (n : Nat) : Bool :=
  let bad := fun (role i : Nat) => match m.pinOf role i with
    | some k => m.on F.TCH_PIN_FAULT k
    | none => true
  bad 1 (n / 64) || bad 2 (n % 64) || m.tch.regions.any fun g => g.nodes.contains n

/-- Connected nodes of a set, from one of them. -/
def grow (m : Mach) (set : List Nat) : Nat → List Nat → List Nat
  | 0, acc => acc
  | k + 1, acc =>
    let more := set.filter fun n => !acc.contains n && (m.near 1 n).any acc.contains
    if more.isEmpty then acc else grow m set k (acc ++ more)

/-- The thresholds of R285. -/
def Mach.touchOn (m : Mach) : Nat :=
  if m.on F.TCH_CTL_GLOVE then m.get F.TCH_THRESH_GLOVE_ON else m.get F.TCH_THRESH_BARE_ON
def Mach.touchOff (m : Mach) : Nat :=
  if m.on F.TCH_CTL_GLOVE then m.get F.TCH_THRESH_GLOVE_OFF else m.get F.TCH_THRESH_BARE_OFF
def Mach.touchRaise (m : Mach) : Nat :=
  let n := m.get F.TCH_NOISE_NOISE (m.get F.TCH_STATUS_FREQ)
  if m.get F.TCH_HOP_NOISE_HIGH < n then n else 0
def Mach.selfMin (m : Mach) : Nat :=
  if m.on F.TCH_STATUS_WATER then m.get F.TCH_FUSE_SELF_MIN * 3 / 2 else m.get F.TCH_FUSE_SELF_MIN

/-! ### Candidates (R285, R297) -/

/-- A local maximum of its 3 × 3 neighbourhood; of equal neighbours the first in t-major order. -/
def Mach.isPeak (m : Mach) (d : Deltas) (n : Nat) : Bool :=
  let v := tGet d.dm 0 n
  (m.near 1 n).all fun o => let w := tGet d.dm 0 o
    o = n || decide (if o < n then w < v else w ≤ v)

/-- The centroid of the 3 × 3 dm about a node, in 1/256 pitch: u along the RX axis, v along the TX axis. -/
def Mach.centroid (m : Mach) (d : Deltas) (n : Nat) : Nat × Nat :=
  let ws := (m.near 1 n).map fun o => (o, (max 0 (tGet d.dm 0 o)).toNat)
  let total := ws.foldl (fun a e => a + e.2) 0
  if total = 0 then (256 * (n % 64) + 128, 256 * (n / 64) + 128)
  else (roundOpen (ws.foldl (fun a e => a + e.2 * (256 * (e.1 % 64) + 128)) 0) total,
        roundOpen (ws.foldl (fun a e => a + e.2 * (256 * (e.1 / 64) + 128)) 0) total)

/-- Nodes at or above off about the peak. -/
def Mach.areaOf (m : Mach) (d : Deltas) (n : Nat) : Nat :=
  let set := m.gridNodes.filter fun o => decide ((m.touchOff : Int) ≤ tGet d.dm 0 o)
  (grow m set 4096 (if set.contains n then [n] else [])).length

/-- The self and quadrature checks of R285. -/
def Mach.confirmed (m : Mach) (d : Deltas) (n : Nat) : Bool :=
  decide ((m.selfMin : Int) ≤ m.selfOf d n)

/-- The candidates of a scan and the rejects it counts. -/
def Mach.candidates (m : Mach) (d : Deltas) : List Cand × Nat :=
  let peaks := m.gridNodes.filter fun n =>
    !m.nodeSilent n && m.isPeak d n && decide ((m.touchOn + m.touchRaise : Int) ≤ tGet d.dm 0 n)
  let ok := peaks.filter fun n => m.confirmed d n &&
    decide (((tGet d.dq 0 n).natAbs : Int) * 16 ≤ tGet d.dm 0 n * m.get F.TCH_FUSE_Q_RATIO)
  (ok.map fun n =>
    let c := m.centroid d n
    { t := n / 64, r := n % 64, u := c.1, v := c.2, strength := (tGet d.dm 0 n).toNat, area := m.areaOf d n,
      count := 1 }, peaks.length - ok.length)

/-- An existing contact stays present (R285): dm of its nearest node and the self check. -/
def Mach.staysPresent (m : Mach) (d : Deltas) (c : Contact) : Bool :=
  let n := nodeIx (c.v / 256) (c.u / 256)
  !m.nodeSilent n && decide ((m.touchOff + m.touchRaise : Int) ≤ tGet d.dm 0 n) && m.confirmed d n

/-- Output coordinates in 1/8 pixel, and whether they were clamped (R297). -/
def Mach.touchMap (m : Mach) (u v : Nat) : Nat × Nat × Bool :=
  let (u, v) := if m.on F.TCH_MAP_CTL_SWAP then (v, u) else (u, v)
  let x := m.getS F.TCH_MAP_O_OX + (u * m.getS F.TCH_MAP_SX_SX) / 65536
  let y := m.getS F.TCH_MAP_O_OY + (v * m.getS F.TCH_MAP_SY_SY) / 65536
  let cx := max 0 (min x (8 * (m.hactive : Int) - 1))
  let cy := max 0 (min y (8 * (m.vactive : Int) - 1))
  (cx.toNat, cy.toNat, decide (cx ≠ x ∨ cy ≠ y))

/-! ### Matching (R295) -/

def dist2 (u v a b : Nat) : Nat :=
  let du := ((u : Int) - a).natAbs
  let dv := ((v : Int) - b).natAbs
  du * du + dv * dv

/-- The nearest pair of two lists of positions within a distance: indices of each. -/
def nearestPair (limit : Nat) (xs ys : List (Nat × Nat × Nat)) : Option (Nat × Nat) :=
  (xs.foldl (fun best x => ys.foldl (fun (best : Option (Nat × Nat × Nat)) y =>
    let d := dist2 x.2.1 x.2.2 y.2.1 y.2.2
    if limit * limit < d then best
    else match best with
      | some (b, _, _) => if d < b then some (d, x.1, y.1) else best
      | none => some (d, x.1, y.1)) best) (none : Option (Nat × Nat × Nat))).map fun e => (e.2.1, e.2.2)

/-- Nearest pairs first, each side used once. -/
def matchAll (limit : Nat) : Nat → List (Nat × Nat × Nat) → List (Nat × Nat × Nat) → List (Nat × Nat)
  | 0, _, _ => []
  | k + 1, xs, ys =>
    match nearestPair limit xs ys with
    | none => []
    | some (i, j) => (i, j) :: matchAll limit k (xs.filter fun x => x.1 ≠ i) (ys.filter fun y => y.1 ≠ j)

/-! ### Reports (R298 to R300) -/

def evNone : Nat := 0
def evDown : Nat := 1
def evMove : Nat := 2
def evUp : Nat := 3
def evCancel : Nat := 4
def evStuck : Nat := 5

/-- FLAGS of every report of this cycle. -/
def Mach.touchFlags (m : Mach) : Nat :=
  (if m.on F.TCH_STATUS_WATER then 2 else 0) ||| (if m.on F.TCH_STATUS_NOISY then 4 else 0)
    ||| (if m.servo = servoHoldover ∨ m.servo = servoSlew then 8 else 0) ||| (if m.on F.TCH_STATUS_OVERFLOW then 32 else 0)

/-- The CRC that closes a report: low 32 bits of word 1 folded in first. -/
def reportCrc (w0 w1 w2 u : Nat) : Nat := crc32cFold (w1 % 2 ^ 32) (wordBytes [w0, w1, w2] ++ natBytes 4 u)

def reportWords (sample id slot ev flags src cycle x y strength area u : Nat) : List Nat :=
  let w1 := (id % 256) <<< 56 ||| (slot % 16) <<< 52 ||| ev <<< 48 ||| (flags % 256) <<< 40 ||| (src % 4096) <<< 20
    ||| cycle % 65536
  let w2 := (x % 65536) <<< 48 ||| (y % 65536) <<< 32 ||| (strength % 65536) <<< 16 ||| (area % 256) <<< 8
  let u := u % 2 ^ 32
  [sample, w1, w2, (reportCrc sample w1 w2 u) <<< 32 ||| u]

def Mach.uStamp (m : Mach) : Nat := ceilDiv m.uNode 1000

/-- A report of a contact, with the stamp of a scan's end and its uncertainty (R13, R298). -/
def Mach.stampedReport (m : Mach) (stamp : Nat × Nat) (c : Contact) (ev : Nat) : List Nat :=
  let glove := if m.on F.TCH_CTL_GLOVE ∧ c.strength < m.get F.TCH_THRESH_BARE_ON then 1 else 0
  let flags := m.touchFlags ||| glove ||| (if c.stuck then 16 else 0) ||| (if c.edge then 64 else 0)
  reportWords stamp.1 c.id c.slot ev flags m.nodeId m.tch.cycle c.x c.y c.strength c.area stamp.2

/-- The stamp of a scan that ends now. -/
def Mach.scanStamp (m : Mach) : Nat × Nat := (m.now, m.uStamp)

/-- The stamp of the newest scan of this node that has ended. -/
def Mach.lastScan (m : Mach) : Nat × Nat :=
  match tFind m.tch.cycles m.nodeId with
  | some c => (c.sample, c.u)
  | none => m.scanStamp

/-- A report of a contact in the cycle whose scan ends now. -/
def Mach.contactReport (m : Mach) (c : Contact) (ev : Nat) : List Nat := m.stampedReport m.scanStamp c ev

/-- A report enters the FIFO of 64, or is dropped and counted. -/
def Mach.pushReport (m : Mach) (ws : List Nat) : Mach :=
  if m.tch.reports.length < 64 then
    (m.setTch { m.tch with reports := m.tch.reports ++ [ws] }).put F.TCH_REPORT_STATUS_COUNT (m.tch.reports.length + 1)
  else (m.bump F.TCH_REPORT_STATUS_DROPPED).trouble F.TCH_TROUBLE_FIFO_FULL

/-- Reports go out: to the FIFO, and as CONTACT flits with FAB_EN. Event 304 is for a cycle that adds some (R299). -/
def Mach.sendReports (m : Mach) (rs : List (List Nat)) : Mach :=
  let held := m.tch.reports.length
  let m := rs.foldl (fun m r =>
    let ev := bits (r.getD 1 0) 48 4
    let m := (m.chkUnit 12 true).count 226 |>.pushReport r
    let m := if m.on F.TCH_CTL_FAB_EN then m.sendRouted 4 1 (m.get F.TCH_ROUTE_DEST) r 32 else m
    if ev = evDown then (m.raise 305).count 227
    else if ev = evUp ∨ ev = evCancel then (m.raise 306).count 228 else m) m
  if m.tch.reports.length = held then m else m.raise 304

/-- A heartbeat: ID 0, SLOT 15, and never in the local FIFO. -/
def Mach.heartbeat (m : Mach) : Mach :=
  let r := reportWords m.now 0 15 evNone m.touchFlags m.nodeId m.tch.cycle 0 0 0 0 m.uStamp
  if m.on F.TCH_CTL_FAB_EN then ((m.chkUnit 12 true).sendRouted 4 1 (m.get F.TCH_ROUTE_DEST) r 32).count 236 else m

/-- Seconds since DOWN of the contact in a slot. -/
def Mach.contactHeld (m : Mach) (s : Nat) : Nat :=
  match m.tch.contacts.find? (fun c => c.slot = s) with
  | some c => min (2 ^ 32 - 1) ((m.raw - c.downRaw) / msTicks 1000)
  | none => 0

/-- TCH_CONTACT and the count follow the contacts; the newest cycle of this node for the CURSOR layer. -/
def Mach.showContacts (m : Mach) : Mach :=
  let m := (List.range 10).foldl (fun m s =>
    match m.tch.contacts.find? (fun c => c.slot = s) with
    | some c => m.putB F.TCH_CONTACT_0_ACTIVE true s |>.putB F.TCH_CONTACT_0_STUCK c.stuck s
        |>.put F.TCH_CONTACT_0_ID c.id s |>.put F.TCH_CONTACT_1_X c.x s |>.put F.TCH_CONTACT_1_Y c.y s
        |>.put F.TCH_CONTACT_3_STRENGTH c.strength s
    | none => m.wr .TCH_CONTACT_0 s 0 |>.wr .TCH_CONTACT_1 s 0 |>.wr .TCH_CONTACT_3 s 0) m
  m.put F.TCH_STATUS_CONTACTS m.tch.contacts.length

def Mach.setCursor (m : Mach) (node : Nat) (c : CursorCycle) : Mach :=
  m.setTch { m.tch with cycles := tIns m.tch.cycles node c }

/-- The rings of this node's contacts. -/
def Mach.ownRings (m : Mach) : List (Nat × Nat × Nat × Bool) := m.tch.contacts.map fun c => (c.slot, c.x, c.y, c.stuck)

def Mach.ownCursor (m : Mach) : Mach :=
  m.setCursor m.nodeId { sample := m.now, u := m.uStamp, contacts := m.ownRings }

/-- The rings of a node's active contacts change between its cycles: the sample stays that of its newest cycle. -/
def Mach.setRings (m : Mach) (node : Nat) (rings : List (Nat × Nat × Nat × Bool)) : Mach :=
  match tFind m.tch.cycles node with
  | some c => m.setCursor node { c with contacts := rings }
  | none => m

/-- The active contacts of these slots end with EVENT CANCEL, under the stamp of a scan's end (log entry 79). -/
def Mach.cancelContacts (m : Mach) (stamp : Nat × Nat) (slots : Nat → Bool) : Mach :=
  let gone := (List.range 10).filterMap fun s => if slots s then m.tch.contacts.find? (fun c => c.slot = s) else none
  let rs := gone.map fun c => m.stampedReport stamp c evCancel
  let m := m.setTch { m.tch with contacts := m.tch.contacts.filter fun c => !slots c.slot }
  (m.showContacts.setRings m.nodeId m.ownRings).sendReports rs

/-! ### Baselines (R290 to R294) -/

/-- A node or a pin adopts its live value: D = m − F. -/
def Mach.adoptNode (m : Mach) (n : Nat) : Mach :=
  let f := m.get F.TCH_STATUS_FREQ
  let d := subC (scaleC 65536 (tGet m.tch.live (0, 0) n)) (scaleC 65536 (m.factoryNode f n))
  m.setTch { m.tch with drift := tPut m.tch.drift (0, 0) n d, unconf := tDel m.tch.unconf n }

def Mach.adoptPin (m : Mach) (k : Nat) : Mach :=
  let f := m.get F.TCH_STATUS_FREQ
  let d := subC (scaleC 65536 (tGet m.tch.livePin (0, 0) k)) (scaleC 65536 (m.factoryPin f k))
  m.setTch { m.tch with driftPin := tPut m.tch.driftPin (0, 0) k d }

/-- The pins that cross nodes. -/
def Mach.pinsOf (m : Mach) (ns : List Nat) : List Nat :=
  ((ns.filterMap fun n => m.pinOf 1 (n / 64)) ++ (ns.filterMap fun n => m.pinOf 2 (n % 64))).eraseDups

def Mach.showRegions (m : Mach) : Mach := m.putB F.TCH_STATUS_UNBASELINED (!m.tch.regions.isEmpty)

/-- A region resolves: its nodes adopt, and pins that cross no other region adopt too. -/
def Mach.resolveRegion (m : Mach) (g : TouchRegion) : Mach :=
  let m := m.setTch { m.tch with regions := m.tch.regions.filter (· ≠ g) }
  let m := g.nodes.foldl (fun m n => m.adoptNode n) m
  let held := m.pinsOf (m.tch.regions.flatMap (·.nodes))
  (((m.pinsOf g.nodes).filter fun k => !held.contains k).foldl (fun m k => m.adoptPin k) m).showRegions

/-- Deltas against the factory tables alone. -/
def Mach.factoryDeltas (m : Mach) (f : Nat) : Deltas :=
  { m with tch := { m.tch with drift := [], driftPin := [] } }.deltas f

/-- The cross-check of a scan start (R290). -/
def Mach.crossCheck (m : Mach) : Mach :=
  let f := m.get F.TCH_STATUS_FREQ
  let d := m.factoryDeltas f
  let bad := m.gridNodes.filter fun n => decide ((m.touchOn : Int) ≤ 2 * tGet d.dm 0 n)
    && decide ((m.get F.TCH_FUSE_SELF_MIN : Int) ≤ m.selfOf d n)
  let grown := m.gridNodes.filter fun n => (m.near 1 n).any bad.contains
  let regions := (bad.foldl (fun (acc : List (List Nat)) n =>
    if acc.any (·.contains n) then acc else acc ++ [grow m bad 4096 [n]]) []).map fun ns =>
      let all := m.gridNodes.filter fun n => (m.near 1 n).any ns.contains
      ({ nodes := all, start := all.map fun n => (n, tGet m.tch.live (0, 0) n), since := m.raw } : TouchRegion)
  let m := m.setTch { m.tch with regions := regions, drift := [], driftPin := [], unconf := [], first := false }
  let m := (m.gridNodes.filter fun n => !grown.contains n).foldl (fun m n => m.adoptNode n) m
  let held := m.pinsOf grown
  ((((List.range 128).filter fun k => m.usedPin k && !held.contains k)).foldl (fun m k => m.adoptPin k) m).showRegions

/-- Regions in a later scan: released, restarted or left (R291). -/
def Mach.watchRegions (m : Mach) : Mach :=
  let f := m.get F.TCH_STATUS_FREQ
  let d := m.factoryDeltas f
  let tol := m.get F.TCH_BASE_STABLE_TOL
  m.tch.regions.foldl (fun m g =>
    if g.nodes.all fun n => decide (tGet d.dm 0 n < (m.get F.TCH_BASE2_RELEASE_MARGIN : Int)) then m.resolveRegion g
    else
      let moved := g.nodes.any fun n =>
        let e := subC (tGet m.tch.live (0, 0) n) (tGet g.start (0, 0) n)
        decide ((tol * tol : Int) < e.1 * e.1 + e.2 * e.2)
      if moved then
        let g' := { g with start := g.nodes.map fun n => (n, tGet m.tch.live (0, 0) n), since := m.raw }
        m.setTch { m.tch with regions := m.tch.regions.map fun (x : TouchRegion) => if x = g then g' else x }
      else m) m

/-- BASELINE_ADOPTED. -/
def Mach.baselineAdopted (m : Mach) (n : Nat) : Mach :=
  match m.tch.regions.find? (fun g => g.nodes.contains n) with
  | none => m
  | some g =>
    (((m.resolveRegion g).bump F.TCH_ADOPTIONS_COUNT).count 238).trouble F.TCH_TROUBLE_ADOPTED |>.raise 309

/-- UNCONF_ADOPT. -/
def Mach.unconfAdopt (m : Mach) (n : Nat) : Mach :=
  match tFind m.tch.unconf n with
  | some _ => m.adoptNode n
  | none => m

/-- A node nearest to a contact. -/
def Contact.node (c : Contact) : Nat := nodeIx (c.v / 256) (c.u / 256)

/-- TCH_REBASE (R294). -/
def Mach.touchRebase (m : Mach) (mask : Nat) : Mach :=
  let named := m.tch.contacts.filter fun c => mask.testBit c.slot
  if named.isEmpty then m
  else
    let ns := (named.flatMap fun c => m.near 2 c.node).eraseDups
    let m := m.cancelContacts m.lastScan fun s => mask.testBit s && (m.tch.contacts.any fun c => c.slot = s)
    (ns.foldl (fun m n => m.adoptNode n) m).trouble F.TCH_TROUBLE_REBASED |>.raise 309

/-- TCH_NODE shows dm of the last scan, and D. -/
def Mach.showNodes (m : Mach) (d : Deltas) : Mach :=
  let frozen := (m.tch.contacts.flatMap fun c => m.near 2 c.node).eraseDups
  m.gridNodes.foldl (fun (m : Mach) n =>
    let dr := tGet m.tch.drift (0, 0) n
    m.put F.TCH_NODE_0_DELTA (ofSigned (tGet d.dm 0 n) 16) n |>.put F.TCH_NODE_0_DRIFT (Config.driftShown dr.1 dr.2) n
      |>.putB F.TCH_NODE_1_FROZEN (frozen.contains n) n
      |>.putB F.TCH_NODE_1_UNBASELINED (m.tch.regions.any fun g => g.nodes.contains n) n) m

/-- Drift and unconfirmed deltas of a scanned cycle (R292, R293). -/
def Mach.drifts (m : Mach) (d : Deltas) (cands : List Cand) : Mach :=
  let f := m.get F.TCH_STATUS_FREQ
  let off : Int := m.touchOff
  let shift := m.get F.TCH_BASE_DRIFT_SHIFT
  let frozen := (m.tch.contacts.flatMap fun c => m.near 2 c.node).eraseDups
  let byCand := (cands.flatMap fun c => m.near 2 (nodeIx c.t c.r)).eraseDups
  let move := fun (x : Int) =>
    let q : Int := ((x.natAbs / 2 ^ shift : Nat) : Int)
    let up : Int := if x.natAbs % 2 ^ shift ≠ 0 ∧ Config.roundsUp x.natAbs (2 ^ shift) then 1 else 0
    if x < 0 then -(q + up) else q + up
  m.gridNodes.foldl (fun (m : Mach) n =>
    let dm := tGet d.dm 0 n
    let silent := m.tch.regions.any fun g => g.nodes.contains n
    let small := decide (dm.natAbs < off)
    let m :=
      if small && !silent && !frozen.contains n && !byCand.contains n then
        let e := subC (scaleC 65536 (tGet m.tch.live (0, 0) n)) (m.baseNode f n)
        let dr := addC (tGet m.tch.drift (0, 0) n) (move e.1, move e.2)
        m.setTch { m.tch with drift := tPut m.tch.drift (0, 0) n dr }
      else m
    let un := !small && !silent && !frozen.contains n && !byCand.contains n
      && decide (max (m.selves d n).1 (m.selves d n).2 < (m.get F.TCH_FUSE_SELF_MIN : Int))
    let u := if un then (if (tFind m.tch.unconf n).isSome then m.tch.unconf else tIns m.tch.unconf n m.raw)
      else tDel m.tch.unconf n
    m.setTch { m.tch with unconf := u }) m

/-! ### The cycle (R280, R281, R288) -/

def Mach.touchRate (m : Mach) : Nat :=
  match m.get F.TCH_CTL_RATE with
  | 0 => 60 | 1 => 120 | _ => 240

/-- The number of the cycle that starts now (R280): starts lie P = 10^9 / rate ns apart, which is no whole number of ns. -/
def Mach.touchCycleNo (m : Mach) : Nat :=
  let since : Int := (m.now : Int) - m.get F.TIME_FRAME_EPOCH_EPOCH - m.get F.TCH_PHASE_NS
  ofSigned ((2 * since * m.touchRate + 1000000000) / 2000000000) 16

/-- TCH_CYCLE_START. -/
def Mach.touchCycleStart (m : Mach) : Mach :=
  if !m.mode.touches || !m.on F.TCH_CTL_EN then m
  else
    let k := m.touchCycleNo
    let quiet := m.tch.contacts.isEmpty && m.tch.pend.isEmpty && m.tch.quietRaw + msTicks 1000 ≤ m.raw
    let start := m.tch.testWanted && quiet && m.tch.testLeft = 0
    let m := m.setTch { m.tch with phase := 1, cycle := k, testLeft := if start then 2 else m.tch.testLeft }
    let m := match m.tch.freqNext with
      | some f => (m.setTch { m.tch with freqNext := none }).put F.TCH_STATUS_FREQ f
      | none => m
    (m.put F.TCH_STATUS_CYCLE k |>.put F.TCH_STATUS_STATE (if 0 < m.tch.testLeft then 1 else 2)).count 224

/-- The enabled frequency with the least noise, the lower index on a tie. -/
def Mach.bestFreq (m : Mach) : Option Nat :=
  ((List.range 8).filter fun i => m.on F.TCH_FREQ_EN i).foldl (fun (b : Option Nat) i => match b with
    | some j => if m.get F.TCH_NOISE_NOISE i < m.get F.TCH_NOISE_NOISE j then some i else b
    | none => some i) none

/-- LISTEN_END. -/
def Mach.listenEnd (m : Mach) (noise : List Nat) : Mach :=
  if m.tch.phase ≠ 1 then m
  else
    let m := (List.range 8).foldl (fun m i =>
      if m.on F.TCH_FREQ_EN i then m.put F.TCH_NOISE_NOISE (min 32767 (noise.getD i 0)) i else m) m
    let m := m.setTch { m.tch with phase := 2 }
    match m.bestFreq with
    | none => m
    | some best =>
      if m.tch.first ∧ m.tch.dropRun = 0 then (m.put F.TCH_STATUS_FREQ best).setTch { m.tch with highCount := 0 } else
      let cur := m.get F.TCH_NOISE_NOISE (m.get F.TCH_STATUS_FREQ)
      let low := m.get F.TCH_NOISE_NOISE best
      let high := if m.get F.TCH_HOP_NOISE_HIGH < cur then m.tch.highCount + 1 else 0
      let hop := m.get F.TCH_HOP_HOP_COUNT ≤ high && low * 2 ≤ cur
      let m := if hop then ((m.setTch { m.tch with freqNext := some best, highCount := 0 }).raise 311).count 230
        else m.setTch { m.tch with highCount := high }
      let noisy := decide (m.get F.TCH_HOP_NOISE_MAX < low)
      if noisy = m.on F.TCH_STATUS_NOISY then m
      else
        let m := m.putB F.TCH_STATUS_NOISY noisy
        (if noisy then m.trouble F.TCH_TROUBLE_NOISY else m).raise 312

/-- WATER (R286). -/
def Mach.waterState (m : Mach) (d : Deltas) : Mach :=
  let neg := (m.gridNodes.filter fun n => decide (tGet d.dm 0 n ≤ -(m.get F.TCH_WATER_NEG : Int))).length
  let wet := m.get F.TCH_WATER_NODES ≤ neg
  let isWet := m.on F.TCH_STATUS_WATER
  if wet then
    let m := m.setTch { m.tch with waterOut := 0 }
    if isWet then m else (m.putB F.TCH_STATUS_WATER true).raise 313
  else if isWet then
    if 16 ≤ m.tch.waterOut + 1 then ((m.setTch { m.tch with waterOut := 0 }).putB F.TCH_STATUS_WATER false).raise 313
    else m.setTch { m.tch with waterOut := m.tch.waterOut + 1 }
  else m

/-- A dropped scan (R303); `out` are the pins outside the window. -/
def Mach.dropScan (m : Mach) (late : Bool) (out : List Nat) : Mach :=
  let run := m.tch.dropRun + 1
  let pins := if run = 1 then out else m.tch.dropPins.filter out.contains
  let m := (m.setTch { m.tch with phase := 0, dropRun := run, dropPins := pins }).count 225
  let m := if run = 1 then m.raise 320 |>.trouble (if late then F.TCH_TROUBLE_SCAN_LATE else F.TCH_TROUBLE_SCAN_DROPPED)
    else m
  if run ≠ 16 then m
  else
    let m := pins.foldl (fun m k => m.putB F.TCH_PIN_FAULT true k) m
    let m := if pins.isEmpty then m
      else (m.putB F.TCH_STATUS_DEGRADED true).trouble F.TCH_TROUBLE_PIN_FAULT |>.raise 314
    let m := m.cancelContacts (if late then m.lastScan else m.scanStamp) fun _ => true
    -- For a timing drop the analog front end is reset: scanning starts again with the cross-check.
    if late then m.setTch { m.tch with first := true } else m

def Mach.scanLate (m : Mach) : Mach := if m.tch.phase = 2 then m.dropScan true [] else m

/-- The next contact ID: an 8-bit counter that skips 0 and every ID in use. -/
def nextId (used : List Nat) : Nat → Nat → Nat
  | 0, i => i
  | k + 1, i =>
    let j := if i % 256 = 255 then 1 else i % 256 + 1
    if used.contains j then nextId used k j else j

/-- The contact of a candidate. -/
def Mach.place (m : Mach) (c : Contact) (u v strength area : Nat) : Contact :=
  let (x, y, e) := m.touchMap u v
  { c with u := u, v := v, x := x, y := y, edge := e, strength := strength, area := area, missed := 0 }

/-- TRACK (R295): contacts after a scan's candidates: who stays, who ends with UP, who goes DOWN, who waits. -/
def Mach.track (m : Mach) (d : Deltas) (cands : List Cand) : Mach :=
  let limit := m.get F.TCH_TRACK_DIST
  let ix := List.range cands.length
  let pos := (cands.zip ix).map fun e => (e.2, e.1.u, e.1.v)
  let pairs := matchAll limit 4096 (m.tch.contacts.map fun c => (c.slot, c.u, c.v)) pos
  -- 1: matches; a contact also stays present by its nearest node.
  let after := m.tch.contacts.map fun (c : Contact) =>
    match pairs.find? (fun p => p.1 = c.slot) with
    | some (_, j) =>
      match cands[j]? with
      | some k => m.place c k.u k.v k.strength k.area
      | none => c
    | none =>
      if m.staysPresent d c then
        let ctr := m.centroid d c.node
        m.place c ctr.1 ctr.2 (tGet d.dm 0 c.node).toNat (m.areaOf d c.node)
      else { c with missed := c.missed + 1 }
  -- 2: UP.
  let gone := after.filter fun c => m.get F.TCH_CTL_UP_CYCLES ≤ c.missed
  let kept := after.filter fun c => c.missed < m.get F.TCH_CTL_UP_CYCLES
  -- 4: candidates that wait, with the scanned cycles in a row they have been ones.
  let free := (cands.zip ix).filter fun e => !pairs.any fun p => p.2 = e.2
  let oldPos := (m.tch.pend.zip (List.range m.tch.pend.length)).map fun e => (e.2, e.1.u, e.1.v)
  let again := matchAll limit 4096 oldPos (free.map fun e => (e.2, e.1.u, e.1.v))
  let waiting := free.map fun e =>
    match again.find? (fun p => p.2 = e.2) with
    | some (i, _) => { e.1 with count := ((m.tch.pend[i]?).map (·.count)).getD 0 + 1 }
    | none => e.1
  let due := if m.on F.TCH_STATUS_NOISY then [] else waiting.filter fun c => m.get F.TCH_CTL_DOWN_CYCLES ≤ c.count
  let order := due.foldl (fun (l : List Cand) c =>
    let before := l.takeWhile fun o => decide (c.strength ≤ o.strength)
    before ++ [c] ++ l.drop before.length) []
  let slots := (List.range 10).filter fun s => !kept.any fun c => c.slot = s
  let downs := order.zip slots
  let (last, news) := downs.foldl (fun (a : Nat × List Contact) e =>
    let id := nextId ((kept ++ a.2).map (·.id)) 256 a.1
    let c : Contact := m.place { slot := e.2, id := id, u := 0, v := 0, x := 0, y := 0, edge := false, strength := 0,
                                 area := 0, missed := 0, downRaw := m.raw, stuck := false, stuckDue := false }
      e.1.u e.1.v e.1.strength e.1.area
    (id, a.2 ++ [c])) (m.tch.lastId, [])
  let left := order.drop slots.length
  let taken := downs.map Prod.fst
  -- 5: overflow. The first cycle in which one waits, since a cycle in which none did (R296).
  let over_ := !left.isEmpty
  let pend := waiting.filter fun c => !taken.contains c
  let m := m.setTch { m.tch with
    contacts := (kept.map fun (c : Contact) => { c with stuck := c.stuck || c.stuckDue, stuckDue := false }) ++ news,
    pend := pend, lastId := last, quietRaw := if cands.isEmpty && kept.isEmpty then m.tch.quietRaw else m.raw }
  let m := if over_ then
      let first := !m.on F.TCH_STATUS_OVERFLOW
      let m := m.putB F.TCH_STATUS_OVERFLOW true |>.count 233
      if !first then m
      else ((m.bump F.TCH_OVERFLOWS_COUNT).trouble F.TCH_TROUBLE_OVERFLOW).raise 308
    else m.putB F.TCH_STATUS_OVERFLOW false
  let bySlot := fun (l : List Contact) => (List.range 10).filterMap fun s => l.find? (fun c => c.slot = s)
  let ups := (bySlot gone).map fun c => m.contactReport c evUp
  let rest := (bySlot (kept ++ news)).map fun c =>
    m.contactReport { c with stuck := c.stuck || c.stuckDue }
      (if news.contains c then evDown else if c.stuckDue then evStuck else evMove)
  let m := (m.showContacts.ownCursor).sendReports (ups ++ rest)
  if (ups ++ rest).isEmpty then m.heartbeat else m

/-- The cycles of a self-test send only heartbeats (R304). -/
def Mach.testCycle (m : Mach) : Mach :=
  (m.setTch { m.tch with phase := 0, testLeft := m.tch.testLeft - 1 }).ownCursor.heartbeat

/-- SCAN_END (R295): a scan outside its window is dropped whole; otherwise cross-check or detection, then tracking. -/
def Mach.scanEnd (m : Mach) (s : ScanData) : Mach :=
  if m.tch.phase ≠ 2 then m
  else if 0 < m.tch.testLeft then m.testCycle
  else
    let out := (List.range 128).filter fun k => m.usedPin k && !m.on F.TCH_PIN_FAULT k &&
      (s.raws.getD k 0 < m.get F.TCH_TEST_LIMITS_OPEN_MIN || m.get F.TCH_TEST_LIMITS_SHORT_MAX < s.raws.getD k 0)
    if !out.isEmpty then m.dropScan false out
    else
      let m := (List.range 128).foldl (fun m k =>
        if m.usedPin k then m.put F.TCH_PIN_SELF_RAW (min 65535 (s.raws.getD k 0)) k else m) m
      let ns := m.gridNodes
      let m := m.setTch { m.tch with
        phase := 0, dropRun := 0, dropPins := [], live := ns.zip s.mutual_, livePin := (List.range 128).zip s.self_ }
      if m.tch.first then
        let m := m.crossCheck
        ((m.showNodes (m.deltas (m.get F.TCH_STATUS_FREQ))).ownCursor).heartbeat
      else
        let m := m.watchRegions
        let d := m.deltas (m.get F.TCH_STATUS_FREQ)
        let m := m.waterState d
        let (cands, rejects) := m.candidates d
        let m := (m.bump F.TCH_REJECTS_COUNT 0 rejects).count 229 rejects
        let m := m.track d cands
        (m.drifts d cands).showNodes d

/-- STUCK_CONTACT (R293): the contact's next report is STUCK, and it stays flagged. -/
def Mach.stuckContact (m : Mach) (slot : Nat) : Mach :=
  match m.tch.contacts.find? (fun c => c.slot = slot) with
  | none => m
  | some c =>
    if c.stuck || c.stuckDue || m.get F.TCH_HOLD_MINUTES = 0 then m
    else
      let m := m.setTch { m.tch with contacts := m.tch.contacts.map fun (x : Contact) =>
        if x.slot = slot then { x with stuckDue := true } else x }
      (m.putB F.TCH_CONTACT_0_STUCK true slot).trouble F.TCH_TROUBLE_STUCK |>.raise 310

/-! ### Self-test (R304) -/

/-- TCH_TEST.GO: the test waits for a second without contacts. -/
def Mach.touchTestGo (m : Mach) : Mach := (m.setTch { m.tch with testWanted := true }).putB F.TCH_TEST_GO true

/-- TCH_TEST_DONE, in PROVE or for a request. -/
def Mach.touchTestDone (m : Mach) (raws coupled : List Nat) : Mach :=
  let used := (List.range 128).filter m.usedPin
  let open_ := used.filter fun k => decide (raws.getD k 0 < m.get F.TCH_TEST_LIMITS_OPEN_MIN)
  let short := used.filter fun k => decide (m.get F.TCH_TEST_LIMITS_SHORT_MAX < raws.getD k 0 ∨ 65535 ≤ raws.getD k 0) ||
    coupled.contains k
  let bad := open_ ++ short
  let word := fun (l : List Nat) (w : Nat) => (l.filter fun k => k / 32 = w).foldl (fun a k => setBit a (k % 32)) 0
  let m := (List.range 4).foldl (fun m w =>
    m.put F.TCH_TEST_OPEN_PINS (word open_ w) w |>.put F.TCH_TEST_SHORT_PINS (word short w) w) m
  let m := used.foldl (fun m k => m.putB F.TCH_PIN_FAULT (bad.contains k) k) m
  let m := m.putB F.TCH_TEST_GO false |>.putB F.TCH_TEST_PASS bad.isEmpty |>.putB F.TCH_STATUS_DEGRADED (!bad.isEmpty)
  let m := m.setTch { m.tch with testWanted := false, testLeft := 0 }
  let m := m.raise 319
  if bad.isEmpty then m else (m.trouble F.TCH_TROUBLE_PIN_FAULT).raise 314

/-! ### Remote reports (R301) -/

/-- TCH_RX: the four words of a CONTACT flit. -/
def Mach.touchRx (m : Mach) (ws : List Nat) : Mach :=
  let w1 := ws.getD 1 0
  let w3 := ws.getD 3 0
  let good : Bool := decide (reportCrc (ws.getD 0 0) w1 (ws.getD 2 0) (w3 % 2 ^ 32) = bits w3 32 32)
  let m := m.chkUnit 12 good
  let src := bits w1 20 12
  let known := (List.range 8).find? fun o => m.on F.TCH_RX_0_VALID o && m.get F.TCH_RX_0_ORIGIN o = src
  let slot := known.orElse fun _ => (List.range 8).find? fun o => !m.on F.TCH_RX_0_VALID o
  match good, slot with
  | false, _ => ((m.bump F.TCH_RX_BAD_COUNT).count 235).trouble F.TCH_TROUBLE_RX_BAD
  | true, none => (m.bump F.TCH_RX_BAD_COUNT).count 235
  | true, some o =>
    let cyc := bits w1 0 16
    let step := (cyc + 65536 - m.get F.TCH_RX_0_CYCLE o) % 65536
    let m := if known.isSome ∧ step ≠ 1 ∧ step ≠ 0 then m.bump F.TCH_RX_1_GAPS o else m
    let m := m.putB F.TCH_RX_0_VALID true o |>.put F.TCH_RX_0_ORIGIN src o |>.put F.TCH_RX_0_CYCLE cyc o
    let x := tGet m.tch.origins { node := src, lastRaw := 0, held := [] } o
    let ev := bits w1 48 4
    let s := bits w1 52 4
    let held := if ev = evUp ∨ ev = evCancel then tDel x.held s else if ev = evNone then x.held else tIns x.held s ws
    let m := m.setTch { m.tch with origins := tIns m.tch.origins o { node := src, lastRaw := m.raw, held := held } }
    let cs := held.map fun e => (e.1, bits (e.2.getD 2 0) 48 16, bits (e.2.getD 2 0) 32 16, (e.2.getD 1 0).testBit 44)
    let m := m.setCursor src { sample := ws.getD 0 0, u := w3 % 2 ^ 32, contacts := cs }
    if ev = evNone then m else ((m.pushReport ws).raise 307).count 234

/-- TCH_RX_SILENT: a CANCEL report for every contact last seen active, with SAMPLE and U_STAMP of this node's wall time,
the rest as the contact's last report had it (log entry 34), and event 306 for each. -/
def Mach.touchRxSilent (m : Mach) (node : Nat) : Mach :=
  match (List.range 8).find? fun o => m.on F.TCH_RX_0_VALID o && m.get F.TCH_RX_0_ORIGIN o = node with
  | none => m
  | some o =>
    let x := tGet m.tch.origins { node := node, lastRaw := 0, held := [] } o
    let m := x.held.foldl (fun m e =>
      let w1 := e.2.getD 1 0
      let w2 := e.2.getD 2 0
      ((m.pushReport (reportWords m.now (bits w1 56 8) (bits w1 52 4) evCancel (bits w1 40 8) node (bits w1 0 16)
        (bits w2 48 16) (bits w2 32 16) (bits w2 16 16) (bits w2 8 8) m.uStamp)).raise 306).count 228) m
    let m := (m.setTch { m.tch with origins := tIns m.tch.origins o { x with held := [] } }).setRings node []
    (m.wr .TCH_RX_0 o 0 |>.wr .TCH_RX_1 o 0).trouble F.TCH_TROUBLE_RX_SILENT |>.raise 321

/-- The oldest report is popped; an empty FIFO gives 0. -/
def Mach.popReport (m : Mach) : List Nat × Mach :=
  match m.tch.reports with
  | [] => ([0, 0, 0, 0], m)
  | r :: rest => (r, (m.setTch { m.tch with reports := rest }).put F.TCH_REPORT_STATUS_COUNT rest.length)

/-! ### Starting, stopping (R306) and proximity (R305) -/

/-- Scanning stops: nothing is reported, and it resumes with the cross-check. -/
def Mach.touchStop (m : Mach) : Mach :=
  let m := m.setTch { m.tch with phase := 0, first := true, contacts := [], pend := [], regions := [], highCount := 0,
                                 freqNext := none, waterOut := 0, dropRun := 0, dropPins := [], testLeft := 0 }
  ((m.showContacts.setRings m.nodeId []).showRegions).put F.TCH_STATUS_STATE (if m.mode = .sleep then 3 else if m.mode = .prove then 1 else 0)
    |>.putB F.TCH_STATUS_OVERFLOW false |>.putB F.TCH_STATUS_WATER false |>.putB F.TCH_STATUS_NOISY false

/-- PROX_SAMPLE: whether a wake is requested. -/
def Mach.proxSample (m : Mach) (g count_ : Nat) : Bool × Mach :=
  let en := m.mode = .sleep && (m.get F.TCH_PROX_CFG_GROUP_EN).testBit g &&
    (List.range 128).any fun k => m.on F.TCH_PIN_PROX_EN k && m.get F.TCH_PIN_PROX_GROUP k = g
  if !en then (false, m)
  else
    let m := (m.put F.TCH_PROX_COUNT_COUNT count_ g).count 237
    let x := tGet m.tch.prox { base := none, run := 0 } g
    match x.base with
    | none => (false, m.setTch { m.tch with prox := tIns m.tch.prox g { base := some (64 * count_), run := 0 } })
    | some b =>
      -- A rise of more than THRESH hundredths of a percent above the baseline, which is kept in 1/64 counts.
      let rises := b * (10000 + m.get F.TCH_PROX_CFG_THRESH) < 64 * count_ * 10000
      let run := if rises then x.run + 1 else 0
      if m.get F.TCH_PROX_CFG_DEBOUNCE ≤ run then
        let was := (m.get F.TCH_PROX_STATUS_DETECT).testBit g
        let m := (m.setTch { m.tch with prox := tIns m.tch.prox g { x with run := run } }).put F.TCH_PROX_STATUS_DETECT
          (setBit (m.get F.TCH_PROX_STATUS_DETECT) g)
        (true, if was then m else m.raise (315 + g))
      else
        -- The group does not detect, so its baseline moves by 1/64 of the difference.
        let m := m.put F.TCH_PROX_STATUS_DETECT (clearBit (m.get F.TCH_PROX_STATUS_DETECT) g)
        (false, m.setTch { m.tch with prox := tIns m.tch.prox g { base := some (roundOpen (63 * b + 64 * count_) 64),
                                                                  run := run } })

end Sys2Proof.Machine
end

