-- ==== Sys2Proof/Machine/Modes.lean ====
section
/-! DEFINITION. The twelve modes (R388 to R399): entering a mode and the work each entry starts, mode requests, leaving
JOIN, wake from STANDBY, HALT, the watchdog (R404, R405), and power supervision: rail monitors, shedding stages and
temperature (R406 to R413). -/

namespace Sys2Proof.Machine

/-- The modes in which a block's islands run (R388): codecs, composition, touch and Ethernet. -/
def Mach.serves (m : Mach) : Bool := m.mode.runs && m.stage ≠ 5

/-- The fabric's links run (R388, R117). -/
def Mach.linksRun (m : Mach) : Bool := m.serves || m.mode = .quarantine

def Mach.setSys (m : Mach) (x : SysSt) : Mach := { m with sys := x }
def Mach.setPwr (m : Mach) (x : PwrSt) : Mach := { m with pwr := x }
def Mach.setEvc (m : Mach) (x : EvcSt) : Mach := { m with evc := x }
def Mach.setChk (m : Mach) (x : ChkSt) : Mach := { m with chk := x }
def Mach.setTst (m : Mach) (x : TstSt) : Mach := { m with tst := x }
def Mach.setCfg (m : Mach) (x : CfgSt) : Mach := { m with cfg := x }
def Mach.setGate (m : Mach) (x : GateSt) : Mach := { m with gate := x }
def Mach.setPmc (m : Mach) (x : PmcSt) : Mach := { m with pmc := x }

/-- The operating mode that the present stage gives. -/
def Mach.operatingMode (m : Mach) : Mode :=
  if m.stage = 0 then .live else if m.stage < 4 then .shed else .essential

/-! ### What stops and starts with a mode -/

/-- R325: running lists stop with no fault and no exit record; EVC_RUNNING and RESUME_VALID clear. -/
def Mach.stopLists (m : Mach) : Mach :=
  let m := (List.range 16).foldl (fun (m : Mach) k =>
    if 2 ≤ m.get F.SEQ_STATE_STATE k then
      m.put F.SEQ_STATE_STATE (if m.on F.SEQ_CTL_EN k then 1 else 0) k
    else m) m
  let m := (List.range 16).foldl (fun (m : Mach) w => m.wr .EVC_RUNNING w 0) m
  let m := (List.range 512).foldl (fun (m : Mach) s => m.putB F.EVC_SRC_2_RESUME_VALID false s) m
  (m.put F.EVC_STATUS_RUNNING 0).setEvc { m.evc with seqs := [] }

/-- R367: running software check jobs end with ABORTED; VALUE is 0. -/
def Mach.abortJobs (m : Mach) : Mach :=
  let m := m.chk.jobs.foldl (fun (m : Mach) j =>
    (((m.put F.CHK_CH_STATUS_RESULT 5 j.1).put F.CHK_CH_VALUE_VALUE 0 j.1).putB F.CHK_CH_CTL_GO false j.1).bump
      F.CHK_CH_UNITS_UNITS j.1 |>.count 282 |>.raise (384 + j.1)) m
  m.setChk {}

/-- Capture ports go off with their islands. -/
def Mach.capsOff (m : Mach) : Mach :=
  (List.range 2).foldl (fun (m : Mach) c => m.put F.CAP_STATUS_STATE capOff c) m

/-- Every fabric port goes DOWN without a record: its island stops at once (R397, R400). -/
def Mach.portsDown (m : Mach) : Mach :=
  (List.range 8).foldl (fun (m : Mach) p => m.portToDown p portDown) m

/-- The work of the modes in which everything runs stops. -/
def Mach.stopServices (m : Mach) : Mach := m.stopLists.abortJobs.touchStop.capsOff

/-- Entry to JOIN: the watchdog restarts (R404), enabled fabric ports leave DISABLED, enabled capture ports and stream
entries start (R145, R147), and the image's layers wait for their first latch line (log entry 41). -/
def Mach.startServices (m : Mach) : Mach :=
  let m := m.setSys { m.sys with wdtStart := m.raw, wdtWarned := false, joinLate := false }
  let m := (List.range 8).foldl (fun (m : Mach) p =>
    m.put F.FAB_PORT_STATUS_STATE (if m.on F.FAB_PORT_CTL_EN p then portDown else portDisabled) p) m
  let m := (List.range 2).foldl (fun (m : Mach) c => if m.on F.CAP_CTL_EN c then m.capStart c else m) m
  let m := (List.range 512).foldl (fun (m : Mach) i => if !m.on F.ETH_STREAM_CTL_EN i then m
    else if m.entForwards i then ((m.setEnt i entIdle).entUse i).2 else m.setEnt i entIdle) m
  let m := (List.range 16).foldl (fun (m : Mach) k => if m.on F.SEQ_CTL_EN k then m.put F.SEQ_STATE_STATE 1 k else m) m
  let m := (List.range 64).foldl (fun (m : Mach) n =>
    let w := m.rd .CMP_LAYER_CTL n
    let a := setBits (tGet m.cmp.active (Reg.por .CMP_LAYER_CTL n) (regKey .CMP_LAYER_CTL n)).toNat
      F.CMP_LAYER_CTL_GROUP.lo F.CMP_LAYER_CTL_GROUP.width (bits w.toNat F.CMP_LAYER_CTL_GROUP.lo F.CMP_LAYER_CTL_GROUP.width)
    m.setActive (tPut m.cmp.active (Reg.por .CMP_LAYER_CTL n) (regKey .CMP_LAYER_CTL n) (BitVec.ofNat 64 a))) m
  (List.range 8).foldl (fun (m : Mach) g => if (m.members g).isEmpty then m else m.groupCommit g 0) m

/-- A STANDBY wake by the timer is due (R393). -/
def Mach.timerDue (m : Mach) : Bool := m.on F.SYS_WAKE_CFG_TIMER && decide (m.get F.SYS_WAKE_TIMER_RAW ≤ m.raw)

/-- R393: on entry to STANDBY every decode context goes to SHED, but those that decode a span for other nodes; on the
return to an operating mode they wait for a key. R396: on entry to SERVICE the encode contexts stop. -/
def Mach.modeContexts (m : Mach) (old new : Mode) : Mach :=
  if new = .standby ∨ (old = .standby ∧ new.operating) then m.decShedNow
  else if new = .service then (List.range 2).foldl (fun (m : Mach) c => m.encStage c) m
  else m

/-- A change of mode (R389): MODE, PREV and the time, event 0, STATE (R116), the panel (R267), and the work that the
mode starts or stops. Entering LIVE asks for the ALWAYS encode contexts (R178) and burns SVN bits (R375). -/
def Mach.enterMode (m : Mach) (new : Mode) : Mach :=
  let old := m.mode
  if old = new then m
  else
    let m := (m.put F.SYS_MODE_PREV old.code).put F.SYS_MODE_MODE new.code |>.put F.SYS_MODE_TIME_TIME m.now
    let m := (m.count 14).putB F.DBG_STATUS_ENABLED (new = .service)
    let m := if old.runs ∧ !new.runs then m.stopServices else m
    let m := if new = .halt ∨ new = .hold then m.portsDown else m
    let m := if new = .join then m.startServices else m
    let m := m.modeContexts old new
    let m := (m.raise 0).stateFlood.panelUpdate
    if new = .live then
      let m := m.encStart true |>.spanContexts
      if m.cfg.svnCommit ∧ m.get F.CFG_SVN_MIN < m.cfg.svn then (m.put F.CFG_SVN_MIN m.cfg.svn).raise 14 else m
    else m

/-- The SVN fuses follow the burn of R375: MIN_SVN is the number of bits blown. -/
def State.burn (s : State) : State :=
  { s with fuses := { s.fuses with svn := max s.fuses.svn (s.mach.get F.CFG_SVN_MIN) } }

/-! ### Wake from STANDBY (R393) -/

/-- A wake source returns the node from STANDBY to its operating mode. -/
def Mach.wakeUp (m : Mach) (source index : Nat) : Mach :=
  if m.mode = .standby then
    ((m.put F.SYS_WAKE_STATUS_SOURCE source).put F.SYS_WAKE_STATUS_INDEX index |>.enterMode m.operatingMode).raise 7
  else m

/-- The timer's value already lies behind the counter: on entry to STANDBY, or as it is written. -/
def Mach.timerWake (m : Mach) : Mach := if m.mode = .standby ∧ m.timerDue then m.wakeUp 4 0 else m

/-! ### HALT (R397) -/

/-- A HALT cause, which acts in any mode from LOAD on and is ignored in HALT. For cause POWER the log entry is written
after the restart (R414). -/
def Mach.halt (m : Mach) (cause detail : Nat) : Mach :=
  if m.mode = .halt ∨ m.mode = .hold then m
  else
    let m := (m.put F.SYS_HALT_CAUSE cause).put F.SYS_HALT_DETAIL detail |>.enterMode .halt
    let m := m.setPwr { m.pwr with s5 := 0 }
    if cause = 2 then m.troubleNoEntry F.SYS_TROUBLE_HALT else m.trouble F.SYS_TROUBLE_HALT 0 detail cause

/-- In QUARANTINE no flit leaves but CONFIG and STATE (R117), also none that waited. -/
def Mach.quietPorts (m : Mach) : Mach :=
  (List.range 8).foldl (fun (m : Mach) p =>
    let x := m.fabPort p
    m.setFabPort p { x with txq := x.txq.filter TxFlit.inQuarantine }) m

/-- QUARANTINE with a cause of R382. -/
def Mach.quarantine (m : Mach) (cause : Nat) : Mach := ((m.put F.CFG_STATUS_CAUSE cause).enterMode .quarantine).quietPorts

/-! ### Requests (R390) -/

/-- At least one SLEEP wake source is enabled (R394). -/
def Mach.sleepWakes (m : Mach) : Bool :=
  m.on F.TCH_PROX_CFG_GROUP_EN || bits (m.get F.SYS_WAKE_CFG_GPIO) 0 4 ≠ 0 || m.on F.SYS_WAKE_CFG_TIMER

/-- R389 allows the request from the present mode. -/
def Mach.requestAllowed (m : Mach) (target : Nat) : Bool :=
  match target with
  | 5 => m.mode = .standby
  | 8 => m.mode.operating
  | 9 => m.mode = .standby && m.sleepWakes
  | 10 => (m.mode.operating || m.mode = .standby) && m.get F.CFG_SVC_STATUS_RESULT = 1
  | 11 => m.mode ≠ .hold
  | _ => false

/-- The target is the present mode, which a request leaves as it is. -/
def Mach.requestPresent (m : Mach) (target : Nat) : Bool :=
  match target with
  | 5 => m.mode.operating
  | 8 => m.mode = .standby
  | 9 => m.mode = .sleep
  | 10 => m.mode = .service
  | 11 => m.mode = .halt
  | _ => false

/-- A refused request sets REFUSED and raises event 10 beside BAD_VALUE. -/
def Mach.requestRefused (m : Mach) : Mach := ((m.refuse .SYS_MODE_REQ 0).put F.SYS_MODE_REQ_STATUS 2).raise 10

/-- A write of TARGET to SYS_MODE_REQ by a master. -/
def Mach.modeRequest (m : Mach) (master target : Nat) : Mach :=
  if m.requestPresent target then m.put F.SYS_MODE_REQ_STATUS 1
  else if !m.requestAllowed target then m.requestRefused
  else
    let m := m.put F.SYS_MODE_REQ_STATUS 1
    match target with
    | 5 => m.wakeUp 1 0
    | 8 => (m.enterMode .standby).timerWake
    | 9 => (m.setSys { m.sys with entering := true, wake := none }).enterMode .sleep
    | 10 => m.enterMode .service
    | _ => m.halt 7 master

/-! ### Leaving JOIN (R391, R392) -/

/-- The node shows a picture: it holds the DISPLAY or the CONSOLE role. -/
def Mach.shows (m : Mach) : Bool := m.cfg.roles.testBit 0 || m.cfg.roles.testBit 3

def Mach.mayLeaveJoin (m : Mach) : Bool :=
  m.on F.FAB_NODE_ID_VALID
    && (m.servo = servoLocked || m.on F.TIME_STATUS_IS_ROOT || m.sys.joinLate)
    && (!m.shows || m.on F.SCN_STATUS_ALIGNED)

/-- LEAVE_JOIN. -/
def Mach.leaveJoin (m : Mach) : Mach := if m.mode = .join ∧ m.mayLeaveJoin then m.enterMode m.operatingMode else m

/-- JOIN_LIMIT. -/
def Mach.joinLimit (m : Mach) : Mach :=
  if m.mode ≠ .join then m
  else
    let m := (m.trouble F.SYS_TROUBLE_JOIN_LIMIT).raise 9
    if !m.on F.FAB_NODE_ID_VALID then m.quarantine 19
    else (m.setSys { m.sys with joinLate := true }).leaveJoin

/-! ### The watchdog (R404) -/

/-- The watchdog counts. -/
def Mach.wdtCounts (m : Mach) : Bool :=
  m.on F.SYS_WDT_CFG_EN && (m.mode = .join || m.mode.operating || m.mode = .standby)

def Mach.wdtRestart (m : Mach) : Mach := m.setSys { m.sys with wdtStart := m.raw, wdtWarned := false }

/-- A write to SYS_WDT_KICK. -/
def Mach.wdtKick (m : Mach) (value : Nat) : Mach :=
  if value % 65536 = (m.get F.SYS_WDT_STATUS_SEQ + 1) % 65536 then (m.advance F.SYS_WDT_STATUS_SEQ).wdtRestart
  else m.bump F.SYS_WDT_STATUS_BAD_KICKS

/-- SYS_WDT_WARN. -/
def Mach.wdtWarn (m : Mach) : Mach :=
  if m.wdtCounts ∧ !m.sys.wdtWarned then (m.setSys { m.sys with wdtWarned := true }).raise 5 else m

/-- The expiry's records: whether the node resets, or halts at MAX (R405). -/
def Mach.wdtExpire (m : Mach) : Bool × Mach :=
  let m := m.trouble F.SYS_TROUBLE_WDT
  let n := m.get F.SYS_WDT_STATUS_COUNT + 1
  if m.get F.SYS_WDT_CFG_MAX ≤ n then (false, m.halt 6 (n - 1)) else (true, m.put F.SYS_WDT_STATUS_COUNT n)

/-- WDT_COUNT_DROP. -/
def Mach.wdtCountDrop (m : Mach) : Mach := m.put F.SYS_WDT_STATUS_COUNT (m.get F.SYS_WDT_STATUS_COUNT - 1)

/-! ### Stages (R408, R411) -/

/-- The stage changes; `rail` is the monitor that caused a rise, 15 for the floor or temperature. -/
def Mach.setStage (m : Mach) (new rail : Nat) : Mach :=
  let old := m.stage
  if new = old then m
  else
    let m := (m.put F.PWR_STATUS_STAGE new).put F.SYS_MODE_STAGE new
    let m := m.putB F.TST_STATUS_PAUSED (new ≠ 0)
    let m :=
      if old < new then
        let m := ((m.put F.PWR_STATUS_RAIL rail).raise 3).count 15
        if old < 2 ∧ 2 ≤ new then m.trouble F.PWR_TROUBLE_SHED else m
      else (if m.mode.operating then (m.raise 4).encStart false else m.raise 4)
    if m.mode.operating ∧ new < 5 then m.enterMode m.operatingMode else m

/-- max(PWR_SHED.FLOOR, thermal floor). -/
def Mach.stageWant (m : Mach) : Nat := max (m.get F.PWR_SHED_FLOOR) m.pwr.thermal

/-- stage = max(stage, want), as each cycle ends. -/
def Mach.stageFloor (m : Mach) : Mach := if m.stage < m.stageWant then m.setStage m.stageWant 15 else m

/-! ### Rail monitors (R406, R407) -/

def railNominal : List Nat := [750, 800, 800, 900, 1200, 1050, 500, 1800, 3300]

/-- The monitor is watched: all from LOAD on; in SLEEP VDD_AON, and VDDA_TCH while a proximity group is enabled. -/
def Mach.railWatched (m : Mach) (r : Nat) : Bool :=
  match m.mode with
  | .hold => false
  | .sleep => r = 2 || (r = 8 && m.on F.TCH_PROX_CFG_GROUP_EN)
  | _ => r < 9

def Mach.showWatched (m : Mach) : Mach :=
  (List.range 9).foldl (fun (m : Mach) r => m.putB F.PWR_RAIL_STATUS_WATCHED (m.railWatched r) r) m

/-- A watched monitor in state `st` or worse. -/
def Mach.railIn (m : Mach) (st : Nat) : Option Nat :=
  (List.range 9).find? fun r => m.railWatched r && decide (st ≤ m.get F.PWR_RAIL_STATUS_STATE r)

/-- The state that a voltage which has held for DWELL gives (R406): 0 OK, 1 LOW, 2 CRIT. -/
def Mach.railNext (m : Mach) (r mv : Nat) : Nat :=
  let st := m.get F.PWR_RAIL_STATUS_STATE r
  let nom := railNominal.getD r 0
  let t1 := m.get F.PWR_RAIL_CFG_T1_PM r
  let t2 := m.get F.PWR_RAIL_CFG_T2_PM r
  let hy := m.get F.PWR_RAIL_CFG_HYST_PM r
  let v := mv * 1000
  if v < nom * (1000 - t2) then 2
  else if st = 2 then (if nom * (1000 - t2 + hy) < v then 1 else 2)
  else if v < nom * (1000 - t1) then 1
  else if st = 1 then (if nom * (1000 - t1 + hy) < v then 0 else 1)
  else 0

/-- PWR_RAIL: the monitor's new state, and what the stage controller does in the cycle. -/
def Mach.pwrRail (m : Mach) (r mv : Nat) : Mach :=
  if !m.railWatched r then m
  else
    let old := m.get F.PWR_RAIL_STATUS_STATE r
    let new := m.railNext r mv
    let was := (m.railIn 1).isSome
    let wasCrit := (m.railIn 2).isSome
    let m := m.put F.PWR_RAIL_STATUS_MV mv r
    let m := m.put F.PWR_RAIL_MIN_MIN_MV (min mv (m.get F.PWR_RAIL_MIN_MIN_MV r)) r
    let low := min mv ((tFind m.pwr.sagMin r).getD mv)
    let sag := if new = 0 then tDel m.pwr.sagMin r else tIns m.pwr.sagMin r low
    let m := m.setPwr { m.pwr with sagMin := sag }
    if new = old then m
    else
      let m := (m.put F.PWR_RAIL_STATUS_STATE new r).raise 2
      let m := if new = 1 ∨ old = 0 then m.trouble F.PWR_TROUBLE_SAG else m
      let m := if new = 2 then m.trouble F.PWR_TROUBLE_CRIT else m
      let m :=
        if (m.railIn 2).isSome then (if wasCrit then m else m.setStage (max m.stage 4) r)
        else if (m.railIn 1).isSome ∧ !was then m.setStage (max m.stage 1) r
        else m
      m.stageFloor

/-- PWR_STAGE_UP: a rail has stayed LOW for STEP, below stage 4 and with none in CRIT. -/
def Mach.pwrStageUp (m : Mach) : Mach :=
  match m.railIn 1 with
  | some r => if (m.railIn 2).isNone ∧ m.stage < 4 then m.setStage (m.stage + 1) r else m
  | none => m

/-- PWR_STAGE_DOWN. -/
def Mach.pwrStageDown (m : Mach) : Mach :=
  if (m.railIn 1).isNone ∧ m.stageWant < m.stage ∧ m.stage < 5 then m.setStage (m.stage - 1) 15 else m

/-- The stage controller as a reset ends (R408): stage 0, and a monitor found LOW or CRIT begins in that cycle. -/
def Mach.stageRestart (m : Mach) : Mach :=
  let m := (m.put F.PWR_STATUS_STAGE 0).put F.SYS_MODE_STAGE 0 |>.putB F.TST_STATUS_PAUSED false
  let m := match m.railIn 2, m.railIn 1 with
    | some r, _ => m.setStage 4 r
    | none, some r => m.setStage 1 r
    | none, none => m
  m.stageFloor

/-! ### Stage S5 (R413) and temperature (R410) -/

/-- S5_DWELL: the record, and HALT: at once with the panel off, otherwise at the second frame start from here. -/
def Mach.s5Dwell (m : Mach) : Mach :=
  match m.railIn 2 with
  | none => m
  | some r =>
    if m.mode = .halt ∨ m.mode = .hold ∨ m.stage = 5 then m
    else
      let low := (tFind m.pwr.sagMin r).getD (m.get F.PWR_RAIL_STATUS_MV r)
      let m := (m.put F.PWR_SAG_RECORD_RAIL r).put F.PWR_SAG_RECORD_MIN_MV low |>.putB F.PWR_SAG_RECORD_VALID true
      let m := m.setPwr { m.pwr with sagTime := m.now, sagTv := m.get F.TIME_STATUS_STATE ≠ 0, sagLog := true }
      let m := (m.troubleNoEntry F.PWR_TROUBLE_POWER_HALT).setStage 5 r
      let m := m.stopServices
      if m.mode = .load ∨ m.mode = .prove ∨ m.mode = .sleep ∨ m.panel = panelOff then m.halt 2 r
      else m.setPwr { m.pwr with s5 := 2 }

/-- The frame starts after S5: the card, then HALT (R413). -/
def Mach.s5Frame (m : Mach) : Mach :=
  match m.pwr.s5 with
  | 0 => m
  | 1 => m.halt 2 (m.get F.PWR_SAG_RECORD_RAIL)
  | n + 1 => m.setPwr { m.pwr with s5 := n }

/-- The hottest reading in °C (R410): a failed sensor counts as WARN (R425). -/
def Mach.hottest (m : Mach) : Int :=
  (List.range 16).foldl (fun (h : Int) i =>
    let t : Int := if m.on F.TEL_TEMP_FAILED i then m.get F.PWR_THERMAL_WARN else m.getS F.TEL_TEMP_TEMP i / 8
    max h t) (-128)

/-- PWR_THERMAL. -/
def Mach.pwrThermal (m : Mach) : Mach :=
  if (m.get F.PWR_THERMAL_WARN : Int) ≤ m.hottest ∧ m.pwr.thermal = 0 then
    ((m.setPwr { m.pwr with thermal := 2 }).trouble F.PWR_TROUBLE_THERMAL).raise 8 |>.stageFloor
  else m

/-- THERMAL_CLEAR. -/
def Mach.thermalClear (m : Mach) : Mach :=
  if m.hottest < (m.get F.PWR_THERMAL_WARN : Int) - 5 then m.setPwr { m.pwr with thermal := 0 } else m

/-- THERMAL_CRIT: the detail is the hottest sensor. -/
def Mach.thermalCrit (m : Mach) : Mach :=
  if (m.get F.PWR_THERMAL_CRIT : Int) ≤ m.hottest then
    let hot := (List.range 16).find? fun i => m.getS F.TEL_TEMP_TEMP i / 8 = m.hottest && !m.on F.TEL_TEMP_FAILED i
    m.halt 4 (hot.getD 15)
  else m

/-- The islands whose clock is derived from a reference: not the cameras' and not the debug port's, which come with an
input (R14). -/
def refIsland (island : Nat) : Bool := island < 23 && island ≠ 11 && island ≠ 12

/-- The islands that run on in HALT (R397). -/
def haltIsland (island : Nat) : Bool := island = 0 || island = 17 || island = 18

/-- The output blanks without the clock of the compositor or of the pixel island (R14, R274). -/
def Mach.blank (m : Mach) (island : Nat) : Mach :=
  if island = 17 ∨ island = 18 then
    let m := m.setScn { m.scn with stopped := some island }
    (if m.on F.SCN_STATUS_CARD then (m.put F.SCN_STATUS_CARD 0).raise 279 else m).panelUpdate
  else m

/-- CLOCK_FAULT (R14): HALT with the island's number; in HALT, where a second cause is ignored (R397), the bit and the
output. (In SLEEP only island 0 runs, and its loss is a PIN-class HOLD, R462.) -/
def Mach.clockFault (m : Mach) (island : Nat) : Mach :=
  if m.mode = .hold ∨ m.mode = .sleep ∨ !refIsland island ∨ (m.mode = .halt ∧ !haltIsland island) then m
  else ((m.trouble F.SYS_TROUBLE_CLOCK 0 island).halt 1 island).blank island

end Sys2Proof.Machine
end

