-- ==== Sys2Proof/Machine/Rules.lean ====
section
/-! DEFINITION. The gate's commands: rule commits (R346), the sync barrier (R347), gate records (R352) and the read of
SYS_FENCE (R340). -/

namespace Sys2Proof.Machine

/-- The rule in the staging registers. -/
def Mach.stagedRule (m : Mach) : GateRule :=
  { base := m.get F.GATE_STAGE_BASE_BASE * 4096, pages := m.get F.GATE_STAGE_PAGES_PAGES,
    mask := m.get F.GATE_STAGE_MASK_MASK, en := m.on F.GATE_STAGE_ATTR_EN, lock := m.on F.GATE_STAGE_ATTR_LOCK,
    w := m.on F.GATE_STAGE_ATTR_W, r := m.on F.GATE_STAGE_ATTR_R }

/-- Rules 0 to 7 are always locked (R345). -/
def Mach.ruleLocked (m : Mach) (i : Nat) : Bool := (m.ruleIn i).lock || i < 8

/-- A commit is refused under R11 or R10 (R346); a commit to a locked rule is dropped before that. -/
def Mach.gateCommitOk (m : Mach) (master i : Nat) : Bool :=
  let g := m.stagedRule
  m.ruleLocked i || (decide (g.base + g.pages * 4096 ≤ 2 ^ 40) && (!g.lock || m.privileged master))

/-- A commit that is not refused: the whole rule in one step. Until a sync, accesses may still see the old rule. -/
def Mach.gateCommit (m : Mach) (i : Nat) : Mach :=
  if m.ruleLocked i then (m.trouble F.GATE_TROUBLE_LOCKED_WRITE).raise 339
  else
    let old := m.ruleIn i
    let m := m.setRule i m.stagedRule
    m.setGate { m.gate with commits := m.gate.commits + 1, unsynced := m.gate.unsynced ++ [(i, old)] }

/-- A write of GATE_SYNC starts a sync: it covers every commit made so far. -/
def Mach.gateSyncWrite (m : Mach) : Mach := m.setGate { m.gate with syncing := m.gate.unsynced.length }

/-- The read of GATE_SYNC that ends the sync: the number of commits in force, saturating. -/
def Mach.gateSyncRead (m : Mach) : Nat × Mach :=
  let left := m.gate.unsynced.drop m.gate.syncing
  let n := min (2 ^ 32 - 1) (m.gate.commits - left.length)
  (n, m.setGate { m.gate with unsynced := left, syncing := 0 } |>.put F.GATE_SYNC_GEN n |>.count 268)

/-- A FENCE with GATE = 1: every commit is in force. -/
def Mach.gateSync (m : Mach) : Mach := (m.setGate { m.gate with unsynced := [], syncing := 0 }).count 268

/-- The oldest gate record is popped. -/
def Mach.popGateRecord (m : Mach) : List Nat × Mach :=
  match m.gate.records with
  | [] => ([], m)
  | r :: rs => (r, (m.setGate { m.gate with records := rs }).put F.GATE_RECORD_STATUS_COUNT rs.length)

/-- An earlier posted remote write of the requester is still in flight or held (R340). -/
def Mach.writesOpen (m : Mach) (q : Requester) : Bool :=
  m.fab.remote.any (fun x => x.by_.who = q && x.write) || m.fab.heldReqs.any (fun x => x.1.by_.who = q && x.1.write)

end Sys2Proof.Machine
end

