-- ==== Sys2Proof/Machine/Checks.lean ====
section
/-! DEFINITION. The checks of a register write (R10, R11): the range of each field's own row, the ranges that a row
states through other fields, and the conditions under which a register may be written at all. `crossOk` reads the
machine as it would be after the write. -/

namespace Sys2Proof.Machine

/-! ### Layers (R29, R54, R55, R201 to R205, R221, R477) -/

/-- The format of a layer's YCbCr source (R160), where the configuration names one: 0 and 2 are 4:2:0, 1 and 3 4:2:2. -/
def Mach.sourceFormat (m : Mach) (kind src : Nat) : Option Nat :=
  let ofStream (id : Nat) : Option Nat :=
    match (List.range 2).find? fun c => m.get F.CAP_ID_ID c = id && m.on F.CAP_CTL_EN c with
    | some c => some (m.get F.CAP_CTL_POOL_FMT c)
    | none => (m.decodeEntry id).map fun e => b1 e 9
  if kind = kindStream then ofStream src
  else match m.spanEntry (src / 16 % 65536) (src % 16) with
    | some e => (m.decodeEntry (le4 e 4)).map fun d => b1 d 9
    | none => none

/-- R204: the scale ratios. -/
def Mach.ratiosOk (m : Mach) (n : Nat) : Bool :=
  let cw := m.get F.CMP_LAYER_CROP_SIZE_CROP_W n
  let ch := m.get F.CMP_LAYER_CROP_SIZE_CROP_H n
  let dw := m.get F.CMP_LAYER_DST_SIZE_DST_W n
  let dh := m.get F.CMP_LAYER_DST_SIZE_DST_H n
  decide (cw ≤ 4 * dw) && decide (ch ≤ 3 * dh) && decide (dw ≤ 16 * cw) && decide (dh ≤ 16 * ch)

/-- R203: even crops of 4:2:0 and 4:2:2 sources; every video source is one of the two. -/
def Mach.evenOk (m : Mach) (n : Nat) : Bool :=
  let fmt := m.sourceFormat (m.get F.CMP_LAYER_CTL_KIND n) (m.get F.CMP_LAYER_SRC_SOURCE n)
  let tall : Bool := match fmt with
    | some f => f % 2 = 1 || (m.get F.CMP_LAYER_CROP_POS_CROP_Y n % 2 = 0 && m.get F.CMP_LAYER_CROP_SIZE_CROP_H n % 2 = 0)
    | none => true
  m.get F.CMP_LAYER_CROP_POS_CROP_X n % 2 = 0 && m.get F.CMP_LAYER_CROP_SIZE_CROP_W n % 2 = 0 && tall

/-- R221: the buffer is 4 KiB aligned, in DRAM or in the Cistern window outside the frame buffers, and does not meet
the ranges of rules 0 to 7 (R345). -/
def Mach.bufferOk (m : Mach) (n : Nat) : Bool :=
  let buf := m.get F.CMP_LAYER_BUF_BUF n
  let size := ceilDiv (m.get F.CMP_LAYER_STRIDE_STRIDE n
    * (m.get F.CMP_LAYER_CROP_POS_CROP_Y n + m.get F.CMP_LAYER_CROP_SIZE_CROP_H n)) 4096 * 4096
  let fin := buf + size
  let inDram : Bool := decide (dramBase ≤ buf) && decide (fin ≤ dramBase + m.get F.MEM_STATUS_VISIBLE * 1048576)
  let inWindow : Bool := decide (cisternBase + 0x4380000 ≤ buf) && decide (fin ≤ cisternBase + cisternSize)
  let meets : Bool := (List.range 8).any fun i =>
    let g := m.ruleIn i
    decide (g.base < fin) && decide (buf < g.base + g.pages * 4096) && g.pages != 0
  buf % 4096 = 0 && (inDram || inWindow) && !meets

/-- The relations of a layer's shadows that R477 asks of the scaled kinds. -/
def Mach.scaledOk (m : Mach) (n : Nat) : Bool :=
  let kind := m.get F.CMP_LAYER_CTL_KIND n
  if kind = kindGraphics then
    let fmt := m.get F.CMP_LAYER_CTL_FMT n
    let stride := m.get F.CMP_LAYER_STRIDE_STRIDE n
    m.ratiosOk n && m.get F.CMP_LAYER_CTL_MATRIX n = 0 && (fmt = 8 || fmt = 9)
      && decide (4 * (m.get F.CMP_LAYER_CROP_POS_CROP_X n + m.get F.CMP_LAYER_CROP_SIZE_CROP_W n) ≤ stride)
      && m.bufferOk n
  else if kind = kindStream ∨ kind = kindSpan then
    m.ratiosOk n && m.get F.CMP_LAYER_CTL_MATRIX n ≠ 0 && m.evenOk n
  else true

/-- R201: a SPAN layer's source. -/
def Mach.spanSourceOk (m : Mach) (n : Nat) : Bool :=
  m.get F.CMP_LAYER_CTL_KIND n ≠ kindSpan || m.get F.CMP_LAYER_SRC_SOURCE n < 2 ^ 20

/-- R29, R55: budget, stale limit and withdraw limit. -/
def Mach.limitsOk (m : Mach) (n : Nat) (withdraw : Bool) : Bool :=
  let b := m.get F.CMP_LAYER_BUDGET_B n
  let s := m.get F.CMP_LAYER_STALE_S n
  decide (b ≤ m.get F.CMP_LAYER_BMAX_BMAX n) && decide (b ≤ s)
    && (!withdraw || decide (s ≤ m.get F.CMP_LAYER_WITHDRAW_LIMIT n))

/-- R54, R242: the colours in use after the write, through the active tables and those a pending swap would make
active. -/
def Mach.coloursOk (m : Mach) : Bool :=
  m.contrastOk m.activeTables && (m.lut.passed = 0 || m.contrastOk (m.tablesAfter m.lut.passed))

/-! ### Other blocks -/

/-- The line of the apply point (R219). -/
def Mach.applyLine (m : Mach) : Nat :=
  if m.on F.CMP_CTL_MODE then m.vtotal - 16 * m.get F.CMP_CTL_LEAD else m.vtotal

def Mach.latchOk (m : Mach) : Bool := decide (m.get F.CMP_LATCH_LATCH_LINE + 2 ≤ m.applyLine)

/-- R243, R246: a region lies inside the output, and MATCH needs BYPASS. -/
def Mach.regionOk (m : Mach) (r : Nat) : Bool :=
  decide (m.get F.SIG_REGION_POS_X r + m.get F.SIG_REGION_SIZE_W r ≤ m.hactive)
    && decide (m.get F.SIG_REGION_POS_Y r + m.get F.SIG_REGION_SIZE_H r ≤ m.vactive)
    && (!m.on F.SIG_REGION_CTL_MATCH r || m.on F.SIG_REGION_CTL_BYPASS r)

/-- R264: DSC slices divide the picture, and are no wider than the sink takes. -/
def Mach.dscOk (m : Mach) : Bool :=
  let sh := m.get F.SCN_DSC_SLICE_H
  let fits : Bool := match m.scn.sink with
    | some k => !k.dsc || decide (m.hactive ≤ m.get F.SCN_DSC_SLICES * k.sliceWidth)
    | none => true
  m.vactive % max 1 sh = 0 && fits

/-- R282: T_SCAN and the cycle. -/
def Mach.scanFits (m : Mach) : Bool :=
  let step := if m.on F.TCH_CTL_GLOVE then m.get F.TCH_STEP_GLOVE else m.get F.TCH_STEP_BARE
  let tScan := (m.get F.TCH_GEOM_TX_COUNT + 2) * step * 10
  decide (tScan ≤ 3800000)
    && decide ((m.get F.TCH_TIMING_LISTEN * 1000 + tScan) * m.touchRate ≤ 1000000000)

def Mach.phaseOk (m : Mach) : Bool := decide (m.get F.TCH_PHASE_NS * m.touchRate < 1000000000)

/-- R89: PERIOD and WIDTH of a pulse output; a PERIOD of 0 is none. -/
def Mach.pulseOk (m : Mach) (k : Nat) : Bool :=
  let p := m.get F.TIME_PULSE_PERIOD_PERIOD k / 65536
  if p = 0 then !m.on F.TIME_PULSE_CTL_PERIODIC k
  else decide (100 ≤ p) && decide (p ≤ 4294967295) && decide (m.get F.TIME_PULSE_WIDTH_WIDTH k + 8 ≤ p)

/-- R126: VLAN and FEC of an Ethernet port. -/
def Mach.ethPortOk (m : Mach) (p : Nat) : Bool :=
  let vid := m.get F.ETH_PORT_CTL_VID p
  (!m.on F.ETH_PORT_CTL_VLAN_EN p || (decide (1 ≤ vid) && decide (vid ≤ 4094)))
    && !(m.get F.ETH_PORT_CTL_FEC p = 2 && !m.on F.ETH_PORT_CTL_RATE p)

/-- R190: the quantiser limits, −12 to 51 for Main 10 and 0 to 51 for Main. -/
def Mach.rcOk (m : Mach) (n : Nat) : Bool :=
  let q (f : Field) : Int := toSigned (m.get f n) 7
  let low : Int := if m.on F.ENC_CTX_CFG_MAIN10 n then -12 else 0
  decide (low ≤ q F.ENC_CTX_RC_QMIN) && decide (q F.ENC_CTX_RC_QMIN ≤ q F.ENC_CTX_RC_QTARGET)
    && decide (q F.ENC_CTX_RC_QTARGET ≤ q F.ENC_CTX_RC_QMAX) && decide (q F.ENC_CTX_RC_QMAX ≤ 51)

/-- R191: the caps of a context's pictures. -/
def Mach.encMinPic (m : Mach) (n : Nat) : Nat := minPic (m.get F.ENC_CTX_GEOM_WIDTH n) (m.get F.ENC_CTX_GEOM_HEIGHT n)

def Mach.winCapOk (m : Mach) (n : Nat) : Bool :=
  decide (m.get F.ENC_CTX_WIN_WIN_PICS n * m.encMinPic n ≤ m.get F.ENC_CTX_WIN_CAP_WIN_CAP n)

/-! ### The checks by register (R11) -/

/-- R29: a layer without the freshness-bound flag is STATIC, and is fed by no stream, capture, span or readout. -/
def Mach.freshOk (m : Mach) (n : Nat) : Bool :=
  let kind := m.get F.CMP_LAYER_CTL_KIND n
  m.on F.CMP_LAYER_FRS_CTL_F n
    || (m.on F.CMP_LAYER_FRS_CTL_STATIC n && kind ≠ kindStream && kind ≠ kindSpan && kind ≠ kindReadout)

/-- R203 for the layers that show a stream, when the pool format of a capture port or its stream ID changes. -/
def Mach.streamsEven (m : Mach) : Bool :=
  (List.range 64).all fun n => m.get F.CMP_LAYER_CTL_KIND n ≠ kindStream || m.evenOk n

/-- Layers, colours and limits. -/
def Mach.crossCmp (m : Mach) (r : Reg) (i : Nat) : Bool :=
  match r with
  | .CMP_FRS_COLOR_LATE | .CMP_FRS_COLOR_STALE | .CMP_FRS_COLOR_LOST | .CMP_FRS_COLOR_INK | .CMP_FRS_COLOR_PLATE
  | .CMP_PLANE_CFG | .CMP_PLANE_INK | .CMP_FIELD_0 | .CMP_FIELD_1 | .TCH_CURSOR_COLOR => m.coloursOk
  | .CMP_LAYER_BUDGET => m.limitsOk i false
  | .CMP_LAYER_STALE | .CMP_LAYER_WITHDRAW => m.limitsOk i true
  | .CMP_LAYER_FRS_CTL => m.freshOk i
  | .CMP_LAYER_CTL => m.freshOk i && m.spanSourceOk i && m.scaledOk i && m.coloursOk
  | .CMP_LAYER_SRC => m.spanSourceOk i && m.scaledOk i
  | .CMP_LAYER_CROP_POS | .CMP_LAYER_CROP_SIZE | .CMP_LAYER_DST_SIZE => m.scaledOk i
  | .CMP_LAYER_STRIDE => m.get F.CMP_LAYER_STRIDE_STRIDE i % 64 = 0 && m.scaledOk i
  | .CMP_LAYER_BUF => m.bufferOk i && m.scaledOk i
  | .CMP_LATCH => m.latchOk
  | _ => true

/-- Scan-out and touch. -/
def Mach.crossScan (m : Mach) (r : Reg) (i : Nat) : Bool :=
  match r with
  | .SCN_H => m.timingOk && (List.range 16).all m.regionOk && m.dscOk
  | .SCN_V => m.timingOk && (List.range 16).all m.regionOk && m.dscOk && m.latchOk
  | .SCN_HSYNC | .SCN_VSYNC | .TIME_FRAME_PERIOD => m.timingOk
  | .SCN_CTL => decide (m.get F.SCN_CTL_RATE_MIN ≤ m.get F.SCN_CTL_RATE_MAX)
  | .SCN_DSC => m.dscOk
  | .SIG_REGION_CTL | .SIG_REGION_POS | .SIG_REGION_SIZE => m.regionOk i
  | .TCH_CTL => m.scanFits && m.phaseOk
  | .TCH_STEP | .TCH_TIMING => m.scanFits
  | .TCH_PHASE => m.phaseOk
  | .TCH_FREQ => (List.range 8).any fun f => m.on F.TCH_FREQ_EN f
  | .TCH_HOP => decide (m.get F.TCH_HOP_NOISE_HIGH < m.get F.TCH_HOP_NOISE_MAX)
  | .TCH_THRESH_BARE => decide (m.get F.TCH_THRESH_BARE_OFF < m.get F.TCH_THRESH_BARE_ON)
  | .TCH_THRESH_GLOVE => decide (m.get F.TCH_THRESH_GLOVE_OFF < m.get F.TCH_THRESH_GLOVE_ON)
  | .TCH_TEST_LIMITS => decide (m.get F.TCH_TEST_LIMITS_OPEN_MIN < m.get F.TCH_TEST_LIMITS_SHORT_MAX)
  | _ => true

/-- Every range that a row states through another field, for a write of register r, instance i. -/
def Mach.crossOk (m : Mach) (r : Reg) (i : Nat) : Bool :=
  m.crossCmp r i && m.crossScan r i &&
  match r with
  | .TIME_LOSS => decide (m.get F.TIME_LOSS_PARENT_LIMIT < m.get F.TIME_LOSS_ROOT_LIMIT)
  | .TIME_PULSE_CTL | .TIME_PULSE_WIDTH | .TIME_PULSE_PERIOD => m.pulseOk i
  | .TIME_ETH_CTL => m.get F.TIME_ETH_CTL_ROLE i ≠ 1 || m.candidate
  | .ETH_PORT_CTL => m.ethPortOk i
  | .ETH_STREAM_UDP => m.get F.ETH_STREAM_UDP_UDP_PORT i % 2 = 0
  | .CAP_CTL | .CAP_ID => m.streamsEven
  | .CAP_GEOM => m.get F.CAP_GEOM_WIDTH i % 2 = 0 && m.get F.CAP_GEOM_HEIGHT i % 2 = 0
  | .ENC_CTX_RC => m.rcOk i
  | .ENC_CTX_PIC_CAP => decide (m.encMinPic i ≤ m.get F.ENC_CTX_PIC_CAP_PIC_CAP i)
  | .ENC_CTX_WIN_CAP | .ENC_CTX_WIN => m.winCapOk i
  | .EVC_SRC_1 => decide (8192 ≤ m.get F.EVC_SRC_1_VECTOR i)
  | .PWR_RAIL_CFG => decide (m.get F.PWR_RAIL_CFG_T1_PM i + 10 ≤ m.get F.PWR_RAIL_CFG_T2_PM i)
  | .PWR_THERMAL =>
    decide (m.get F.PWR_THERMAL_WARN + 5 ≤ m.get F.PWR_THERMAL_CRIT)
      && decide (m.get F.PWR_THERMAL_CRIT ≤ if Config.gradeGX0 then 115 else 105)
  | _ => true

/-- The ranges of the rows of a word's fields: of those that a mask covers, and that a write can change. -/
def RegDesc.rangesOk (d : RegDesc) (mask new : Nat) : Bool :=
  d.fields.all fun f =>
    f.ty = .ro || f.ty = .w1c || bits mask f.field.lo f.field.width = 0 || f.range.holds (bits new f.field.lo f.field.width)

end Sys2Proof.Machine
end

