-- ==== Sys2Proof/Machine/Flash.lean ====
section
/-! DEFINITION. The configuration flash (R370, R371): its bytes, its regions, programming and erasing, and the persistent
trouble log's place in it (R431). -/

namespace Sys2Proof.Machine

/-- The byte of the flash at an offset; an erased byte reads 0xFF. -/
def State.fbyte (s : State) (a : Nat) : Nat := (tGet s.flash 0xFF a).toNat

def State.setFbyte (s : State) (a v : Nat) : State := { s with flash := tPut s.flash 0xFF a (BitVec.ofNat 8 v) }

def State.fbytes (s : State) (a : Nat) : Nat → List Nat
  | 0 => []
  | n + 1 => s.fbyte a :: s.fbytes (a + 1) n

/-- Programming a NOR flash only clears bits. -/
def State.fprogram (s : State) (a : Nat) : List Nat → State
  | [] => s
  | b :: bs => (s.setFbyte a (s.fbyte a &&& b % 256)).fprogram (a + 1) bs

/-- The 64 KiB sector that holds an address is erased. -/
def State.ferase (s : State) (a : Nat) : State :=
  { s with flash := s.flash.filter (fun e => e.1 / 65536 ≠ a / 65536) }

/-- A word of n bytes of the flash. -/
def State.fword (s : State) (a n : Nat) : Nat := ofNatBytes (s.fbytes a n)

/-! ### Regions (R371) -/

def slotSize : Nat := 0x1000000
def slotBase (slot : Nat) : Nat := slot * slotSize
def logBase : Nat := 0x2000000
def logSize : Nat := 0x100000

/-! ### The trouble log (R431) -/

def logMagic : Nat := 0x47544C44

/-- GEN of a sector of the log region; 0 when its header is not there. -/
def State.logGen (s : State) (k : Nat) : Nat :=
  let a := logBase + k * 65536
  if s.fword a 4 = logMagic then s.fword (a + 4) 4 else 0

/-- The sector with the highest, or with `low` the lowest, GEN; the lowest-numbered of several. -/
def State.logSector (s : State) (low : Bool) : Nat :=
  (List.range 16).foldl (fun best k =>
    if (if low then s.logGen k < s.logGen best else s.logGen best < s.logGen k) then k else best) 0

def State.erased (s : State) (a n : Nat) : Bool := (s.fbytes a n).all (· = 0xFF)

/-- SEQ of the entry in a slot, when the slot is valid under its CRC. -/
def State.logSeqAt (s : State) (a : Nat) : Option Nat :=
  let bs := s.fbytes a 32
  let seq := ofNatBytes ((bs.drop 12).take 4)
  if crc32cFold seq (bs.take 28) = ofNatBytes (bs.drop 28) then some seq else none

/-- The write point: the first slot that reads all 0xFF in the sector with the highest GEN. -/
def State.logPoint (s : State) : Nat :=
  let k := s.logSector false
  let free := (List.range 2047).find? fun i => s.erased (logBase + k * 65536 + 32 * (i + 1)) 32
  k * 65536 + 32 * ((free.getD 2047) + 1)

/-- The newest valid SEQ of the region; torn slots are skipped. -/
def State.logNewest (s : State) : Nat :=
  (List.range 16).foldl (fun n k =>
    if s.logGen k = 0 then n
    else (List.range 2047).foldl (fun n i =>
      let a := logBase + k * 65536 + 32 * (i + 1)
      if s.erased a 32 then n else max n ((s.logSeqAt a).getD 0)) n) 0

/-- The 32 bytes of an entry (R430). -/
def TroubleEntry.bytes (e : TroubleEntry) (seq : Nat) : List Nat :=
  let w1 := seq % 2 ^ 32 * 2 ^ 32 + e.block % 32 * 2 ^ 27 + e.bit % 64 * 2 ^ 21 + (if e.tv then 2 ^ 20 else 0)
    + e.mode % 16 * 2 ^ 16 + e.stage % 16 * 2 ^ 12 + e.node % 4096
  let head := natBytes 8 e.time ++ natBytes 8 w1 ++ natBytes 8 (e.code % 2 ^ 32 * 2 ^ 32 + e.detail % 2 ^ 32)
    ++ natBytes 4 0
  head ++ natBytes 4 (crc32cFold (seq % 2 ^ 32) head)

/-- The sector with the lowest GEN is erased, and its header takes a GEN one above the highest. -/
def State.logErase (s : State) : State :=
  let k := s.logSector true
  let gen := s.logGen (s.logSector false) + 1
  (s.ferase (logBase + k * 65536)).fprogram (logBase + k * 65536) (natBytes 4 logMagic ++ natBytes 4 gen)

/-- A sector without a header, as on a flash that has never held a log, gets one before its first entry (log
entry 46). -/
def State.logHeader (s : State) (k : Nat) : State :=
  if s.logGen k ≠ 0 then s
  else
    let gen := s.logGen (s.logSector false) + 1
    (s.ferase (logBase + k * 65536)).fprogram (logBase + k * 65536) (natBytes 4 logMagic ++ natBytes 4 gen)

/-- An entry with this SEQ is written at the write point `pos`: the flash after, and the next write point. In the last
1,024 slots of a sector the write point erases the oldest sector, and at a sector's end it moves to the newest one. -/
def State.logWrite (s : State) (pos seq : Nat) (e : TroubleEntry) : State × Nat :=
  let s := (s.logHeader (pos / 65536)).fprogram (logBase + pos) (e.bytes seq)
  let next := pos + 32
  if next % 65536 = 0 then (s, s.logSector false * 65536 + 32)
  else if next % 65536 = 32 * 1024 then (s.logErase, next)
  else (s, next)

end Sys2Proof.Machine
end

