-- ==== Sys2Proof/Machine/Image.lean ====
section
/-! DEFINITION. The configuration image (R372 to R376): its header, its two parts and their authentication, and the
directory of its tables, each with the cause of R382 that a failure gives. -/

namespace Sys2Proof.Machine

/-- Causes of R382. -/
def causeNoFlash : Nat := 1
def causeReadLimit : Nat := 2
def causeHeader : Nat := 3
def causeTableCrc : Nat := 11
def causeFormat : Nat := 12
def causeRange : Nat := 13
def causeCross : Nat := 14
def causeDram : Nat := 15
def causeLockConflict : Nat := 16
def causeNoRole : Nat := 17

/-- A failed check: its cause, and the directory index and the entry that CFG_FAIL_AT names (R379). -/
structure LoadFail where
  cause : Nat
  table : Nat
  entry : Nat
  deriving DecidableEq, Repr

/-- The first check of a list that does not hold. -/
def firstFail : List (Bool × LoadFail) → Option LoadFail
  | [] => none
  | (true, _) :: rest => firstFail rest
  | (false, f) :: _ => some f

/-- The header of an image (R372). -/
structure ImgHeader where
  bytes : List Nat
  flags : Nat
  seq : Nat
  svn : Nat
  len : Nat
  vendorOff : Nat
  vendorLen : Nat
  custOff : Nat
  custLen : Nat
  dirCount : Nat
  serial : Nat
  crc : Nat
  deriving DecidableEq, Repr

def zeros (l : List Nat) : Bool := l.all (· = 0)

/-- A part lies inside the image, behind the header, on an 8-byte boundary. -/
def partIn (off len total : Nat) : Bool := 256 ≤ off && off + len ≤ total && off % 8 = 0

/-- The header as its bytes give it. -/
def ImgHeader.ofBytes (h : List Nat) : ImgHeader :=
  { bytes := h, flags := le2 h 6, seq := le4 h 8, svn := b1 h 12, len := le4 h 16, vendorOff := le4 h 20,
    vendorLen := le4 h 24, custOff := le4 h 28, custLen := le4 h 32, dirCount := le2 h 36, serial := le8 h 40,
    crc := le4 h 252 }

/-- Every row of R372 holds. -/
def ImgHeader.ok (x : ImgHeader) : Bool :=
  let h := x.bytes
  le4 h 0 = 0x46434D44 && le2 h 4 = 1 && x.flags ≤ 1 && x.svn ≤ 64 && zeros ((h.drop 13).take 3)
    && 1024 ≤ x.len && x.len ≤ slotSize && partIn x.vendorOff x.vendorLen x.len && partIn x.custOff x.custLen x.len
    && (x.vendorOff + x.vendorLen ≤ x.custOff || x.custOff + x.custLen ≤ x.vendorOff)
    && 2 ≤ x.dirCount && x.dirCount ≤ 16 && zeros ((h.drop 38).take 2) && zeros ((h.drop 48).take 204)
    && crc32c (h.take 252) = x.crc

/-- The header of a slot, when it passes. -/
def State.imgHeader (s : State) (slot : Nat) : Option ImgHeader :=
  let x := ImgHeader.ofBytes (s.fbytes (slotBase slot) 256)
  if x.ok then some x else none

/-! ### Authentication (R373 to R375) -/

/-- The digest of a key block's 97 key bytes, as the fuses hold it. -/
def keyDigest (block : List Nat) : Nat := ofBe (sha384 (block.take 97))

/-- The signature of a part over the header and every byte of the part before it. -/
def partSigned (header part : List Nat) : Bool :=
  let n := part.length - 96
  ecdsaVerify (part.take 97) (part.drop n) (sha384 (header ++ part.take n))

/-- Step 3 of R380, in the order of the causes; 0 when the slot is authentic. -/
def State.imgAuth (s : State) (x : ImgHeader) (vendor cust : List Nat) : Nat :=
  if keyDigest vendor ≠ s.fuses.vendorKey then 4
  else if !partSigned x.bytes vendor then 5
  else match s.fuses.customerKey with
    | none => 6
    | some k =>
      if keyDigest cust ≠ k then 7
      else if !partSigned x.bytes cust then 8
      else if x.svn < s.fuses.svn then 9
      else if x.serial ≠ 0 ∧ x.serial ≠ s.fuses.serial then 10
      else 0

/-! ### The directory (R376) -/

/-- A table: its type, the fields of its directory entry, and its bytes. -/
structure ImgTable where
  typ : Nat
  version : Nat
  count : Nat
  off : Nat
  len : Nat
  crc : Nat
  data : List Nat
  deriving DecidableEq, Repr

/-- Entry k of the directory of a customer part. -/
def imgTable (cust : List Nat) (k : Nat) : ImgTable :=
  let e := (cust.drop (128 + 32 * k)).take 32
  { typ := le2 e 0, version := le2 e 2, count := le4 e 4, off := le4 e 8, len := le4 e 12, crc := le4 e 16,
    data := (cust.drop (le4 e 8)).take (le4 e 12) }

def imgTables (cust : List Nat) (n : Nat) : List ImgTable := (List.range n).map (imgTable cust)

/-- The size of an entry of the types with fixed entries, and the COUNT that is required, if any. -/
def entrySize (typ : Nat) : Option Nat :=
  match typ with
  | 1 => some 32 | 2 => some 16 | 3 => some 64 | 4 => some 16 | 5 => some 8 | 6 => some 32 | 7 => some 8
  | 11 => some 48 | 12 => some 128 | _ => none

/-- A table's own directory entry is in order; `fin` is where the signature starts. -/
def ImgTable.ok (t : ImgTable) (n fin : Nat) : Bool :=
  let sized : Bool := match entrySize t.typ with
    | some z => t.len = t.count * z
    | none => true
  1 ≤ t.typ && t.typ ≤ 12 && t.version = 1 && 128 + 32 * n ≤ t.off && t.off + t.len ≤ fin && sized
    && (t.count = 1 || !(t.typ = 1 || t.typ = 12)) && (t.typ ≠ 7 || t.count ≤ 122880)

def ImgTable.meets (t u : ImgTable) : Bool := t.off < u.off + u.len && u.off < t.off + t.len

/-- No table of a list overlaps another, and no TYPE appears twice. -/
def tablesApart : List ImgTable → Bool
  | [] => true
  | t :: ts => ts.all (fun u => !t.meets u && t.typ ≠ u.typ) && tablesApart ts

/-- The table of a type, with its directory index. -/
def tableOf (ts : List ImgTable) (typ : Nat) : Option (Nat × ImgTable) :=
  ((List.range ts.length).zip ts).find? fun e => e.2.typ = typ

/-- The directory is in order: FORMAT otherwise. Tables that depend on other tables are asked for later. -/
def directoryOk (ts : List ImgTable) (n custLen : Nat) : Bool :=
  ts.all (fun t => t.ok n (custLen - 96)) && tablesApart ts && (tableOf ts 1).isSome && (tableOf ts 2).isSome

/-- The entries of a table. -/
def entriesOf (size : Nat) : Nat → List Nat → List (List Nat)
  | 0, _ => []
  | n + 1, l => l.take size :: entriesOf size n (l.drop size)

def tableRows (ts : List ImgTable) (typ : Nat) : List (List Nat) :=
  match tableOf ts typ with
  | some (_, t) => entriesOf ((entrySize typ).getD 1) t.count t.data
  | none => []

def tableIndex (ts : List ImgTable) (typ : Nat) : Nat :=
  match tableOf ts typ with
  | some (i, _) => i
  | none => 0

def tableData (ts : List ImgTable) (typ : Nat) : List Nat :=
  match tableOf ts typ with
  | some (_, t) => t.data
  | none => []

end Sys2Proof.Machine
end

