-- ==== Sys2Proof/Machine/Load.lean ====
section
/-! DEFINITION. What LOAD makes of an image's tables (R376 to R379): the machine as the image would set it, and every
load-time check of it, made before anything is written. -/

namespace Sys2Proof.Machine

/-! ### REGISTERS entries (R377) -/

/-- Registers and fields whose value comes from another table. -/
def derivedMask (d : RegDesc) : Nat :=
  match d.reg with
  | .TIME_ROOT_CFG => F.TIME_ROOT_CFG_CANDIDATE.mask
  | .CMP_LAYER_FRS_CTL => F.CMP_LAYER_FRS_CTL_STATIC.mask
  | .CHK_CH_CTL => F.CHK_CH_CTL_OWN_EN.mask ||| F.CHK_CH_CTL_OWNER.mask
  | .FAB_NODE_ID | .TCH_GEOM | .TCH_PIN | .CMP_FONT => 2 ^ 64 - 1
  | _ => 0

/-- A REGISTERS entry: the word it names, and mask and value in the register's own bits. -/
structure RegLoad where
  addr : Nat
  at_ : Option RegAt
  mask : Nat
  value : Nat
  deriving DecidableEq, Repr

def RegLoad.ofRow (e : List Nat) : RegLoad :=
  let a := le4 e 0
  let r := findReg a
  let up := match r with
    | some x => if x.high then 32 else 0
    | none => 0
  { addr := a, at_ := r, mask := le4 e 4 <<< up, value := (le4 e 8 &&& le4 e 4) <<< up }

/-- The bits of an entry lie in fields that an image may set. -/
def RegLoad.allowed (x : RegLoad) : Bool :=
  match x.at_ with
  | none => false
  | some r =>
    let may := r.desc.maskOf fun f => f.rst.loadable
    x.mask &&& may = x.mask && x.mask &&& derivedMask r.desc = 0

/-- The bits that LOAD sets from an entry after a reset of this class (R5). -/
def RegLoad.setMask (x : RegLoad) (cls : Nat) : Nat :=
  match x.at_ with
  | none => 0
  | some r => x.mask &&& r.desc.maskOf fun f => f.rst.loads cls

def Mach.applyLoad (m : Mach) (cls : Nat) (x : RegLoad) : Mach :=
  match x.at_ with
  | none => m
  | some r =>
    let k := x.setMask cls
    let old := (m.rd r.desc.reg r.i).toNat
    m.wr r.desc.reg r.i (BitVec.ofNat 64 (old - (old &&& k) + (x.value &&& k)))

/-- Every field whose row names Load for the class returns to its POR value. -/
def Mach.returnLoads (m : Mach) (cls : Nat) : Mach :=
  m.regs.foldl (fun (m : Mach) e =>
    let r := Reg.ofNat (e.1 % 512)
    let i := e.1 / 512
    match r.desc with
    | none => m
    | some d =>
      let k := d.maskOf fun f => f.rst.loads cls
      if k = 0 then m
      else
        let old := e.2.toNat
        m.wr r i (BitVec.ofNat 64 (old - (old &&& k) + ((r.por i).toNat &&& k)))) m

/-! ### The derived fields (R345, R376, R377) -/

/-- All masters but some. -/
def allBut (l : List Nat) : Nat := l.foldl clearBit (2 ^ 64 - 1)

def masks (l : List Nat) : Nat := l.foldl setBit 0

/-- Rules 0 to 7 of R345, from the pool registers. -/
def Mach.poolRules (m : Mach) : List GateRule :=
  let g (base size mask : Nat) (r w : Bool) : GateRule :=
    { base := base, pages := size / 4096, mask := mask, en := true, lock := true, w := w, r := r }
  let decB := m.get F.DEC_POOL_BASE_BASE
  let decS := m.get F.DEC_POOL_SIZE_SIZE
  let encB := m.get F.ENC_POOL_BASE_BASE
  let encS := m.get F.ENC_POOL_SIZE_SIZE
  let devB := m.get F.MEM_DEV_POOL_BASE_BASE
  let devS := m.get F.MEM_DEV_POOL_SIZE_SIZE
  [g cisternBase (17280 * 4096) (allBut [32, 33, 34, 35]) true false,
   g actionBase actionSize (allBut [32, 33, 34, 35]) true false,
   g decB decS (masks [32, 33, 34, 38, 39]) true true, g decB decS (allBut [32, 33, 34, 35]) true false,
   g encB encS (masks [35]) true true, g encB encS (allBut [32, 33, 34]) true false,
   g devB devS (masks [37, 39]) true true, g devB devS (allBut [32, 33, 34]) true false]

/-- A GATE entry: the rule's number and the rule. -/
def gateEntry (e : List Nat) : Nat × GateRule :=
  let attr := b1 e 1
  (b1 e 0, { base := le8 e 8 * 4096, pages := le4 e 4, mask := le8 e 16, en := attr.testBit 3, lock := attr.testBit 2,
             w := attr.testBit 1, r := attr.testBit 0 })

/-- The contents of a rule that no image sets. -/
def noRule : GateRule := ⟨0, 0, 0, false, false, false, false⟩

/-- Rules 0 to 7 afresh, and the image's rules into 8 to 255; after a reset that names Load for them, a rule that is
not locked and not in the image returns to its POR contents. -/
def Mach.installRules (m : Mach) (cls : Nat) (entries : List (Nat × GateRule)) : Mach :=
  let m := ((List.range 8).zip m.poolRules).foldl (fun (m : Mach) e => m.setRule e.1 e.2) m
  let m := if ResetWord.loadPin.loads cls then
      (List.range 248).foldl (fun (m : Mach) k =>
        if (m.ruleIn (8 + k)).lock then m else m.setRule (8 + k) noRule) m
    else m
  entries.foldl (fun (m : Mach) e => m.setRule e.1 e.2) m

/-- Both banks of each lookup table from the LUT table: pre, cube and post as their windows lie. -/
def lutBytes : Nat := 12288 + 287496 + 49152

def lutBank (l : List Nat) (width count : Nat) : List (Nat × DWord) :=
  ((List.range count).zip (entriesOf width count l)).filterMap fun e =>
    let v := ofNatBytes e.2
    if v = 0 then none else some (e.1, BitVec.ofNat 64 v)

def Mach.loadLuts (m : Mach) (l : List Nat) : Mach :=
  if l.isEmpty then m
  else
    let pre := lutBank l 4 3072
    let cube := lutBank (l.drop 12288) 8 35937
    let post := lutBank (l.drop (12288 + 287496)) 4 12288
    let m := ((m.setWindow .LUT_PRE_WINDOW pre).setWindow .LUT_CUBE_WINDOW cube).setWindow .LUT_POST_WINDOW post
    { m with lut := { m.lut with pre := pre, cube := cube, post := post } }

/-- TCH_PIN and TCH_GEOM from the TOUCH table's pin words. -/
def Mach.loadPins (m : Mach) (cls : Nat) (l : List Nat) : Mach :=
  let k := match Reg.desc .TCH_PIN with
    | some d => d.maskOf fun f => f.rst.loads cls
    | none => 0
  let m := ((List.range 128).zip (entriesOf 4 128 l)).foldl (fun (m : Mach) e =>
    let old := (m.rd .TCH_PIN e.1).toNat
    m.wr .TCH_PIN e.1 (BitVec.ofNat 64 (old - (old &&& k) + (ofNatBytes e.2 &&& k)))) m
  let n (role : Nat) := ((List.range 128).filter fun p => m.get F.TCH_PIN_ROLE p = role).length
  (m.put F.TCH_GEOM_TX_COUNT (n 1)).put F.TCH_GEOM_RX_COUNT (n 2)

/-- Visible DRAM in MiB once it is trained (R336). -/
def Mach.dramMib (m : Mach) : Nat :=
  let cap := 4096 * 2 ^ m.get F.MEM_CFG_CAP
  if m.on F.MEM_CFG_INLINE_ECC then cap / 8 * 7 else cap

/-- The tables of the image, kept for the blocks that read them. -/
def CfgSt.withTables (c : CfgSt) (x : ImgHeader) (ts : List ImgTable) (slot : Nat) : CfgSt :=
  { c with streams := tableRows ts 3, spans := tableRows ts 4, palettes := tableRows ts 5, keys := tableRows ts 11,
           service := tableData ts 12, touch := tableData ts 10, fontBase := le4 (tableData ts 8) 4,
           roles := b1 (tableData ts 1) 3, svnCommit := x.flags.testBit 0, svn := x.svn, slot := some slot }

/-- The machine as the image would set it, DRAM trained (step 6 of R380). -/
def Mach.imaged (m : Mach) (cls slot : Nat) (x : ImgHeader) (ts : List ImgTable) : Mach :=
  let loads := (tableRows ts 2).map RegLoad.ofRow
  let m := loads.foldl (fun (m : Mach) e => m.applyLoad cls e) (m.returnLoads cls)
  let m := { m with cfg := m.cfg.withTables x ts slot }
  let ident := tableData ts 1
  let m := (m.putB F.TIME_ROOT_CFG_CANDIDATE (m.cfg.roles.testBit 4)).put F.FAB_NODE_ID_SOURCE (b1 ident 2)
  let m := if b1 ident 2 = 0 then (m.put F.FAB_NODE_ID_NODE (le2 ident 0)).putB F.FAB_NODE_ID_VALID true
    else m.putB F.FAB_NODE_ID_VALID false
  let m := if b1 ident 2 = 0 then m.raise 39 else m
  let freqs := (List.range 8).foldl (fun a f => if m.on F.TCH_FREQ_EN f then setBit a f else a) 0
  let m := { m with cfg := { m.cfg with touchFreqs := freqs } }
  let m := if (tableOf ts 10).isSome then m.loadPins cls m.cfg.touch else m
  let font := tableData ts 8
  let m := if (tableOf ts 8).isSome then (m.put F.CMP_FONT_CELL_W (b1 font 0)).put F.CMP_FONT_CELL_H (b1 font 1) else m
  let m := m.cfg.palettes.foldl (fun (m : Mach) e =>
    if b1 e 0 = 4 then m.putB F.CMP_LAYER_FRS_CTL_STATIC true (b1 e 1 % 64) else m) m
  let m := (m.putB F.MEM_STATUS_TRAINED true).put F.MEM_STATUS_VISIBLE m.dramMib
  (m.installRules cls ((tableRows ts 6).map gateEntry)).loadLuts (tableData ts 9)

/-! ### Checks of the REGISTERS table -/

/-- A row states its range through another field of its own: a failure is RANGE (R379). -/
def rangeByRow (r : Reg) : Bool :=
  match r with
  | .TIME_LOSS | .PWR_RAIL_CFG | .PWR_THERMAL | .CMP_LAYER_BUDGET | .CMP_LAYER_STALE | .CMP_LAYER_WITHDRAW
  | .CMP_LAYER_FRS_CTL | .CMP_LAYER_STRIDE | .CMP_LATCH | .TCH_HOP | .TCH_THRESH_BARE | .TCH_THRESH_GLOVE
  | .TCH_TEST_LIMITS | .SCN_CTL | .EVC_SRC_1 | .TIME_PULSE_CTL | .TIME_PULSE_WIDTH | .TIME_PULSE_PERIOD
  | .ETH_PORT_CTL | .ETH_STREAM_UDP | .CAP_GEOM | .TCH_PHASE | .TCH_FREQ => true
  | _ => false

/-- The first entry that sets a bit of a register's instance. -/
def entryFor (loads : List RegLoad) (r : Reg) (i : Nat) : Option Nat :=
  ((List.range loads.length).zip loads).findSome? fun e =>
    match e.2.at_ with
    | some x => if x.desc.reg = r && x.i = i then some e.1 else none
    | none => none

/-- The entries name loadable bits of registers, each bit once. -/
def loadsShape (ti : Nat) : List RegLoad → Nat → List RegLoad → Option LoadFail
  | [], _, _ => none
  | x :: rest, n, before =>
    if x.addr % 4 ≠ 0 ∨ 0x10000000 ≤ x.addr then some ⟨causeRange, ti, n⟩
    else if !x.allowed || before.any (fun y => y.addr = x.addr && y.mask &&& x.mask ≠ 0) then some ⟨causeCross, ti, n⟩
    else loadsShape ti rest (n + 1) (x :: before)

/-- A range that the register's row states through other fields, or as a multiple, holds. -/
def Mach.rowOk (m : Mach) (r : Reg) (i : Nat) : Bool :=
  match r with
  | .CMP_LAYER_STRIDE => m.get F.CMP_LAYER_STRIDE_STRIDE i % 64 = 0
  | r => !rangeByRow r || m.crossOk r i

/-- The ranges of the rows of the fields that the entries set, in the machine `m` that the image makes, entry by
entry. -/
def Mach.loadsRange (m : Mach) (ti : Nat) (loads : List RegLoad) : Option LoadFail :=
  ((List.range loads.length).zip loads).findSome? fun e =>
    match e.2.at_ with
    | some x =>
      let word := (m.rd x.desc.reg x.i).toNat
      let ok := x.desc.fields.all fun f =>
        e.2.mask &&& f.field.mask = 0 || f.range.holds (bits word f.field.lo f.field.width)
      if ok && m.rowOk x.desc.reg x.i then none else some ⟨causeRange, ti, e.1⟩
    | none => none

/-- The ranges through other fields, of every register that an image may set; a vector and a buffer are checked where
the image sets them (R318, R221). -/
def Mach.loadsCross (m : Mach) (ti : Nat) (loads : List RegLoad) : Option LoadFail :=
  allRegs.findSome? fun d =>
    if d.fields.any (fun f => f.rst.loadable) then
      (List.range d.count).findSome? fun i =>
        let n := entryFor loads d.reg i
        if ((d.reg = .EVC_SRC_1 || d.reg = .CMP_LAYER_BUF) && n.isNone) || m.crossOk d.reg i then none
        else some ⟨if m.rowOk d.reg i then causeCross else causeRange, ti, n.getD 0⟩
    else none

/-! ### Checks of the other tables -/

def identityFail (ti : Nat) (walkOk : Bool) (e : List Nat) : Option LoadFail :=
  firstFail [(decide (le2 e 0 ≤ 4095) && decide (b1 e 2 ≤ 1) && decide (b1 e 3 ≤ 31), ⟨causeRange, ti, 0⟩),
             (b1 e 2 = 0 || walkOk, ⟨causeCross, ti, 0⟩)]

/-- The ranges of a DECODE entry (R378): those of the register fields it fills. -/
def decodeRange (e : List Nat) : Bool :=
  decide (b1 e 6 ≤ 2) && decide (b1 e 8 ≤ 1) && decide (b1 e 9 ≤ 3) && decide (1 ≤ b1 e 10) && decide (b1 e 10 ≤ 16)
    && decide (b1 e 11 ≤ 1) && decide (1 ≤ le2 e 16) && decide (le2 e 16 ≤ 240) && decide (64 ≤ le2 e 18)
    && decide (1 ≤ b1 e 20) && decide (b1 e 20 ≤ 15) && decide (1 ≤ b1 e 21) && decide (1 ≤ b1 e 22)
    && decide (b1 e 22 ≤ 15) && decide (100 ≤ le2 e 24) && decide (le2 e 28 ≤ 4095)

/-- The ranges of an ENCODE entry. -/
def encodeRange (e : List Nat) : Bool :=
  let q (o : Nat) : Int := toSigned (b1 e o) 8
  let low : Int := if (b1 e 13).testBit 0 then -12 else 0
  decide (b1 e 6 ≤ 1) && decide (b1 e 8 ≤ 1) && decide (b1 e 9 ≤ 1) && decide (1 ≤ b1 e 10) && decide (b1 e 10 ≤ 4)
    && (b1 e 11 = 1 || b1 e 11 = 2 || b1 e 11 = 4) && decide (1 ≤ b1 e 12) && decide (b1 e 12 ≤ 8)
    && decide (b1 e 13 ≤ 15) && decide (b1 e 14 ≤ 7) && decide (1 ≤ b1 e 27) && decide (b1 e 27 ≤ 15)
    && decide (low ≤ q 26) && decide (q 26 ≤ q 24) && decide (q 24 ≤ q 25) && decide (q 25 ≤ 51)
    && decide (1 ≤ le4 e 28) && decide (1 ≤ le4 e 32) && decide (1 ≤ b1 e 36) && decide (b1 e 37 ≤ 1)

/-- R191, and R178: an entry marked for Ethernet starts ALWAYS. -/
def encodeCross (e : List Nat) : Bool :=
  let p := minPic (le2 e 20) (le2 e 22)
  decide (p ≤ le4 e 28) && decide (b1 e 36 * p ≤ le4 e 32) && (!(b1 e 13).testBit 3 || b1 e 9 = 0)

/-- STREAMS (R173, R178, R191, R195, R378, R379). -/
def streamsFail (ti : Nat) : List (List Nat) → Nat → List (List Nat) → Option LoadFail
  | [], _, _ => none
  | e :: rest, n, before =>
    let kind := b1 e 4
    let range : Bool := le4 e 0 ≠ 0 && decide (b1 e 5 ≤ 1) &&
      (if kind = 0 then decodeRange e else kind = 1 && encodeRange e)
    let all := e :: before
    let ess2 := (all.filter fun x => b1 x 4 = 0 && b1 x 6 = 2).length
    let priv := (all.filter fun x => b1 x 4 = 1 && (b1 x 13).testBit 2).length
    let cross : Bool := !before.any (fun x => le4 x 0 = le4 e 0) && decide (ess2 ≤ 2) && decide (priv ≤ 4)
      && (kind = 0 || encodeCross e)
    if !range then some ⟨causeRange, ti, n⟩
    else if !cross then some ⟨causeCross, ti, n⟩
    else streamsFail ti rest (n + 1) all

/-- SPANS (R376, R379). -/
def spansFail (ti : Nat) : List (List Nat) → Nat → List (List Nat) → Option LoadFail
  | [], _, _ => none
  | e :: rest, n, before =>
    let range : Bool := decide (le4 e 0 ≤ 65535) && decide (le2 e 8 ≤ 4095) && decide (b1 e 10 ≤ 15)
    let agree : Bool := before.all fun x =>
      le4 x 0 ≠ le4 e 0 || (le4 x 4 = le4 e 4 && le2 x 8 = le2 e 8)
    if !range then some ⟨causeRange, ti, n⟩
    else if le2 e 14 < le2 e 12 || !agree then some ⟨causeCross, ti, n⟩
    else spansFail ti rest (n + 1) (e :: before)

/-- PALETTES: at most 8 ALARM entries, and at most 16 per layer. -/
def palettesFail (ti : Nat) : List (List Nat) → Nat → List (List Nat) → Option LoadFail
  | [], _, _ => none
  | e :: rest, n, before =>
    let all := e :: before
    let range : Bool := decide (2 ≤ b1 e 0) && decide (b1 e 0 ≤ 4) && decide (b1 e 1 ≤ 63) && decide (le4 e 4 < 2 ^ 30)
    let cross : Bool := decide ((all.filter fun x => b1 x 0 = 2).length ≤ 8)
      && decide ((all.filter fun x => b1 x 1 = b1 e 1).length ≤ 16)
    if !range then some ⟨causeRange, ti, n⟩
    else if !cross then some ⟨causeCross, ti, n⟩
    else palettesFail ti rest (n + 1) all

/-- GATE (R345, R348, R379): `m` still holds the rules as they stand. -/
def Mach.gateFail (m : Mach) (ti : Nat) : List (List Nat) → Nat → List Nat → Option LoadFail
  | [], _, _ => none
  | e :: rest, n, before =>
    let (i, g) := gateEntry e
    let range : Bool := decide (8 ≤ i) && decide (b1 e 1 ≤ 15) && decide (le4 e 4 < 2 ^ 28) && decide (le8 e 8 < 2 ^ 28)
      && decide (g.base + g.pages * 4096 ≤ 2 ^ 40)
    let cross : Bool := !before.contains i && bits g.mask 32 4 = 0
    if !range then some ⟨causeRange, ti, n⟩
    else if !cross then some ⟨causeCross, ti, n⟩
    else if (m.ruleIn i).lock ∧ m.ruleIn i ≠ g then some ⟨causeLockConflict, ti, n⟩
    else m.gateFail ti rest (n + 1) (i :: before)

/-- KEYS: distinct INDEX values. -/
def keysFail (ti : Nat) : List (List Nat) → Nat → List Nat → Option LoadFail
  | [], _, _ => none
  | e :: rest, n, before =>
    let range : Bool := decide (b1 e 0 ≤ 7) && decide (20 ≤ b1 e 1) && decide (b1 e 1 ≤ 27)
    if !range then some ⟨causeRange, ti, n⟩
    else if before.contains (b1 e 0) then some ⟨causeCross, ti, n⟩
    else keysFail ti rest (n + 1) (b1 e 0 :: before)

/-- FONT: 95 glyphs, in the Cistern window outside the frame buffers. -/
def fontFail (ti : Nat) (t : List Nat) : Option LoadFail :=
  let w := b1 t 0
  let h := b1 t 1
  let o := le4 t 4
  firstFail [
    (decide (t.length = 8 + 95 * w * h), ⟨causeFormat, ti, 0⟩),
    (decide (8 ≤ w) && decide (w ≤ 64) && decide (8 ≤ h) && decide (h ≤ 128) && decide (0x4380000 ≤ o) && o % 4096 = 0,
      ⟨causeRange, ti, 0⟩),
    (decide (o + 95 * w * h ≤ cisternSize), ⟨causeCross, ti, 0⟩)]

/-- TOUCH (R279, R289): each axis has its indices exactly once, and the factory tables are there. -/
def Mach.touchFail (m : Mach) (ti : Nat) : Option LoadFail :=
  let axis (role n : Nat) : Bool := decide (4 ≤ n) && decide (n ≤ 64) && (List.range n).all fun i =>
    ((List.range 128).filter fun p => m.get F.TCH_PIN_ROLE p = role && m.get F.TCH_PIN_INDEX p = i).length = 1
  let tx := m.get F.TCH_GEOM_TX_COUNT
  let rx := m.get F.TCH_GEOM_RX_COUNT
  let len := 512 + popCount m.cfg.touchFreqs 8 * (4 * tx * rx + 4 * (tx + rx))
  firstFail [(decide (m.cfg.touch.length = len), ⟨causeFormat, ti, 0⟩), (axis 1 tx && axis 2 rx, ⟨causeCross, ti, 0⟩)]

/-! ### Checks across tables (R147, R203, R345, R376, R379) -/

/-- Layers of a KIND, by number. -/
def Mach.layersOf (m : Mach) (kind : Nat) : List Nat :=
  (List.range 64).filter fun n => m.get F.CMP_LAYER_CTL_KIND n = kind

/-- The capture port that a STREAM layer names. -/
def Mach.capOf (m : Mach) (n : Nat) : Option Nat :=
  (List.range 2).find? fun c => m.on F.CAP_CTL_EN c && m.get F.CAP_ID_ID c = m.get F.CMP_LAYER_SRC_SOURCE n

/-- A STREAM layer that names no capture port needs its DECODE entry. -/
def Mach.streamLayerOk (m : Mach) (n : Nat) : Bool :=
  (m.capOf n).isSome || (m.decodeEntry (m.get F.CMP_LAYER_SRC_SOURCE n)).isSome

/-- The SPANS entry of a SPAN layer. -/
def Mach.layerSpan (m : Mach) (n : Nat) : Option (List Nat) :=
  let src := m.get F.CMP_LAYER_SRC_SOURCE n
  m.spanEntry (src / 16 % 65536) (src % 16)

/-- A SPAN layer has its entry; the crop lies in the part's rows, beyond which no tap reads (R203, R204); and the node
that decodes the span describes its stream. -/
def Mach.spanLayerOk (m : Mach) (n : Nat) : Bool :=
  match m.layerSpan n with
  | none => false
  | some e =>
    let y := m.get F.CMP_LAYER_CROP_POS_CROP_Y n
    decide (16 * le2 e 12 ≤ y) && decide (y + m.get F.CMP_LAYER_CROP_SIZE_CROP_H n ≤ 16 * (le2 e 14 + 1))
      && (le2 e 8 ≠ m.nodeId || (m.decodeEntry (le4 e 4)).isSome)

/-- Bytes of the device pool: 4 slots per enabled capture port (R143), 3 per layer of a span decoded elsewhere (R119). A part whose
stream the image does not describe has lines that hold the layer's crop at least (log entry 59). -/
def Mach.poolNeed (m : Mach) : Nat :=
  let caps := (List.range 2).foldl (fun a c =>
    if m.on F.CAP_CTL_EN c then
      a + 4 * slotBytes (m.get F.CAP_CTL_POOL_FMT c) (m.get F.CAP_GEOM_WIDTH c) (m.get F.CAP_GEOM_HEIGHT c)
    else a) 0
  (m.layersOf kindSpan).foldl (fun a n =>
    match m.layerSpan n with
    | some e =>
      match m.decodeEntry (le4 e 4) with
      | some d => if le2 e 8 = m.nodeId then a else a + 3 * slotBytes (b1 d 9) (le2 d 12) (16 * (le2 e 14 + 1 - le2 e 12))
      | none =>
        let width := m.get F.CMP_LAYER_CROP_POS_CROP_X n + m.get F.CMP_LAYER_CROP_SIZE_CROP_W n
        a + 3 * slotBytes 0 width (16 * (le2 e 14 + 1 - le2 e 12))
    | none => a) caps

/-- The pools of R345: base and size. -/
def Mach.pools (m : Mach) : List (Nat × Nat) :=
  [(m.get F.DEC_POOL_BASE_BASE, m.get F.DEC_POOL_SIZE_SIZE), (m.get F.ENC_POOL_BASE_BASE, m.get F.ENC_POOL_SIZE_SIZE),
   (m.get F.MEM_DEV_POOL_BASE_BASE, m.get F.MEM_DEV_POOL_SIZE_SIZE)]

def poolsAligned (l : List (Nat × Nat)) : Bool := l.all fun p => p.1 % 0x200000 = 0 && p.2 % 0x200000 = 0

/-- The pools lie in DRAM, apart from one another. -/
def Mach.poolsOk (m : Mach) : Bool :=
  let top := dramBase + m.get F.MEM_STATUS_VISIBLE * 1048576
  let l := m.pools.filter fun p => p.2 ≠ 0
  let apart (a b : Nat × Nat) : Bool := decide (a.1 + a.2 ≤ b.1) || decide (b.1 + b.2 ≤ a.1)
  let pairs : Bool := match l with
    | [a, b, c] => apart a b && apart a c && apart b c
    | [a, b] => apart a b
    | _ => true
  l.all (fun p => decide (dramBase ≤ p.1) && decide (p.1 + p.2 ≤ top)) && pairs
    && decide (m.poolNeed ≤ m.get F.MEM_DEV_POOL_SIZE_SIZE)

/-- The statistics ring lies in the encode pool, on a 4 KiB boundary. -/
def Mach.ringOk (m : Mach) : Bool :=
  let b := m.get F.ENC_PRIV_RING_BASE_BASE
  let n := m.get F.ENC_PRIV_RING_CTL_SIZE * 1024
  let pb := m.get F.ENC_POOL_BASE_BASE
  n = 0 || (b % 4096 = 0 && decide (pb ≤ b) && decide (b + n ≤ pb + m.get F.ENC_POOL_SIZE_SIZE))

/-- No two enabled entries of the node share a stream ID (R147). -/
def Mach.idsApart (m : Mach) : Bool :=
  let ids := ((List.range 512).filter fun i => m.on F.ETH_STREAM_CTL_EN i).map fun i => m.get F.ETH_STREAM_ID_ID i
  decide (ids.Nodup)

/-- Tables that the registers make necessary (R376, R289): FORMAT, or CROSS for a touch profile without its table. -/
def Mach.needsFail (m : Mach) (ts : List ImgTable) (ti : Nat) : Option LoadFail :=
  let has (t : Nat) : Bool := (tableOf ts t).isSome
  let decodes : Bool := (m.layersOf kindStream).any fun n => (m.capOf n).isNone
  let fields : Bool := (List.range 256).any fun f => m.on F.CMP_FIELD_0_EN f
  firstFail [
    (!decodes || has 3, ⟨causeFormat, ti, 0⟩), ((m.layersOf kindSpan).isEmpty || has 4, ⟨causeFormat, ti, 0⟩),
    (!fields || has 8, ⟨causeFormat, ti, 0⟩), (!m.on F.TCH_CTL_EN || has 10, ⟨causeFormat, ti, 0⟩)]

/-- The checks that span tables. -/
def Mach.acrossFail (m : Mach) (ti : Nat) : Option LoadFail :=
  firstFail [
    (poolsAligned m.pools, ⟨causeRange, ti, 0⟩), (m.poolsOk && m.ringOk && m.idsApart, ⟨causeCross, ti, 0⟩),
    ((m.layersOf kindStream).all m.streamLayerOk, ⟨causeCross, ti, 0⟩),
    ((m.layersOf kindSpan).all m.spanLayerOk, ⟨causeCross, ti, 0⟩),
    (m.coloursOk, ⟨causeCross, ti, 0⟩)]

/-- Step 5 of R380, table by table and then across them: `m` as it stands, `c` as the image would make it. -/
def Mach.imageFail (m c : Mach) (ts : List ImgTable) : Option LoadFail :=
  let rows (t : Nat) := tableRows ts t
  let ix (t : Nat) := tableIndex ts t
  let loads := (rows 2).map RegLoad.ofRow
  let walkOk : Bool := c.get F.FAB_NODE_TOPO_MODE ≠ 0
  (identityFail (ix 1) walkOk (tableData ts 1)).or <| (loadsShape (ix 2) loads 0 []).or <|
  (c.loadsRange (ix 2) loads).or <| (c.needsFail ts (ix 2)).or <| (streamsFail (ix 3) (rows 3) 0 []).or <|
  (spansFail (ix 4) (rows 4) 0 []).or <| (palettesFail (ix 5) (rows 5) 0 []).or <|
  (m.gateFail (ix 6) (rows 6) 0 []).or <|
  (if (tableOf ts 8).isSome then fontFail (ix 8) (tableData ts 8) else none).or <|
  (if (tableOf ts 9).isSome ∧ (tableData ts 9).length ≠ lutBytes then some ⟨causeFormat, ix 9, 0⟩ else none).or <|
  (if (tableOf ts 10).isSome then c.touchFail (ix 10) else none).or <| (keysFail (ix 11) (rows 11) 0 []).or <|
  (c.loadsCross (ix 2) loads).or (c.acrossFail (ix 2))

end Sys2Proof.Machine
end

