-- ==== Sys2Proof/Machine/Observe.lean ====
section
/-! DEFINITION. Counters, snapshots and software events (R418 to R422), the precise sampler (R423, R424), temperature
sensors (R425), telemetry records (R426, R427) and the writing of the trouble log (R429 to R431). -/

namespace Sys2Proof.Machine

/-! ### Counters -/

/-- What a wrap does beside setting its bit (R418): the rise of the Sticky bit, and event 452 at most once per ms. -/
def Mach.noteWraps (old m : Mach) : Mach :=
  (List.range 10).foldl (fun (m : Mach) w =>
    let was := (old.rd .PMC_WRAPPED w).toNat
    let now := (m.rd .PMC_WRAPPED w).toNat
    (bitsSet now 32).foldl (fun (m : Mach) b =>
      if was.testBit b then m
      else
        let m := m.clearBitOf .PMC_WRAPPED (32 * w + b)
        (settle settleFuel [.sticky .PMC_WRAPPED w b 0 (32 * w + b)] m).raiseLimited 452 (msTicks 1)) m) m

/-- PMC_WRAP: event e occurs while its counter stands at 2^48 − 1. -/
def Mach.pmcWrap (m : Mach) (e : Nat) : Mach :=
  if e < 320 ∧ m.get F.PMC_CNT_COUNT e = 2 ^ 48 - 1 then m.count e else m

/-- A write of PMC_SNAP_CTL.GO: a snapshot of all counters. -/
def Mach.snapNow (m : Mach) : Mach := settle settleFuel [.snap] m

/-- A write of PMC_SW: each 1 is one occurrence of its event. In LEVEL mode the event's state is PMC_SW_LEVEL's bit,
so an occurrence counts nothing there. -/
def Mach.pmcSw (m : Mach) (value : Nat) : Mach :=
  (bitsSet value 16).foldl (fun (m : Mach) j => if m.bitOf .PMC_MODE (304 + j) then m else m.count (304 + j)) m

/-! ### The precise sampler -/

/-- The next count of a period P (R423): P, or for a P of 16 or more P − 8 + r with r drawn from 0 to 15. -/
def Mach.nextPeriod (m : Mach) (p : Nat) : Nat × Mach :=
  if p < 16 then (p, m)
  else
    let (r, m) := m.freeBits 4
    (p - 8 + r, m)

/-- The sampler selects now. -/
def Mach.sampling (m : Mach) : Bool := m.on F.PMC_SAMP_CTL_EN && !m.pmc.sampStopped

/-- One memory access passes: whether it is selected. -/
def Mach.selectMem (m : Mach) (master : Nat) : Bool × Mach :=
  let p := m.get F.PMC_SAMP_PERIOD_MEM
  if !m.sampling || p = 0 || !(m.get F.PMC_SAMP_MASTERS_MASTERS).testBit master then (false, m)
  else
    let left := if m.pmc.memLeft = 0 then p else m.pmc.memLeft
    if left = 1 then
      let (n, m) := m.nextPeriod p
      (true, m.setPmc { m.pmc with memLeft := n })
    else (false, m.setPmc { m.pmc with memLeft := left - 1 })

/-- One action of sequencer k issues: whether it is selected. -/
def Mach.selectAct (m : Mach) (k : Nat) : Bool × Mach :=
  let p := m.get F.PMC_SAMP_PERIOD_ACT
  if !m.sampling || p = 0 || !(m.get F.PMC_SAMP_CTL_SEQ_MASK).testBit k then (false, m)
  else
    let left := if m.pmc.actLeft = 0 then p else m.pmc.actLeft
    if left = 1 then
      let (n, m) := m.nextPeriod p
      (true, m.setPmc { m.pmc with actLeft := n })
    else (false, m.setPmc { m.pmc with actLeft := left - 1 })

/-- The loss of a record. -/
def Mach.sampLost (m : Mach) : Mach :=
  ((m.bump F.PMC_SAMP_STATUS_DROPPED).count 301).trouble F.PMC_TROUBLE_SAMP_LOST

/-- A record enters the FIFO of 4,096 entries. -/
def Mach.pushSample (m : Mach) (r : List Nat) : Mach :=
  let n := m.pmc.samples.length
  if n < 4096 then
    ((m.setPmc { m.pmc with samples := m.pmc.samples ++ [r] }).put F.PMC_SAMP_STATUS_COUNT (n + 1)).count 300
  else if m.on F.PMC_SAMP_CTL_STOP then ((m.setPmc { m.pmc with sampStopped := true }).sampLost).raise 454
  else ((m.setPmc { m.pmc with samples := m.pmc.samples.drop 1 ++ [r] }).count 300).sampLost

/-- The record of a memory access. The spec leaves how long an access takes open, so LATENCY is free. -/
def Mach.sampleMem (m : Mach) (master : Nat) (write : Bool) (wall node len cause : Nat) : Mach :=
  let (sel, m) := m.selectMem master
  if !sel then m
  else
    let (lat, m) := m.freeBits 32
    m.pushSample [m.now, 2 * 2 ^ 62 + master * 2 ^ 56 + (if write then 2 ^ 55 else 0) + wall % 2 ^ 52,
      cause * 2 ^ 60 + node % 4096 * 2 ^ 48 + len % 8192 * 2 ^ 32 + lat, 0]

/-- Action w0 of sequencer k issues; a selected one waits for its end. -/
def Mach.sampleIssue (m : Mach) (k w0 w1 : Nat) (atEnd : Bool) : Mach :=
  let m := m.count 261
  let (sel, m) := m.selectAct k
  if !sel then m
  else
    let a : SampAct := { time := m.now, src := m.get F.SEQ_STATE_SRC k, pc := m.get F.SEQ_STATE_PC k, w0 := w0, w1 := w1,
                         atEnd := atEnd }
    m.setPmc { m.pmc with sampPend := tPut m.pmc.sampPend [] k (tGet m.pmc.sampPend [] k ++ [a]) }

/-- The selected actions of sequencer k that end now write their records; at the end of a run all of them do. -/
def Mach.sampleEnd (m : Mach) (k : Nat) (run : Bool) : Mach :=
  let l := tGet m.pmc.sampPend [] k
  let ends := l.filter (fun a => run || !a.atEnd)
  let m := m.setPmc { m.pmc with sampPend := tPut m.pmc.sampPend [] k (l.filter (fun a => !run && a.atEnd)) }
  ends.foldl (fun (m : Mach) a =>
    let (lat, m) := m.freeBits 28
    m.pushSample [a.time, 1 * 2 ^ 62 + k % 16 * 2 ^ 58 + a.src % 512 * 2 ^ 49 + a.pc % 2 ^ 17 * 2 ^ 32
      + m.get F.SEQ_ST_ST k * 2 ^ 28 + lat, a.w0, a.w1]) m

/-- The oldest record is popped. -/
def Mach.popSample (m : Mach) : List Nat × Mach :=
  match m.pmc.samples with
  | [] => ([], m)
  | r :: rs => (r, (m.setPmc { m.pmc with samples := rs, sampStopped := false }).put F.PMC_SAMP_STATUS_COUNT rs.length)

/-! ### Temperature sensors (R425) -/

/-- One reading of sensor i, in 1/8 °C. -/
def Mach.sensor (m : Mach) (i : Nat) (t : Int) : Mach :=
  let jump : Bool := match tFind m.pmc.sensorPrev i with
    | some p => decide (160 < (t - p).natAbs)
    | none => false
  let bad : Bool := decide (t < -440) || decide (1200 < t) || jump
  let m := m.put F.TEL_TEMP_TEMP (ofSigned t 16) i
  let m := m.setPmc { m.pmc with sensorPrev := tIns m.pmc.sensorPrev i t }
  if bad then
    let m := m.setPmc { m.pmc with sensorGood := tDel m.pmc.sensorGood i }
    if m.on F.TEL_TEMP_FAILED i then m
    else (((m.putB F.TEL_TEMP_FAILED true i).count 302).trouble F.TEL_TROUBLE_SENSOR_FAIL 0 i).raise 450
  else if m.on F.TEL_TEMP_FAILED i then
    let n := tGet m.pmc.sensorGood 0 i + 1
    if 1000 ≤ n then (m.setPmc { m.pmc with sensorGood := tDel m.pmc.sensorGood i }).putB F.TEL_TEMP_FAILED false i
    else m.setPmc { m.pmc with sensorGood := tIns m.pmc.sensorGood i n }
  else m

/-- SENSOR_READ: the 16 readings of one ms, and the hottest, which PWR_STATUS shows. -/
def Mach.sensorRead (m : Mach) (readings : List Int) : Mach :=
  let m := ((readings.take 16).zip (List.range 16)).foldl (fun (m : Mach) x => m.sensor x.2 x.1) m
  m.put F.PWR_STATUS_TEMP (ofSigned m.hottest 8)

/-! ### Telemetry (R426, R427) -/

/-- What period counts count: the counters, and the dropped flits of fabric port p under 320 + p. -/
def Mach.telCounter (m : Mach) (e : Nat) : Nat :=
  if e < 320 then m.get F.PMC_CNT_COUNT e else (m.fabPort (e - 320)).drops

/-- A period count, saturating in w bits. -/
def Mach.period (m : Mach) (e w : Nat) : Nat :=
  min (2 ^ w - 1) ((m.telCounter e + 2 ^ 48 - tGet m.pmc.telBase 0 e) % 2 ^ 48)

def telEvents : List Nat :=
  [7, 8, 9, 257, 265] ++ (List.range 8).flatMap (fun p => [34 + 8 * p, 36 + 8 * p, 320 + p, 96 + 4 * p, 97 + 4 * p])

/-- Four 16-bit slots, low slot first. -/
def slots16 (l : List Nat) : Nat := l.foldr (fun v a => a * 65536 + v % 65536) 0

/-- Eight bytes, low byte first. -/
def slots8 (l : List Nat) : Nat := l.foldr (fun v a => a * 256 + v % 256) 0

/-- The lowest margin of the measured lanes of fabric port p, 0 when none is known. -/
def Mach.eyeMargin (m : Mach) (p : Nat) : Nat :=
  let known := (List.range 4).filter fun l => m.on F.TST_EYE_VALID (4 * p + l)
  match known with
  | [] => 0
  | _ => known.foldl (fun a l => min a (m.get F.TST_EYE_MARGIN (4 * p + l))) 255

/-- Words 0 to 7 of the record with this SEQ. -/
def Mach.telMinimum (m : Mach) (full : Bool) (seq : Nat) : List Nat :=
  let rails := (List.range 9).foldl (fun a r => a + m.get F.PWR_RAIL_STATUS_STATE r * 4 ^ r) 0
  let mv := fun r => if r < 9 then m.get F.PWR_RAIL_STATUS_MV r else 0
  [m.now,
   m.nodeId * 2 ^ 52 + m.mode.code * 2 ^ 48 + m.stage * 2 ^ 45 + (if full then 2 ^ 44 else 0) + seq * 65536
     + (if full then 256 else 64),
   min (2 ^ 32 - 1) m.uNode * 2 ^ 32 + m.servo * 2 ^ 29 + m.get F.SYS_TROUBLE_BLOCKS * 2 ^ 8 + ofSigned m.hottest 8,
   (m.rd .CMP_FRS_SUMMARY 0).toNat * 2 ^ 32 + rails,
   slots16 ((List.range 4).map mv), slots16 ((List.range 4).map fun i => mv (4 + i)),
   slots16 ((List.range 4).map fun i => mv (8 + i)), 0]

/-- Words 8 to 31 of a full record. -/
def Mach.telRest (m : Mach) : List Nat :=
  let deg := fun i => ofSigned (m.getS F.TEL_TEMP_TEMP i / 8) 8
  [slots8 ((List.range 8).map deg), slots8 ((List.range 8).map fun i => deg (8 + i))] ++
  ((List.range 8).map fun p =>
    m.get F.FAB_PORT_STATUS_STATE p * 2 ^ 61 + m.get F.FAB_PORT_STATUS_WIDTH p * 2 ^ 58
      + m.get F.FAB_PORT_STATUS_RATE p * 2 ^ 56 + m.eyeMargin p * 2 ^ 48 + m.period (36 + 8 * p) 16 * 2 ^ 32
      + m.period (34 + 8 * p) 16 * 2 ^ 16 + m.period (320 + p) 16) ++
  ((List.range 8).map fun p =>
    m.get F.ETH_PORT_STATUS_LINK p * 2 ^ 63 + m.get F.ETH_PORT_STATUS_FEC_LOCK p * 2 ^ 62
      + m.get F.ETH_PORT_STATUS_GROUPS p * 2 ^ 55 + m.period (97 + 4 * p) 16 * 2 ^ 32 + m.period (96 + 4 * p) 32) ++
  [m.period 7 32 * 2 ^ 32 + m.period 8 16 * 2 ^ 16 + m.period 9 16,
   m.get F.DEC_ADMIT_USED * 2 ^ 51 + m.get F.DEC_ADMIT_LAST_CONTEXTS * 2 ^ 44 + m.get F.ENC_ADMIT_USED * 2 ^ 32
     + m.get F.ENC_ADMIT_LAST_CONTEXTS * 2 ^ 27,
   m.get F.TCH_STATUS_CONTACTS * 2 ^ 60 + m.get F.TCH_STATUS_FREQ * 2 ^ 57 + m.get F.TCH_STATUS_NOISY * 2 ^ 56
     + m.get F.TCH_STATUS_WATER * 2 ^ 55 + m.get F.TCH_STATUS_DEGRADED * 2 ^ 54,
   m.period 265 32 * 2 ^ 32 + m.period 257 32, 0, 0]

/-- The record replaces TEL_LAST whole. -/
def Mach.putTel (m : Mach) (words : List Nat) : Mach :=
  (List.range 64).foldl (fun (m : Mach) i =>
    m.wr .TEL_LAST i (BitVec.ofNat 64 (words.getD (i / 2) 0 / 2 ^ (32 * (i % 2)) % 2 ^ 32))) m

/-- TEL_RECORD: wall time reaches a multiple of PERIOD. -/
def Mach.telRecord (m : Mach) : Mach :=
  if !m.on F.TEL_CFG_EN || !m.mode.runs || m.stage = 5 then m
  else
    let every := m.get F.TEL_CFG_FULL_EVERY
    let n := m.pmc.telCount + 1
    let full : Bool := decide (every ≠ 0) && decide (m.stage = 0) && decide (n % every = 0)
    let seq := (m.get F.TEL_STATUS_SEQ + 1) % 65536
    let words := m.telMinimum full seq ++ (if full then m.telRest else [])
    let m := m.putTel words
    let base := telEvents.foldl (fun t e => tIns t e (m.telCounter e)) m.pmc.telBase
    let m := m.setPmc { m.pmc with telCount := n, telBase := base }
    ((m.put F.TEL_STATUS_SEQ seq).count 297).raise 448

/-! ### Writing the trouble log (R429, R431) -/

/-- Entries may be written: from PROVE on but in SLEEP, with every watched rail monitor OK. -/
def Mach.mayLog (m : Mach) : Bool :=
  m.mode ≠ .hold && m.mode ≠ .load && m.mode ≠ .sleep && (m.railIn 1).isNone && m.cfg.flashOp.isNone

/-- The queue has lost its oldest entry to the flash; as it empties, drops are reported by an entry of BLOCK 23. -/
def Mach.logWritten (m : Mach) (seq pos : Nat) (rest : List TroubleEntry) : Mach :=
  let m := (m.setPmc { m.pmc with logQueue := rest }).put F.TEL_LOG_STATUS_QUEUED rest.length
  let m := ((m.put F.TEL_LOG_SEQ_SEQ seq).put F.TEL_LOG_POS_POS pos).count 298
  let dropped := m.get F.TEL_LOG_STATUS_DROPPED
  if rest.isEmpty && dropped ≠ 0 then (m.put F.TEL_LOG_STATUS_DROPPED 0).log 23 0 0 dropped else m

/-- TROUBLE_LOG_WRITE: the oldest queued entry is written. -/
def State.troubleLogWrite (s : State) : State :=
  match s.mach.pmc.logQueue with
  | [] => s
  | e :: es =>
    if !s.mach.mayLog then s
    else
      let seq := (s.mach.get F.TEL_LOG_SEQ_SEQ + 1) % 2 ^ 32
      let (t, pos) := s.logWrite (s.mach.get F.TEL_LOG_POS_POS) seq e
      { t with mach := t.mach.logWritten seq pos es }

end Sys2Proof.Machine
end

