-- ==== Sys2Proof/Machine/Boot.lean ====
section
/-! DEFINITION. LOAD and the image check (R380, R381, R431), what a LOAD leaves to start, run-time flash access (R384)
and the service token (R385). -/

namespace Sys2Proof.Machine

/-! ### What follows from a configuration -/

/-- PTP port states that the role of a port gives (R85, R86). -/
def roleState (role : Nat) : PtpState :=
  match role with
  | 1 | 2 => .listening
  | 3 => .transparent
  | _ => .off

/-- Values that follow from a configuration newly in force: the node ID of an image (R114), the apply line (R219), the
load cap (R213), the PTP ports and the pulse outputs that are enabled (R89). -/
def Mach.derive (m : Mach) : Mach :=
  let m := if !m.on F.FAB_NODE_ID_SOURCE then m.putB F.FAB_NODE_ID_VALID true else m
  let m := (m.put F.CMP_LATCH_APPLY m.applyLine).put F.CMP_LOAD_CAP_CAP m.loadCap
  let m := (List.range 8).foldl (fun (m : Mach) p =>
    (m.setPtpPort p ptpPort0).setPtpState p (roleState (m.get F.TIME_ETH_CTL_ROLE p))) m
  (List.range 8).foldl (fun (m : Mach) k => if m.on F.TIME_PULSE_CTL_EN k then m.pulseArm k else m) m

/-! ### One slot (steps 3 to 7 of R380) -/

/-- The CRC of each table in turn, on check-value channel 15; false at the first that does not match. -/
def Mach.tableCrcs (m : Mach) : List ImgTable → Bool × Mach
  | [] => (true, m)
  | t :: ts =>
    let good : Bool := crc32c t.data = t.crc
    let m := m.chkUnit 15 good
    if good then m.tableCrcs ts else (false, m)

/-- The two parts hold a key block and a signature, and the vendor lists are whole words that fit (R373). -/
def partsOk (x : ImgHeader) : Bool :=
  224 ≤ x.vendorLen && 224 ≤ x.custLen && (x.vendorLen - 224) % 8 = 0 && x.vendorLen - 224 ≤ 65536

/-- Memory emptied from an address, of its bytes and of its bit errors. -/
def State.clear (s : State) (a n : Nat) : State :=
  { s with mem := s.mem.filter (fun e => e.1 < a || a + n ≤ e.1), ecc := s.ecc.filter (fun e => e.1 < a || a + n ≤ e.1) }

/-- Both regions of action memory, and the font (step 6). -/
def State.loadMemory (s : State) (x : ImgHeader) (vendor : List Nat) (ts : List ImgTable) : State :=
  let lists := (vendor.drop 128).take (x.vendorLen - 224)
  let s := (s.clear actionBase actionSize).setBytes actionBase lists
  let s := s.setBytes (actionBase + 65536) (tableData ts 7)
  let font := tableData ts 8
  if (tableOf ts 8).isSome then
    (s.clear (cisternBase + le4 font 4) (font.length - 8)).setBytes (cisternBase + le4 font 4) (font.drop 8)
  else s

/-- The CRC-32C of action memory that the image check compares. -/
def State.actionCrc (s : State) : Nat := crc32c (s.bytes actionBase actionSize)

/-- The image is applied (steps 6 and 7): `c` is the machine as the image makes it. -/
def State.applyImage (s : State) (c : Mach) (x : ImgHeader) (vendor : List Nat) (ts : List ImgTable) : State :=
  let s := { s with mach := c }.loadMemory x vendor ts
  let m := s.mach.setCfg { s.mach.cfg with actionCrc := s.actionCrc, reload := false }
  { s with mach := ((m.put F.CFG_LOADED_CRC_CRC x.crc).put F.CFG_SVN_IMAGE x.svn).derive }

/-- Steps 3 to 7 on one slot: the failure, and the state after it. A slot whose header failed counts as HEADER. -/
def State.trySlot (s : State) (slot : Nat) (f : FlashIn) : Option LoadFail × State :=
  match s.imgHeader slot with
  | none => (some ⟨causeHeader, 0, 0⟩, s)
  | some x =>
    let vendor := s.fbytes (slotBase slot + x.vendorOff) x.vendorLen
    let cust := s.fbytes (slotBase slot + x.custOff) x.custLen
    let ts := imgTables cust x.dirCount
    let auth := s.imgAuth x vendor cust
    if !(f.inTime.getD slot false) then (some ⟨causeReadLimit, 0, 0⟩, s)
    else if auth ≠ 0 then (some ⟨auth, 0, 0⟩, s)
    else if !partsOk x || !directoryOk ts x.dirCount x.custLen then (some ⟨causeFormat, 0, 0⟩, s)
    else
      let (good, m) := s.mach.tableCrcs ts
      let s := { s with mach := m }
      let c := m.imaged m.sys.cls slot x ts
      if !good then (some ⟨causeTableCrc, 0, 0⟩, s)
      else match m.imageFail c ts with
        | some e => (some e, s)
        | none => if f.trains then (none, s.applyImage c x vendor ts) else (some ⟨causeDram, 0, 0⟩, s)

/-! ### LOAD -/

/-- The flash is up (R370); the fuses are read (R374). -/
def State.flashUp (s : State) (f : FlashIn) : State :=
  let m := s.mach
  let m :=
    if f.answers then
      (m.putB F.CFG_FLASH_INFO_MODE f.fast).put F.CFG_FLASH_INFO_SIZE_LOG2 f.sizeLog2 |>.put F.CFG_FLASH_INFO_MHZ f.mhz
    else m
  let m := (m.putB F.CFG_SVN_CUSTOMER_SET s.fuses.customerKey.isSome).put F.CFG_SVN_MIN s.fuses.svn
  let m := m.setCfg { m.cfg with serial := s.fuses.serial }
  { s with mach := m }

/-- The write point of the trouble log is found (R431). -/
def State.findLog (s : State) : State :=
  { s with mach := (s.mach.put F.TEL_LOG_POS_POS s.logPoint).put F.TEL_LOG_SEQ_SEQ s.logNewest }

/-- No image is in force: every Load field at its POR value, rules 0 to 7 without pages, no tables, DRAM untrained. -/
def Mach.unload (m : Mach) : Mach :=
  let m := m.returnLoads m.sys.cls
  let m := (List.range 8).foldl (fun (m : Mach) i => m.setRule i noRule) m
  let m := if ResetWord.loadPin.loads m.sys.cls then
      (List.range 248).foldl (fun (m : Mach) k =>
        if (m.ruleIn (8 + k)).lock then m else m.setRule (8 + k) noRule) m
    else m
  let m := (m.putB F.MEM_STATUS_TRAINED false).put F.MEM_STATUS_VISIBLE 0
  m.setCfg { m.cfg with streams := [], spans := [], palettes := [], keys := [], service := [], touch := [],
                        touchFreqs := 0, fontBase := 0, roles := 0, svnCommit := false, svn := 0, slot := none }

/-- What a slot's attempt leaves in CFG_SLOT_STATUS. -/
def Mach.slotTried (m : Mach) (slot cause : Nat) : Mach :=
  (m.putB F.CFG_SLOT_STATUS_TRIED true slot).putB F.CFG_SLOT_STATUS_VALID (cause = 0) slot
    |>.put F.CFG_SLOT_STATUS_CAUSE cause slot

/-- SEQ of the two slots, as their headers give it in step 2; a slot whose header fails has cause HEADER. -/
def State.slotSeqs (s : State) : State :=
  let put (m : Mach) (k : Nat) : Mach :=
    match s.imgHeader k with
    | some x => m.put F.CFG_SLOT_SEQ_SEQ x.seq k
    | none => (m.put F.CFG_SLOT_SEQ_SEQ 0 k).put F.CFG_SLOT_STATUS_CAUSE causeHeader k
  { s with mach := put (put s.mach 0) 1 }

/-- The slot that step 2 tries first. -/
def State.firstSlot (s : State) : Nat :=
  match s.imgHeader 0, s.imgHeader 1 with
  | some a, some b => if a.seq < b.seq then 1 else 0
  | none, some _ => 1
  | _, _ => 0

/-- Entry to QUARANTINE from LOAD: the card takes its own timing (R273). -/
def Mach.loadQuarantine (m : Mach) (cause : Nat) : Mach :=
  let m := m.setScn { m.scn with fallback := some timing1080 }
  (m.putB F.SCN_STATUS_FALLBACK true).quarantine cause

/-- The entry of a sag is queued after the LOAD that follows it (R414, R430). -/
def Mach.sagEntry (m : Mach) : Mach :=
  if !m.pwr.sagLog then m
  else
    let m := m.setPwr { m.pwr with sagLog := false }
    let e := m.logEntry 17 F.PWR_TROUBLE_POWER_HALT.lo (m.get F.PWR_SAG_RECORD_RAIL) (m.get F.PWR_SAG_RECORD_MIN_MV)
    settle settleFuel [.entry (if m.pwr.sagTv then { e with time := m.pwr.sagTime, tv := true } else e)] m

/-- LOAD ends with a slot loaded: PROVE, or QUARANTINE for an image without a role (R15). -/
def Mach.loaded (m : Mach) (slot : Nat) : Mach :=
  let m := (m.put F.CFG_STATUS_SLOT slot).put F.CFG_STATUS_PHASE 0 |>.sagEntry
  if m.cfg.roles % 32 = 0 then m.quarantine causeNoRole else m.enterMode .prove

/-- A first slot that fails from step 3 on: FALLBACK, its entry and event 12 (R380). -/
def Mach.fellBack (m : Mach) (cause : Nat) : Mach :=
  ((m.putB F.CFG_STATUS_FALLBACK true).trouble F.CFG_TROUBLE_FALLBACK 0 cause).raise 12

/-- Both slots have failed, and the image is unloaded: QUARANTINE with the cause of the first. -/
def Mach.loadFailed (m : Mach) (a : Nat) (ea eb : LoadFail) (fell : Bool) : Mach :=
  let m := (m.slotTried a ea.cause).slotTried (1 - a) eb.cause |>.put F.CFG_STATUS_PHASE 8
  let m := (m.put F.CFG_FAIL_AT_TABLE ea.table).put F.CFG_FAIL_AT_ENTRY ea.entry
  let m := m.putB F.CFG_STATUS_FALLBACK fell
  m.sagEntry.loadQuarantine ea.cause

/-- Steps 2 to 7 of R380. -/
def State.loadSlots (s : State) (f : FlashIn) : State :=
  let a := s.firstSlot
  let fell : Bool := (s.imgHeader a).isSome
  let clear (s : State) : State := { s with mach := s.mach.unload }.slotSeqs
  match (clear s).trySlot a f with
  | (none, t) => { t with mach := (t.slotSeqs.mach.slotTried a 0).loaded a }
  | (some ea, t) =>
    let t := clear t
    let t := if fell then { t with mach := t.mach.fellBack ea.cause } else t
    match t.trySlot (1 - a) f with
    | (none, u) =>
      let m := (u.slotSeqs.mach.slotTried a ea.cause).slotTried (1 - a) 0
      let m := (m.put F.CFG_FAIL_AT_TABLE ea.table).put F.CFG_FAIL_AT_ENTRY ea.entry |>.putB F.CFG_STATUS_FALLBACK fell
      { u with mach := m.loaded (1 - a) }
    | (some eb, u) =>
      let v := (clear u).clear actionBase actionSize
      { v with mach := v.mach.loadFailed a ea eb fell }

/-- LOAD (R380). Training does not keep what DRAM held (R402). -/
def State.load (s : State) (f : FlashIn) : State :=
  let s := (s.flashUp f).clear dramBase (2 ^ 40)
  let t :=
    if f.answers then s.findLog.loadSlots f
    else
      let s := s.clear actionBase actionSize
      { s with mach := (s.mach.unload.put F.CFG_STATUS_PHASE 8).sagEntry.loadQuarantine causeNoFlash }
  { t with mach := t.mach.put F.CFG_LOAD_TIME_US f.us }

/-- The image check runs in place of LOAD (R381). -/
def Mach.checksImage (m : Mach) : Bool :=
  (m.sys.cls = clsWdt || m.sys.cls = clsFab) && !m.sys.fromQuarantine && !m.cfg.reload

/-- The header of the slot last loaded, SEQ, and action memory are as LOAD left them. -/
def State.imageKept (s : State) (f : FlashIn) : Bool :=
  match s.mach.cfg.slot with
  | none => false
  | some k =>
    f.answers && f.inTime.getD k false &&
    (match s.imgHeader k with
     | some x => x.crc = s.mach.get F.CFG_LOADED_CRC_CRC && x.seq = s.mach.get F.CFG_SLOT_SEQ_SEQ k
     | none => false)
    && s.actionCrc = s.mach.cfg.actionCrc

/-- IMAGE_CHECK (R381). -/
def State.imageCheck (s : State) (f : FlashIn) : State :=
  if s.imageKept f then
    let m := (s.flashUp f).mach
    let m := (m.putB F.MEM_STATUS_TRAINED true).put F.MEM_STATUS_VISIBLE m.dramMib
    { s with mach := (m.putB F.CFG_STATUS_SKIPPED true).derive.enterMode .prove }
  else { s with mach := s.mach.trouble F.CFG_TROUBLE_WDT_RELOAD }.load f

/-- LOAD, in the mode that runs it. -/
def State.loadCommand (s : State) (f : FlashIn) : State :=
  if s.mach.mode = .load ∧ !s.mach.checksImage then s.load f
  else if s.mach.mode = .load ∧ s.mach.cfg.reload ∧ !s.mach.sys.fromQuarantine then
    { s with mach := s.mach.trouble F.CFG_TROUBLE_WDT_RELOAD }.load f
  else s

def State.imageCheckCommand (s : State) (f : FlashIn) : State :=
  if s.mach.mode = .load ∧ s.mach.checksImage then s.imageCheck f else s

/-! ### Flash access at run time (R384) -/

/-- Byte i of CFG_FLASH_DATA, and the buffer with bytes from its start replaced. -/
def Mach.flashByte (m : Mach) (i : Nat) : Nat := bits (m.rd .CFG_FLASH_DATA (i / 4)).toNat (8 * (i % 4)) 8

def Mach.setFlashByte (m : Mach) (i v : Nat) : Mach :=
  m.wr .CFG_FLASH_DATA (i / 4) (BitVec.ofNat 64 (setBits (m.rd .CFG_FLASH_DATA (i / 4)).toNat (8 * (i % 4)) 8 v))

def Mach.setFlashBytes (m : Mach) : Nat → List Nat → Mach
  | _, [] => m
  | i, b :: bs => (m.setFlashByte i b).setFlashBytes (i + 1) bs

/-- An operation ends: RESULT, GO clear, event 13; TIMEOUT and VERIFY set FLASH_FAIL (R386). -/
def Mach.flashEnd (m : Mach) (result : Nat) : Mach :=
  let m := m.setCfg { m.cfg with flashOp := none }
  let m := (m.put F.CFG_FLASH_STATUS_RESULT result).putB F.CFG_FLASH_CTL_GO false
  let m := if result = 4 ∨ result = 5 then m.trouble F.CFG_TROUBLE_FLASH_FAIL else m
  m.raise 13

/-- A PROGRAM or ERASE of this range is PROTECTED: the trouble-log region, or outside QUARANTINE the slot in use. -/
def Mach.flashProtected (m : Mach) (a n : Nat) : Bool :=
  let meets (base size : Nat) : Bool := decide (a < base + size) && decide (base < a + n)
  meets logBase logSize ||
    (m.mode ≠ .quarantine && match m.cfg.slot with
      | some k => meets (slotBase k) slotSize
      | none => false)

/-- A write of GO = 1 that is taken: EMPTY, PROTECTED, or the operation starts. A PROGRAM runs within one 256-byte page;
one that would leave it ends with BAD_VALUE. -/
def Mach.flashGo (m : Mach) : Mach :=
  let op := m.get F.CFG_FLASH_CTL_OP
  let len := m.get F.CFG_FLASH_CTL_LEN
  let a := m.get F.CFG_FLASH_ADDR_ADDR
  let m := m.putB F.CFG_FLASH_CTL_GO true
  if op ≠ 2 ∧ len = 0 then m.flashEnd 1
  else if op = 1 ∧ 256 < a % 256 + len then (m.trouble F.CFG_TROUBLE_BAD_VALUE).flashEnd 2
  else if (op = 1 ∧ m.flashProtected a len) ∨ (op = 2 ∧ m.flashProtected (a / 65536 * 65536) 65536) then m.flashEnd 3
  else
    m.setCfg { m.cfg with flashOp := some { op := op, addr := a, len := len,
                                            data := (List.range len).map m.flashByte, started := m.raw } }

/-- GO may be written: none runs, and not in LOAD. -/
def Mach.flashGoOk (m : Mach) : Bool := !m.on F.CFG_FLASH_CTL_GO && m.mode ≠ .load

/-- FLASH_DONE: the operation has its effect. -/
def State.flashDone (s : State) (verified : Bool) : State :=
  match s.mach.cfg.flashOp with
  | none => s
  | some x =>
    if x.op = 0 then { s with mach := (s.mach.setFlashBytes 0 (s.fbytes x.addr x.len)).flashEnd 0 }
    else
      let t := if x.op = 1 then s.fprogram x.addr x.data else s.ferase x.addr
      let same : Bool := x.op ≠ 1 || (verified && t.fbytes x.addr x.len = x.data)
      { t with mach := t.mach.flashEnd (if same then 0 else 5) }

/-- FLASH_ERASE_TIMEOUT. -/
def Mach.flashEraseTimeout (m : Mach) : Mach :=
  match m.cfg.flashOp with
  | some x => if x.op = 2 then m.flashEnd 4 else m
  | none => m

/-! ### The service token (R385) -/

def svcNone : Nat := 0
def svcGranted : Nat := 1
def svcRejected : Nat := 2
def svcExpired : Nat := 3
def svcNoVerifier : Nat := 4

/-- Bytes of CFG_SVC_CHALLENGE and CFG_SVC_TOKEN. -/
def Mach.regBytes (m : Mach) (r : Reg) (n : Nat) : List Nat := (List.range n).flatMap fun i => natBytes 4 (m.rd r i).toNat

/-- A write of 1 to NEW is taken: no lockout holds. -/
def Mach.svcNewOk (m : Mach) : Bool := m.get F.CFG_SVC_STATUS_REJECTS < 3

/-- A new challenge of 32 random bytes, valid for 60 s and one verification. -/
def Mach.svcNew (m : Mach) : Mach :=
  let m := (List.range 8).foldl (fun (m : Mach) i =>
    let (v, m) := m.freeBits 32
    m.put F.CFG_SVC_CHALLENGE_CHALLENGE v i) m
  m.setCfg { m.cfg with challengeRaw := some m.raw }

/-- A verification's result, with event 14. GRANTED lasts until the next reset, whatever a later token gives. -/
def Mach.svcResult (m : Mach) (result : Nat) : Mach :=
  let granted : Bool := m.cfg.granted || result = svcGranted
  let m := m.setCfg { m.cfg with challengeRaw := none, granted := granted }
  (m.put F.CFG_SVC_STATUS_RESULT (if granted then svcGranted else result)).raise 14

/-- A write of 1 to VERIFY. A challenge used up or expired is EXPIRED. -/
def Mach.svcVerify (m : Mach) : Mach :=
  let live : Bool := match m.cfg.challengeRaw with
    | some t => decide (m.raw < t + msTicks 60000)
    | none => false
  if m.cfg.service.isEmpty then m.svcResult svcNoVerifier
  else if !live then m.svcResult svcExpired
  else
    let digest := sha384 (m.regBytes .CFG_SVC_CHALLENGE 8 ++ natBytes 8 m.cfg.serial)
    if ecdsaVerify (m.cfg.service.take 97) (m.regBytes .CFG_SVC_TOKEN 24) digest then m.svcResult svcGranted
    else
      let n := m.get F.CFG_SVC_STATUS_REJECTS + 1
      let m := (m.put F.CFG_SVC_STATUS_REJECTS (min 3 n)).svcResult svcRejected
      if 3 ≤ n then m.trouble F.CFG_TROUBLE_SVC_LOCKOUT else m

/-- SVC_CHALLENGE_EXPIRY. -/
def Mach.svcExpiry (m : Mach) : Mach := m.setCfg { m.cfg with challengeRaw := none }

end Sys2Proof.Machine
end

