-- ==== Sys2Proof/Machine/Events.lean ====
section
/-! DEFINITION. Events at the desk: doorbells and hold-off groups (R316), the host interrupt pins (R317), GPIO (R327),
the I²C controller (R328), the sequencers' log (R326), and the levels of the low-speed pins (R454). -/

namespace Sys2Proof.Machine

/-- A write of EVC_DOORBELL: a 1 in bit i raises event 480 + i (R331). -/
def Mach.doorbells (m : Mach) (value : Nat) : Mach :=
  (bitsSet value 32).foldl (fun (m : Mach) i => m.raise (480 + i)) m

/-- A DOORBELL flit for this node (R99). DESIGN CHOICE (log entry 57): the spec gives the body byte the values 0 to 31 and
no rule for others; a byte above 31 is taken modulo 32. -/
def Mach.doorbell (m : Mach) (index : Nat) : Mach := m.raise (480 + index % 32)

/-- HOLDOFF_END: the group opens again (R316). -/
def Mach.holdoffEnd (m : Mach) (g : Nat) : Mach := m.putB F.EVC_HOLDOFF_OPEN true g

/-! ### Pins -/

/-- HOST_IRQp_N is asserted (R317): a bit of set 3 is set whose bit of EVC_PIN_MASK[p] is set. -/
def Mach.hostIrq (m : Mach) (p : Nat) : Bool :=
  (List.range 16).any fun w => (m.rd .EVC_HOST_PEND (48 + w) &&& m.rd .EVC_PIN_MASK (16 * p + w)) != 0

/-- GPIO pins are inputs in HOLD and LOAD of every reset class but WDT and FAB (R454). -/
def Mach.gpioFloats (m : Mach) : Bool :=
  (m.mode = .hold || m.mode = .load) && m.sys.cls ≠ 2 && m.sys.cls ≠ 3

/-- The level GPIO pin i drives; none when it is an input or released (R327, R454). -/
def Mach.gpioDrive (m : Mach) (i : Nat) : Option Bool :=
  let out := (m.get F.SEQ_GPIO_OUT_OUT).testBit i
  if m.gpioFloats || (m.mode = .sleep && i < 4 && (m.get F.SYS_WAKE_CFG_GPIO).testBit i)
      || !(m.get F.SEQ_GPIO_DIR_DIR).testBit i then none
  else if m.on F.SEQ_GPIO_CFG_OD i && out then none
  else some out

/-- A pin's change of drive is put out. -/
def Mach.emitChange (m : Mach) (p : Pin) (old new : Option Bool) : Mach :=
  if old = new then m
  else match new with
    | some b => m.emit (.pin p b)
    | none => m.emit (.release p)

/-- The pins that follow the state: the GPIO pins, the open-drain interrupt pins (released in HOLD, LOAD and SLEEP), and
the pulse outputs, which are low in HOLD and SLEEP (R454). `old` is the machine before the command. -/
def Mach.drivePins (old m : Mach) : Mach :=
  let irq (x : Mach) (p : Nat) : Option Bool :=
    if x.mode ≠ .hold ∧ x.mode ≠ .load ∧ x.mode ≠ .sleep ∧ x.hostIrq p then some false else none
  let still (x : Mach) : Bool := x.mode = .hold || x.mode = .sleep
  let m1 := (List.range 16).foldl (fun (r : Mach) i => r.emitChange (.gpio i) (old.gpioDrive i) (m.gpioDrive i)) m
  let m2 := (List.range 2).foldl (fun (r : Mach) p => r.emitChange (.hostIrqN p) (irq old p) (irq m p)) m1
  if still m && !still old then (List.range 8).foldl (fun (r : Mach) k => r.emit (.pin (.pulse k) false)) m2 else m2

/-! ### GPIO (R327) -/

/-- GPIO_EDGE: a new level of a pin has held for its DEBOUNCE. An input's edge that matches EDGE raises its event, and
one that SYS_WAKE_CFG.GPIO names wakes the node from STANDBY (R393). -/
def Mach.gpioEdge (m : Mach) (i : Nat) (level : Bool) : Mach :=
  let was := (m.get F.SEQ_GPIO_IN_IN).testBit i
  if was = level ∨ 16 ≤ i ∨ !m.mode.runs then m
  else
    let inNow := m.get F.SEQ_GPIO_IN_IN
    let m := m.put F.SEQ_GPIO_IN_IN (if level then setBit inNow i else clearBit inNow i)
    if (m.get F.SEQ_GPIO_DIR_DIR).testBit i then m
    else
      let m := m.count 271
      let edge := m.get F.SEQ_GPIO_CFG_EDGE i
      let m := if edge.testBit (if level then 0 else 1) then m.raise (368 + i) else m
      if (m.get F.SYS_WAKE_CFG_GPIO).testBit i then m.wakeUp 3 i else m

/-! ### I²C (R328) -/

/-- A transfer ends with its RESULT; event 354 on OK or EMPTY, and event 355 otherwise. -/
def Mach.i2cEnd (m : Mach) (result count_ : Nat) : Mach :=
  let m := (m.setEvc { m.evc with i2cBusy := false }).putB F.SEQ_I2C_CTL_GO false
  let m := (m.put F.SEQ_I2C_STATUS_RESULT result).put F.SEQ_I2C_STATUS_COUNT count_
  let m := m.count 270
  if result ≤ 1 then m.raise 354 else (m.trouble F.SEQ_TROUBLE_I2C_FAIL).raise 355

/-- Byte i of SEQ_I2C_WDATA. -/
def Mach.i2cByte (m : Mach) (i : Nat) : Nat := bits (m.rd .SEQ_I2C_WDATA (i / 4)).toNat (8 * (i % 4)) 8

/-- A write of GO = 1 while none runs: the transfer starts, or ends with EMPTY when no bytes are asked for. -/
def Mach.i2cGo (m : Mach) : Mach :=
  let w := m.get F.SEQ_I2C_CTL_WLEN
  let r := m.get F.SEQ_I2C_CTL_RLEN
  if w = 0 ∧ r = 0 then m.i2cEnd 1 0
  else
    ((m.setEvc { m.evc with i2cBusy := true }).putB F.SEQ_I2C_CTL_GO true).emit
      (.i2c (m.get F.SEQ_I2C_CTL_ADDR) ((List.range w).map m.i2cByte) r (m.on F.SEQ_I2C_CTL_BLOCK))

/-- The bytes read, in SEQ_I2C_RDATA. -/
def Mach.i2cStore (m : Mach) (data : List Nat) : Mach :=
  (List.range 4).foldl (fun (m : Mach) w =>
    (List.range 4).foldl (fun (m : Mach) b =>
      match data[4 * w + b]? with
      | some v => m.wr .SEQ_I2C_RDATA w (BitVec.ofNat 64 (setBits (m.rd .SEQ_I2C_RDATA w).toNat (8 * b) 8 v))
      | none => m) m) m

/-- I2C_DONE: `ack` 0 all acknowledged, 1 the address, 2 a data byte was not. A block read's first byte is a count,
and one above RLEN − 1 is a BAD_REPLY. -/
def Mach.i2cDone (m : Mach) (ack : Nat) (data : List Nat) : Mach :=
  if !m.evc.i2cBusy then m
  else if ack ≠ 0 then m.i2cEnd (if ack = 1 then 2 else 3) 0
  else
    let r := m.get F.SEQ_I2C_CTL_RLEN
    if m.on F.SEQ_I2C_CTL_BLOCK ∧ r ≠ 0 then
      let n := data.headD 0
      if r - 1 < n then m.i2cEnd 5 0
      else (m.i2cStore (data.take (n + 1))).i2cEnd 0 (n + 1)
    else (m.i2cStore (data.take r)).i2cEnd 0 r

/-- I2C_TIMEOUT: the target has held SCL low for TIMEOUT ms; the controller frees the bus. -/
def Mach.i2cTimeout (m : Mach) : Mach := if m.evc.i2cBusy then (m.i2cEnd 4 0).emit .i2cFree else m

/-! ### The log (R326) -/

/-- The words of a log entry. -/
def logWords (time code k src pc last : Nat) (ps : Bool) : List Nat :=
  [time, code % 2 ^ 32 * 2 ^ 32 + k % 16 * 2 ^ 28 + src % 512 * 2 ^ 17 + pc % 2 ^ 17, last, if ps then 1 else 0]

/-- A persistent entry may be written: at most one per second for the node. -/
def Mach.mayPersist (m : Mach) : Bool :=
  match m.evc.lastPersist with
  | none => true
  | some t => decide (t + msTicks 1000 ≤ m.raw)

/-- LOG by sequencer k. The persistent copy is an entry of BLOCK 21 (R430). -/
def Mach.logAction (m : Mach) (k code : Nat) (persist : Bool) : Mach :=
  let src := m.get F.SEQ_STATE_SRC k
  let pc := m.get F.SEQ_STATE_PC k
  let ps := persist && m.mayPersist
  let m := if ps then (m.setEvc { m.evc with lastPersist := some m.raw }).log 21 0 code (m.get F.SEQ_LAST_LAST k % 2 ^ 32) else m
  let words := logWords m.now code k src pc (m.get F.SEQ_LAST_LAST k) ps
  if m.evc.log.length < 256 then
    ((m.setEvc { m.evc with log := m.evc.log ++ [words] }).put F.SEQ_LOG_STATUS_COUNT (m.evc.log.length + 1)).count 269 |>.raise 353
  else (m.bump F.SEQ_LOG_STATUS_DROPPED).trouble F.SEQ_TROUBLE_LOG_FULL

/-- The oldest log entry is popped. -/
def Mach.popLog (m : Mach) : List Nat × Mach :=
  match m.evc.log with
  | [] => ([], m)
  | e :: es => (e, (m.setEvc { m.evc with log := es }).put F.SEQ_LOG_STATUS_COUNT es.length)

end Sys2Proof.Machine
end

