-- ==== Sys2Proof/Machine/Sessions.lean ====
section
/-! DEFINITION. Management sessions as a table (R139, R141): opening, ending and their registers; and the link of an
Ethernet port, whose loss ends the port's sessions and silences its entries (R134, R141, R148). -/

namespace Sys2Proof.Machine

def Mach.setEth (m : Mach) (x : EthSt) : Mach := { m with eth := x }

def Mach.setFab (m : Mach) (x : FabSt) : Mach := { m with fab := x }

/-- The event of a peer's sessions (R141, R148): 98 + 4p of its Ethernet port, or 71 over the fabric. -/
def MgmtPeer.event : MgmtPeer → Nat
  | .eth p _ _ _ => 98 + 4 * p
  | .fabric _ => 71

/-- The port whose trouble register serves a peer: port 0 over the fabric (R139). -/
def MgmtPeer.port : MgmtPeer → Nat
  | .eth p _ _ _ => p
  | .fabric _ => 0

def Mach.session (m : Mach) (k : Nat) : Option MgmtSession := tFind m.eth.sessions k

def Mach.setSession (m : Mach) (k : Nat) (x : MgmtSession) : Mach :=
  m.setEth { m.eth with sessions := tIns m.eth.sessions k x }

/-- Session k is shown in ETH_MGMT_SESSION[k]. -/
def Mach.showSession (m : Mach) (k master : Nat) (x : MgmtSession) : Mach :=
  let m := (m.putB F.ETH_MGMT_SESSION_VALID true k).put F.ETH_MGMT_SESSION_KEY x.key k |>.put F.ETH_MGMT_SESSION_MASTER master k
  match x.peer with
  | .eth p _ _ _ => (m.putB F.ETH_MGMT_SESSION_FABRIC false k).put F.ETH_MGMT_SESSION_PORT p k |>.put F.ETH_MGMT_SESSION_NODE 0 k
  | .fabric n => (m.putB F.ETH_MGMT_SESSION_FABRIC true k).put F.ETH_MGMT_SESSION_PORT 0 k |>.put F.ETH_MGMT_SESSION_NODE n k

/-- A session ends (R141): its remote reads in flight have no one left to answer. -/
def Mach.endSession (m : Mach) (k : Nat) : Mach :=
  match m.session k with
  | none => m
  | some x =>
    let mine (q : RemoteReq) : Bool := q.by_.who = .mgmt k
    let m := m.setEth { m.eth with sessions := tDel m.eth.sessions k }
    let m := m.setFab { m.fab with
      remote := m.fab.remote.map fun (q : RemoteReq) => if mine q then { q with ref := 0 } else q,
      heldReqs := m.fab.heldReqs.map fun (q : RemoteReq × List Nat) => if mine q.1 then ({ q.1 with ref := 0 }, q.2) else q }
    (m.wr .ETH_MGMT_SESSION k 0).raise x.peer.event

/-- The sessions whose peer satisfies p end, lowest number first. -/
def Mach.endSessions (m : Mach) (p : MgmtPeer → Bool) : Mach :=
  (List.range 4).foldl (fun (m : Mach) k =>
    match m.session k with
    | some x => if p x.peer then m.endSession k else m
    | none => m) m

/-- The peer reaches the node over Ethernet port p. -/
def MgmtPeer.onPort (p : Nat) : MgmtPeer → Bool
  | .eth q _ _ _ => q = p
  | .fabric _ => false

/-- The link of port p goes down: its entries enter SILENT (R134) and its sessions end (R141). -/
def Mach.ethDown (m : Mach) (p : Nat) : Mach :=
  if !m.on F.ETH_PORT_STATUS_LINK p then m
  else
    let m := (m.putB F.ETH_PORT_STATUS_LINK false p).putB F.ETH_PORT_STATUS_FEC_LOCK false p
    let m := (List.range 64).foldl (fun (m : Mach) s => m.streamSilent (p * 64 + s)) m
    ((m.trouble F.ETH_TROUBLE_LINK_DOWN p).endSessions (MgmtPeer.onPort p)).raise (96 + 4 * p)

/-- ETH_LINK: the link goes up or down, with or without FEC lock. -/
def Mach.ethLink (m : Mach) (p : Nat) (up fecLock : Bool) : Mach :=
  if !up then m.ethDown p
  else if !m.on F.ETH_PORT_CTL_EN p || m.on F.ETH_PORT_STATUS_LINK p then m
  else
    let fec : Bool := m.get F.ETH_PORT_CTL_FEC p ≠ 0
    ((m.putB F.ETH_PORT_STATUS_LINK true p).putB F.ETH_PORT_STATUS_FEC_LOCK (fec && fecLock) p).raise (96 + 4 * p)

end Sys2Proof.Machine
end

