-- ==== Sys2Proof/Machine/Resets.lean ====
section
/-! DEFINITION. Reset classes (R400 to R402, R459, R462), SLEEP and its wakes (R394, R395), the restarts of SOFT domains
(R403), and what ends every command. -/

namespace Sys2Proof.Machine

/-! ### What a reset does to registers and to the rest (R5, R402) -/

/-- Everything beyond the registers after a reset of a class other than POR. Wall time starts again at 0 (R93). What the always-on island holds stays: the
raw counter, the trouble-log queue, what period counts count from where their counters stay, the sag record, in SLEEP the proximity baselines; and the loaded tables stay until
LOAD replaces them. -/
def Mach.afterReset (m : Mach) (cls : Nat) : Mach :=
  let kept : Bool := cls = clsWdt || cls = clsFab
  { time := { baseRaw := m.raw },
    regs := m.regs, raw := m.raw, freeIdx := m.freeIdx, out := m.out, limited := m.limited,
    cmp := { active := if kept then m.cmp.active else [] },
    lut := { pre := m.lut.pre, cube := m.lut.cube, post := m.lut.post },
    tch := { prox := if cls = clsSlp then m.tch.prox else [] },
    pmc := { logQueue := m.pmc.logQueue, telBase := if kept then m.pmc.telBase.filter (fun e => e.1 < 320) else [] },
    cfg := { m.cfg with flashOp := none, challengeRaw := none, granted := false },
    sys := { cls := cls, fromQuarantine := m.mode = .quarantine, wakeDue := m.sys.wakeDue },
    pwr := { sagTime := m.pwr.sagTime, sagTv := m.pwr.sagTv, sagLog := m.pwr.sagLog },
    tst := { burning := m.tst.burning } }

/-- The panel pins go low for HOLD (R400). -/
def Mach.panelDark (m : Mach) : Mach :=
  if m.panel = panelOff then m
  else ((m.emit (.pin .blEn false)).emit (.pwm 0 1 false 0)).emit (.pin .panelVdd false)

/-- A reset of a class other than POR: HOLD. MAIN_PWR_EN rises with the end of SLEEP (R459). -/
def Mach.resetNode (m : Mach) (cls byNode : Nat) : Mach :=
  let asleep : Bool := m.mode = .sleep && !m.sys.entering
  let m := m.panelDark
  let m := if asleep then (m.setSys { m.sys with mainPwr := true }).emit (.pin .mainPwrEn true) else m
  let m := (m.afterReset cls).returnFields fun _ _ f => f.rst.resets cls
  let m := m.put F.TEL_LOG_STATUS_QUEUED m.pmc.logQueue.length
  if cls = clsFab then m.put F.SYS_RESET_CAUSE_BY_NODE byNode else m

/-- POR: everything but the flash and the fuses returns to the state after power-on. MAIN_PWR_EN is driven high (R458), the
rise of VDD_IO into its range being part of the power-on (log entry 77). -/
def State.por (s : State) : State :=
  { State.reset with
    mach := { freeIdx := s.mach.freeIdx, out := .pin .mainPwrEn true :: s.mach.out }, flash := s.flash, fuses := s.fuses, pending := s.pending }

/-- RESET_N low. -/
def Mach.resetN (m : Mach) : Mach :=
  let m := m.resetNode clsPin 0
  m.setSys { m.sys with resetLow := true }

/-- HOLD_END: the class is recorded and LOAD begins with the stage controller at work (R400, R408). After SLEEP the
monitors of the rails that were off start afresh. A scan of the debug port holds HOLD (R445). -/
def Mach.holdEnd (m : Mach) : Mach :=
  if m.mode ≠ .hold ∨ m.on F.DBG_STATUS_SCAN_HOLD then m
  else
    let cls := m.sys.cls
    let m := (m.setSys { m.sys with resetLow := false }).put F.SYS_RESET_CAUSE_CLASS cls
    let m := if cls = clsSlp then
        [0, 1, 3, 4, 5, 6].foldl (fun (m : Mach) r => m.put F.PWR_RAIL_STATUS_STATE 0 r) m
      else m
    (m.enterMode .load).stageRestart.showWatched

/-- CLOCK_FAULT (R14, R462). -/
def Mach.clockFaultCommand (m : Mach) (island : Nat) : Mach :=
  if m.mode = .sleep ∧ island = 0 then m.resetNode clsPin 0 else m.clockFault island

/-! ### SLEEP (R394, R395) -/

def SleepSource.code : SleepSource → Nat
  | .gpio _ => 3
  | .proximity _ => 5
  | .timer => 4

def SleepSource.index : SleepSource → Nat
  | .gpio i => i
  | .proximity g => g
  | .timer => 0

/-- The source is enabled, and the timer's value reached. -/
def Mach.sleepSourceOn (m : Mach) : SleepSource → Bool
  | .gpio i => i < 4 && (m.get F.SYS_WAKE_CFG_GPIO).testBit i
  | .proximity g => g < 4 && (m.get F.TCH_PROX_CFG_GROUP_EN).testBit g
  | .timer => m.timerDue

/-- A wake from SLEEP: the record, and a reset of class SLP. -/
def Mach.wakeNow (m : Mach) (source index : Nat) : Mach :=
  let m := (m.put F.SYS_WAKE_STATUS_SOURCE source).put F.SYS_WAKE_STATUS_INDEX index
  let m := m.resetNode clsSlp 0
  m.setSys { m.sys with wakeDue := true }

/-- SLEEP_WAKE. One that fires during entry wakes the node as soon as entry ends. -/
def Mach.sleepWake (m : Mach) (src : SleepSource) : Mach :=
  if m.mode ≠ .sleep ∨ !m.sleepSourceOn src then m
  else if m.sys.entering then
    (if m.sys.wake.isSome then m else m.setSys { m.sys with wake := some (src.code, src.index) })
  else m.wakeNow src.code src.index

/-- SLEEP_ENTRY_DONE: the panel is off, the ports are down and the islands stop; MAIN_PWR_EN goes low unless a wake is
due. -/
def Mach.sleepEntryDone (m : Mach) : Mach :=
  if m.mode ≠ .sleep ∨ !m.sys.entering ∨ m.panel ≠ panelOff then m
  else
    let m := (List.range 8).foldl (fun (m : Mach) p => m.ethDown p) m.portsFall
    let wake := if m.sys.wake.isSome then m.sys.wake else if m.timerDue then some (4, 0) else none
    match wake with
    | some (s, i) => m.wakeNow s i
    | none => (m.setSys { m.sys with entering := false, mainPwr := false }).showWatched.emit (.pin .mainPwrEn false)

/-- WAKE_TIMER (R393, R395). -/
def Mach.wakeTimer (m : Mach) : Mach := if m.mode = .sleep then m.sleepWake .timer else m.timerWake

/-- JOIN begins: event 7 after a wake from SLEEP (R395), and NO_ID at a node that has no ID yet (R114). -/
def Mach.joinEntered (m : Mach) : Mach :=
  let m := if m.mode = .join ∧ !m.on F.FAB_NODE_ID_VALID then m.trouble F.FAB_NODE_TROUBLE_NO_ID else m
  if m.mode = .join ∧ m.sys.wakeDue then (m.setSys { m.sys with wakeDue := false }).raise 7 else m

/-! ### SOFT domains (R403) -/

/-- The Reset fields of a block take their POR values, but for those that show a state the restart leaves. -/
def Mach.softBlock (m : Mach) (b : Block) (stay : List Field) : Mach :=
  m.returnFields fun d _ f => d.block = b && f.rst = .reset && !stay.contains f.field

/-- ETH: sessions end, neighbour caches empty, entries in use start again. -/
def Mach.softEth (m : Mach) : Mach :=
  let used := (List.range 512).filter fun i => decide (2 ≤ m.entState i) && decide (m.entState i ≤ 4)
  let m := m.endSessions fun _ => true
  let m := (List.range 8).foldl (fun (m : Mach) p => m.setEthPort p { ethPort0 with groups := [] }) m
  let m := m.setEth { m.eth with attempts := [], streams := [] }
  let m := m.softBlock .eth [F.ETH_PORT_STATUS_LINK, F.ETH_PORT_STATUS_FEC_LOCK, F.ETH_STREAM_STATUS_STATE]
  let m := used.foldl (fun (m : Mach) i => (m.entUse i).2) m
  m.stopFeeds (fun f => match f with | .eth _ _ => true | _ => false) reasonNoSignal

/-- CAP: both ports restart; the first accepted frame carries GAP. -/
def Mach.softCap (m : Mach) : Mach :=
  let m := m.softBlock .cap []
  (List.range 2).foldl (fun (m : Mach) c =>
    let m := m.capStart c
    if m.on F.CAP_CTL_EN c then m.setCapPort c { m.capPort c with gap := true } else m) m

/-- DEC: every context is released; the layers ask again at the next latch line. -/
def Mach.softDec (m : Mach) : Mach :=
  let m := (List.range 64).foldl (fun (m : Mach) n => m.decRelease n) m
  let m := m.stopFeeds (fun f => match f with | .eth _ _ => true | .flow _ => true | .ownSpan _ _ => true | _ => false)
    reasonDecodeFault
  let m := { m with dec := { m.dec with engines := [], again := true } }
  m.softBlock .dec []

/-- A stream's flow still has branches. -/
def Mach.flowUsed (m : Mach) (id : Nat) : Bool := m.fab.branches.any fun b => b.key.id = id && !b.key.span

/-- ENC: pictures in progress end, contexts are released and their registers take the POR values, and those still wanted
ask again at once. -/
def Mach.softEnc (m : Mach) : Mach :=
  let m := m.returnFields fun d _ f => d.block = .enc && f.rst = .reset && d.off < 0x1000
    && f.field ≠ F.ENC_ADMIT_USED && f.field ≠ F.ENC_ADMIT_LAST_CONTEXTS && f.field ≠ F.ENC_ENGINE_BUSY_BUSY
  (List.range 16).foldl (fun (m : Mach) n =>
    if m.encState n = encFree then m.encCtxPor n
    else
      let id := m.get F.ENC_CTX_STREAM_ID n
      let always : Bool := match m.encodeEntry id with
        | some e => b1 e 9 = 0
        | none => false
      let m := if always || m.flowUsed id then { m with enc := { m.enc with again := m.enc.again ++ [id] } } else m
      (m.setEncCtx n { m.encCtx n with restart := true }).encRelease n) m

/-- TCH: every contact ends with CANCEL; scanning starts again with the cross-check. -/
def Mach.softTch (m : Mach) : Mach := ((m.cancelContacts m.lastScan fun _ => true).softBlock .tch [F.TCH_STATUS_STATE]).touchStop

/-- CHK: software jobs end with ABORTED; bound channels follow their blocks (R367). -/
def Mach.softChk (m : Mach) : Mach :=
  (m.returnFields fun d i f => d.block = .chk && d.count = 32 && 24 ≤ i && f.rst = .reset).abortJobs

/-- One domain restarts. -/
def Mach.softDomain (m : Mach) (k : Nat) : Mach :=
  match k with
  | 0 => m.softEth
  | 1 => m.softCap
  | 2 => m.softDec
  | 3 => m.softEnc
  | 4 => m.softTch
  | _ => m.softChk

/-- The modes that take a SOFT write. -/
def Mach.softOk (m : Mach) : Bool := m.mode.runs

/-- A SOFT write that is taken: its domains restart in bit order, each with event 6. -/
def Mach.softReset (m : Mach) (domains : Nat) : Mach :=
  (bitsSet domains 6).foldl (fun (m : Mach) k => (m.softDomain k).raise 6) m

/-! ### The end of a command -/

/-- A reset that the command has asked for starts (R401, R405). -/
def Mach.startReset (m : Mach) : Mach :=
  match m.sys.resetDue with
  | none => m
  | some (cls, node) => m.resetNode cls node

/-- Sampled actions that completed with an arrival or a receipt write their records (R424). -/
def Mach.sampleEnds (m : Mach) : Mach :=
  m.pmc.sampPend.foldl (fun (m : Mach) e =>
    match tFind m.evc.seqs e.1 with
    | some c => if c.wait = .none then m.sampleEnd e.1 false else m
    | none => m) m

/-- What ends every command: sampled actions that are done are recorded, counters that have wrapped are noted (R418), pins follow the state (R454), and a reset that
is due starts. -/
def Mach.finish (old m : Mach) : Mach := old.drivePins ((old.noteWraps m.sampleEnds).startReset)

/-- WDT_EXPIRY (R405). -/
def Mach.wdtExpiry (m : Mach) : Mach :=
  if !m.wdtCounts then m
  else
    let (again, m) := m.wdtExpire
    if again then m.setSys { m.sys with resetDue := some (clsWdt, 0) } else m

/-- SAG_RESTART (R414): in HALT with cause POWER, every watched monitor OK. -/
def Mach.sagRestart (m : Mach) : Mach :=
  if m.mode = .halt ∧ m.get F.SYS_HALT_CAUSE = 2 ∧ (m.railIn 1).isNone then m.resetNode clsSag 0 else m

end Sys2Proof.Machine
end

