-- ==== Sys2Proof/Machine/TestDebug.lean ====
section
/-! DEFINITION. The Badger (R435 to R443): test slots, coverage periods, failures and the self-test of PROVE; the JTAG
instructions (R444, R445) and the customer key fuse (R447). Debug accesses (R446) are in `Masters`. -/

namespace Sys2Proof.Machine

/-! ### Result records (R441) -/

/-- A record enters the FIFO of 64 entries, or is dropped and counted. -/
def Mach.pushResult (m : Mach) (kind test unit observed expected : Nat) : Mach :=
  let seq := m.tst.seq + 1
  let m := m.setTst { m.tst with seq := seq }
  let w1 := kind % 16 * 2 ^ 60 + test % 64 * 2 ^ 54 + unit % 64 * 2 ^ 48 + seq % 2 ^ 32
  if m.tst.results.length < 64 then
    (m.setTst { m.tst with results := m.tst.results ++ [[m.now, w1, observed % 2 ^ 64, expected % 2 ^ 64]] }).put
      F.TST_RESULT_STATUS_COUNT (m.tst.results.length + 1)
  else (m.bump F.TST_RESULT_STATUS_DROPPED).trouble F.TST_TROUBLE_RESULT_LOST

/-- The oldest record is popped. -/
def Mach.popResult (m : Mach) : List Nat × Mach :=
  match m.tst.results with
  | [] => ([], m)
  | r :: rs => (r, (m.setTst { m.tst with results := rs }).put F.TST_RESULT_STATUS_COUNT rs.length)

/-! ### Classes (R435) -/

def tCisternScrub : Nat := 1
def tDramScrub : Nat := 2
def tDecKat : Nat := 3
def tEncKat : Nat := 4
def tBlend : Nat := 5
def tLutPath : Nat := 6
def tLutCrc : Nat := 7
def tMarch : Nat := 8
def tEye : Nat := 9
def tAfe : Nat := 10
def tActionCrc : Nat := 11
def tRom : Nat := 12
def tFont : Nat := 13
def tTouch : Nat := 14

/-- The units of a class in service: removed engines run no test, and EYE takes the lanes in use. -/
def Mach.testUnits (m : Mach) (cls : Nat) : List Nat :=
  match cls with
  | 3 => (List.range 24).filter fun e => !(m.get F.TST_ENGINES_OUT_DEC).testBit e
  | 4 => (List.range 8).filter fun e => !(m.get F.TST_ENGINES_OUT_ENC).testBit e
  | 5 => List.range 8
  | 7 => List.range 3
  | 9 => ((List.range 32).filter fun l => m.portActive (l / 4) && decide (l % 4 < m.get F.FAB_PORT_STATUS_WIDTH (l / 4))) ++
      ((List.range 8).filter fun p => m.on F.ETH_PORT_STATUS_LINK p).map (32 + ·)
  | _ => [0]

/-- The class runs in service: enabled, and DRAM_SCRUB only with inline ECC. -/
def Mach.testEnabled (m : Mach) (cls : Nat) : Bool :=
  1 ≤ cls && cls ≤ 11 && (m.get F.TST_CLASS_EN_CLASS * 2).testBit cls && (cls ≠ tDramScrub || m.on F.MEM_CFG_INLINE_ECC)

/-- The Badger runs (R438). -/
def Mach.badgerRuns (m : Mach) : Bool :=
  m.on F.TST_CFG_EN && m.stage = 0 && (m.mode = .join || m.mode = .live || m.mode = .standby || m.mode = .service)

/-- A unit has completed a pass; its class is covered when every unit has (R439). -/
def Mach.coverUnit (m : Mach) (cls unit : Nat) : Mach :=
  let k := cls * 64 + unit
  let m := if m.tst.covered.contains k then m else m.setTst { m.tst with covered := m.tst.covered ++ [k] }
  if (m.testUnits cls).all fun u => m.tst.covered.contains (cls * 64 + u) then
    m.put F.TST_COVER_CLASS (setBit (m.get F.TST_COVER_CLASS) cls)
  else m

/-! ### Failures (R440) -/

/-- The trouble bit of a class's row. -/
def testTrouble (cls : Nat) : Option Field :=
  match cls with
  | 3 | 4 | 5 | 6 => some F.TST_TROUBLE_KAT
  | 7 => some F.TST_TROUBLE_LUT_CRC
  | 8 => some F.TST_TROUBLE_MARCH
  | 9 => some F.TST_TROUBLE_EYE
  | 10 => some F.TST_TROUBLE_AFE
  | 11 => some F.TST_TROUBLE_ACTION_CRC
  | _ => none

/-- An engine is removed, and the admission limit lowered by 250 (TST_ENGINE_OUT). -/
def Mach.engineOut (m : Mach) (dec : Bool) (e : Nat) : Mach :=
  let out := if dec then F.TST_ENGINES_OUT_DEC else F.TST_ENGINES_OUT_ENC
  let limit := if dec then F.DEC_ADMIT_LIMIT else F.ENC_ADMIT_LIMIT
  if (m.get out).testBit e then m
  else
    let m := (m.put out (setBit (m.get out) e)).put limit (max 1 (m.get limit - 250))
    (m.pushResult 3 (if dec then tDecKat else tEncKat) e (m.rd .TST_ENGINES_OUT 0).toNat (m.get limit)).raise 419

/-- An uncorrectable word that a scrub found is recorded as R335 or R338 lays down, without a gate record. -/
def Mach.scrubFatal (m : Mach) (dram : Bool) (addr : Nat) : Mach :=
  if dram then
    ((m.bump F.MEM_ECC_FATAL_COUNT).count 8).put F.MEM_ECC_LAST_ADDR addr |>.trouble F.MEM_TROUBLE_ECC_FATAL |>.raise 342
  else ((m.bump F.MEM_CIS_FATAL_COUNT).trouble F.MEM_TROUBLE_CISTERN_FATAL).raise 342

/-- ACTION_CRC at its limit: the next WDT or FAB reset runs the full LOAD, and an entry is queued. -/
def Mach.actionCrcOut (m : Mach) : Mach :=
  if m.cfg.reload then m else (m.setCfg { m.cfg with reload := true }).log 18 F.TST_TROUBLE_ACTION_CRC.lo 0 tActionCrc

/-- The action of a class at its limit. -/
def Mach.testAction (m : Mach) (cls unit observed : Nat) : Mach :=
  match cls with
  | 1 => m.scrubFatal false observed
  | 2 => m.scrubFatal true observed
  | 3 => m.engineOut true unit
  | 4 => m.engineOut false unit
  | 5 => m.put F.TST_PIPES_FAILED_PIPES (setBit (m.get F.TST_PIPES_FAILED_PIPES) unit)
  | 6 => m.putB F.TST_PIPES_FAILED_LUT_PATH true
  | 7 => m.lutEccFatal unit
  | 8 => m.put F.TST_MARCH_FAIL_ADDR (observed - cisternBase)
  | 11 => m.actionCrcOut
  | _ => m

/-- The record of a failure: FAIL record, TST_FAILED, the class's trouble bit, event 416 and for EYE event 420. -/
def Mach.testFailed (m : Mach) (cls unit observed expected : Nat) : Mach :=
  let m := (m.pushResult 1 cls unit observed expected).troubleBit F.TST_FAILED_CLASS cls
  let m := match testTrouble cls with
    | some f => m.trouble f
    | none => m
  let m := m.raise 416
  if cls = tEye then m.raise 420 else m

/-- A failure in service: counted in a row; at FAIL_LIMIT, and for the scrubs at once, the action follows. -/
def Mach.testFail (m : Mach) (cls unit observed expected : Nat) : Mach :=
  let k := cls * 64 + unit
  let n := tGet m.tst.fails 0 k + 1
  let m := (m.setTst { m.tst with fails := tIns m.tst.fails k n }).testFailed cls unit observed expected
  if cls ≤ tDramScrub ∨ m.get F.TST_CFG_FAIL_LIMIT ≤ n then m.testAction cls unit observed else m

/-! ### Slots and periods (R436, R439) -/

/-- What every slot of a class counts (R420), and the corrections of the scrubs (R335, R338). -/
def Mach.slotCounts (m : Mach) (r : SlotResult) : Mach :=
  if r.cls = tCisternScrub then
    ((m.count 290 r.words).count 291 r.corrected).count 9 r.corrected |>.bump F.MEM_CIS_CORR_COUNT 0 r.corrected
  else if r.cls = tDramScrub then
    let m := ((m.count 290 r.words).count 291 r.corrected).count 7 r.corrected |>.bump F.MEM_ECC_CORR_COUNT 0 r.corrected
    if r.corrected = 0 then m else m.raiseLimited 341 (msTicks 1000)
  else if r.cls = tMarch then m.count 295
  else m

/-- What the end of a pass counts. -/
def Mach.passCounts (m : Mach) (r : SlotResult) : Mach :=
  match r.cls with
  | 3 | 4 => m.count (if r.passes then 292 else 293)
  | 5 | 6 => m.count 294
  | 9 => (m.putB F.TST_EYE_VALID true (r.unit % 40)).put F.TST_EYE_MARGIN r.observed (r.unit % 40) |>.count 296
  | _ => m

/-- The resource that a class borrows is idle (R24, R436): an engine without work, the band pipes between the last band of
a frame and the next slot start, the touch front end between two cycles. The other resources are lent cycle by cycle. -/
def Mach.slotIdle (m : Mach) (cls unit : Nat) : Bool :=
  match cls with
  | 3 => !m.dec.engines.any fun e => e.1 = unit
  | 4 => !m.enc.engines.any fun e => e.1 = unit
  | 5 => !m.cmp.composing
  | 10 => m.tch.phase = 0
  | _ => true

/-- A slot of the class can start on this unit: the Badger runs, the class is enabled, and its resource is idle. A slot
that has yielded meets the work it has yielded to. -/
def Mach.slotTaken (m : Mach) (r : SlotResult) : Bool :=
  m.badgerRuns && m.testEnabled r.cls && (m.testUnits r.cls).contains r.unit && (r.yielded || m.slotIdle r.cls r.unit)

/-- BADGER_SLOT. -/
def Mach.badgerSlot (m : Mach) (r : SlotResult) : Mach :=
  if !m.slotTaken r then m
  else
    let m := m.count 288
    if r.yielded then m.count 289
    else
      let m := m.slotCounts r
      if !r.ends then m
      else
        let m := (m.passCounts r).coverUnit r.cls r.unit
        if r.passes then m.setTst { m.tst with fails := tDel m.tst.fails (r.cls * 64 + r.unit) }
        else m.testFail r.cls r.unit r.observed r.expected

/-- A scrub's pass has corrected the single-bit errors of its memory. -/
def State.scrubbed (s : State) (r : SlotResult) : State :=
  if r.yielded || !r.ends || !s.mach.slotTaken r then s
  else if r.cls = tCisternScrub then
    { s with ecc := s.ecc.filter fun e => e.2 || e.1 < cisternBase || cisternBase + cisternSize ≤ e.1 }
  else if r.cls = tDramScrub then { s with ecc := s.ecc.filter fun e => e.2 || e.1 < dramBase }
  else s

/-- TST_PERIOD. -/
def Mach.tstPeriod (m : Mach) : Mach :=
  if !m.badgerRuns then m
  else
    let enabled := m.get F.TST_CLASS_EN_CLASS * 2
    let cover := m.get F.TST_COVER_CLASS
    let m := (bitsSet enabled 12).foldl (fun (m : Mach) c =>
      if cover.testBit c then m
      else ((m.troubleBit F.TST_LATE_CLASS c).trouble F.TST_TROUBLE_COVERAGE).raise 418) m
    let m := (m.pushResult 2 0 0 cover enabled).raise 417
    ((m.put F.TST_COVER_CLASS 0).setTst { m.tst with covered := [] }).advance F.TST_STATUS_SEQ

/-! ### PROVE (R442, R443) -/

/-- An address lies in a frame buffer in use, or in the font pages. -/
def Mach.marchTerminal (m : Mach) (addr : Nat) : Bool :=
  let o := addr - cisternBase
  let fb := 8640 * 4096
  let font := 95 * m.get F.CMP_FONT_CELL_W * m.get F.CMP_FONT_CELL_H
  decide (o < fb) || (!m.on F.CMP_CTL_MODE && decide (o < 2 * fb))
    || (font ≠ 0 && decide (m.cfg.fontBase ≤ o) && decide (o < m.cfg.fontBase + ceilDiv font 4096 * 4096))

/-- The failure ends PROVE in HALT. -/
def Mach.terminal (m : Mach) (cls observed : Nat) : Bool :=
  cls = tRom || cls = tActionCrc || cls = tFont || cls = tBlend || cls = tLutPath
    || (cls = tMarch && m.marchTerminal observed)

/-- One failure of PROVE: recorded, and acted on at once unless it is terminal. -/
def Mach.proveFail (m : Mach) (f : Nat × Nat × Nat × Nat) : Mach :=
  let (cls, unit, observed, expected) := f
  let m := m.testFailed cls unit observed expected
  if m.terminal cls observed then m else m.testAction cls unit observed

/-- The classes that PROVE runs. -/
def Mach.proveClasses (m : Mach) : Nat :=
  masks ([tRom, tActionCrc, tLutCrc, tMarch, tFont, tDecKat, tEncKat, tBlend, tLutPath]
    ++ (if m.on F.TCH_CTL_EN then [tTouch] else []))

/-- The touch self-test of PROVE (R304): a pin that fails is a failure of class TOUCH. -/
def Mach.proveTouch (m : Mach) (r : ProveIn) : Mach × List (Nat × Nat × Nat × Nat) :=
  if !m.on F.TCH_CTL_EN then (m, [])
  else
    let m := m.touchTestDone r.raws r.coupled
    (m, if m.on F.TCH_TEST_PASS then [] else [(tTouch, 0, 0, 0)])

/-- What the tests of PROVE count (R420): a known-answer test of every engine, a hidden band of every pipe and of the
lookup chain, and, as each comes in cycles of its own, a march row for every block of the Cistern. -/
def Mach.proveCounts (m : Mach) (fails : List (Nat × Nat × Nat × Nat)) : Mach :=
  let kat (cls : Nat) (m : Mach) (e : Nat) : Mach :=
    m.addCount (if fails.any (fun f => f.1 = cls && f.2.1 = e) then 293 else 292) 1
  let m := (List.range 8).foldl (kat tEncKat) ((List.range 24).foldl (kat tDecKat) m)
  (m.addCount 294 9).addCount 295 (cisternSize / 64)

/-- PROVE_TESTS: the classes have run; HALT, or JOIN. -/
def Mach.proveTests (m : Mach) (r : ProveIn) : Mach :=
  if m.mode ≠ .prove then m
  else
    let run := m.proveClasses
    let (m, touch) := m.proveTouch r
    let fails := r.fails.filter (fun f => run.testBit f.1) ++ touch
    let first := fails.find? fun f => m.terminal f.1 f.2.2.1
    let m := fails.foldl Mach.proveFail (m.proveCounts fails)
    let passed := fails.foldl (fun a f => clearBit a f.1) run
    let detail := match first with
      | some (c, u, _, _) => c * 64 + u % 64
      | none => 0
    let m := (m.pushResult 4 0 0 passed run).putB F.TST_PROVE_PASSED first.isNone
    let m := (m.put F.TST_PROVE_DETAIL detail).put F.TST_PROVE_MS r.ms |>.raise 421
    if first.isSome then m.halt 5 detail else (m.enterMode .join).joinEntered

/-- The FONT table of the slot loaded. -/
def State.fontTable (s : State) : List Nat :=
  match s.mach.cfg.slot with
  | none => []
  | some k =>
    match s.imgHeader k with
    | none => []
    | some x => tableData (imgTables (s.fbytes (slotBase k + x.custOff) x.custLen) x.dirCount) 8

/-- MARCH zeroes the Cistern, and FONT rewrites the font atlas. -/
def State.proveMemory (s : State) : State :=
  let font := s.fontTable
  let s := s.clear cisternBase cisternSize
  if font.isEmpty then s else s.setBytes (cisternBase + le4 font 4) (font.drop 8)

def State.proveTests (s : State) (r : ProveIn) : State :=
  if s.mach.mode ≠ .prove then s
  else let t := s.proveMemory
       { t with mach := t.mach.proveTests r }

/-! ### JTAG (R444, R445) -/

def irIdcode : Nat := 0x01
def irSample : Nat := 0x02
def irDbgAccess : Nat := 0x20
def irFuseRead : Nat := 0x21
def irFuseProg : Nat := 0x22
def irBypass : Nat := 0xFF

/-- An instruction that takes no pin is loaded. -/
def Mach.loadIr (m : Mach) (ir : Nat) : Mach := (m.put F.DBG_STATUS_IR ir).putB F.DBG_STATUS_SCAN_HOLD false

/-- Capture-DR of an instruction loads a value. -/
def Mach.capture (m : Mach) (ir value : Nat) : Mach := (m.loadIr ir).emit (.jtag ir value)

/-- TAP_RESET. -/
def Mach.tapReset (m : Mach) : Mach := m.loadIr irIdcode

def Mach.idcode (m : Mach) : Mach := m.capture irIdcode 0x07400C3D

/-- SAMPLE/PRELOAD: what the boundary register captures are the levels of the pins, which the spec leaves to the board. -/
def Mach.samplePreload (m : Mach) : Mach :=
  let (i, m) := m.fresh
  m.capture irSample (Config.freeWord i)

/-- An instruction that takes pins: only while RESET_N is low; otherwise BYPASS, SCAN_REFUSED and event 442. -/
def Mach.takePins (m : Mach) (ir : Nat) : Mach :=
  if m.sys.resetLow then (m.put F.DBG_STATUS_IR ir).putB F.DBG_STATUS_SCAN_HOLD true
  else ((m.loadIr irBypass).trouble F.DBG_TROUBLE_SCAN_REFUSED).raise 442

/-- The data register of FUSE_READ. A blank customer key reads 0. -/
def State.fuseWord (s : State) : Nat :=
  let f := s.fuses
  f.vendorKey % 2 ^ 384 + (f.customerKey.getD 0) % 2 ^ 384 * 2 ^ 384 + (2 ^ min 64 f.svn - 1) * 2 ^ 768 + f.serial % 2 ^ 64 * 2 ^ 832

def State.fuseRead (s : State) : State := { s with mach := s.mach.capture irFuseRead s.fuseWord }

/-! ### The customer key fuse (R447) -/

/-- Update-DR of FUSE_PROG. -/
def Mach.fuseProg (m : Mach) (digest crc : Nat) : Mach :=
  let m := m.loadIr irFuseProg
  let ok : Bool := m.mode = .quarantine && m.get F.CFG_STATUS_CAUSE = 6 && !m.on F.CFG_SVN_CUSTOMER_SET
    && m.tst.burning.isNone && crc32c (natBytes 48 digest) = crc % 2 ^ 32
  if ok then m.setTst { m.tst with burning := some (digest % 2 ^ 384) } else m.trouble F.DBG_TROUBLE_FUSE_FAIL

/-- A fuse that matches no key: above every digest. -/
def deadKey (v : Nat) : Nat := 2 ^ 384 + v % 2 ^ 384

/-- DBG_FUSE_DONE: what the fuse reads back; one that differs matches no key. -/
def State.dbgFuseDone (s : State) (readback : Nat) : State :=
  match s.mach.tst.burning with
  | none => s
  | some d =>
    let good : Bool := readback % 2 ^ 384 = d
    let m := (s.mach.setTst { s.mach.tst with burning := none }).putB F.CFG_SVN_CUSTOMER_SET true |>.raise 441
    let m := if good then m else m.trouble F.DBG_TROUBLE_FUSE_FAIL
    { s with mach := m, fuses := { s.fuses with customerKey := some (if good then d else deadKey readback) } }

/-- POR (R400), with the loss of a burn in progress: the fuse then matches no key. -/
def State.powerOn (s : State) : State :=
  let t := s.por
  if s.mach.tst.burning.isNone then t
  else { t with mach := t.mach.fresh.2,
                fuses := { s.fuses with customerKey := some (deadKey (Config.freeWord t.mach.freeIdx)) } }

end Sys2Proof.Machine
end

