-- ==== Sys2Proof/Machine/Channels.lean ====
section
/-! DEFINITION. Software check channels (R363 to R367): which writes they take, starting a job, and its end. Running a
job, which reads and writes memory, is in `Jobs`. -/

namespace Sys2Proof.Machine

/-- A job ends and is counted: RESULT, VALUE where the result gives one, GO clear, and event 384 + c (R365). -/
def Mach.chkEnd (m : Mach) (c result : Nat) (value : Option Nat) : Mach :=
  let m := m.setChk { m.chk with jobs := tDel m.chk.jobs c }
  let m := (m.put F.CHK_CH_STATUS_RESULT result c).putB F.CHK_CH_CTL_GO false c
  let m := match value with
    | some v => m.put F.CHK_CH_VALUE_VALUE v c
    | none => m
  ((m.bump F.CHK_CH_UNITS_UNITS c).count 282).raise (384 + c)

/-- GO = 1: the tests of R365 in their order (an EMPTY job changes its completion status alone, R9), and then the job
starts with the registers as they stand. -/
def Mach.chkGo (m : Mach) (by_ : Master) (c : Nat) : Mach :=
  let mode := m.get F.CHK_CH_CTL_MODE c
  let poly := m.get F.CHK_CH_CTL_POLY c
  let len := m.get F.CHK_CH_LEN_LEN c
  let m := m.putB F.CHK_CH_CTL_GO true c
  if 4 ≤ mode then (m.trouble F.CHK_TROUBLE_BAD_VALUE).chkEnd c 2 none
  else if len = 0 then ((m.put F.CHK_CH_STATUS_RESULT 1 c).putB F.CHK_CH_CTL_GO false c).raise (384 + c)
  else if mode = 3 ∧ len < (CrcAlg.ofPoly poly).bytes then (m.trouble F.CHK_TROUBLE_BAD_VALUE).chkEnd c 2 none
  else
    let job : ChkJob :=
      { by_ := by_, mode := mode, poly := poly, foldEn := m.on F.CHK_CH_CTL_FOLD_EN c,
        msbFirst := m.on F.CHK_CH_CTL_ORDER c, fold := m.get F.CHK_CH_FOLD_W c, addr := m.get F.CHK_CH_ADDR_ADDR c,
        len := len, expect := m.get F.CHK_CH_EXPECT_EXPECT c }
    m.setChk { m.chk with jobs := tIns m.chk.jobs c job }

/-- A write to a register of channel c is taken (R366): no job runs there, the channel is not bound, and the writer is
its owner where it has one. -/
def Mach.chkWriteOk (m : Mach) (by_ : Master) (c : Nat) : Bool :=
  24 ≤ c && !m.on F.CHK_CH_CTL_GO c && (!m.on F.CHK_CH_CTL_OWN_EN c || by_.id = m.get F.CHK_CH_CTL_OWNER c)

end Sys2Proof.Machine
end

