-- ==== Sys2Proof/Machine/Signatures.lean ====
section
/-! DEFINITION. Guard signatures (R243 to R249): computed at the compositor output and at the serializer input, compared,
and what a failing frame does. -/

namespace Sys2Proof.Machine

def Mach.setSig (m : Mach) (x : SigSt) : Mach := { m with sig := x }

/-- A pixel's word in the signature (R244), at output depth d. -/
def sigWord (d : Nat) (c : Rgb) : Nat := c.r <<< (10 - d) ||| c.g <<< (20 - d) ||| c.b <<< (30 - d)

/-- The signature of region r over given pixels; `errors` changes bits of words by their index in the region. -/
def Mach.regionSig (m : Mach) (r : Nat) (px : Nat → Nat → Rgb) (errors : List (Nat × Nat)) : Nat :=
  let x := m.act F.SIG_REGION_POS_X r
  let y := m.act F.SIG_REGION_POS_Y r
  let w := m.act F.SIG_REGION_SIZE_W r
  let h := m.act F.SIG_REGION_SIZE_H r
  let words := (List.range h).flatMap fun j => (List.range w).map fun i =>
    let flips := (errors.filter (fun e => e.1 = j * w + i)).foldl (fun a e => a ^^^ (e.2 % 2 ^ 32)) 0
    sigWord m.depth (px (x + i) (y + j)) ^^^ flips
  crc32cFold (y <<< 16 ||| x) (words.flatMap (natBytes 4))

/-- The band that completes region r's compositor-output signature (R245). -/
def Mach.lastBand (m : Mach) (r : Nat) : Nat :=
  (m.act F.SIG_REGION_POS_Y r + m.act F.SIG_REGION_SIZE_H r - 1) / 16

def Mach.sigOn (m : Mach) (r : Nat) : Bool := m.on F.SIG_CTL_EN && m.act F.SIG_REGION_CTL_EN r = 1

/-- R249: what suspends the comparisons. -/
def Mach.sigSuspends (m : Mach) : Bool :=
  m.on F.SCN_STATUS_CARD || !m.on F.CMP_CTL_EN || (List.range 16).any fun r => (m.sigRegion r).changed

/-- SUSPENDED follows, with event 294 on each change. -/
def Mach.showSuspended (m : Mach) : Mach :=
  if m.sigSuspends = m.on F.SIG_CTL_SUSPENDED then m else (m.putB F.SIG_CTL_SUSPENDED m.sigSuspends).raise 294

/-- Cause codes of R247. -/
def sigContent : Nat := 1
def sigTreatment : Nat := 2
def sigOverrun : Nat := 3
def sigPath : Nat := 4

/-- A failing frame of region r (R248). -/
def Mach.guardFail (m : Mach) (r cause : Nat) : Mach :=
  let m := (m.put F.SIG_REGION_STATUS_CAUSE cause r).bump F.SIG_REGION_FAILS_COUNT r |>.bump F.SIG_REGION_STATUS_CONSEC r
  let m := ((m.troubleBit F.SIG_FAILED_REGION r).trouble F.SIG_TROUBLE_GUARD_FAIL 0 r).raise 288 |>.count 217
  let m := if cause = sigTreatment then (m.trouble F.CMP_FRS_TROUBLE_LADDER 0 r).ladder 1 2 .sig else m
  let limit := m.act F.SIG_REGION_CTL_FAIL_LIMIT r
  let m :=
    if m.get F.SIG_REGION_STATUS_CONSEC r = limit then
      ((m.troubleBit F.SIG_PERSIST_REGION r).trouble F.SIG_TROUBLE_GUARD_PERSIST 0 r).raise 289
    else m
  if m.act F.SIG_REGION_CTL_ESCALATE r = 1 ∧ cause ≠ sigTreatment then m.halt 3 r else m

/-- A passing frame of region r (R248): CAUSE reads 0, and the first after a failure sets CONSEC to 0 and raises
event 290. -/
def Mach.guardPass (m : Mach) (r : Nat) : Mach :=
  let m := (m.count 216).put F.SIG_REGION_STATUS_CAUSE 0 r
  if m.on F.SIG_REGION_STATUS_CONSEC r then (m.put F.SIG_REGION_STATUS_CONSEC 0 r).raise 290 else m

/-- The frame's outcome is known at the compositor: no comparison at the serializer is set. -/
def Mach.cmpOnly (m : Mach) (r : Nat) : Bool :=
  m.act F.SIG_REGION_CTL_MATCH r = 0 && m.act F.SIG_REGION_CTL_OUT_EXP r = 0

/-- The lowest valid expected value that a signature equals. -/
def Mach.expected (m : Mach) (valid exp : Field) (r sig : Nat) : Option Nat :=
  (List.range 4).find? fun k => (m.act valid r).testBit k && m.act exp (r * 4 + k) = sig

/-- The compositor-output signature of region r over the buffer the frame was written to. -/
def State.cmpSig (s : State) (r : Nat) : Nat :=
  s.mach.regionSig r
    (fun x y => (rgbOfPixel (s.word (pixelAddr s.mach.cmp.back x y) 4)).map (reduce s.mach.depth)) []

/-- CMP_SIGNATURE_COMPLETE (R245 to R248), with the signature found. -/
def Mach.cmpSignature (m : Mach) (r sig : Nat) : Mach :=
  let hit := m.expected F.SIG_REGION_CTL_CMP_VALID F.SIG_EXP_CMP_EXP r sig
  let compares : Bool := decide (m.act F.SIG_REGION_CTL_CMP_EXP r = 1)
  let failed : Bool := compares && hit.isNone
  let suspended : Bool := m.on F.SIG_CTL_SUSPENDED
  let cause : Nat := if m.cmp.treated.testBit r then sigTreatment else if m.cmp.filled.testBit r then sigOverrun
    else sigContent
  let m : Mach := (m.chkUnit 13 true).put F.SIG_REGION_CMP_SIG sig r
  let x := m.sigRegion r
  let new : SigRec := ⟨m.cmp.frame, sig, hit, failed && !suspended, suspended⟩
  let m : Mach := m.setSigRegion r { x with recs := (new :: x.recs).take 3 }
  if suspended then m
  else
    let m : Mach := m.putB F.SIG_REGION_STATUS_CMP_FAIL failed r
    let m : Mach := if m.cmpOnly r && compares then m.put F.SIG_REGION_FRAME_FRAME m.cmp.frame r else m
    let m : Mach := match hit with
      | some k => if compares then m.put F.SIG_REGION_STATUS_MATCH_IDX k r else m
      | none => m
    if failed then m.guardFail r cause
    else if compares && m.cmpOnly r then m.guardPass r
    else m

def State.cmpSignature (s : State) (r : Nat) : State :=
  if s.mach.sigOn r then { s with mach := s.mach.cmpSignature r (s.cmpSig r) } else s

/-- The regions that a band's end completes. -/
def State.cmpSignatures (s : State) (done : Nat → Bool) : State :=
  if !s.mach.cmp.composing then s
  else (List.range 16).foldl (fun (t : State) r => if done (s.mach.lastBand r) then t.cmpSignature r else t) s

/-- The compositor-output record of the frame shown as frame n: its own, or under S3 that of the frame repeated. -/
def Mach.shownRec (m : Mach) (r n : Nat) : Option SigRec :=
  (m.sigRegion r).recs.find? fun x => decide (x.frame = n) || decide (x.frame + 1 = n) && decide (3 ≤ m.dec.stage)

/-- The comparisons at the serializer input of signature `sig` against the frame's record all pass (R246); a comparison
that needs a record the frame has none of is not made. -/
def Mach.outPasses (m : Mach) (r sig : Nat) (rc : Option SigRec) : Bool :=
  let matched : Bool := match rc with
    | some x => decide (x.sig = sig)
    | none => true
  let hit : Bool :=
    if m.act F.SIG_REGION_CTL_CMP_EXP r = 1 then
      match rc with
      | some x => decide (m.act F.SIG_EXP_OUT_EXP (r * 4 + x.hit.getD (m.get F.SIG_REGION_STATUS_MATCH_IDX r)) = sig)
      | none => true
    else (m.expected F.SIG_REGION_CTL_OUT_VALID F.SIG_EXP_OUT_EXP r sig).isSome
  (m.act F.SIG_REGION_CTL_MATCH r = 0 || matched) && (m.act F.SIG_REGION_CTL_OUT_EXP r = 0 || hit)

/-- SIG_OUT_COMPLETE (R245 to R248), on the signature found of the frame on the output. -/
def Mach.outSignature (m : Mach) (r sig : Nat) : Mach :=
  let n := m.get F.SCN_FRAME_N
  let m : Mach := (m.chkUnit 14 true).put F.SIG_REGION_OUT_SIG sig r
  let bad : Bool := m.sig.bad.contains r
  let m : Mach := m.setSig { m.sig with bad := m.sig.bad.filter (· ≠ r) }
  let rc := m.shownRec r n
  let held : Bool := match rc with
    | some x => x.suspended
    | none => false
  if m.on F.SIG_CTL_SUSPENDED || held || m.cmpOnly r && !bad then m
  else
    let failed : Bool := bad || !m.outPasses r sig rc
    -- A frame whose record failed CMP_EXP has had its failure counted, with the compositor's cause.
    let before : Bool := match rc with
      | some x => x.failed
      | none => false
    let m : Mach := (m.putB F.SIG_REGION_STATUS_OUT_FAIL failed r).put F.SIG_REGION_FRAME_FRAME n r
    if before then m else if failed then m.guardFail r sigPath else m.guardPass r

def State.outSignature (s : State) (r : Nat) (errors : List (Nat × Nat)) : State :=
  if s.mach.sigOn r && s.mach.mode.scans then
    { s with mach := s.mach.outSignature r (s.mach.regionSig r (fun x y => s.outPixel x y) errors) }
  else s

/-- CISTERN_FATAL (R335): the word goes out as read, and the guard regions that cover it fail. -/
def Mach.cisternFatal (m : Mach) (addr : Nat) : Mach :=
  let m := (m.bump F.MEM_CIS_FATAL_COUNT).trouble F.MEM_TROUBLE_CISTERN_FATAL |>.raise 342
  let base := pixelAddr m.frontBuffer 0 0
  if addr < base then m
  else
    let y := (addr - base) / 16384
    let x := (addr - base) % 16384 / 4
    let hit := (List.range 16).filter fun r => [x, x + 1].any fun x => m.comparedAt x y (· = r)
    m.setSig { m.sig with bad := m.sig.bad.filter (fun r => !hit.contains r) ++ hit }

end Sys2Proof.Machine
end

