-- ==== Sys2Proof/Machine/Bus.lean ====
section
/-! DEFINITION. Register space: reads with their latches (R1 to R4), FIFO heads that pop, writes by field type, the
checks of a whole write (R10, R11), and what a write to a register does beyond storing. -/

namespace Sys2Proof.Machine

/-! ### What registers read as -/

/-- The FIFO registers whose low word pops (R4), and the words of the entry at the head. -/
def Mach.fifoHead (m : Mach) (r : Reg) : Option (List Nat) :=
  match r with
  | .CMP_RECEIPT => some (m.cmp.receipts.headD [])
  | .CMP_RELEASE => some (m.cmp.releases.headD [])
  | .TCH_REPORT => some (m.tch.reports.headD [])
  | .SEQ_LOG => some (m.evc.log.headD [])
  | .GATE_RECORD => some (m.gate.records.headD [])
  | .PMC_SAMP => some (m.pmc.samples.headD [])
  | .TST_RESULT => some (m.tst.results.headD [])
  | _ => none

/-- The FIFO without the entry at its head. -/
def Mach.fifoPop (m : Mach) (r : Reg) : Mach :=
  match r with
  | .CMP_RECEIPT => m.popReceipt.2
  | .CMP_RELEASE => m.popRelease.2
  | .TCH_REPORT => m.popReport.2
  | .SEQ_LOG => m.popLog.2
  | .GATE_RECORD => m.popGateRecord.2
  | .PMC_SAMP => m.popSample.2
  | .TST_RESULT => m.popResult.2
  | _ => m

/-- Word i of 32 bits of an entry held in 64-bit words. -/
def word32 (ws : List Nat) (i : Nat) : Nat := ws.getD (i / 2) 0 / 2 ^ (32 * (i % 2)) % 2 ^ 32

/-- The registers of the timebase that show a running value. -/
def Mach.viewTime (m : Mach) (r : Reg) : Option Nat :=
  match r with
  | .TIME_RAW => some (m.raw % 2 ^ 64)
  | .TIME_WALL => some m.now
  | .TIME_WALL_FRAC => some (setBits 0 F.TIME_WALL_FRAC_FRAC.lo F.TIME_WALL_FRAC_FRAC.width (m.wallFx % 65536))
  | .TIME_UNCERT => some (setBits 0 F.TIME_UNCERT_U_NODE.lo F.TIME_UNCERT_U_NODE.width (min (2 ^ 32 - 1) m.uNode))
  | .TIME_ROOT_U => some (setBits 0 F.TIME_ROOT_U_ROOT_U.lo F.TIME_ROOT_U_ROOT_U.width (min (2 ^ 32 - 1) m.rootU))
  | _ => none

/-- What instance i of a register reads as: write-only fields read 0 (R2), and the set registers of R327 and R331 show
the word they set; LEASES of a layer is counted (R231), and HELD of a contact runs (R309). -/
def Mach.view (m : Mach) (d : RegDesc) (i : Nat) : Nat :=
  match m.fifoHead d.reg with
  | some ws => word32 ws i
  | none =>
    match m.viewTime d.reg with
    | some v => v
    | none =>
      match d.reg with
      | .EVC_MASK_SET => (m.rd .EVC_MASK i).toNat
      | .SEQ_GPIO_OUT_SET => (m.rd .SEQ_GPIO_OUT i).toNat
      | .CMP_LAYER_STATUS =>
        setBits (m.rd .CMP_LAYER_STATUS i).toNat F.CMP_LAYER_STATUS_LEASES.lo F.CMP_LAYER_STATUS_LEASES.width (m.leasesHeld i)
      | .TCH_CONTACT_2 => m.contactHeld i
      | .DEC_CTX_RATE =>
        setBits (m.rd .DEC_CTX_RATE i).toNat F.DEC_CTX_RATE_MEASURED.lo F.DEC_CTX_RATE_MEASURED.width (m.measuredDec i)
      | _ =>
        let v := (m.rd d.reg i).toNat
        v - (v &&& d.maskOf (·.ty = .wo))

/-- The live value of one 32-bit word of register space; an address without a register reads 0 (R332). -/
def Mach.live32 (m : Mach) (a : Nat) : Nat :=
  match findReg a with
  | none => 0
  | some x => if x.high then m.view x.desc x.i / 2 ^ 32 else m.view x.desc x.i % 2 ^ 32

/-! ### Latches (R4) -/

def Mach.latch (m : Mach) (q : Requester) : List (Nat × Nat) :=
  match m.latches.find? (fun l => l.who = q) with
  | some l => l.words
  | none => []

def Mach.setLatch (m : Mach) (q : Requester) (ws : List (Nat × Nat)) : Mach :=
  let rest := m.latches.filter fun l => l.who ≠ q
  { m with latches := if ws.isEmpty then rest else rest ++ [⟨q, ws⟩] }

/-! ### Reads -/

/-- What a read of a word ends beside its latch: the drops of fabric port p, which the low word of word 10 + p of
TEL_LAST shows (R427), are counted anew for event 37 + 8p (R123; log entry 18). -/
def Mach.dropsRead (m : Mach) (x : RegAt) : Mach :=
  if x.desc.reg = .TEL_LAST && 20 ≤ x.i && x.i < 36 && x.i % 2 = 0 then
    let p := (x.i - 20) / 2
    m.setFabPort p { m.fabPort p with dropEvent := false }
  else m

/-- The words that a read of a low word latches beside its high word: TIME_WALL latches its fraction. -/
def Mach.latchedBeside (m : Mach) (x : RegAt) (a : Nat) : List (Nat × Nat) :=
  if x.desc.reg = .TIME_WALL then [(a + 8, (m.viewTime .TIME_WALL_FRAC).getD 0)] else []

/-- The effect of reading a low word, beside its value: the words it latches and the machine after it. -/
def Mach.readEffect (m : Mach) (x : RegAt) (a : Nat) : List (Nat × Nat) × Mach :=
  match m.fifoHead x.desc.reg with
  | some ws =>
    if x.i = 0 then
      ((List.range (x.desc.count - 1)).map fun k => (a + 4 * (k + 1), word32 ws (k + 1)), m.fifoPop x.desc.reg)
    else ([], m)
  | none =>
    if x.desc.pair && !x.high then
      let hi := (a + 4, m.view x.desc x.i / 2 ^ 32) :: m.latchedBeside x a
      if x.desc.reg = .TIME_CAP_STAMP then (hi, (m.popCapture x.i).2) else (hi, m)
    else ([], m.dropsRead x)

/-- The value of a word that a read ends or clears: GATE_SYNC (R347) and SYS_FENCE (R340). -/
def Mach.readOwn (m : Mach) (q : Requester) (r : Reg) : Option (Nat × Mach) :=
  match r with
  | .GATE_SYNC => some m.gateSyncRead
  | .SYS_FENCE =>
    let (fault, m) := m.fence q
    some (if fault then 1 else 0, m)
  | _ => none

/-- One word of a read without the latch: its value, what a 32-bit read latches, and the machine after it. -/
def Mach.readWord (m : Mach) (q : Requester) (a : Nat) : Nat × List (Nat × Nat) × Mach :=
  match findReg a with
  | none => (0, [], m)
  | some x =>
    match m.readOwn q x.desc.reg with
    | some (v, m) => (v, [], m)
    | none =>
      let v := m.live32 a
      let (ws, m) := m.readEffect x a
      (v, ws, m)

/-- A 32-bit read: a word the requester's latch holds comes from there, once. -/
def Mach.read32 (m : Mach) (q : Requester) (a : Nat) : Nat × Mach :=
  match tFind (m.latch q) a with
  | some v => (v, m.setLatch q ((m.latch q).filter fun e => e.1 ≠ a))
  | none =>
    let (v, ws, m) := m.readWord q a
    (v, if ws.isEmpty then m else m.setLatch q ws)

/-- A 64-bit read neither uses nor changes the latch: the high word is of the same snapshot. -/
def Mach.read64 (m : Mach) (q : Requester) (a : Nat) : Nat × Mach :=
  let (lo, ws, m) := m.readWord q a
  match tFind ws (a + 4) with
  | some hi => (lo + hi * 2 ^ 32, m)
  | none =>
    let (hi, _, m) := m.readWord q (a + 4)
    (lo + hi * 2 ^ 32, m)

def Mach.regRead (m : Mach) (q : Requester) (w : Width) (a : Nat) : Nat × Mach :=
  match w with
  | .w32 => m.read32 q a
  | .w64 => m.read64 q a

/-! ### Writes by field type (R2) -/

/-- One register that a write covers: the bits covered and the bits written. -/
structure Cover where
  desc : RegDesc
  i : Nat
  mask : Nat
  val : Nat
  deriving DecidableEq, Repr

def cover32 (a v : Nat) : List Cover :=
  match findReg a with
  | none => []
  | some x =>
    let s := if x.high then 32 else 0
    [⟨x.desc, x.i, (2 ^ 32 - 1) <<< s, (v % 2 ^ 32) <<< s⟩]

/-- The registers a write covers; a write where none is has no effect (R332). -/
def coversOf (w : Width) (a v : Nat) : List Cover :=
  match w with
  | .w32 => cover32 a v
  | .w64 =>
    match findReg a with
    | some x => if x.desc.pair then [⟨x.desc, x.i, 2 ^ 64 - 1, v % 2 ^ 64⟩] else cover32 a v ++ cover32 (a + 4) (v / 2 ^ 32)
    | none => cover32 (a + 4) (v / 2 ^ 32)

/-- A value with the bits of k replaced by those of v. -/
def mergeBits (old k v : Nat) : Nat := (old - (old &&& k)) ||| (v &&& k)

/-- The bits of the cover's fields of a type. -/
def Cover.bitsOf (c : Cover) (t : FType) : Nat := c.desc.maskOf (·.ty = t) &&& c.mask

/-- What the register stores after the write, by the types of its fields. -/
def Cover.stored (c : Cover) (old : Nat) : Nat :=
  let v := mergeBits old (c.bitsOf .rw) c.val ||| (c.val &&& c.bitsOf .w1s)
  v - (v &&& c.val &&& c.bitsOf .w1c)

/-- What the write makes of the fields that software can change, for the range checks. -/
def Cover.meant (c : Cover) (old : Nat) : Nat := mergeBits (c.stored old) (c.bitsOf .wo ||| c.bitsOf .sc) c.val

/-- A field as the write gives it. -/
def Cover.field (c : Cover) (f : Field) : Nat := bits c.val f.lo f.width

def lutWindow (r : Reg) : Bool := r = .LUT_PRE_WINDOW || r = .LUT_CUBE_WINDOW || r = .LUT_POST_WINDOW

/-- The write stored. The mask and output words have set and clear registers (R327, R331); GATE_SYNC shows a count,
whatever is written to it (R347); a table window takes no write while a swap is in progress (R237); NO_ID clears once the ID is valid (R124). -/
def Mach.store (m : Mach) (c : Cover) : Mach :=
  let put (r : Reg) (v : Nat) : Mach := m.wr r c.i (BitVec.ofNat 64 v)
  match c.desc.reg with
  | .EVC_MASK_SET => put .EVC_MASK ((m.rd .EVC_MASK c.i).toNat ||| (c.val &&& c.mask))
  | .EVC_MASK_CLR => put .EVC_MASK ((m.rd .EVC_MASK c.i).toNat &&& (2 ^ 32 - 1 - c.val % 2 ^ 32))
  | .SEQ_GPIO_OUT_SET => put .SEQ_GPIO_OUT ((m.rd .SEQ_GPIO_OUT c.i).toNat ||| c.val % 2 ^ 16)
  | .SEQ_GPIO_OUT_CLR => put .SEQ_GPIO_OUT ((m.rd .SEQ_GPIO_OUT c.i).toNat &&& (2 ^ 16 - 1 - c.val % 2 ^ 16))
  | .GATE_SYNC => m
  | .FAB_NODE_TROUBLE =>
    let old := (m.rd .FAB_NODE_TROUBLE c.i).toNat
    put .FAB_NODE_TROUBLE (c.stored old ||| (if m.on F.FAB_NODE_ID_VALID then 0 else old &&& 2 ^ F.FAB_NODE_TROUBLE_NO_ID.lo))
  | r =>
    if lutWindow r && m.lutBusy then m
    else put r (c.stored (m.rd r c.i).toNat)

/-! ### Which writes are taken (R10, R11) -/

/-- The entry of a stream register, and whether it is the entry's CTL. -/
def streamEntryOf (r : Reg) (i : Nat) : Option Nat :=
  match r with
  | .ETH_STREAM_ID | .ETH_STREAM_UDP | .ETH_STREAM_SSRC | .ETH_STREAM_TIMES | .ETH_STREAM_RATE => some i
  | .ETH_STREAM_SRC | .ETH_STREAM_DST => some (i / 4)
  | _ => none

/-- The refusals that a rule states for a register beyond ranges: a part that is in use, an action that runs, or a
writer that is not the owner. -/
def Mach.allowed (m : Mach) (by_ : Master) (c : Cover) : Bool :=
  match c.desc.reg with
  | .SCN_H | .SCN_HSYNC | .SCN_V | .SCN_VSYNC => m.panel = panelOff
  | .ETH_STREAM_CTL =>
    let old := (m.rd .ETH_STREAM_CTL c.i).toNat
    !m.on F.ETH_STREAM_CTL_EN c.i || clearBit (c.stored old) F.ETH_STREAM_CTL_EN.lo = clearBit old F.ETH_STREAM_CTL_EN.lo
  | .CHK_CH_CTL | .CHK_CH_FOLD | .CHK_CH_ADDR | .CHK_CH_LEN | .CHK_CH_EXPECT => m.chkWriteOk by_ c.i
  | .CHK_CH_STATUS | .CHK_CH_OUT_LEN | .CHK_CH_VALUE | .CHK_CH_UNITS | .CHK_CH_MISMATCH =>
    !m.on F.CHK_CH_CTL_OWN_EN c.i || by_.id = m.get F.CHK_CH_CTL_OWNER c.i
  | .GATE_COMMIT => m.gateCommitOk by_.id (c.field F.GATE_COMMIT_INDEX)
  | .SYS_MODE_REQ =>
    m.requestPresent (c.field F.SYS_MODE_REQ_TARGET) || m.requestAllowed (c.field F.SYS_MODE_REQ_TARGET)
  | .SYS_RESET_REQ => c.field F.SYS_RESET_REQ_KEY = 0x0D1E
  | .SYS_SOFT_RESET => m.softOk
  | .CFG_FLASH_CTL => c.field F.CFG_FLASH_CTL_GO = 0 || m.flashGoOk
  | .CFG_SVC_CTL => c.field F.CFG_SVC_CTL_NEW = 0 || m.svcNewOk
  | .SEQ_I2C_CTL => c.field F.SEQ_I2C_CTL_GO = 0 || !m.evc.i2cBusy
  | r =>
    match streamEntryOf r c.i with
    | some e => !m.on F.ETH_STREAM_CTL_EN e
    | none => true

/-- The cover is taken, with m' the machine after the whole write. -/
def Mach.coverOk (m m' : Mach) (by_ : Master) (c : Cover) : Bool :=
  c.desc.rangesOk c.mask (c.meant (m.rd c.desc.reg c.i).toNat) && m.allowed by_ c && m'.crossOk c.desc.reg c.i

/-! ### What a write does beyond storing -/

/-- The field has gone from 0 to another value, or back, with the write. -/
def Mach.rose (old m : Mach) (f : Field) (i : Nat) : Bool := !old.on f i && m.on f i
def Mach.fell (old m : Mach) (f : Field) (i : Nat) : Bool := old.on f i && !m.on f i

/-- The apply line and the load cap follow the timing (R213, R219). -/
def Mach.retimed (m : Mach) : Mach :=
  (m.put F.CMP_LATCH_APPLY m.applyLine).put F.CMP_LOAD_CAP_CAP m.loadCap

/-- TIME: R84 to R89. -/
def Mach.wroteTime (m old : Mach) (c : Cover) : Mach :=
  let i := c.i
  match c.desc.reg with
  | .TIME_REF_TOD => { m with time := { m.time with todFrom := some m.raw } }
  | .TIME_ROOT_CFG =>
    if m.get F.TIME_ROOT_CFG_REF_SEL = old.get F.TIME_ROOT_CFG_REF_SEL then m else m.refSelected
  | .TIME_ETH_CTL =>
    let role := m.get F.TIME_ETH_CTL_ROLE i
    if role = old.get F.TIME_ETH_CTL_ROLE i then m
    else (m.setPtpPort i { ptpPort0 with state := (m.ptpPort i).state }).setPtpState i (roleState role)
  | .TIME_PULSE_CTL =>
    if old.rose m F.TIME_PULSE_CTL_EN i then m.pulseArm i
    else if old.fell m F.TIME_PULSE_CTL_EN i then m.setPulse i { m.pulse i with armed := false }
    else m
  | .TIME_FRAME_PERIOD => m.retimed
  | _ => m

/-- An entry that a layer draws from (R147). -/
def Mach.entWanted (m : Mach) (i : Nat) : Bool :=
  m.cmp.layers.any fun l => match l.2.feed with
    | .eth e _ => e = i
    | _ => false

/-- A stream entry is enabled, in use at once when a layer or a forward wants it, or leaves every use (R146, R147). -/
def Mach.wroteStream (m old : Mach) (i : Nat) : Mach :=
  if old.rose m F.ETH_STREAM_CTL_EN i then
    let m := m.setEnt i entIdle
    if m.entWanted i || m.entForwards i then (m.entUse i).2 else m
  else if old.fell m F.ETH_STREAM_CTL_EN i then
    (m.entIdleNow i).stopFeeds (m.entFeed i) reasonNoSignal
  else m

/-- A capture port starts or ends (R145). -/
def Mach.wroteCap (m old : Mach) (i : Nat) : Mach :=
  if old.rose m F.CAP_CTL_EN i then (if m.mode.runs then m.capStart i else m)
  else if old.fell m F.CAP_CTL_EN i then
    (m.put F.CAP_STATUS_STATE capOff i).stopFeeds (fun f => match f with | .cap k => k = i | _ => false) reasonNoSignal
  else m

/-- A fabric port is enabled, disabled or trained again (R95, R120). -/
def Mach.wroteFab (m old : Mach) (c : Cover) : Mach :=
  if old.fell m F.FAB_PORT_CTL_EN c.i then m.portDisable c.i
  else
    let m := if old.rose m F.FAB_PORT_CTL_EN c.i then m.portEnable c.i else m
    if c.field F.FAB_PORT_CTL_RETRAIN = 1 then m.retrain c.i else m

/-- The inputs: FAB, ETH and CAP. -/
def Mach.wroteInputs (m old : Mach) (c : Cover) : Mach :=
  match c.desc.reg with
  | .FAB_PORT_CTL => m.wroteFab old c
  | .ETH_PORT_CTL => if old.fell m F.ETH_PORT_CTL_EN c.i then m.ethDown c.i else m
  | .ETH_STREAM_CTL => m.wroteStream old c.i
  | .CAP_CTL => m.wroteCap old c.i
  | _ => m

/-- DEC: what follows of new limits of a context, at once (R159, R165). -/
def Mach.wroteDec (m : Mach) (c : Cover) : Mach :=
  match c.desc.reg with
  | .DEC_CTX_CFG | .DEC_CTX_WORK => m.decAdvance c.i
  | _ => m

/-- ENC: pictures on request (R188, R189), and Q_NOW held below a new QMAX (R190). -/
def Mach.wroteEnc (m : Mach) (c : Cover) : Mach :=
  match c.desc.reg with
  | .ENC_KEY_REQ => m.encRequestPicture (c.field F.ENC_KEY_REQ_ID) false
  | .ENC_LTR_REQ => m.encRequestPicture (c.field F.ENC_LTR_REQ_ID) true
  | .ENC_CTX_RC =>
    if m.getS F.ENC_CTX_RC_QMAX c.i < m.getS F.ENC_CTX_STATUS_Q_NOW c.i then
      m.put F.ENC_CTX_STATUS_Q_NOW (m.get F.ENC_CTX_RC_QMAX c.i) c.i
    else m
  | _ => m

/-- CMP, LUT and SIG (R201, R215, R217, R225, R237 to R249). -/
def Mach.wroteCmp (m old : Mach) (by_ : Master) (c : Cover) : Mach :=
  match c.desc.reg with
  | .CMP_CTL => m.retimed.showSuspended
  | .SIG_CTL => m.showSuspended
  | .CMP_FENCE_CLR => m.fenceClr (c.val &&& c.mask)
  | .CMP_GROUP_COMMIT => m.groupCommit c.i (c.field F.CMP_GROUP_COMMIT_TAG)
  | .CMP_READOUT_IN => m.readoutIn by_.id (if c.mask = 2 ^ 64 - 1 then .w64 else .w32) c.val
  | .LUT_SWAP => m.lutSwap (c.field F.LUT_SWAP_TABLES)
  | r =>
    if lutWindow r && old.lutBusy then m.lutWriteDrop
    else if layerRegs.contains r then m.putB F.CMP_LAYER_STATUS_PENDING true c.i
    else m

/-- SCN and TCH (R253 to R266, R294, R304). -/
def Mach.wrotePanel (m old : Mach) (c : Cover) : Mach :=
  match c.desc.reg with
  | .SCN_CTL => m.panelUpdate
  | .SCN_BL =>
    let m := m.dutyWrite (m.get F.SCN_BL_DUTY)
    if m.panel = panelLit then m.pwm else m
  | .SCN_AUX_CTL => if c.field F.SCN_AUX_CTL_GO = 1 then m.auxGo else m
  | .SCN_H | .SCN_V => m.retimed
  | .TCH_CTL => if old.fell m F.TCH_CTL_EN 0 then m.touchStop else m
  | .TCH_TEST => if c.field F.TCH_TEST_GO = 1 then m.touchTestGo else m
  | .TCH_REBASE => m.touchRebase (c.field F.TCH_REBASE_SLOT)
  | _ => m

/-- A sequencer takes deliveries, or stops taking them (R313). -/
def Mach.wroteSeq (m old : Mach) (k : Nat) : Mach :=
  let st := m.get F.SEQ_STATE_STATE k
  if old.rose m F.SEQ_CTL_EN k && st = 0 && m.mode.runs then m.put F.SEQ_STATE_STATE 1 k
  else if old.fell m F.SEQ_CTL_EN k && st = 1 then m.put F.SEQ_STATE_STATE 0 k
  else m

/-- EVC, SEQ, GATE, CHK (R328, R331, R346, R347, R365). -/
def Mach.wroteControl (m old : Mach) (by_ : Master) (c : Cover) : Mach :=
  match c.desc.reg with
  | .EVC_DOORBELL => m.doorbells (c.field F.EVC_DOORBELL_BELL)
  | .SEQ_CTL => m.wroteSeq old c.i
  | .SEQ_I2C_CTL => if c.field F.SEQ_I2C_CTL_GO = 1 then m.i2cGo else m
  | .GATE_COMMIT => m.gateCommit (c.field F.GATE_COMMIT_INDEX)
  | .GATE_SYNC => m.gateSyncWrite
  | .CHK_CH_CTL => if c.field F.CHK_CH_CTL_GO = 1 then m.chkGo by_ c.i else m
  | _ => m

/-- The watchdog's configuration is written (R404): EN from 0 to 1 restarts it, and a new PERIOD is compared with the
time elapsed at once. -/
def Mach.wroteWdt (m old : Mach) : Mach :=
  if old.rose m F.SYS_WDT_CFG_EN 0 then m.wdtRestart
  else if !m.wdtCounts then m
  else
    let gone := m.raw - m.sys.wdtStart
    let period := msTicks (m.get F.SYS_WDT_CFG_PERIOD)
    if period ≤ gone then m.wdtExpiry
    else if period / 2 ≤ gone && !m.sys.wdtWarned then m.wdtWarn
    else m

/-- SYS, PWR, CFG and PMC (R384, R385, R390, R401 to R410, R420, R422). -/
def Mach.wroteSystem (m old : Mach) (by_ : Master) (c : Cover) : Mach :=
  match c.desc.reg with
  | .SYS_MODE_REQ => m.modeRequest by_.id (c.field F.SYS_MODE_REQ_TARGET)
  | .SYS_RESET_REQ =>
    let node := match by_.who with
      | .remote n => n
      | _ => m.nodeId
    let acts : Bool := m.mode ≠ .hold && m.mode ≠ .load && m.mode ≠ .prove && m.mode ≠ .halt
    if acts ∧ c.field F.SYS_RESET_REQ_NODE = 1 then m.setSys { m.sys with resetDue := some (clsFab, node) } else m
  | .SYS_SOFT_RESET => m.softReset (c.field F.SYS_SOFT_RESET_DOMAIN)
  | .SYS_WDT_KICK => m.wdtKick (c.field F.SYS_WDT_KICK_VALUE)
  | .SYS_WDT_CFG => m.wroteWdt old
  | .SYS_WAKE_CFG | .SYS_WAKE_TIMER => m.timerWake
  | .PWR_SHED => m.stageFloor
  | .CFG_FLASH_CTL => if c.field F.CFG_FLASH_CTL_GO = 1 then m.flashGo else m
  | .CFG_SVC_CTL =>
    let m := if c.field F.CFG_SVC_CTL_NEW = 1 then m.svcNew else m
    if c.field F.CFG_SVC_CTL_VERIFY = 1 then m.svcVerify else m
  | .PMC_SW => m.pmcSw (c.field F.PMC_SW_PULSE)
  | .PMC_SNAP_CTL => if c.field F.PMC_SNAP_CTL_GO = 1 then m.snapNow else m
  | _ => m

/-- What the write of one register does, by the register's block. -/
def Mach.wrote (m old : Mach) (by_ : Master) (c : Cover) : Mach :=
  match c.desc.block with
  | .time => m.wroteTime old c
  | .fab | .eth | .cap => m.wroteInputs old c
  | .dec => m.wroteDec c
  | .enc => m.wroteEnc c
  | .cmp | .lut | .sig => m.wroteCmp old by_ c
  | .scn | .tch => m.wrotePanel old c
  | .evc | .seq | .gate | .chk => m.wroteControl old by_ c
  | .sys | .pwr | .cfg | .pmc => m.wroteSystem old by_ c
  | _ => m

/-! ### A write as a whole -/

/-- A write refused: one BAD_VALUE bit, and for a mode request what R390 adds. -/
def Mach.refuseWrite (m : Mach) (c : Cover) : Mach :=
  if c.desc.reg = .SYS_MODE_REQ then m.requestRefused else m.refuse c.desc.reg c.i

/-- A write of register space: whether it is taken. -/
def Mach.regWrite (m : Mach) (by_ : Master) (w : Width) (a v : Nat) : Bool × Mach :=
  let cs := coversOf w a v
  let after := cs.foldl (fun (m : Mach) c => m.store c) m
  match cs.find? (fun c => !m.coverOk after by_ c) with
  | some c => (false, m.refuseWrite c)
  | none =>
    let done := cs.foldl (fun (x : Mach) c => x.wrote m by_ c) after
    (true, if cs.any (fun c => c.bitsOf .w1c ≠ 0) then done.resummarise else done)

end Sys2Proof.Machine
end

