-- ==== Sys2Proof/Machine/Access.lean ====
section
/-! DEFINITION. Accesses: local ones through the gate to registers and memories (R332, R335, R338, R351), and those of
other nodes, as MEM_REQ and MEM_RSP packets (R107, R334, R341). -/

namespace Sys2Proof.Machine

/-- How an access ends for its requester: the cause of a rejection, whether the target refused a value (R10, R11), and
the bytes read, zeros when it was not performed. -/
structure Reply where
  cause : Option GateCause
  refused : Bool
  data : List Nat
  deriving DecidableEq, Repr

def Reply.fault (c : GateCause) (n : Nat) : Reply := ⟨some c, false, List.replicate n 0⟩

/-- STATUS of a MEM_RSP and of a RESPONSE (R107, R140): 0 OK, 2 BAD_VALUE, 3 GATE_FAULT. -/
def Reply.status (r : Reply) : Nat := if r.cause.isSome then 3 else if r.refused then 2 else 0

/-- The node that an access comes from (R352). -/
def Mach.originOf (m : Mach) (by_ : Master) : Nat :=
  match by_.who with
  | .remote n => n
  | _ => m.nodeId

/-! ### Memories -/

/-- Words with a bit error under n bytes from an address. -/
def State.eccIn (s : State) (a n : Nat) : List (Nat × Bool) := s.ecc.filter fun e => e.1 < a + n && a < e.1 + 8

/-- Beats of 64 bytes that n bytes from an address touch. -/
def beats64 (a n : Nat) : Nat := (a + n - 1) / 64 + 1 - a / 64

/-- Bit errors that a read has corrected, or found uncorrectable (R335, R338). -/
def Mach.readErrors (m : Mach) (r : Region) (errs : List (Nat × Bool)) : Mach :=
  let soft := (errs.filter fun e => !e.2).length
  let m := if soft = 0 then m else match r with
    | .cistern => (m.bump F.MEM_CIS_CORR_COUNT 0 soft).count 9 soft
    | .dram => ((m.bump F.MEM_ECC_CORR_COUNT 0 soft).count 7 soft).raiseLimited 341 (msTicks 1000)
    | _ => m
  match r, errs.find? (fun e => e.2) with
  | .dram, some e =>
    let m := (m.bump F.MEM_ECC_FATAL_COUNT).put F.MEM_ECC_LAST_ADDR e.1
    ((m.count 8).trouble F.MEM_TROUBLE_ECC_FATAL).raise 342
  | _, _ => m

/-- The bytes lie where only engines write (R345): the frame buffers and the pools, but for the statistics ring, whose
blocks R195 gives. What pictures and bitstreams they hold there is free (log entry 42). -/
def Mach.engineBytes (m : Mach) (a n : Nat) : Bool :=
  let meets (base size : Nat) : Bool := decide (0 < size) && decide (a < base + size) && decide (base < a + n)
  meets cisternBase (17280 * 4096) || meets (m.get F.DEC_POOL_BASE_BASE) (m.get F.DEC_POOL_SIZE_SIZE)
    || meets (m.get F.MEM_DEV_POOL_BASE_BASE) (m.get F.MEM_DEV_POOL_SIZE_SIZE)
    || (meets (m.get F.ENC_POOL_BASE_BASE) (m.get F.ENC_POOL_SIZE_SIZE)
      && !meets (m.get F.ENC_PRIV_RING_BASE_BASE) (m.get F.ENC_PRIV_RING_CTL_SIZE * 1024))

/-- A read of n bytes of a memory, which the gate has allowed. An uncorrectable error ends it as a gate fault; without
inline ECC errors of the DRAM are not detected. In action memory the spec gives the read no outcome, so what it returns
is free (log entry 50). -/
def State.memRead (s : State) (by_ : Master) (r : Region) (a n : Nat) : Reply × State :=
  let m := match r with
    | .cistern => s.mach.count 5
    | .dram => s.mach.count 1 (beats64 a n)
    | _ => s.mach
  let errs := if r = .dram && !m.on F.MEM_CFG_INLINE_ECC then [] else s.eccIn a n
  let m := m.readErrors r errs
  let fatal : Bool := errs.any fun e => e.2
  if fatal && r ≠ .action then
    let m := m.gateFault by_ .ecc ⟨a, n, false⟩ (m.wallAddr a) (m.originOf by_) false
    (Reply.fault .ecc n, { s with mach := m })
  else if fatal || m.engineBytes a n then
    let (v, m) := m.freeBits (8 * n)
    (⟨none, false, natBytes n v⟩, { s with mach := m })
  else (⟨none, false, s.bytes a n⟩, { s with mach := m })

/-- A write to a memory. A word written whole holds no error any longer. -/
def State.memWrite (s : State) (r : Region) (a : Nat) (data : List Nat) : State :=
  let n := data.length
  let m := match r with
    | .cistern => s.mach.count 6
    | .dram => s.mach.count 2 (beats64 a n)
    | _ => s.mach
  { s with mach := m, ecc := s.ecc.filter fun e => e.1 < a || a + n < e.1 + 8 }.setBytes a data

/-! ### Local accesses -/

def widthOf (n : Nat) : Width := if n = 8 then .w64 else .w32

/-- A local read of n bytes. -/
def State.localRead (s : State) (by_ : Master) (a n : Nat) : Reply × State :=
  let wall := s.mach.wallAddr a
  let (c, m) := s.mach.gateCheck by_ ⟨a, n, false⟩ false
  let node := m.originOf by_
  match c with
  | some c => (Reply.fault c n, { s with mach := m.sampleMem by_.id false wall node n c.code })
  | none =>
    match m.region a with
    | some .regs =>
      let (v, m) := m.regRead by_.who (widthOf n) a
      (⟨none, false, natBytes n v⟩, { s with mach := m.sampleMem by_.id false wall node n 0 })
    | some r =>
      let (x, s) := { s with mach := m }.memRead by_ r a n
      (x, { s with mach := s.mach.sampleMem by_.id false wall node n (if x.cause.isSome then GateCause.ecc.code else 0) })
    | none => (Reply.fault .unmapped n, { s with mach := m })

/-- A local write of bytes. -/
def State.localWrite (s : State) (by_ : Master) (a : Nat) (data : List Nat) (posted : Bool) : Reply × State :=
  let n := data.length
  let wall := s.mach.wallAddr a
  let (c, m) := s.mach.gateCheck by_ ⟨a, n, true⟩ posted
  let node := m.originOf by_
  match c with
  | some c => (⟨some c, false, []⟩, { s with mach := m.sampleMem by_.id true wall node n c.code })
  | none =>
    match m.region a with
    | some .regs =>
      let m := m.sampleMem by_.id true wall node n 0
      let (ok, m) := m.regWrite by_ (widthOf n) a (ofNatBytes data)
      (⟨none, !ok, []⟩, { s with mach := m })
    | some r => (⟨none, false, []⟩, { s with mach := m.sampleMem by_.id true wall node n 0 }.memWrite r a data)
    | none => (⟨some .unmapped, false, []⟩, { s with mach := m })

/-! ### Wall addresses (R334) -/

/-- The node-local address of a wall address that is this node's own. -/
def Mach.ownAddress (m : Mach) (wall : Nat) : Option Nat :=
  if m.on F.FAB_NODE_ID_VALID && wall / 2 ^ 40 = m.nodeId then some (wall % 2 ^ 40) else none

/-- Another node can be reached (R334). -/
def Mach.reaches (m : Mach) (node : Nat) : Bool := m.on F.FAB_NODE_ID_VALID && (m.route node).isSome

/-- A remote access that fails at this end: cause REMOTE (R334, R351). -/
def Mach.remoteFault (m : Mach) (by_ : Master) (write : Bool) (node a n : Nat) (posted : Bool) : Mach :=
  let wall := node * 2 ^ 40 + a % 2 ^ 40
  (m.gateFault by_ .remote ⟨a, n, write⟩ wall m.nodeId posted).sampleMem by_.id write wall m.nodeId n GateCause.remote.code

/-! ### Requests to other nodes (R107, R341) -/

/-- Two requests of one requester with overlapping bytes of one node. -/
def RemoteReq.overlaps (x y : RemoteReq) : Bool :=
  x.by_.who = y.by_.who && x.node = y.node && x.addr < y.addr + y.len && y.addr < x.addr + x.len

/-- The lowest tag that no request in flight has. -/
def Mach.freeTag (m : Mach) : Option Nat := (List.range 256).find? fun t => !m.fab.remote.any fun x => x.tag = t

/-- The request goes out as a MEM_REQ packet. -/
def Mach.sendReq (m : Mach) (x : RemoteReq) (data : List Nat) : Mach :=
  let w0 := (if x.write then 1 else 0) * 2 ^ 60 + x.tag % 256 * 2 ^ 52 + x.node % 4096 * 2 ^ 40 + x.addr % 2 ^ 40
  let words := [w0, x.len % 8192 * 2 ^ 32] ++ (if x.write then bytesWords data.length data else [])
  let m := { m with fab := { m.fab with remote := m.fab.remote ++ [x] } }
  (m.count 10).sendRouted 9 3 x.node words (16 + (if x.write then x.len else 0))

/-- A request is issued: it is held while one to overlapping bytes is in flight or held (R341), or no tag is free. -/
def Mach.request (m : Mach) (x : RemoteReq) (data : List Nat) : Mach :=
  let blocked := m.fab.remote.any x.overlaps || m.fab.heldReqs.any (fun h => x.overlaps h.1)
  match m.freeTag with
  | some t =>
    if blocked then { m with fab := { m.fab with heldReqs := m.fab.heldReqs ++ [(x, data)] } }
    else m.sendReq { x with tag := t } data
  | none => { m with fab := { m.fab with heldReqs := m.fab.heldReqs ++ [(x, data)] } }

/-- Held requests that may now go do so, in the order of their issue. -/
def Mach.releaseHeld (m : Mach) : Mach :=
  let held := m.fab.heldReqs
  held.foldl (fun (m : Mach) h => m.request h.1 h.2) { m with fab := { m.fab with heldReqs := [] } }

/-- A number that no earlier request of a sequencer has, so that a late response is told apart. -/
def Mach.newRef (m : Mach) : Nat × Mach :=
  (m.fab.refs + 1, { m with fab := { m.fab with refs := m.fab.refs + 1 } })

/-! ### Requests from other nodes -/

/-- The response to a request. -/
def Mach.sendRsp (m : Mach) (origin tag status : Nat) (data : List Nat) : Mach :=
  m.sendRouted 10 3 origin ([status * 2 ^ 60 + tag % 256 * 2 ^ 52] ++ bytesWords data.length data) (8 + data.length)

/-- MEM_REQ (R107): the request of another node, under master 29; a read of SYS_FENCE by it is its own fence. A LEN of 0
is EMPTY (R9), and one above 4,096 is refused (log entry 51). -/
def State.memReq (s : State) (origin : Nat) (q : MemReq) : State :=
  let by_ : Master := ⟨.remote origin, 29⟩
  let s := { s with mach := s.mach.count 11 }
  let n := if q.write then q.data.length else q.len
  if n = 0 ∨ 4096 < n then { s with mach := s.mach.sendRsp origin q.tag (if n = 0 then 1 else 2) [] }
  else if q.write then
    let (r, s) := s.localWrite by_ q.addr q.data false
    { s with mach := s.mach.sendRsp origin q.tag r.status [] }
  else
    let (r, s) := s.localRead by_ q.addr q.len
    { s with mach := s.mach.sendRsp origin q.tag r.status (if r.cause.isSome then [] else r.data) }

end Sys2Proof.Machine
end

