-- ==== Sys2Proof/Machine/Sequencer.lean ====
section
/-! DEFINITION. The event controller's deliveries and the action sequencers (R311 to R326, R340, R341). -/

namespace Sys2Proof.Machine

/-! ### The sequencers' registers -/

def seqOff : Nat := 0
def seqIdle : Nat := 1
def seqRun : Nat := 3
def seqWait : Nat := 4

/-- Status codes of R320. -/
def sOk : Nat := 0
def sEmpty : Nat := 1
def sBadValue : Nat := 2
def sGateFault : Nat := 3
def sTimeout : Nat := 4

def seqCore0 : SeqCore := ⟨0, .none, 0⟩

def Mach.seqCore (m : Mach) (k : Nat) : SeqCore := tGet m.evc.seqs seqCore0 k

def Mach.setSeqCore (m : Mach) (k : Nat) (c : SeqCore) : Mach := m.setEvc { m.evc with seqs := tIns m.evc.seqs k c }

def Mach.seqState (m : Mach) (k : Nat) : Nat := m.get F.SEQ_STATE_STATE k

def Mach.seqPc (m : Mach) (k : Nat) : Nat := m.get F.SEQ_STATE_PC k

/-- Who sequencer k is: master 1 while it runs a vendor-region list, and 4 + k otherwise (R318, R343). -/
def Mach.seqBy (m : Mach) (k : Nat) : Master := ⟨.seq k, if m.on F.SEQ_STATE_PRIV k then 1 else 4 + k⟩

/-- Sequencers running a list, as EVC_STATUS shows them. -/
def Mach.showRunning (m : Mach) : Mach :=
  m.put F.EVC_STATUS_RUNNING ((List.range 16).filter fun k => decide (2 ≤ m.seqState k)).length

/-! ### Deliveries (R311 to R316) -/

/-- Level-1 delivery takes place now (R325). -/
def Mach.delivers (m : Mach) : Bool := m.serves && m.on F.EVC_CTL_EN

/-- Source s may be delivered. -/
def Mach.eligible (m : Mach) (s : Nat) : Bool :=
  m.bitOf .EVC_PEND s && m.on F.EVC_SRC_0_EN s && !m.bitOf .EVC_MASK s && !m.bitOf .EVC_RUNNING s
    && (!m.on F.EVC_SRC_0_GROUP_EN s || m.on F.EVC_HOLDOFF_OPEN (m.get F.EVC_SRC_0_GROUP s))

/-- Source s would be delivered, but for its closed hold-off group (event 263). -/
def Mach.heldOff (m : Mach) (s : Nat) : Bool :=
  m.bitOf .EVC_PEND s && m.on F.EVC_SRC_0_EN s && !m.bitOf .EVC_MASK s && !m.bitOf .EVC_RUNNING s
    && m.on F.EVC_SRC_0_GROUP_EN s && !m.on F.EVC_HOLDOFF_OPEN (m.get F.EVC_SRC_0_GROUP s)

/-- The sequencer takes a delivery: enabled and IDLE, or in the first cycle of its exit. -/
def Mach.available (m : Mach) (exiting : Option Nat) (k : Nat) : Bool :=
  m.on F.SEQ_CTL_EN k && (m.seqState k = seqIdle || exiting = some k)

/-- The target that takes source s: upward from the one after the last, cyclic. -/
def Mach.targetOf (m : Mach) (exiting : Option Nat) (s : Nat) : Option Nat :=
  let rr := tGet m.evc.rr 15 s
  ((List.range 16).map fun i => (rr + 1 + i) % 16).find? fun k =>
    (m.get F.EVC_SRC_0_TARGET s).testBit k && m.available exiting k

/-- The delivery that the edge makes: source and sequencer. -/
def Mach.pickDelivery (m : Mach) (exiting : Option Nat) : Option (Nat × Nat) :=
  if !m.delivers then none
  else (List.range 512).findSome? fun s => if m.eligible s then (m.targetOf exiting s).map fun k => (s, k) else none

/-- The vector of source s is handed to sequencer k, and the entry sequence runs (R312, R314). -/
def Mach.handOver (m : Mach) (s k : Nat) : Mach :=
  let resume := m.on F.EVC_SRC_2_RESUME_VALID s
  let pc := if resume then m.get F.EVC_SRC_2_RESUME s else m.get F.EVC_SRC_1_VECTOR s
  let g := m.get F.EVC_SRC_0_GROUP s
  let m := (m.clearBitOf .EVC_PEND s).setBitOf .EVC_RUNNING s
  let m := m.setEvc { m.evc with rr := tPut m.evc.rr 15 s k }
  let m := if m.on F.EVC_SRC_0_GROUP_EN s && m.on F.EVC_HOLDOFF_INTERVAL g then m.putB F.EVC_HOLDOFF_OPEN false g else m
  let m := (m.putB F.EVC_SRC_2_RESUME_VALID false s).put F.EVC_STATUS_LAST_SRC s
  let m := (m.put F.SEQ_STATE_PC pc k).put F.SEQ_STATE_SRC s k |>.putB F.SEQ_STATE_PRIV false k
  let m := (m.put F.SEQ_ST_ST 0 k).put F.SEQ_LAST_LAST 0 k |>.put F.SEQ_ENTRY_TIME_TIME m.now k
  let m := (m.put F.SEQ_STATE_STATE seqRun k).setSeqCore k { seqCore0 with commitRaw := m.raw }
  m.showRunning.count 256

/-- Closed groups that hold back a source below the one delivered are counted as skips. -/
def Mach.countSkips (m : Mach) (upTo : Nat) : Mach :=
  let n := ((List.range upTo).filter m.heldOff).length
  if n = 0 then m else m.count 263 n

/-- DELIVERY. -/
def Mach.delivery (m : Mach) : Mach :=
  match m.pickDelivery none with
  | some (s, k) => (m.countSkips s).handOver s k
  | none => m

/-- The run of sequencer k ends (R315): it is counted, its source stops counting as running, and it goes idle, or takes
the next vector at once when the edge that ends X1 hands it one. -/
def Mach.seqExit (m : Mach) (k : Nat) : Mach :=
  let c := m.seqCore k
  let s := m.get F.SEQ_STATE_SRC k
  let us := min (2 ^ 32 - 1) (ceilDiv ((m.raw - c.commitRaw) * 2) 3125)
  let m := (m.sampleEnd k true).advance F.SEQ_RUNS_RUNS k
  let m := m.put F.SEQ_MAX_RUN_MAX (max us (m.get F.SEQ_MAX_RUN_MAX k)) k
  let m := (m.clearBitOf .EVC_RUNNING s).setEvc { m.evc with seqs := tDel m.evc.seqs k }
  let m := m.put F.SEQ_STATE_STATE (if m.on F.SEQ_CTL_EN k then seqIdle else seqOff) k |>.showRunning
  match m.pickDelivery (some k) with
  | some (s', k') => if k' = k then ((m.countSkips s').handOver s' k).count 258 else m
  | none => m

/-- A fault of sequencer k (R324). The entry is written whether or not the bit was set already. -/
def Mach.seqFault (m : Mach) (k code : Nat) : Mach :=
  let s := m.get F.SEQ_STATE_SRC k
  let bit := F.SEQ_TROUBLE_FAULTED.lo + k
  let m := (m.putB F.EVC_SRC_0_EN false s).putB F.EVC_SRC_2_RESUME_VALID false s
  let m := (m.put F.SEQ_FAULT_CODE code k).put F.SEQ_FAULT_SRC s k |>.put F.SEQ_FAULT_PC (m.seqPc k) k
  let m := settle settleFuel [.quietSticky .SEQ_TROUBLE 0 bit] m
  (((m.log Block.seq.logNumber bit 0 k).count 260).raise 352).seqExit k

/-! ### Completing an action -/

/-- The next action follows, n words on. -/
def Mach.seqNext (m : Mach) (k n : Nat) : Mach :=
  let m := (m.put F.SEQ_STATE_PC (m.seqPc k + n) k).put F.SEQ_STATE_STATE seqRun k
  m.setSeqCore k { m.seqCore k with wait := .none }

/-- The action of n words completes with a status (R320). -/
def Mach.seqDone (m : Mach) (k st n : Nat) : Mach := ((m.put F.SEQ_ST_ST st k).sampleEnd k false).seqNext k n

/-- The sequencer waits. -/
def Mach.seqWaits (m : Mach) (k : Nat) (w : SeqWait) : Mach :=
  (m.put F.SEQ_STATE_STATE seqWait k).setSeqCore k { m.seqCore k with wait := w }

/-- Machine-level work on a state. -/
def State.on (s : State) (f : Mach → Mach) : State := { s with mach := f s.mach }

/-! ### Fetching (R318, R324) -/

/-- Words of an action by its opcode (R319). -/
def opWords (op : Nat) : Nat := [1, 2, 2, 2, 3, 1, 1, 2, 1, 1, 1, 1, 3, 1, 1, 1].getD op 1

/-- Word i lies in the region of the list that sequencer k runs. -/
def Mach.inRegion (m : Mach) (k i : Nat) : Bool :=
  if m.on F.SEQ_STATE_PRIV k then decide (i < 8192) else decide (8192 ≤ i) && decide (i < 131072)

/-- A fetch of the words from i on: the fault it meets, if any. -/
def State.fetchFault (s : State) (k i n : Nat) : Option Nat :=
  if !(List.range n).all (fun j => s.mach.inRegion k (i + j)) then some 2
  else if (s.eccIn (actionBase + 8 * i) (8 * n)).any (fun e => e.2) then some 3
  else none

/-- Single-bit errors corrected in a fetch. -/
def State.fetchCorrected (s : State) (i n : Nat) : State :=
  let soft := ((s.eccIn (actionBase + 8 * i) (8 * n)).filter fun e => !e.2).length
  if soft = 0 then s else s.on fun m => m.bump F.SEQ_ECC_COUNT_COUNT 0 soft

/-- The action at PC: its words, or the fault that its fetch meets. -/
def State.fetchAction (s : State) (k : Nat) : Sum Nat (List Nat) :=
  let pc := s.mach.seqPc k
  match s.fetchFault k pc 1 with
  | some c => .inl c
  | none =>
    let n := opWords (s.actionWord pc / 2 ^ 60)
    match s.fetchFault k pc n with
    | some c => .inl c
    | none => .inr ((List.range n).map fun j => s.actionWord (pc + j))

/-- LC = 1 with a node ID (R319). -/
def badOperand (w : Nat) : Bool := w.testBit 59 && bits w 40 12 ≠ 0

/-- Reserved bits that are not 0, and the other BAD_WORDs of R324. -/
def badWord (ws : List Nat) : Bool :=
  let w := ws.getD 0 0
  let w1 := ws.getD 1 0
  let w2 := ws.getD 2 0
  match w / 2 ^ 60 with
  | 1 => bits w 52 7 ≠ 0 || badOperand w || w1 / 2 ^ 32 ≠ 0
  | 2 => bits w 52 7 ≠ 0 || badOperand w
  | 3 => bits w 52 7 ≠ 0 || badOperand w
  | 4 => bits w 52 6 ≠ 0 || badOperand w || w2 / 2 ^ 32 ≠ 0
  | 5 => bits w 41 18 ≠ 0
  | 6 => bits w 32 27 ≠ 0
  | 7 => bits w 56 1 ≠ 0 || (if w.testBit 58 then w.testBit 59 || 1 < bits w 0 52 else badOperand w)
  | 8 => bits w 17 41 ≠ 0 || bits w 58 2 = 3
  | 9 => bits w 0 59 ≠ 0
  | 10 =>
    bits w 52 5 ≠ 0 || bits w 6 34 ≠ 0 || 1 < bits w 58 2
      || (if bits w 58 2 = 0 then 31 < bits w 0 6 else w.testBit 57 || bits w 40 12 ≠ 0)
  | 11 => bits w 35 24 ≠ 0
  | 12 => bits w 52 5 ≠ 0 || badOperand w || w1 / 2 ^ 60 ≠ 0 || bits w1 52 7 ≠ 0 || badOperand w1 || w2 / 2 ^ 13 ≠ 0
  | 13 => bits w 32 27 ≠ 0
  | _ => bits w 0 60 ≠ 0

/-! ### Targets of memory operands (R319, R334) -/

/-- Where an operand's access goes: an address of this node, or a node and its address. -/
inductive Target where
  | own (a : Nat)
  | far (node a : Nat)
  deriving DecidableEq, Repr

def Mach.target (m : Mach) (w : Nat) : Target :=
  let wall := bits w 0 52
  if w.testBit 59 then .own (wall % 2 ^ 40)
  else match m.ownAddress wall with
    | some a => .own a
    | none => .far (wall / 2 ^ 40) (wall % 2 ^ 40)

def Target.addr : Target → Nat
  | .own a => a
  | .far _ a => a

/-- The target at a byte offset. -/
def Target.plus (t : Target) (o : Nat) : Target :=
  match t with
  | .own a => .own ((a + o) % 2 ^ 40)
  | .far n a => .far n ((a + o) % 2 ^ 40)

/-- A write that does not wait for its outcome: the status it posts with. -/
def State.postWrite (s : State) (by_ : Master) (t : Target) (data : List Nat) : Nat × State :=
  match t with
  | .own a =>
    let (r, s) := s.localWrite by_ a data true
    (if r.refused then sBadValue else sOk, s)
  | .far node a =>
    let x : RemoteReq := ⟨0, by_, true, node, a, data.length, true, 0⟩
    (sOk, s.on fun m => if m.reaches node then m.request x data else m.remoteFault by_ true node a data.length true)

/-- A read for sequencer k: the reply, or none when another node will give it, and then the number it carries. -/
def State.seqRead (s : State) (k : Nat) (t : Target) (n : Nat) : Sum Nat Reply × State :=
  let by_ := s.mach.seqBy k
  match t with
  | .own a =>
    let (r, s) := s.localRead by_ a n
    (.inr r, s)
  | .far node a =>
    if s.mach.reaches node then
      let (ref, m) := s.mach.newRef
      (.inl ref, { s with mach := m.request ⟨0, by_, false, node, a, n, false, ref⟩ [] })
    else (.inr (Reply.fault .remote n), s.on fun m => m.remoteFault by_ false node a n false)

/-- A write for sequencer k that waits for its outcome. -/
def State.seqWrite (s : State) (k : Nat) (t : Target) (data : List Nat) : Sum Nat Reply × State :=
  let by_ := s.mach.seqBy k
  match t with
  | .own a =>
    let (r, s) := s.localWrite by_ a data false
    (.inr r, s)
  | .far node a =>
    if s.mach.reaches node then
      let (ref, m) := s.mach.newRef
      (.inl ref, { s with mach := m.request ⟨0, by_, true, node, a, data.length, false, ref⟩ data })
    else (.inr (Reply.fault .remote 0), s.on fun m => m.remoteFault by_ true node a data.length false)

/-! ### The actions (R321) -/

/-- WRITE32 and WRITE64. -/
def State.actWrite (s : State) (k n : Nat) (ws : List Nat) : State :=
  let t := s.mach.target (ws.getD 0 0)
  if t.addr % n ≠ 0 then s.on fun m => m.seqDone k sBadValue 2
  else
    let (st, s) := s.postWrite (s.mach.seqBy k) t (natBytes n (ws.getD 1 0))
    s.on fun m => m.seqDone k st 2

/-- RMW. -/
def State.actRmw (s : State) (k : Nat) (ws : List Nat) : State :=
  match s.mach.target (ws.getD 0 0) with
  | .far _ _ => s.on fun m => m.seqDone k sBadValue 2
  | .own a =>
    if a % 4 ≠ 0 then s.on fun m => m.seqDone k sBadValue 2
    else
      let (r, s) := s.localRead (s.mach.seqBy k) a 4
      let old := ofNatBytes r.data
      let s := s.on fun m => m.put F.SEQ_LAST_LAST old k
      if r.cause.isSome then s.on fun m => m.seqDone k sGateFault 2
      else
        let w1 := ws.getD 1 0
        let new := (old &&& (2 ^ 32 - 1 - w1 / 2 ^ 32)) ||| w1 % 2 ^ 32
        let (r, s) := s.localWrite (s.mach.seqBy k) a (natBytes 4 new) false
        s.on fun m => m.seqDone k r.status 2

/-- The condition of POLL and IF_BITS on a value: (v AND MASK) = MATCH, inverted or not. -/
def bitsMatch (v w1 : Nat) (invert : Bool) : Bool := ((v &&& w1 / 2 ^ 32) = w1 % 2 ^ 32) != invert

/-- A read of a POLL has returned. -/
def Mach.pollReply (m : Mach) (k : Nat) (ws : List Nat) (r : Reply) : Mach :=
  let v := ofNatBytes r.data
  let m := m.put F.SEQ_LAST_LAST v k
  if r.cause.isSome then m.seqDone k sGateFault 3
  else if bitsMatch v (ws.getD 1 0) ((ws.getD 0 0).testBit 58) then m.seqDone k sOk 3
  else if ws.getD 2 0 % 2 ^ 32 = 0 then m.seqDone k sTimeout 3
  else m.seqWaits k .poll

/-- A read of a POLL. -/
def State.actPoll (s : State) (k : Nat) (ws : List Nat) (first : Bool) : State :=
  let t := s.mach.target (ws.getD 0 0)
  if t.addr % 4 ≠ 0 then s.on fun m => m.seqDone k sBadValue 3
  else
    let s := if first then s.on fun m => m.setSeqCore k { m.seqCore k with waitRaw := m.raw } else s
    match s.seqRead k t 4 with
    | (.inr r, s) => s.on fun m => m.pollReply k ws r
    | (.inl ref, s) => s.on fun m => m.seqWaits k (.remote ref)

/-- WAIT_EVENT. -/
def Mach.actWaitEvent (m : Mach) (k : Nat) (ws : List Nat) : Mach :=
  let w := ws.getD 0 0
  if !w.testBit 59 && w % 2 ^ 32 = 0 then m.seqDone k sEmpty 1
  else (m.setSeqCore k { m.seqCore k with waitRaw := m.raw }).seqWaits k (.event (bits w 32 9))

/-- WAIT_TIME. -/
def Mach.actWaitTime (m : Mach) (k : Nat) (ws : List Nat) : Mach :=
  let w := ws.getD 0 0
  let v := w % 2 ^ 32
  if !w.testBit 59 && v = 0 then m.seqDone k sEmpty 1
  else if w.testBit 59 && stampDiff v (m.now % 2 ^ 32) ≤ 0 then m.seqDone k sOk 1
  else (m.setSeqCore k { m.seqCore k with waitRaw := m.raw }).seqWaits k .time

/-- PC after n whole actions are skipped; a word that cannot be fetched stops there, and its fetch then faults. -/
def State.skipActions (s : State) (k : Nat) : Nat → Nat → Nat
  | 0, pc => pc
  | n + 1, pc =>
    if (s.fetchFault k pc 1).isSome then pc
    else s.skipActions k n ((pc + opWords (s.actionWord pc / 2 ^ 60)) % 2 ^ 17)

/-- IF_BITS goes on with the value v, having set ST where its read was refused. -/
def State.ifBits (s : State) (k : Nat) (ws : List Nat) (v : Nat) : State :=
  let w := ws.getD 0 0
  let pc := s.mach.seqPc k + 2
  let next := if bitsMatch v (ws.getD 1 0) (w.testBit 57) then pc else s.skipActions k (bits w 52 4) pc
  s.on fun m => (m.sampleEnd k false).seqNext k (next + 2 ^ 17 - m.seqPc k)

/-- The read of IF_BITS has returned. -/
def State.ifBitsReply (s : State) (k : Nat) (ws : List Nat) (r : Reply) : State :=
  let v := ofNatBytes r.data
  let s := s.on fun m => m.put F.SEQ_LAST_LAST v k
  let s := if r.cause.isSome then s.on fun m => m.put F.SEQ_ST_ST sGateFault k else s
  s.ifBits k ws v

/-- IF_BITS. -/
def State.actIfBits (s : State) (k : Nat) (ws : List Nat) : State :=
  let w := ws.getD 0 0
  if w.testBit 58 then
    s.ifBits k ws (if bits w 0 52 = 0 then s.mach.get F.SEQ_ST_ST k else s.mach.get F.SEQ_LAST_LAST k % 2 ^ 32)
  else
    let t := s.mach.target w
    if t.addr % 4 ≠ 0 then
      (s.on fun m => (m.put F.SEQ_ST_ST sBadValue k).put F.SEQ_LAST_LAST 0 k).ifBits k ws 0
    else match s.seqRead k t 4 with
      | (.inr r, s) => s.ifBitsReply k ws r
      | (.inl ref, s) => s.on fun m => m.seqWaits k (.remote ref)

/-- JUMP. -/
def Mach.actJump (m : Mach) (k : Nat) (ws : List Nat) : Mach :=
  let w := ws.getD 0 0
  let st := m.get F.SEQ_ST_ST k
  let target := bits w 0 17
  let taken : Bool := bits w 58 2 = 0 || (bits w 58 2 = 1 && st = sOk) || (bits w 58 2 = 2 && st ≠ sOk)
  if !taken then m.seqNext k 1
  else if m.inRegion k target then m.put F.SEQ_STATE_PC target k
  else m.seqFault k 2

/-- FENCE, once every earlier write has completed. -/
def Mach.actFence (m : Mach) (k : Nat) (ws : List Nat) : Mach :=
  let (fault, m) := m.fence (.seq k)
  let m := if (ws.getD 0 0).testBit 59 then m.gateSync else m
  m.seqDone k (if fault then sGateFault else sOk) 1

def addrDoorbell : Nat := 0x30010
def addrCmpFence : Nat := 0x600020
def addrGroupCommit (g : Nat) : Nat := 0x600100 + 0x40 * g

/-- SIGNAL, once every earlier write has completed. A doorbell for the node's own ID rings here (log entry 53). -/
def State.actSignal (s : State) (k : Nat) (ws : List Nat) : State :=
  let w := ws.getD 0 0
  let node := bits w 40 12
  let ix := bits w 0 6
  let (fault, m) := s.mach.fence (.seq k)
  let s := { s with mach := m }
  if fault then s.on fun m => m.seqDone k sGateFault 1
  else if bits w 58 2 = 0 && w.testBit 57 && node ≠ s.mach.nodeId then
    s.on fun m => (m.sendRouted 12 1 node [ix] 1).seqDone k sOk 1
  else
    let (a, data) := if bits w 58 2 = 0 then (addrDoorbell, natBytes 4 (2 ^ ix)) else (addrCmpFence, natBytes 8 (2 ^ ix))
    let (r, s) := s.localWrite (s.mach.seqBy k) a data false
    s.on fun m => m.seqDone k r.status 1

/-- COMMIT, once every earlier write has completed. -/
def State.actCommit (s : State) (k : Nat) (ws : List Nat) : State :=
  let w := ws.getD 0 0
  let g := bits w 32 3
  let (fault, m) := s.mach.fence (.seq k)
  let s := { s with mach := m }
  if fault then s.on fun m => m.seqDone k sGateFault 1
  else
    let waits := w.testBit 59
    let s := if waits then s.on fun m => m.seqWaits k (.commit g) else s
    let (r, s) := s.localWrite (s.mach.seqBy k) (addrGroupCommit g) (natBytes 4 (w % 2 ^ 32)) false
    if r.status ≠ sOk || !waits then s.on fun m => m.seqDone k r.status 1 else s

/-- LOG. -/
def Mach.actLog (m : Mach) (k : Nat) (ws : List Nat) : Mach :=
  (m.logAction k (ws.getD 0 0 % 2 ^ 32) ((ws.getD 0 0).testBit 59)).seqDone k sOk 1

/-- YIELD (R323). -/
def Mach.actYield (m : Mach) (k : Nat) : Mach :=
  let s := m.get F.SEQ_STATE_SRC k
  let m := (m.put F.EVC_SRC_2_RESUME (m.seqPc k + 1) s).putB F.EVC_SRC_2_RESUME_VALID true s
  ((m.setBitOf .EVC_PEND s).count 259).seqExit k

/-! ### COPY (R321) -/

/-- Bytes of a beat: 8 when both addresses and LEN are multiples of 8. -/
def copyBeat (src dst len : Nat) : Nat := if src % 8 = 0 && dst % 8 = 0 && len % 8 = 0 then 8 else 4

/-- A COPY ends after `moved` bytes. -/
def Mach.copyEnd (m : Mach) (k st moved : Nat) : Mach := (m.put F.SEQ_LAST_LAST moved k).seqDone k st 3

/-- What the words of a COPY say: source and destination of a beat, bytes of a beat, and beats. -/
structure CopyPlan where
  src : Nat → Target
  dst : Nat → Target
  beat : Nat
  beats : Nat

def Mach.copyPlan (m : Mach) (ws : List Nat) : CopyPlan :=
  let w := ws.getD 0 0
  let src := m.target w
  let dst := m.target (ws.getD 1 0)
  let len := bits (ws.getD 2 0) 0 13
  let b := copyBeat src.addr dst.addr len
  { src := fun i => if w.testBit 58 then src else src.plus (i * b)
    dst := fun i => if w.testBit 57 then dst else dst.plus (i * b)
    beat := b, beats := len / b }

/-- The write of beat i has ended: false ends the COPY. -/
def Mach.copyWrote (m : Mach) (k i : Nat) (p : CopyPlan) (r : Reply) : Bool × Mach :=
  if r.status ≠ sOk then (false, m.copyEnd k r.status (i * p.beat)) else (true, m)

/-- The write of beat i, with its data: whether the next beat follows at once. -/
def State.copyStore (s : State) (k i : Nat) (p : CopyPlan) (data : List Nat) : Bool × State :=
  match s.seqWrite k (p.dst i) data with
  | (.inl ref, s) => (false, s.on fun m => m.seqWaits k (.copy i ref true))
  | (.inr r, s) =>
    let (go, m) := s.mach.copyWrote k i p r
    (go, { s with mach := m })

/-- Beat i: whether the next follows at once. -/
def State.copyOne (s : State) (k i : Nat) (p : CopyPlan) : Bool × State :=
  match s.seqRead k (p.src i) p.beat with
  | (.inl ref, s) => (false, s.on fun m => m.seqWaits k (.copy i ref false))
  | (.inr r, s) =>
    if r.cause.isSome then (false, s.on fun m => m.copyEnd k sGateFault (i * p.beat))
    else s.copyStore k i p r.data

/-- The beats from i on, until one waits for another node. -/
def State.copyFrom (s : State) (k : Nat) (p : CopyPlan) : Nat → Nat → State
  | 0, _ => s
  | fuel + 1, i =>
    if p.beats ≤ i then s.on fun m => m.copyEnd k sOk (p.beats * p.beat)
    else
      let (go, s) := s.copyOne k i p
      if go then s.copyFrom k p fuel (i + 1) else s

/-- COPY. -/
def State.actCopy (s : State) (k : Nat) (ws : List Nat) : State :=
  let len := bits (ws.getD 2 0) 0 13
  let src := (s.mach.target (ws.getD 0 0)).addr
  let dst := (s.mach.target (ws.getD 1 0)).addr
  let b := copyBeat src dst len
  if len = 0 then s.on fun m => m.seqDone k sEmpty 3
  else if 4096 < len || len % 4 ≠ 0 || src % b ≠ 0 || dst % b ≠ 0 then s.on fun m => m.seqDone k sBadValue 3
  else s.copyFrom k (s.mach.copyPlan ws) 1026 0

/-- A COPY goes on with the response to the request of beat i. -/
def State.copyReply (s : State) (k i : Nat) (writing : Bool) (ws : List Nat) (r : Reply) : State :=
  let p := s.mach.copyPlan ws
  let (go, s) := if writing then
      let (go, m) := s.mach.copyWrote k i p r
      (go, { s with mach := m })
    else if r.status ≠ sOk then (false, s.on fun m => m.copyEnd k r.status (i * p.beat))
    else s.copyStore k i p r.data
  if go then s.copyFrom k p 1026 (i + 1) else s

/-! ### Issuing (R322) -/

/-- FENCE, SIGNAL and COMMIT wait for the requester's earlier remote writes, and then act (R340). -/
def State.actOrdered (s : State) (k op : Nat) (ws : List Nat) : State :=
  if s.mach.writesOpen (.seq k) then s.on fun m => m.seqWaits k .retry
  else
    match op with
    | 9 => s.on fun m => m.actFence k ws
    | 10 => s.actSignal k ws
    | _ => s.actCommit k ws

/-- The action with this opcode, its words fetched and sound. -/
def State.act (s : State) (k op : Nat) (ws : List Nat) : State :=
  match op with
  | 0 => s.on fun m => (m.sampleEnd k false).seqNext k 1
  | 1 => s.actWrite k 4 ws
  | 2 => s.actWrite k 8 ws
  | 3 => s.actRmw k ws
  | 4 => s.actPoll k ws true
  | 5 => s.on fun m => m.actWaitEvent k ws
  | 6 => s.on fun m => m.actWaitTime k ws
  | 7 => s.actIfBits k ws
  | 8 => s.on fun m => m.actJump k ws
  | 9 => s.actOrdered k 9 ws
  | 10 => s.actOrdered k 10 ws
  | 11 => s.actOrdered k 11 ws
  | 12 => s.actCopy k ws
  | 13 => s.on fun m => m.actLog k ws
  | 14 => s.on fun m => m.actYield k
  | _ => s.on fun m => m.seqExit k

/-- The sequencers work in the modes of R325 until stage S5. -/
def Mach.seqMay (m : Mach) (k st : Nat) : Bool := m.serves && k < 16 && m.seqState k = st

/-- Sequencer k issues the action at its PC, which has this opcode. A fetch that faults shows no opcode, so it faults
under any of the 16 commands (log entry 54). -/
def State.seqIssue (s : State) (k op : Nat) : State :=
  if !s.mach.seqMay k seqRun then s
  else match s.fetchAction k with
    | .inl code => s.on fun m => m.seqFault k code
    | .inr ws =>
      if ws.getD 0 0 / 2 ^ 60 ≠ op then s
      else
        let s := s.fetchCorrected (s.mach.seqPc k) ws.length
        if badWord ws then s.on fun m => m.seqFault k 1
        else
          let s := s.on fun m =>
            (m.put F.SEQ_ST_OP op k).sampleIssue k (ws.getD 0 0) (ws.getD 1 0) (op = 8 || 14 ≤ op)
          s.act k op ws

/-- The action that sequencer k, in WAIT, is at. -/
def State.waitingAction (s : State) (k : Nat) : Option (List Nat) :=
  if !s.mach.seqMay k seqWait then none
  else match s.fetchAction k with
    | .inl _ => none
    | .inr ws => some ws

/-- POLL: its first read, or a further one. -/
def State.seqPoll (s : State) (k : Nat) : State :=
  match s.waitingAction k with
  | some ws => if (s.mach.seqCore k).wait = .poll then s.actPoll k ws false else s
  | none => s.seqIssue k 4

/-- POLL_TIMEOUT: also while a read of another node is out. -/
def State.seqPollTimeout (s : State) (k : Nat) : State :=
  match s.waitingAction k with
  | some ws =>
    let w := (s.mach.seqCore k).wait
    let reading : Bool := match w with
      | .poll => true
      | .remote _ => ws.getD 0 0 / 2 ^ 60 = 4
      | _ => false
    if reading then s.on fun m => m.seqDone k sTimeout 3 else s
  | none => s

/-- WAIT_EVENT_TIMEOUT: not with FOREVER. -/
def State.seqWaitEventTimeout (s : State) (k : Nat) : State :=
  match s.waitingAction k, (s.mach.seqCore k).wait with
  | some ws, .event _ => if (ws.getD 0 0).testBit 59 then s else s.on fun m => m.seqDone k sTimeout 1
  | _, _ => s

/-- WAIT_TIME_EXPIRY. -/
def Mach.seqWaitTimeExpiry (m : Mach) (k : Nat) : Mach :=
  if m.seqMay k seqWait && (m.seqCore k).wait = .time then m.seqDone k sOk 1 else m

/-- RUN_LIMIT (R324): the run has lasted too long, waits included. -/
def Mach.seqRunLimit (m : Mach) (k : Nat) : Mach :=
  if m.seqMay k seqRun || m.seqMay k seqWait then m.seqFault k 4 else m

/-! ### What responses of other nodes set going -/

/-- A response to the request with this number, for sequencer k. -/
def State.seqReply (s : State) (k ref : Nat) (r : Reply) : State :=
  match s.waitingAction k, (s.mach.seqCore k).wait with
  | some ws, .remote n =>
    if n ≠ ref then s
    else if ws.getD 0 0 / 2 ^ 60 = 4 then s.on fun m => m.pollReply k ws r
    else s.ifBitsReply k ws r
  | some ws, .copy i n writing => if n = ref then s.copyReply k i writing ws r else s
  | _, _ => s

/-- FENCE, SIGNAL or COMMIT acts when the last write it waits for has completed. -/
def State.seqRetry (s : State) (k : Nat) : State :=
  match s.waitingAction k, (s.mach.seqCore k).wait with
  | some ws, .retry => s.actOrdered k (ws.getD 0 0 / 2 ^ 60) ws
  | _, _ => s

end Sys2Proof.Machine
end

