-- ==== Sys2Proof/Machine/Masters.lean ====
section
/-! DEFINITION. The SPI target (R353, R354) and the debug master (R446). -/

namespace Sys2Proof.Machine

/-! ### SPI target -/

def spiMaster : Master := ⟨.spi, 28⟩

/-- The port works: where it is enabled, and in QUARANTINE in any case (R383). -/
def Mach.spiOn (m : Mach) : Bool := m.mode = .quarantine || (m.serves && m.on F.MEM_SPI_CFG_EN)

/-- A transaction is dropped whole (R354). -/
def Mach.spiDrop (m : Mach) : Mach :=
  let m := m.setGate { m.gate with spiDropped := min 255 (m.gate.spiDropped + 1) }
  ((m.bump F.MEM_SPI_DROPS_COUNT).trouble F.MEM_TROUBLE_SPI_DROP).raiseLimited 343 (msTicks 1)

def Mach.spiResult (m : Mach) (r : Nat) : Mach := m.setGate { m.gate with spiResult := r }

/-- An address as the port takes it: a wall address; bits [63:52] are 0. -/
def Mach.spiTarget (m : Mach) (a : Nat) : Target :=
  match m.ownAddress (a % 2 ^ 52) with
  | some l => .own l
  | none => .far (a % 2 ^ 52 / 2 ^ 40) (a % 2 ^ 40)

/-- WRITE: one posted access. -/
def State.spiWrite (s : State) (a : Nat) (data : List Nat) (whole : Bool) : State :=
  if !s.mach.spiOn then s
  else
    let s := s.on fun m => m.count 12
    if !whole || data.length % 4 ≠ 0 || 256 < data.length then s.on fun m => m.spiDrop
    else if data.isEmpty then s.on fun m => m.spiResult sEmpty
    else
      let (st, s) := s.postWrite spiMaster (s.mach.spiTarget a) data
      s.on fun m => m.spiResult st

/-- The read ends: its bytes are ready. -/
def Mach.spiReadEnd (m : Mach) (r : Reply) : Mach :=
  m.setGate { m.gate with spiBusy := none, spiReady := some r.data, spiResult := r.status }

/-- A read of n bytes covers SYS_FENCE. -/
def readsFence (a n : Nat) : Bool := a = 0x40 && (n = 4 || n = 8)

/-- The outstanding read is one of SYS_FENCE, which returns after the port's earlier writes have completed (R340). -/
def State.spiRetry (s : State) : State :=
  match s.mach.gate.spiBusy with
  | some (wall, n) =>
    match s.mach.spiTarget wall with
    | .own a =>
      if s.mach.writesOpen .spi then s
      else
        let (r, s) := s.localRead spiMaster a n
        s.on fun m => m.spiReadEnd r
    | .far _ _ => s
  | none => s

/-- READ_REQ. A completed read is replaced by the next one. -/
def State.spiReadReq (s : State) (a n : Nat) (whole : Bool) : State :=
  if !s.mach.spiOn then s
  else
    let s := s.on fun m => m.count 12
    if !whole || n % 4 ≠ 0 || 256 < n then s.on fun m => m.spiDrop
    else if s.mach.gate.spiBusy.isSome then s.on fun m => (m.spiResult 4).spiDrop
    else if n = 0 then s.on fun m => m.spiResult sEmpty
    else
      let s := s.on fun m => m.setGate { m.gate with spiReady := none, spiResult := sOk }
      match s.mach.spiTarget a with
      | .own l =>
        if readsFence l n && s.mach.writesOpen .spi then
          s.on fun m => m.setGate { m.gate with spiBusy := some (a % 2 ^ 52, n) }
        else
          let (r, s) := s.localRead spiMaster l n
          s.on fun m => m.spiReadEnd r
      | .far node l =>
        if s.mach.reaches node then
          s.on fun m => (m.setGate { m.gate with spiBusy := some (a % 2 ^ 52, n) }).request
            ⟨0, spiMaster, false, node, l, n, false, 0⟩ []
        else s.on fun m => (m.remoteFault spiMaster false node l n false).spiReadEnd (Reply.fault .remote n)

/-- STATUS: four bytes, and the count of drops starts again. -/
def Mach.spiStatus (m : Mach) : Mach :=
  if !m.spiOn then m
  else
    let g := m.gate
    let flag (b : Bool) (v : Nat) : Nat := if b then v else 0
    let n := (g.spiReady.map List.length).getD 0
    let b0 := flag g.spiBusy.isSome 128 + flag g.spiReady.isSome 64 + flag (g.faulted.contains .spi) 32 + g.spiResult % 16
    ((m.count 12).emit (.spi [b0, n / 256, n % 256, g.spiDropped])).setGate { g with spiDropped := 0 }

/-- READ_DATA: the bytes of the completed read, which stay ready until the next READ_REQ (log entry 55); zeros when
none is ready. -/
def Mach.spiReadData (m : Mach) : Mach :=
  if !m.spiOn then m else (m.count 12).emit (.spi ((m.gate.spiReady).getD [0]))

/-- SPI_CS_LIMIT and SPI_UNKNOWN_COMMAND: a transaction that is dropped whatever it held. -/
def Mach.spiAbort (m : Mach) : Mach := if m.spiOn then (m.count 12).spiDrop else m

def spiCommands : List Nat := [0x02, 0x03, 0x05, 0x0B]

def Mach.spiUnknown (m : Mach) (code : Nat) : Mach := if spiCommands.contains (code % 256) then m else m.spiAbort

/-! ### Debug master -/

def dbgMaster : Master := ⟨.debug, 2⟩

/-- What Capture-DR of DBG_ACCESS gives: DATA, STAT and BY of the last access. -/
def Mach.dbgWord (m : Mach) : Nat :=
  m.tst.dbgData % 2 ^ 64 * 2 ^ 64 + m.tst.dbgStat * 2 ^ 57 + (if m.tst.dbgRun.isSome then 2 ^ 56 else 0)

def Mach.dbgStat (m : Mach) (st : Nat) : Mach := m.setTst { m.tst with dbgStat := st }

/-- A scan of DBG_ACCESS that starts nothing. -/
def Mach.dbgNop (m : Mach) : Mach := m.capture irDbgAccess m.dbgWord

/-- The access of OP to a wall address: bytes, and whether it writes. -/
def dbgLen (op : Nat) : Nat := if op = 3 || op = 4 then 8 else 4
def dbgWrites (op : Nat) : Bool := op = 2 || op = 4

/-- The access as it starts: one to another node goes out at once. -/
def Mach.dbgBegin (m : Mach) (op wall data : Nat) : Mach :=
  let m := m.setTst { m.tst with dbgRun := some (op, wall, data), dbgRsp := none }
  match m.spiTarget wall with
  | .own _ => m
  | .far node a =>
    let n := dbgLen op
    if op = 5 then m
    else if m.reaches node then
      m.request ⟨0, dbgMaster, dbgWrites op, node, a, n, false, 0⟩ (if dbgWrites op then natBytes n data else [])
    else
      let m := m.remoteFault dbgMaster (dbgWrites op) node a n false
      m.setTst { m.tst with dbgRsp := some (3, 0) }

/-- Update-DR of DBG_ACCESS with an OP other than NOP. -/
def Mach.dbgStart (m : Mach) (op wall data : Nat) : Mach :=
  let m := m.dbgNop
  if m.mode ≠ .service then m.dbgStat 3
  else if m.tst.dbgRun.isSome then m.dbgStat 4
  else if op ≠ 5 && wall % dbgLen op ≠ 0 then m.dbgStat 5
  else m.dbgBegin op wall data

/-- The access ends with a STAT and data: a rejected one is recorded, a performed one counted. -/
def Mach.dbgEnd (m : Mach) (wall st data : Nat) : Mach :=
  let m := m.setTst { m.tst with dbgRun := none, dbgRsp := none, dbgStat := st, dbgData := data }
  if st = 1 || st = 2 then (m.trouble F.DBG_TROUBLE_ACCESS_FAULT).raise 440
  else (m.bump F.DBG_ACCESSES_COUNT).put F.DBG_LAST_ADDR wall

/-- STAT of a local access; a value that the target refuses is a BAD_VALUE. -/
def Reply.dbgStat (r : Reply) : Nat := if r.cause = some .locked then 2 else if r.cause.isSome then 1 else if r.refused then 5 else 0

/-- DBG_ACCESS_DONE: the running access completes. One to another node does so with its response. -/
def State.dbgAccessDone (s : State) : State :=
  match s.mach.tst.dbgRun with
  | none => s
  | some (op, wall, data) =>
    if s.mach.mode ≠ .service then s
    else if op = 5 then
      let (r, s) := s.localRead dbgMaster 0x40 4
      s.on fun m => m.dbgEnd (m.wallAddr 0x40) r.dbgStat (ofNatBytes r.data)
    else match s.mach.spiTarget wall, s.mach.tst.dbgRsp with
      | .own a, _ =>
        if dbgWrites op then
          let (r, s) := s.localWrite dbgMaster a (natBytes (dbgLen op) data) false
          s.on fun m => m.dbgEnd wall r.dbgStat 0
        else
          let (r, s) := s.localRead dbgMaster a (dbgLen op)
          s.on fun m => m.dbgEnd wall r.dbgStat (ofNatBytes r.data)
      | .far _ _, some (st, v) => s.on fun m => m.dbgEnd wall (if st = 0 then 0 else if st = 2 then 5 else 1) v
      | .far _ _, none => s

end Sys2Proof.Machine
end

