-- ==== Sys2Proof/Machine/Manage.lean ====
section
/-! DEFINITION. The management protocol (R138 to R141): opening a session, the requests of a session and their answers,
and the datagram on the wire. -/

namespace Sys2Proof.Machine

/-! ### Sources of datagrams -/

/-- Two peers are one source address, or one node. -/
def MgmtPeer.same : MgmtPeer → MgmtPeer → Bool
  | .eth _ _ a _, .eth _ _ b _ => a = b
  | .fabric a, .fabric b => a = b
  | _, _ => false

def mgmtSource0 (p : MgmtPeer) : MgmtSource := ⟨p, none, [], none⟩

def Mach.mgmtSource (m : Mach) (p : MgmtPeer) : MgmtSource :=
  (m.eth.sources.find? fun (x : MgmtSource) => x.peer.same p).getD (mgmtSource0 p)

def Mach.setMgmtSource (m : Mach) (x : MgmtSource) : Mach :=
  m.setEth { m.eth with sources := m.eth.sources.filter (fun (y : MgmtSource) => !y.peer.same x.peer) ++ [x] }

/-- Tokens of a bucket are counted in ticks of 0.64 ns per second. -/
def second : Nat := 1562500000

/-- A datagram is dropped with a reason (R138, R139). -/
def Mach.mgmtDrop (m : Mach) (p : MgmtPeer) (reason : Nat) : Mach := m.ethDrop p.port reason

/-! ### Sending -/

/-- The 16 header bytes of a datagram (R138). -/
def mgmtHeader (type session seq status len : Nat) : List Nat :=
  natBytes 8 (0x4C44 * 2 ^ 48 + 2 ^ 40 + type % 256 * 2 ^ 32 + session % 2 ^ 32) ++
  natBytes 8 (seq % 2 ^ 32 * 2 ^ 32 + len % 65536 * 65536 + status % 65536)

/-- A datagram leaves for its peer: on the peer's Ethernet port, or as a routed MGMT packet. -/
def Mach.mgmtSend (m : Mach) (p : MgmtPeer) (type session seq status : Nat) (body : List Nat) (key : Option (List Nat)) :
    Mach :=
  let head := mgmtHeader type session seq status body.length
  let tag := match key with
    | some k => (hmac k (head ++ body)).take 16
    | none => []
  match p with
  | .eth port _ _ _ => (m.emit (.mgmtTx p type session seq status body tag)).frameSent port
  | .fabric node =>
    let data := head ++ body ++ tag
    m.sendRouted 11 3 node (bytesWords data.length data) data.length

/-! ### Opening a session (R139, R141) -/

/-- The key table row of a key index. -/
def Mach.mgmtKey (m : Mach) (key : Nat) : Option (List Nat) := m.cfg.keys.find? fun e => b1 e 0 = key

def hostKey (row : List Nat) : List Nat := (row.drop 16).take 32

def Mach.serialBytes (m : Mach) : List Nat := natBytes 8 m.cfg.serial

def Mach.dropAttempt (m : Mach) (p : MgmtPeer) : Mach :=
  m.setEth { m.eth with attempts := m.eth.attempts.filter fun (a : MgmtSession) => !a.peer.same p }

/-- OPEN. -/
def Mach.openMgmt (m : Mach) (p : MgmtPeer) (key : Nat) (nonce : List Nat) : Mach :=
  let src := m.mgmtSource p
  if !m.serves || src.locked.isSome then m
  else match takeTokens src.bucket m.raw 8 (8 * second) second with
    | none => m.mgmtDrop p 14
    | some b =>
      let m := m.setMgmtSource { src with bucket := some b }
      if (m.mgmtKey key).isNone || nonce.length ≠ 16 then m.mgmtDrop p 13
      else
        let m := m.count 13
        if 4 ≤ m.eth.sessions.length then m.mgmtSend p 2 0 0 4 [] none
        else
          let (v, m) := m.freeBits 128
          let nn := natBytes 16 v
          let m := m.dropAttempt p
          let m := m.setEth { m.eth with attempts := m.eth.attempts ++ [⟨p, key, nonce, nn, [], 0, [0], 0, m.raw, none, [], []⟩] }
          m.mgmtSend p 2 0 0 0 (nn ++ m.serialBytes) none

/-- A wrong PROVE ends the attempt; the eighth within 1 s locks the source out. -/
def Mach.mgmtProveFail (m : Mach) (p : MgmtPeer) : Mach :=
  let src := m.mgmtSource p
  let fails := (src.fails.filter fun t => decide (m.raw < t + second)) ++ [m.raw]
  let m := m.setMgmtSource { src with fails := fails, locked := if 8 ≤ fails.length then some m.raw else src.locked }
  ((m.dropAttempt p).trouble F.ETH_TROUBLE_MGMT_AUTH p.port).raise p.event

/-- The session of an attempt opens under the lowest free number. -/
def Mach.openSession (m : Mach) (p : MgmtPeer) (a : MgmtSession) (row : List Nat) : Mach :=
  let k := hostKey row
  match (List.range 4).find? fun i => (m.session i).isNone with
  | none => (m.dropAttempt p).mgmtSend p 2 0 0 4 [] none
  | some i =>
    let sk := hmac k (a.hostNonce ++ a.nodeNonce ++ m.serialBytes ++ [1])
    let x : MgmtSession := { a with peer := p, sessionKey := sk, txSeq := 1, lastRaw := m.raw }
    let m := (m.dropAttempt p).setSession i x
    let m := (m.showSession i (b1 row 1) x).raise p.event
    m.mgmtSend p 4 i 1 0 (hmac k (a.nodeNonce ++ a.hostNonce ++ m.serialBytes)) (some sk)

/-- PROVE. -/
def Mach.prove (m : Mach) (p : MgmtPeer) (mac : List Nat) : Mach :=
  if !m.serves then m
  else match m.eth.attempts.find? fun (a : MgmtSession) => a.peer.same p with
    | none => m.mgmtDrop p 13
    | some a =>
      match m.mgmtKey a.key with
      | none => (m.dropAttempt p).mgmtDrop p 13
      | some row =>
        let m := m.count 13
        if hmac (hostKey row) (a.hostNonce ++ a.nodeNonce ++ m.serialBytes) = mac then m.openSession p a row
        else m.mgmtProveFail p

/-- MGMT_LOCKOUT_END: 10 s after the lock. -/
def Mach.mgmtLockoutEnd (m : Mach) (p : MgmtPeer) : Mach :=
  let src := m.mgmtSource p
  if src.locked.isSome then m.setMgmtSource { src with locked := none, fails := [] } else m

/-! ### Datagrams of a session -/

/-- The SEQ is above the highest seen, or up to 64 below it and not yet seen. -/
def MgmtSession.newSeq (x : MgmtSession) (seq : Nat) : Bool :=
  x.highSeq < seq || (x.highSeq ≤ seq + 64 && !x.seen.contains seq)

/-- A datagram of session k: whether it is accepted (R129, R139). `p` is its source, for the port of a drop. -/
def Mach.mgmtAccept (m : Mach) (k seq : Nat) (tagGood : Bool) (port : Nat) : Bool × Mach :=
  match m.session k with
  | none => (false, m.ethDrop port 13)
  | some x =>
    if !tagGood || !x.newSeq seq then (false, m.ethDrop port 13)
    else match takeTokens x.bucket m.raw 2000 (64 * second) second with
      | none => (false, m.ethDrop port 14)
      | some b =>
        let high := max x.highSeq seq
        let seen := (x.seen ++ [seq]).filter fun n => decide (high ≤ n + 64)
        (true, (m.setSession k { x with bucket := some b, highSeq := high, seen := seen, lastRaw := m.raw }).count 13)

/-- The port of session k. -/
def Mach.sessionPort (m : Mach) (k : Nat) : Nat := ((m.session k).map fun x => x.peer.port).getD 0

/-- The RESPONSE to request `seq`. -/
def Mach.mgmtRespond (m : Mach) (k seq status : Nat) (data : List Nat) : Mach :=
  match m.session k with
  | none => m
  | some x =>
    let n := x.txSeq + 1
    (m.setSession k { x with txSeq := n, peers := tDel x.peers seq }).mgmtSend ((tFind x.peers seq).getD x.peer) 6 k n status (natBytes 8 (seq % 2 ^ 32) ++ data) (some x.sessionKey)

/-- The first request that waits, when its answer is known, is answered. -/
def Mach.mgmtFlush1 (m : Mach) (k : Nat) : Mach :=
  match m.session k with
  | some x =>
    match x.waiting with
    | (seq, .done st data) :: rest => (m.setSession k { x with waiting := rest }).mgmtRespond k seq st data
    | _ => m
  | none => m

/-- Every request in SEQ order up to the first whose answer is not known is answered (R140). -/
def Mach.mgmtFlush (m : Mach) (k : Nat) : Mach := (List.range 8).foldl (fun (m : Mach) _ => m.mgmtFlush1 k) m

/-- A request's answer is now `a`. -/
def Mach.mgmtSet (m : Mach) (k seq : Nat) (a : MgmtAnswer) : Mach :=
  match m.session k with
  | some x => (m.setSession k { x with waiting := tIns x.waiting seq a }).mgmtFlush k
  | none => m

def Mach.mgmtDone (m : Mach) (k seq status : Nat) (data : List Nat) : Mach := m.mgmtSet k seq (.done status data)

/-- An accepted request is taken when fewer than 8 are outstanding; else it is answered BUSY. -/
def Mach.mgmtTake (m : Mach) (k seq : Nat) (tagGood : Bool) (port : Nat) : Bool × Mach :=
  if !m.serves then (false, m)
  else match m.mgmtAccept k seq tagGood port with
    | (false, m) => (false, m)
    | (true, m) =>
      if 8 ≤ ((m.session k).map fun x => x.waiting.length).getD 0 then (false, m.mgmtRespond k seq 4 [])
      else (true, m)

/-- The master of session k: the one its key names. -/
def Mach.mgmtBy (m : Mach) (k : Nat) : Master := ⟨.mgmt k, m.get F.ETH_MGMT_SESSION_MASTER k⟩

/-- Writes of session k, issued before request `seq`, that another node has not answered. -/
def Mach.mgmtWritesOpen (m : Mach) (k seq : Nat) : Bool :=
  let mine (q : RemoteReq) : Bool := q.by_.who = .mgmt k && q.write && q.ref < seq
  m.fab.remote.any mine || m.fab.heldReqs.any fun h => mine h.1

/-- An access of session k to another node (R107). -/
def Mach.mgmtFar (m : Mach) (k seq : Nat) (write : Bool) (node a n : Nat) (data : List Nat) : Mach :=
  if m.reaches node then
    (m.mgmtSet k seq .remote).request ⟨0, m.mgmtBy k, write, node, a, n, false, seq⟩ data
  else (m.remoteFault (m.mgmtBy k) write node a n false).mgmtDone k seq 3 (if write then [] else List.replicate n 0)

/-- READ of an accepted request. -/
def State.mgmtReadNow (s : State) (k seq addr len : Nat) : State :=
  if len = 0 then s.on fun m => m.mgmtDone k seq sEmpty []
  else if 1024 < len then s.on fun m => m.mgmtDone k seq sBadValue []
  else match s.mach.spiTarget addr with
    | .own a =>
      if readsFence a len && s.mach.mgmtWritesOpen k seq then s.on fun m => m.mgmtSet k seq (.fenceRead a len)
      else
        let (r, s) := s.localRead (s.mach.mgmtBy k) a len
        s.on fun m => m.mgmtDone k seq r.status r.data
    | .far node a => s.on fun m => m.mgmtFar k seq false node a len []

/-- MGMT_READ. -/
def State.mgmtReadFrom (s : State) (port k seq : Nat) (tagGood : Bool) (addr len : Nat) : State :=
  match s.mach.mgmtTake k seq tagGood port with
  | (true, m) => { s with mach := m }.mgmtReadNow k seq addr len
  | (false, m) => { s with mach := m }

/-- WRITE of an accepted request. -/
def State.mgmtWriteNow (s : State) (k seq addr : Nat) (data : List Nat) : State :=
  if data.isEmpty then s.on fun m => m.mgmtDone k seq sEmpty []
  else if 1024 < data.length then s.on fun m => m.mgmtDone k seq sBadValue []
  else match s.mach.spiTarget addr with
    | .own a =>
      let (r, s) := s.localWrite (s.mach.mgmtBy k) a data false
      s.on fun m => m.mgmtDone k seq r.status []
    | .far node a => s.on fun m => m.mgmtFar k seq true node a data.length data

/-- MGMT_WRITE. -/
def State.mgmtWriteFrom (s : State) (port k seq : Nat) (tagGood : Bool) (addr : Nat) (data : List Nat) : State :=
  match s.mach.mgmtTake k seq tagGood port with
  | (true, m) => { s with mach := m }.mgmtWriteNow k seq addr data
  | (false, m) => { s with mach := m }

/-- The FENCE of session k answers: with GATE_FAULT when its pending-fault flag was set, as a read of SYS_FENCE shows
(R340). -/
def Mach.mgmtFenceEnd (m : Mach) (k seq : Nat) : Mach :=
  let (flag, m) := m.fence (.mgmt k)
  m.mgmtDone k seq (if flag then sGateFault else sOk) []

/-- MGMT_FENCE. -/
def Mach.mgmtFenceFrom (m : Mach) (port k seq : Nat) (tagGood : Bool) : Mach :=
  match m.mgmtTake k seq tagGood port with
  | (true, m) => if m.mgmtWritesOpen k seq then m.mgmtSet k seq .fence else m.mgmtFenceEnd k seq
  | (false, m) => m

/-- The management host's 512 pending bits: 64 bytes, lowest source first. -/
def Mach.hostBits (m : Mach) : List Nat := (List.range 16).flatMap fun w => natBytes 4 (m.rd .EVC_HOST_PEND (16 + w)).toNat

/-- Ones clear bits of the set. -/
def Mach.clearHostBits (m : Mach) (data : List Nat) : Mach :=
  (List.range 16).foldl (fun (m : Mach) w =>
    m.wr .EVC_HOST_PEND (16 + w)
      (m.rd .EVC_HOST_PEND (16 + w) &&& ~~~ BitVec.ofNat 64 (ofNatBytes ((data.drop (4 * w)).take 4)))) m

/-- MGMT_PENDING: the bits as they are, which the write data then clears. -/
def Mach.mgmtPendingFrom (m : Mach) (port k seq : Nat) (tagGood : Bool) (data : Option (List Nat)) : Mach :=
  match m.mgmtTake k seq tagGood port, data with
  | (true, m), none => m.mgmtDone k seq sOk m.hostBits
  | (true, m), some l =>
    if l.isEmpty then m.mgmtDone k seq sEmpty []
    else if 64 < l.length then m.mgmtDone k seq sBadValue []
    else (m.clearHostBits l).mgmtDone k seq sOk m.hostBits
  | (false, m), _ => m

/-- CLOSE. -/
def Mach.closeFrom (m : Mach) (port k seq : Nat) (tagGood : Bool) : Mach :=
  if !m.serves then m
  else match m.mgmtAccept k seq tagGood port with
    | (true, m) => m.endSession k
    | (false, m) => m

/-- MGMT_IDLE: no valid datagram for ETH_MGMT_CFG.IDLE. -/
def Mach.mgmtIdle (m : Mach) (k : Nat) : Mach := m.endSession k

/-- Another node has answered request `seq` of session k. -/
def Mach.mgmtReply (m : Mach) (k seq status : Nat) (data : List Nat) : Mach :=
  match m.session k with
  | some x => if tFind x.waiting seq = some .remote then m.mgmtDone k seq status data else m
  | none => m

/-- Requests that wait for earlier writes go on once these have completed. -/
def State.mgmtRetry1 (s : State) (k seq : Nat) (a : MgmtAnswer) : State :=
  if s.mach.mgmtWritesOpen k seq then s
  else match a with
    | .fence => s.on fun m => m.mgmtFenceEnd k seq
    | .fenceRead a n =>
      let (r, s) := s.localRead (s.mach.mgmtBy k) a n
      s.on fun m => m.mgmtDone k seq r.status r.data
    | _ => s

def State.mgmtRetry (s : State) : State :=
  (List.range 4).foldl (fun (s : State) k =>
    match s.mach.session k with
    | some x => x.waiting.foldl (fun (s : State) w => s.mgmtRetry1 k w.1 w.2) s
    | none => s) s

/-! ### The datagram on the wire (R138) -/

/-- The response to a request goes where its datagram came from (R128). -/
def Mach.notePeer (m : Mach) (k seq : Nat) (p : MgmtPeer) (tagGood : Bool) : Mach :=
  match m.session k with
  | some x =>
    let live := x.peers.filter fun e => (tFind x.waiting e.1).isSome
    if tagGood && x.newSeq seq then m.setSession k { x with peers := tIns live seq p } else m
  | none => m

/-- A request's body: OP, LEN, wall address, and write data. -/
def State.mgmtRequest (s : State) (port k seq : Nat) (tagGood : Bool) (body : List Nat) : State :=
  let w0 := ofNatBytes (body.take 8)
  let addr := bits (ofNatBytes ((body.drop 8).take 8)) 0 52
  let len := bits w0 32 12
  let data := body.drop 16
  let op := bits w0 60 4
  if op = 0 && data.isEmpty then s.mgmtReadFrom port k seq tagGood addr len
  else if op = 1 && data.length = len then s.mgmtWriteFrom port k seq tagGood addr data
  else if op = 2 && data.isEmpty then s.on fun m => m.mgmtFenceFrom port k seq tagGood
  else if op = 3 && data.isEmpty && len ≠ 0 then s.on fun m => m.mgmtPendingFrom port k seq tagGood none
  else if op = 3 && data.length = len then s.on fun m => m.mgmtPendingFrom port k seq tagGood (some data)
  else s.on fun m => m.ethDrop port 13

/-- A datagram from a peer. OPEN and PROVE carry no TAG; from ACCEPT on every datagram does (R139). -/
def State.mgmtDatagram (s : State) (p : MgmtPeer) (l : List Nat) : State :=
  let w0 := ofNatBytes (l.take 8)
  let w1 := ofNatBytes ((l.drop 8).take 8)
  let len := bits w1 16 16
  let type := bits w0 32 8
  let k := bits w0 0 32
  let seq := bits w1 32 32
  let body := (l.drop 16).take len
  let tagged := type = 5 || type = 7
  if !s.mach.serves then s
  else if l.length < 16 || bits w0 48 16 ≠ 0x4C44 || bits w0 40 8 ≠ 1
      || l.length ≠ 16 + len + (if tagged then 16 else 0) then s.on fun m => m.mgmtDrop p 13
  else
    let tagGood := match s.mach.session k with
      | some x => (hmac x.sessionKey (l.take (16 + len))).take 16 = l.drop (16 + len)
      | none => false
    match type with
    | 1 => if len = 17 then s.on fun m => m.openMgmt p (body.headD 0) (body.drop 1) else s.on fun m => m.mgmtDrop p 13
    | 3 => if len = 32 then s.on fun m => m.prove p body else s.on fun m => m.mgmtDrop p 13
    | 5 => if len < 16 then s.on fun m => m.mgmtDrop p 13 
           else (s.on fun m => m.notePeer k seq p tagGood).mgmtRequest p.port k seq tagGood body
    | 7 => if len = 0 then s.on fun m => m.closeFrom p.port k seq tagGood else s.on fun m => m.mgmtDrop p 13
    | _ => s.on fun m => m.mgmtDrop p 13

end Sys2Proof.Machine
end

