-- ==== Sys2Proof/Machine/EthFrame.lean ====
section
/-! DEFINITION. ETH_FRAME_RECEIVE: the checks and packet classes of R126 and R127, and what each class does (R128 to
R130, R85, R131 to R135, R138). -/

namespace Sys2Proof.Machine

/-- Big-endian value of n bytes from offset o. -/
def be (l : List Nat) (o n : Nat) : Nat := ofBe ((l.drop o).take n)

/-- What a frame brings up to its network layer. -/
structure EthIn where
  port : Nat
  src : Nat
  dst : Nat
  payload : List Nat

/-! ### Addresses (R128, R130) -/

def Mach.ownMac (m : Mach) (p : Nat) : Nat := m.get F.ETH_MAC_MAC p
def Mach.ownIpv4 (m : Mach) (p : Nat) : Nat := mapped4 (m.get F.ETH_IPV4_IPV4 p)
def Mach.ownIpv6 (m : Mach) (p : Nat) : Nat := m.wide .ETH_IPV6 p 4

/-- The link-local address derived from the MAC: fe80::/64 with the modified EUI-64. -/
def linkLocal (mac : Nat) : Nat :=
  0xFE80 * 2 ^ 112 + ((mac / 2 ^ 24 ^^^ 0x020000) * 2 ^ 40 + 0xFFFE * 2 ^ 24 + mac % 2 ^ 24)

def Mach.ownIps (m : Mach) (p : Nat) : List Nat := [m.ownIpv4 p, m.ownIpv6 p, linkLocal (m.ownMac p)]

/-- The solicited-node group of an IPv6 address. -/
def solicited (a : Nat) : Nat := 0xFF02 * 2 ^ 112 + 0x1FF000000 + a % 2 ^ 24

/-- Groups a port is in without a stream entry: all systems, the solicited-node groups of its addresses, and while it has
a PTP role the PTP groups (log entry 56). -/
def Mach.standingGroups (m : Mach) (p : Nat) : List Nat :=
  [mapped4 0xE0000001, 0xFF02 * 2 ^ 112 + 1, solicited (m.ownIpv6 p), solicited (linkLocal (m.ownMac p))] ++
  (if m.get F.TIME_ETH_CTL_ROLE p = 0 then []
   else [mapped4 0xE0000181, mapped4 0xE000006B, 0xFF0E * 2 ^ 112 + 0x181, 0xFF02 * 2 ^ 112 + 0x6B])

def Mach.memberGroups (m : Mach) (p : Nat) : List Nat := m.standingGroups p ++ (m.ethPort p).groups.map fun g => g.1

def ptpMacs : List Nat := [0x011B19000000, 0x0180C200000E]

/-- Step 3 of R127. -/
def Mach.macOk (m : Mach) (p dst type : Nat) : Bool :=
  dst = m.ownMac p || (dst = 2 ^ 48 - 1 && type = 0x0806) || (m.memberGroups p).any (fun g => groupMac g = dst)
    || (m.get F.TIME_ETH_CTL_ROLE p ≠ 0 && ptpMacs.contains dst && type = 0x88F7)

/-- Step 5 of R127. -/
def Mach.ipOk (m : Mach) (p dst : Nat) : Bool := (m.ownIps p).contains dst || (m.memberGroups p).contains dst

/-! ### Checksums -/

/-- The ones' complement sum of 16-bit big-endian words is all ones. -/
def sumWords : Nat → List Nat → Nat
  | 0, _ => 0
  | _, [] => 0
  | _, [a] => a * 256
  | n + 1, a :: b :: rest => a * 256 + b + sumWords n rest

def sumOk (s : Nat) : Bool := s ≠ 0 && s % 65535 = 0

/-- The sum over the UDP pseudo-header, header and data: both address families give the same sum form, and the prefix of
a mapped IPv4 address adds 0. -/
def udpSum (src dst : Nat) (udp : List Nat) : Nat :=
  sumWords 16 (beBytes 16 src ++ beBytes 16 dst) + 17 + udp.length + sumWords udp.length udp

/-! ### PTP messages (R85) -/

def ptpKindOf : Nat → Option PtpKind
  | 0 => some .sync
  | 1 => some .delayReq
  | 2 => some .pdelayReq
  | 3 => some .pdelayResp
  | 8 => some .followUp
  | 9 => some .delayResp
  | 10 => some .pdelayRespFollowUp
  | 11 => some .announce
  | 12 | 13 => some .other
  | _ => none

/-- The length of a message of IEEE 1588 without its TLVs. -/
def ptpLength : PtpKind → Nat
  | .announce => 64
  | .delayResp | .pdelayReq | .pdelayResp | .pdelayRespFollowUp => 54
  | _ => 44

/-- A message of IEEE 1588-2019, profile-independent (majorSdoId 0); none for another version, type or length, and for
IEEE 802.1AS, which R85 leaves out. -/
def ptpParse (l : List Nat) : Option PtpMsg :=
  let short : Bool := match ptpKindOf (be l 0 1 % 16) with
    | some k => decide (min l.length (be l 2 2) < ptpLength k)
    | none => true
  if l.length < 44 || l.length < be l 2 2 || short || be l 0 1 / 16 ≠ 0 || be l 1 1 % 16 ≠ 2 then none
  else (ptpKindOf (be l 0 1 % 16)).map fun k =>
    { kind := k, source := be l 20 10, domain := be l 4 1, seqId := be l 30 2, twoStep := (be l 6 1).testBit 1,
      correction := toSigned (be l 8 8) 64, timestamp := be l 34 6 * 1000000000 + be l 40 4,
      requester := be l 44 10,
      priority1 := be l 47 1, clockClass := be l 48 1, accuracy := be l 49 1, variance := be l 50 2,
      priority2 := be l 52 1, grandmaster := be l 53 8, stepsRemoved := be l 61 2 }

def Mach.ptpBytes (m : Mach) (p : Nat) (l : List Nat) : Mach :=
  match ptpParse l with
  | some x => m.ptpMessage p x l
  | none => m.ethDrop p 3

/-! ### Classes -/

/-- Class 1, ARP. -/
def Mach.arpClass (m : Mach) (e : EthIn) : Mach :=
  let l := e.payload
  let sip := mapped4 (be l 14 4)
  if l.length < 28 || be l 0 6 ≠ 0x000108000604 || mapped4 (be l 24 4) ≠ m.ownIpv4 e.port then m.ethDrop e.port 3
  else if be l 6 2 = 1 then m.limitedReply e.port false (.arpReply e.src sip)
  else if be l 6 2 = 2 then m.neighbourReply e.port sip (be l 8 6)
  else m.ethDrop e.port 3

/-- The target link-layer address of an advertisement; the frame's source where it has none. -/
def advertMac (l : List Nat) (src : Nat) : Nat := if be l 24 2 = 0x0201 && 32 ≤ l.length then be l 26 6 else src

/-- Class 4: reports of the groups a query asks for, 0 for all (R130). -/
def Mach.queryClass (m : Mach) (p : Nat) (v6 : Bool) (group : Nat) : Mach :=
  let asked (g : Nat) : Bool := (decide (g / 2 ^ 32 = 0xFFFF) != v6) && (group % 2 ^ 32 = 0 || g = group)
  ((m.ethPort p).groups.filter fun g => asked g.1).foldl
    (fun (m : Mach) g => (m.emit (.ethTx p (.report g.1 g.2 true))).frameSent p) m

/-- Classes 2, 3 and 4 over ICMPv6. -/
def Mach.icmp6Class (m : Mach) (e : EthIn) (src dst : Nat) (l : List Nat) : Mach :=
  let own (a : Nat) : Bool := a = m.ownIpv6 e.port || a = linkLocal (m.ownMac e.port)
  let t := be l 0 1
  if t = 135 && 24 ≤ l.length && own (be l 8 16) then m.limitedReply e.port false (.ndAdvert e.src src)
  else if t = 136 && 24 ≤ l.length && own dst then m.neighbourReply e.port (be l 8 16) (advertMac l e.src)
  else if t = 128 && own dst then m.limitedReply e.port true (.echoReply e.src src (l.drop 4))
  else if t = 130 && 28 ≤ l.length then m.queryClass e.port true (be l 8 16)
  else m.ethDrop e.port 3

/-- Classes 3 and 4 over IPv4. -/
def Mach.icmp4Class (m : Mach) (e : EthIn) (src dst : Nat) (l : List Nat) : Mach :=
  if be l 0 1 = 8 && dst = m.ownIpv4 e.port then m.limitedReply e.port true (.echoReply e.src src (l.drop 4))
  else m.ethDrop e.port 3

def Mach.igmpClass (m : Mach) (e : EthIn) (l : List Nat) : Mach :=
  if be l 0 1 = 0x11 && 12 ≤ l.length then m.queryClass e.port false (mapped4 (be l 4 4)) else m.ethDrop e.port 3

/-- The entry of a stream whose addresses a datagram has, on its RTP port (or, for RTCP, the port above it). -/
def Mach.rtpEntry (m : Mach) (p src dst port : Nat) : Option Nat :=
  ((List.range 64).map fun s => p * 64 + s).find? fun i =>
    m.on F.ETH_STREAM_CTL_EN i && m.get F.ETH_STREAM_UDP_UDP_PORT i = port
      && m.entDst i = dst && (m.entSrc i = 0 || m.entSrc i = src)

/-- RTCP packet types of RFC 5761 on a shared port. -/
def rtcpType (l : List Nat) : Bool := 192 ≤ be l 1 1 && be l 1 1 ≤ 223

/-- Steps 6 and 7 of R127 for a UDP datagram. -/
def State.udpClass (s : State) (e : EthIn) (src dst : Nat) (l : List Nat) : State :=
  let p := e.port
  let n := be l 4 2
  let udp := l.take n
  let v4 := src / 2 ^ 32 = 0xFFFF
  let sum := be l 6 2
  if l.length < 8 || n < 8 || l.length < n || !((sum = 0 && v4) || (sum ≠ 0 && sumOk (udpSum src dst udp))) then
    s.on fun m => m.ethDrop p 5
  else
    let dport := be l 2 2
    let body := udp.drop 8
    let m := s.mach
    if dport = 319 || dport = 320 then s.on fun m => m.ptpBytes p body
    else match m.rtpEntry p src dst dport, m.rtpEntry p src dst (dport - 1) with
      | some i, _ =>
        if m.on F.ETH_STREAM_CTL_MUX i && rtcpType body then s.on fun m => m.rtcp i body
        else s.on fun m => m.rtp i body
      | none, some i => s.on fun m => m.rtcp i body
      | none, none =>
        if dport = m.get F.ETH_MGMT_CFG_PORT then s.mgmtDatagram (.eth p e.src src (be l 0 2)) body
        else s.on fun m => m.ethDrop p 3

/-- Steps 4 to 7 for IPv4. -/
def State.ipv4In (s : State) (e : EthIn) : State :=
  let l := e.payload
  let total := be l 2 2
  let src := mapped4 (be l 12 4)
  let dst := mapped4 (be l 16 4)
  let body := (l.take total).drop 20
  if l.length < 20 || be l 0 1 ≠ 0x45 || be l 6 2 % 0x4000 ≠ 0 || total < 20 || l.length < total
      || !sumOk (sumWords 10 (l.take 20)) || !s.mach.ipOk e.port dst then s.on fun m => m.ethDrop e.port 4
  else match be l 9 1 with
    | 17 => s.udpClass e src dst body
    | 1 => s.on fun m => m.icmp4Class e src dst body
    | 2 => s.on fun m => m.igmpClass e body
    | _ => s.on fun m => m.ethDrop e.port 3

/-- Next-header values of the IPv6 extension headers. -/
def ext6 : List Nat := [0, 43, 44, 50, 51, 60, 135, 139, 140]

/-- Steps 4 to 7 for IPv6. -/
def State.ipv6In (s : State) (e : EthIn) : State :=
  let l := e.payload
  let n := be l 4 2
  let next := be l 6 1
  let src := be l 8 16
  let dst := be l 24 16
  let body := (l.drop 40).take n
  if l.length < 40 || be l 0 1 / 16 ≠ 6 || l.length < 40 + n || ext6.contains next || !s.mach.ipOk e.port dst then
    s.on fun m => m.ethDrop e.port 4
  else match next with
    | 17 => s.udpClass e src dst body
    | 58 => s.on fun m => m.icmp6Class e src dst body
    | _ => s.on fun m => m.ethDrop e.port 3

/-- A frame whose MAC layer has passed: by its EtherType. -/
def State.etherType (s : State) (e : EthIn) (type : Nat) : State :=
  if !s.mach.macOk e.port e.dst type then s.on fun m => m.ethDrop e.port 3
  else match type with
    | 0x0806 => s.on fun m => m.arpClass e
    | 0x0800 => s.ipv4In e
    | 0x86DD => s.ipv6In e
    | 0x88F7 => s.on fun m => m.ptpBytes e.port e.payload
    | _ => s.on fun m => m.ethDrop e.port 3

/-! ### The frame -/

/-- A port that S4 sheds (R411): it carries neither PTP nor an ESS 2 stream. -/
def Mach.ethShed (m : Mach) (p : Nat) : Bool :=
  let ess2 (s : Nat) : Bool := m.on F.ETH_STREAM_CTL_EN (p * 64 + s) &&
    ((m.streamEntry (m.get F.ETH_STREAM_ID_ID (p * 64 + s))).map fun e => b1 e 6) = some 2
  4 ≤ m.stage && m.get F.TIME_ETH_CTL_ROLE p = 0 && !(List.range 64).any ess2

/-- The port receives. -/
def Mach.ethReceives (m : Mach) (p : Nat) : Bool :=
  m.serves && p < 8 && m.on F.ETH_PORT_CTL_EN p && m.on F.ETH_PORT_STATUS_LINK p && !m.ethShed p

/-- Steps 2 and 3: the tag, and what follows it. -/
def State.ethTag (s : State) (p : Nat) (l : List Nat) : State :=
  let frame := l.take (l.length - 4)
  let type := be frame 12 2
  let e (o : Nat) : EthIn := ⟨p, be frame 6 6, be frame 0 6, frame.drop o⟩
  if type = 0x8100 then
    let inner := be frame 16 2
    let ok : Bool := s.mach.on F.ETH_PORT_CTL_VLAN_EN p && be frame 14 2 % 4096 = s.mach.get F.ETH_PORT_CTL_VID p
      && inner ≠ 0x8100 && inner ≠ 0x88A8
    if ok then s.etherType (e 18) inner else s.on fun m => m.ethDrop p 2
  else if type = 0x88A8 then s.on fun m => m.ethDrop p 2
  else if s.mach.on F.ETH_PORT_CTL_VLAN_EN p then s.on fun m => m.ethDrop p 2
  else s.etherType (e 14) type

/-- ETH_FRAME_RECEIVE. -/
def State.ethFrameReceive (s : State) (p : Nat) (l : List Nat) (full : Bool) : State :=
  if !s.mach.ethReceives p then s
  else
    let s := s.on fun m => m.count (96 + 4 * p)
    if full then s.on fun m => m.ethDrop p 15
    else
      let good : Bool := 4 ≤ l.length &&
        checkValue .crc32 none (l.take (l.length - 4)) = ofNatBytes (l.drop (l.length - 4))
      let s := s.on fun m => m.chkUnit (16 + p) good
      if !good then s.on fun m => m.ethDrop p 0
      else if l.length < 64 || s.mach.get F.ETH_PORT_CTL_MAX_FRAME p < l.length then s.on fun m => m.ethDrop p 1
      else s.ethTag p l

end Sys2Proof.Machine
end

