-- ==== Sys2Proof/Machine/Jobs.lean ====
section
/-! DEFINITION. Running a software check job (R363 to R366): the accesses it makes under its requester's master, and
its result. -/

namespace Sys2Proof.Machine

/-- The next access of a job at an address, of at most 256 bytes within one 256-byte block (log entry 52): in register
space one 32-bit word (R364). -/
def pieceAt (a n : Nat) : Nat := if a < 0x10000000 then min 4 n else min (256 - a % 256) n

/-- The bytes from a to a + n, read piece by piece and folded; none when an access was rejected. -/
def State.jobFold {β : Type} (f : β → List Nat → β) (by_ : Master) : Nat → Nat → Nat → β → State → Option β × State
  | 0, _, _, x, s => (some x, s)
  | fuel + 1, a, n, x, s =>
    if n = 0 then (some x, s)
    else
      let k := pieceAt a n
      let (r, s) := s.localRead by_ a k
      if r.cause.isSome then (none, s) else s.jobFold f by_ fuel (a + k) (n - k) (f x r.data)

/-- Bytes written piece by piece; false when an access was rejected. -/
def State.jobWrite (by_ : Master) : Nat → Nat → List Nat → State → Bool × State
  | 0, _, _, s => (true, s)
  | fuel + 1, a, l, s =>
    if l.isEmpty then (true, s)
    else
      let k := pieceAt a l.length
      let (r, s) := s.localWrite by_ a (l.take k) false
      if r.cause.isSome then (false, s) else State.jobWrite by_ fuel (a + k) (l.drop k) s

/-- A job that an access ended: the notice is precise through RESULT. -/
def Mach.jobFault (m : Mach) (c : Nat) : Mach := (m.trouble F.CHK_TROUBLE_GATE_FAULT 0 c).chkEnd c 3 (some 0)

/-- A comparison of a job: OUT_LEN for CHECK_STRIP, and the records of a mismatch (R362, R363). -/
def Mach.jobCompare (m : Mach) (c : Nat) (j : ChkJob) (value : Nat) (good : Bool) : Mach :=
  let m := if j.mode = 3 then
      m.put F.CHK_CH_OUT_LEN_OUT_LEN (if good then j.len - (CrcAlg.ofPoly j.poly).bytes else 0) c
    else m
  if good then m.chkEnd c 0 (some value)
  else
    let m := ((m.bump F.CHK_CH_MISMATCH_COUNT c).count 283).troubleBit F.CHK_MISMATCH_SUM_CHANNEL c
    (m.trouble F.CHK_TROUBLE_MISMATCH 0 c).chkEnd c 4 (some value)

/-- The job's last step, once its value is computed. -/
def State.jobEnd (s : State) (c : Nat) (j : ChkJob) (value : Nat) : State :=
  let alg := CrcAlg.ofPoly j.poly
  match j.mode with
  | 0 => { s with mach := s.mach.chkEnd c 0 (some value) }
  | 1 => { s with mach := s.mach.jobCompare c j value (value = j.expect) }
  | 2 =>
    let (ok, s) := State.jobWrite j.by_ 9 (j.addr + j.len) (crcBytes alg j.msbFirst value) s
    { s with mach := if ok then s.mach.chkEnd c 0 (some value) else s.mach.jobFault c }
  | _ =>
    match s.jobFold (fun (l : List Nat) d => l ++ d) j.by_ (alg.bytes + 1) (j.addr + j.len - alg.bytes) alg.bytes [] with
    | (none, s) => { s with mach := s.mach.jobFault c }
    | (some l, s) => { s with mach := s.mach.jobCompare c j value (value = ofCrcBytes j.msbFirst l) }

/-- CHK_JOB_DONE: the job of channel c runs to its end. -/
def State.chkJobDone (s : State) (c : Nat) : State :=
  match tFind s.mach.chk.jobs c with
  | none => s
  | some j =>
    let alg := CrcAlg.ofPoly j.poly
    let start := if j.foldEn then alg.fold alg.init j.fold else alg.init
    let n := if j.mode = 3 then j.len - alg.bytes else j.len
    match s.jobFold (fun (x : Nat) d => d.foldl alg.step x) j.by_ (n + 1) j.addr n start with
    | (none, s) => { s with mach := s.mach.jobFault c }
    | (some x, s) => s.jobEnd c j (x ^^^ alg.xorout)

end Sys2Proof.Machine
end

