-- ==== Sys2Proof/Machine/Deliver.lean ====
section
/-! DEFINITION. What arrives over the fabric: responses to this node's requests (R107, R341), and flits, from the link to
the message they carry (R97 to R101, R108, R117). -/

namespace Sys2Proof.Machine

/-! ### Responses to requests (R107) -/

/-- What the end of a request means for the one that made it. -/
def State.deliverReply (s : State) (x : RemoteReq) (status : Nat) (r : Reply) (timeout : Bool) : State :=
  match x.by_.who with
  | .seq k => if x.posted then s else s.seqReply k x.ref r
  | .mgmt k => if x.ref = 0 then s else s.on fun m => m.mgmtReply k x.ref (if timeout then 6 else status) r.data
  | .spi => if x.write then s else s.on fun m => m.spiReadEnd r
  | .debug => s.on fun m => m.setTst { m.tst with dbgRsp := some (status, ofNatBytes r.data) }
  | _ => s

/-- Requests and fences that waited may now go on. -/
def State.afterReply (s : State) : State :=
  let s := s.on fun m => m.releaseHeld
  let s := (List.range 16).foldl (fun (s : State) k => s.seqRetry k) s
  s.spiRetry.mgmtRetry

/-- The request leaves the table, and its end is recorded: a response that is neither OK nor BAD_VALUE, and a missing one,
are gate faults with cause REMOTE (R107, R351). -/
def State.endRequest (s : State) (x : RemoteReq) (status : Nat) (data : List Nat) (timeout : Bool) : State :=
  let s := s.on fun m => m.setFab { m.fab with remote := m.fab.remote.filter fun (y : RemoteReq) => y.tag ≠ x.tag }
  let bad : Bool := 2 < status
  let s := if bad then s.on fun m => m.remoteFault x.by_ x.write x.node x.addr x.len x.posted else s
  let zeros := if x.write then [] else List.replicate x.len 0
  let r : Reply := if bad then ⟨some .remote, false, zeros⟩
    else if status = 0 then ⟨none, false, (data ++ zeros).take zeros.length⟩ else ⟨none, true, zeros⟩
  (s.deliverReply x status r timeout).afterReply

def Mach.remoteReq (m : Mach) (tag : Nat) : Option RemoteReq := m.fab.remote.find? fun (x : RemoteReq) => x.tag = tag

/-- MEM_RSP. One without a request of its tag is ignored. -/
def State.memRsp (s : State) (tag status : Nat) (data : List Nat) : State :=
  match s.mach.remoteReq (tag % 256) with
  | some x => s.endRequest x (status % 16) data false
  | none => s

/-- MEM_TIMEOUT: a read returns zero and a write is dropped. -/
def State.memTimeout (s : State) (tag : Nat) : State :=
  match s.mach.remoteReq (tag % 256) with
  | some x => s.endRequest x 3 [] true
  | none => s

/-! ### Packets (R97, R99) -/

def Flit.bodyBytes (f : Flit) : List Nat := (wordBytes ((f.body ++ List.replicate 6 0).take 6)).take (min 48 f.bodyLen)

def packetBytes (l : List Flit) : List Nat := l.flatMap Flit.bodyBytes

/-- 64-bit words of the first n words of bytes. -/
def bytesWord (l : List Nat) (i : Nat) : Nat := ofNatBytes ((l.drop (8 * i)).take 8)

/-- STATE (R116, R115): an ID clash in which this node yields takes it to QUARANTINE. -/
def Mach.stateCommand (m : Mach) (p : Nat) (c : StateMsg) : Mach :=
  let (yields, m) := m.stateMsg p c
  if yields then m.quarantine 18 else m

/-- A CTRL flit, by its CMD. -/
def Mach.ctrlFlit (m : Mach) (p : Nat) (f : Flit) : Mach :=
  let c := CtrlMsg.ofWords f.body
  match bits (f.body.headD 0) 56 8 with
  | 1 => m.config p (ConfigBody.ofWords f.body)
  | 2 => m.joinCommand p c
  | 3 => m.acceptMsg p c
  | 4 => m.refuseMsg p c
  | 5 => m.leaveMsg p c
  | 6 => m.flowDownMsg p c
  | _ => m.malformed p

/-- A MEM_REQ packet. -/
def State.memReqPacket (s : State) (p src : Nat) (l : List Nat) : State :=
  let w0 := bytesWord l 0
  let len := bits (bytesWord l 1) 32 13
  let op := bits w0 60 4
  let data := l.drop 16
  if l.length < 16 || 1 < op then s.on fun m => m.malformed p
  else if data.length ≠ (if op = 1 then len else 0) then s.on fun m => m.fabDrop p
  else s.memReq src ⟨op = 1, bits w0 52 8, bits w0 0 40, len, data⟩

/-- A routed packet for this node. -/
def State.routedPacket (s : State) (p type src : Nat) (l : List Nat) : State :=
  match type with
  | 4 => s.on fun m => m.touchRx ((List.range 4).map (bytesWord l))
  | 9 => s.memReqPacket p src l
  | 10 => if l.length < 8 then s.on fun m => m.malformed p
    else s.memRsp (bits (bytesWord l 0) 52 8) (bits (bytesWord l 0) 60 4) (l.drop 8)
  | 11 => s.mgmtDatagram (.fabric src) l
  | 12 => s.on fun m => m.doorbell (l.headD 0)
  | _ => s.on fun m => m.malformed p

/-- The node takes packets of a flow (R388, R396): in SERVICE none, and in ESSENTIAL no VIDEO flow but those of ESS 2
streams and the spans decoded from them. -/
def Mach.takesFlow (m : Mach) (key : FlowKey) (vc : Nat) : Bool :=
  let ess2 := m.cfg.streams.any fun e => b1 e 6 = 2 &&
    (if key.span then m.cfg.spans.any (fun x => le4 x 0 = key.id && le4 x 4 = le4 e 0) else le4 e 0 = key.id)
  m.mode ≠ .service && (m.mode ≠ .essential || vc ≠ 2 || ess2)

/-- A packet of a flow with local delivery: a head, and the data that followed it. -/
def Mach.flowPacket (m : Mach) (e : FlowEntry) (l : List Flit) : Mach :=
  let head := (l.headD flit0).body
  let data := packetBytes l.tail
  let w (i : Nat) : Nat := head.getD i 0
  let record := (List.range 4).map w
  if !m.takesFlow e.key e.vc then m
  else match (l.headD flit0).type with
    | 5 => m.sliceReceive e.key
        ⟨record, bits (w 4) 32 32, bits (w 4) 16 16, (w 4).testBit 15, (w 4).testBit 14, bits (w 4) 10 4 = 1, data⟩
    | 7 => m.spanBandRow e.key
        { record := record, spanId := bits (w 4) 48 16, part := bits (w 4) 44 4, row := bits (w 4) 32 12,
          lines := bits (w 4) 27 5, degraded := (w 4).testBit 26, lastRow := (w 4).testBit 25, fmt := bits (w 4) 21 4,
          width := bits (w 5) 48 16, bytes := bits (w 5) 24 24, received := data.length, unbroken := true }
    | _ => m

/-- A label-switched flit: down every branch, and to this node where it has local delivery. -/
def Mach.labelFlit (m : Mach) (p : Nat) (f : Flit) : Mach :=
  match m.entryAt p f.label with
  | none => m
  | some e =>
    let m := (m.noteHead e f).forwardLabel e f
    if !e.local_ then m
    else match m.assemble p f.label f with
      | (some l, m) => m.flowPacket e l
      | (none, m) => m

/-- A routed flit: on to another node, or into its packet. -/
def State.routedFlit (s : State) (p : Nat) (f : Flit) : State :=
  if f.dest ≠ s.mach.nodeId then s.on fun m => m.forwardRouted p f
  else match s.mach.assemble p (65536 + f.src * 16 + f.type) f with
    | (some l, m) => { s with mach := m }.routedPacket p f.type f.src (packetBytes l)
    | (none, m) => { s with mach := m }

/-- What an accepted flit carries. In QUARANTINE all but CONFIG is discarded (R117). -/
def State.flitContent (s : State) (p : Nat) (f : Flit) : State :=
  if s.mach.isMalformed p f then s.on fun m => m.malformed p
  else if s.mach.mode = .quarantine && !(f.type = 2 && bits (f.body.headD 0) 56 8 = 1) then s
  else match f.type with
    | 0 => s
    | 1 => s
    | 2 => s.on fun m => m.ctrlFlit p f
    | 3 => s.on fun m => m.stateCommand p (StateMsg.ofWords f.body)
    | 5 => s.on fun m => m.labelFlit p f
    | 6 => s.on fun m => m.labelFlit p f
    | 7 => s.on fun m => m.labelFlit p f
    | 8 => s.on fun m => m.labelFlit p f
    | _ => s.routedFlit p f

/-- Flits arrive on the port. -/
def Mach.carries (m : Mach) (p : Nat) : Bool := m.linksRun && p < 8 && m.portUp p

/-- A packet that this node has sent to its own ID (R104), in the order of sending. -/
def State.deliverHome (s : State) : State :=
  let own := s.mach.fab.loop
  own.foldl (fun (s : State) x => s.routedPacket 0 x.1 s.mach.nodeId x.2)
    (s.on fun m => m.setFab { m.fab with loop := [] })

/-- FLIT_RECEIVE. -/
def State.flitReceive (s : State) (p : Nat) (f : Flit) : State :=
  if !s.mach.carries p || f.type = 1 then s
  else if !s.mach.portActive p then
    -- A port in CONFIG takes only the CONFIG exchange, whose flits carry count 0 and are outside the link sequence count
    -- (log entry 65).
    if f.type ≠ 2 || bits (f.body.headD 0) 56 8 ≠ 1 then s
    else if f.crc ≠ f.crcFor 0 then s.on fun m => ((m.count (34 + 8 * p)).chkUnit p false).fabDrop p
    else s.on fun m => ((m.count (33 + 8 * p)).chkUnit p true).config p (ConfigBody.ofWords f.body)
  else match s.mach.linkAccept p f with
    | (false, m) => { s with mach := m }
    | (true, m) =>
      if m.portActive p then { s with mach := m }.flitContent p f else { s with mach := m }

end Sys2Proof.Machine
end

