-- ==== Sys2Proof/Machine/Frame.lean ====
section
/-! DEFINITION. The points of a frame at which several blocks act: frame start, latch line, band slots and the end of
the last band (R208 to R216, R229, R238, R245, R255, R261, R412). -/

namespace Sys2Proof.Machine

/-- FRAME_START: the card of S5 (R413), the frame itself, and what takes effect at frame starts: the codecs' stage
(R173), swapped tables (R238), the backlight (R261), and the signatures' suspension (R246). -/
def Mach.frameStart (m : Mach) : Mach :=
  if !m.timingRuns then m
  else ((((m.s5Frame).scanFrameStart.decStage).lutFrame).dutyFrame).showSuspended

/-- LATCH_LINE: the commits, and the changes that wait for a latch line. -/
def Mach.latchLine (m : Mach) : Mach := ((m.decAgain.latchCommits).lutLatch).dutyLatch

/-- Output bands of a frame. -/
def Mach.bands (m : Mach) : Nat := ceilDiv m.vactive 16

/-- BAND_SLOT_START: the signatures that the bands before it have completed, and the band. -/
def State.bandSlotStart (s : State) (b : Nat) : State :=
  if !s.mach.mode.composes || s.mach.cmp.skip || s.mach.bands ≤ b then s
  else
    let from_ := s.mach.cmp.band
    let s := s.cmpSignatures fun l => decide (from_ ≤ l) && decide (l < b)
    (s.on fun m => m.bandSlot b).renderBand b

/-- BAND_OVERRUN: the strip's unblended layers are filled with LOST colour. -/
def State.bandOverrunAt (s : State) (k : Nat) (ns : List Nat) : State :=
  if !s.mach.cmp.composing || 8 ≤ k then s
  else
    let b := s.mach.cmp.band
    (s.on fun m => m.bandOverrun k ns).renderColumns b (512 * k) (512 * (k + 1))

/-- CMP_FRAME_DONE. -/
def State.frameDoneAt (s : State) : State :=
  let from_ := s.mach.cmp.band
  (s.cmpSignatures fun l => decide (from_ ≤ l)).on fun m => m.frameDone

end Sys2Proof.Machine
end

