-- ==== Sys2Proof/Machine/Tick.lean ====
section
/-! DEFINITION. One tick of the raw counter (R60), which is what the block does when no command waits (log entry 4), and
the state bits of the countable events at the edges of the interconnect clock (R418 to R420). -/

namespace Sys2Proof.Machine

/-- The interconnect clock runs (R388). -/
def Mach.clockRuns (m : Mach) : Bool :=
  match m.mode with
  | .hold | .sleep | .halt => false
  | _ => true

/-- Edges of the 1 GHz clock up to a value of the raw counter, which counts 0.64 ns (R60). -/
def edgesAt (raw : Nat) : Nat := raw * 16 / 25

/-- A flit of port p waits without credit. -/
def Mach.creditStall (m : Mach) (p : Nat) : Bool := (m.fabPort p).txq.any fun t => !(m.fabPort p).mayGo t

def bitList (base : Nat) (n : Nat) (f : Nat → Bool) : List Nat := ((List.range n).filter f).map (base + ·)

/-- The state events of R420 whose state bit is 1, but for those that the spec leaves to timing it does not state. -/
def Mach.stateEvents (m : Mach) : List Nat :=
  let one (e : Nat) (b : Bool) : List Nat := if b then [e] else []
  [0] ++ one 19 (m.servo = servoLocked) ++ one 20 (m.servo = servoHoldover) ++ one 21 (m.servo = servoSlew) ++
  ((List.range 8).filter m.creditStall).map (fun p => 39 + 8 * p) ++
  ((List.range 2).filter fun c => m.on F.CAP_STATUS_FROZEN c).map (fun c => 132 + 8 * c) ++
  ((List.range 2).filter fun c => m.capState c = capSilentSt).map (fun c => 134 + 8 * c) ++
  bitList 144 24 (fun e => m.dec.engines.any fun x => x.1 = e) ++ bitList 168 8 (fun e => m.enc.engines.any fun x => x.1 = e) ++
  one 212 (m.on F.SCN_STATUS_ALIGNED) ++ one 220 m.trimFull ++ one 221 (m.on F.SCN_STATUS_DSC) ++ one 222 (m.panel = panelLit) ++
  one 223 (m.on F.SIG_CTL_SUSPENDED) ++ one 231 (m.on F.TCH_STATUS_NOISY) ++ one 232 (m.on F.TCH_STATUS_WATER) ++
  one 239 (m.on F.TCH_STATUS_UNBASELINED) ++ bitList 240 16 (fun k => decide (2 ≤ m.seqState k)) ++
  bitList 272 8 (fun j => (tFind m.chk.jobs (24 + j)).isSome) ++
  one 303 (decide ((m.get F.PWR_THERMAL_WARN : Int) ≤ m.hottest)) ++
  bitList 304 16 (fun j => m.bitOf .PMC_SW_LEVEL j)

/-- State bits that the spec does not determine are free (log entry 58): refresh stall, and the band pipes while a frame
is composed. -/
def Mach.freeEvents (m : Mach) : List Nat × Mach :=
  let (v, m) := m.freeBits 9
  (bitList 4 1 (fun _ => v.testBit 0) ++ bitList 192 8 (fun k => v.testBit (1 + k) && m.cmp.composing), m)

/-- DRAM beats and row misses of the engines in a cycle, which the spec does not state, are free (log entry 58). -/
def Mach.freeTraffic (m : Mach) : Mach :=
  let (v, m) := m.freeBits 12
  ((m.count 1 (v % 16)).count 2 (v / 16 % 16)).count 3 (v / 256)

/-- One edge: in LEVEL mode a counter adds 1 while its state is 1, in EDGE mode as it rises; the software events
occur in EDGE mode only by PMC_SW. -/
def Mach.edge (m : Mach) : Mach :=
  let (free, m) := m.freeEvents
  let now := m.stateEvents ++ free
  let m := now.foldl (fun (m : Mach) e =>
    if m.bitOf .PMC_MODE e || (e < 304 && !m.pmc.stateBits.contains e) then m.count e else m) m
  let m : Mach := { m with pmc := { m.pmc with stateBits := now } }
  m.freeTraffic

/-- One tick of the raw counter: the flit slots of the ports that start at it (R103), and the edge of the interconnect
clock that falls in it. -/
def Mach.tick (m : Mach) : Mach :=
  let m' : Mach := { m with raw := m.raw + 1 }
  let m' := if m.linksRun then m'.slots else m'
  if m.clockRuns && edgesAt m.raw < edgesAt m'.raw then m'.edge else m'

end Sys2Proof.Machine
end

