-- ==== Sys2Proof/Machine/Command.lean ====
section
/-! DEFINITION. What every command shares: how it ends, the modes in which it acts, and the register access of a host
command, at the address of its register (R3, R333). -/

namespace Sys2Proof.Machine

abbrev Result := Host.Outcome State Fault Refusal

/-! ### The end of a command -/

/-- What has waited for the end of the command follows (`Mach.finish`), and the SVN fuses are burned (R375). -/
def State.done (old s : State) : State := (s.on fun m => old.mach.finish m).burn

/-- The command has taken the block from s to t, and ends. -/
def State.ends (s t : State) : Result := .next (s.done t)

/-- A command that acts in every mode. -/
def State.always (s : State) (f : Mach → Mach) : Result := s.ends (s.on f)

def State.gated (s : State) (b : Bool) (f : Mach → Mach) : Result := s.ends (if b then s.on f else s)

/-- A command of a block that works in JOIN, the operating modes, STANDBY and SERVICE, until S5 (R388). -/
def State.serving (s : State) (f : Mach → Mach) : Result := s.gated s.mach.serves f

/-- A command of a fabric port, which works in QUARANTINE too (R117). -/
def State.linked (s : State) (f : Mach → Mach) : Result := s.gated s.mach.linksRun f

/-- A command of logic on the interconnect clock. -/
def State.clocked (s : State) (f : Mach → Mach) : Result := s.gated s.mach.clockRuns f

/-- A command of the display and its islands: not in HOLD and SLEEP. -/
def State.awake (s : State) (f : Mach → Mach) : Result :=
  s.gated (s.mach.mode ≠ .hold && s.mach.mode ≠ .sleep) f

/-- A step on an empty queue: one tick of the raw counter, at which the packets that the node has sent to its own ID
are delivered (R104; log entry 4). -/
def State.idle (s : State) : Result := s.ends (s.deliverHome.on fun m => m.tick)

/-! ### Register accesses of hosts -/

def Width.bytes : Width → Nat
  | .w32 => 4
  | .w64 => 8

/-- A write of n bytes at an address; none gets through while the interconnect clock stands. -/
def State.hostWrite (s : State) (by_ : Master) (a n v : Nat) : State :=
  if !s.mach.clockRuns then s
  else
    let (r, s) := s.localWrite by_ a (natBytes n v) false
    s.on fun m => m.emit (.data by_ (r.cause.isNone && !r.refused) 0)

/-- A read of n bytes at an address. -/
def State.hostRead (s : State) (by_ : Master) (a n : Nat) : State :=
  if !s.mach.clockRuns then s
  else
    let (r, s) := s.localRead by_ a n
    s.on fun m => m.emit (.data by_ r.cause.isNone (ofNatBytes r.data))

/-! ### Addresses -/

def addrModeReq : Nat := 0x4
def addrResetReq : Nat := 0x1C
def addrSoftReset : Nat := 0x20
def addrWdtKick : Nat := 0x2C
def addrSysFence : Nat := 0x40
def addrFlashCtl : Nat := 0x20100
def addrSvcCtl : Nat := 0x20300
def addrEvcPend (w : Nat) : Nat := 0x30200 + 4 * w
def addrHostPend (h w : Nat) : Nat := 0x30400 + 0x40 * h + 4 * w
def addrSeqLog : Nat := 0x50020
def addrI2cCtl : Nat := 0x50204
def addrGateCommit : Nat := 0x6001C
def addrGateSync : Nat := 0x60020
def addrGateRecord : Nat := 0x60040
def addrSnapCtl : Nat := 0x70A90
def addrPmcSw : Nat := 0x70A80
def addrPmcSamp : Nat := 0x73020
def addrCapStamp (k : Nat) : Nat := 0x80408 + 0x10 * k
def addrChkCtl (c : Nat) : Nat := 0x91000 + 0x40 * c
def addrTstResult : Nat := 0xA0040
def addrEncKeyReq : Nat := 0x500020
def addrEncLtrReq : Nat := 0x500024
def addrCmpFenceClr : Nat := 0x600028
def addrCmpReceipt : Nat := 0x600040
def addrCmpRelease : Nat := 0x600068
def addrReadoutIn : Nat := 0x600080
def addrLutSwap : Nat := 0x700004
def addrScnBl : Nat := 0x80004C
def addrAuxCtl : Nat := 0x800060
def addrTchTest : Nat := 0x9000C0
def addrTchReport : Nat := 0x900100
def addrTchRebase : Nat := 0x900124

/-! ### Words that some rows write -/

/-- CHK_CH_CTL with GO = 1 and a MODE (R363); the value's other bits stand. -/
def chkGo (value mode : Nat) : Nat := setBit (setBits value 28 3 mode) 31

/-- CFG_FLASH_CTL with GO = 1, an OP and LEN (R384). -/
def flashGoWord (op len : Nat) : Nat := 2 ^ 31 + op * 2 ^ 28 + len % 512

/-! ### Single steps of other blocks -/

/-- This node has local delivery of a flow, and takes its packets. -/
def Mach.flowHere (m : Mach) (key : FlowKey) : Bool :=
  match m.entryOf key with
  | some e => e.local_ && m.takesFlow key e.vc
  | none => false

/-- SLICE_EMIT: the bytes it writes to memory are the picture's statistics (R194). -/
def State.sliceEmitAt (s : State) (n : Nat) (nals : List (List Nat)) : State :=
  let (w, m) := s.mach.sliceEmit n nals
  w.foldl (fun (s : State) x => s.setByte x.1 (BitVec.ofNat 8 x.2)) { s with mach := m }

/-- PROX_SAMPLE: a detection wakes the node from SLEEP (R395). -/
def Mach.proxCommand (m : Mach) (g n : Nat) : Mach :=
  let (wakes, m) := m.proxSample g n
  if wakes then m.sleepWake (.proximity g) else m

/-- The codes of R444 that have a row of their own; every other code is BYPASS. -/
def Mach.bypassCode (m : Mach) (code : Nat) : Mach :=
  if [0x01, 0x02, 0x03, 0x04, 0x05, 0x06, 0x07, 0x20, 0x21, 0x22].contains (code % 256) then m else m.loadIr irBypass

end Sys2Proof.Machine
end

