-- ==== Sys2Proof/Machine/CmdBoot.lean ====
section
/-! DEFINITION. Meanings of commands. The image, the configuration flash and the service grant (R370 to R387). -/

namespace Sys2Proof.Machine

/-- LOAD (R380). -/
def execLoad (flash : FlashIn) (s : State) : Result := s.ends (s.loadCommand flash)

/-- IMAGE_CHECK (R381). -/
def execImageCheck (flash : FlashIn) (s : State) : Result := s.ends (s.imageCheckCommand flash)

/-- FLASH_READ (R384). -/
def execFlashRead (by_ : Master) (len : Nat) (s : State) : Result :=
  s.ends (s.hostWrite by_ addrFlashCtl 4 (flashGoWord 0 len))

/-- FLASH_PROGRAM (R384). -/
def execFlashProgram (by_ : Master) (len : Nat) (s : State) : Result :=
  s.ends (s.hostWrite by_ addrFlashCtl 4 (flashGoWord 1 len))

/-- FLASH_ERASE (R384). -/
def execFlashErase (by_ : Master) (s : State) : Result := s.ends (s.hostWrite by_ addrFlashCtl 4 (flashGoWord 2 0))

/-- FLASH_DONE (R384). -/
def execFlashDone (verified : Bool) (s : State) : Result := s.ends (s.flashDone verified)

/-- FLASH_ERASE_TIMEOUT (R384). -/
def execFlashEraseTimeout (s : State) : Result := s.clocked fun m => m.flashEraseTimeout

/-- SVC_NEW (R385). -/
def execSvcNew (by_ : Master) (s : State) : Result := s.ends (s.hostWrite by_ addrSvcCtl 4 (2 ^ 31))

/-- SVC_VERIFY (R385). -/
def execSvcVerify (by_ : Master) (s : State) : Result := s.ends (s.hostWrite by_ addrSvcCtl 4 (2 ^ 30))

/-- SVC_CHALLENGE_EXPIRY (R385). -/
def execSvcChallengeExpiry (s : State) : Result := s.clocked fun m => m.svcExpiry

end Sys2Proof.Machine
end

