-- ==== Sys2Proof/Machine/CmdCodec.lean ====
section
/-! DEFINITION. Meanings of commands. The decoder and the encoder (R150 to R199). -/

namespace Sys2Proof.Machine

/-- SLICE_DECODED (R163). -/
def execSliceDecoded (engine ctx : Nat) (r : SliceResult) (s : State) : Result :=
  s.serving fun m => m.sliceDecoded engine ctx r

/-- WORK_LIMIT (R170). -/
def execWorkLimit (ctx : Nat) (s : State) : Result := s.serving fun m => m.workLimit ctx

/-- CONTEXT_RESET_END (R155). -/
def execContextResetEnd (ctx : Nat) (s : State) : Result := s.serving fun m => m.contextResetEnd ctx

/-- ROW_CODED (R184). -/
def execRowCoded (engine ctx row bytes : Nat) (s : State) : Result :=
  s.serving fun m => m.rowCoded engine ctx row bytes

/-- ROW_LIMIT_REACHED (R192). -/
def execRowLimitReached (ctx row : Nat) (s : State) : Result := s.serving fun m => m.rowLimitReached ctx row

/-- SLICE_EMIT (R185). -/
def execSliceEmit (ctx : Nat) (nals : List (List Nat)) (s : State) : Result :=
  s.ends (if s.mach.serves then s.sliceEmitAt ctx nals else s)

/-- ENC_KEY_REQ (R188). -/
def execEncKeyReq (by_ : Master) (id : Nat) (s : State) : Result := s.ends (s.hostWrite by_ addrEncKeyReq 4 id)

/-- ENC_LTR_REQ (R189). -/
def execEncLtrReq (by_ : Master) (id : Nat) (s : State) : Result := s.ends (s.hostWrite by_ addrEncLtrReq 4 id)

end Sys2Proof.Machine
end

