-- ==== Sys2Proof/Machine/CmdCompose.lean ====
section
/-! DEFINITION. Meanings of commands. Composition, colour tables and signatures (R200 to R252). -/

namespace Sys2Proof.Machine

/-- BAND_SLOT_START (R209). -/
def execBandSlotStart (band : Nat) (s : State) : Result := s.ends (s.bandSlotStart band)

/-- BAND_OVERRUN (R211). -/
def execBandOverrun (strip : Nat) (layers : List Nat) (s : State) : Result := s.ends (s.bandOverrunAt strip layers)

/-- CMP_FRAME_DONE (R229). -/
def execCmpFrameDone (s : State) : Result := s.ends s.frameDoneAt

/-- LATCH_LINE (R216). -/
def execLatchLine (s : State) : Result := s.serving fun m => m.latchLine

/-- APPLY_POINT (R219). -/
def execApplyPoint (s : State) : Result := s.serving fun m => m.applyPoint

/-- CMP_GROUP_COMMIT (R215). -/
def execCmpGroupCommit (by_ : Master) (group tag : Nat) (s : State) : Result :=
  s.ends (s.hostWrite by_ (addrGroupCommit (group % 8)) 4 tag)

/-- CMP_FENCE (R217). -/
def execCmpFence (by_ : Master) (mask : Nat) (s : State) : Result := s.ends (s.hostWrite by_ addrCmpFence 8 mask)

/-- CMP_FENCE_CLR (R217). -/
def execCmpFenceClr (by_ : Master) (mask : Nat) (s : State) : Result :=
  s.ends (s.hostWrite by_ addrCmpFenceClr 8 mask)

/-- CMP_RECEIPT_READ (R220). -/
def execCmpReceiptRead (by_ : Master) (s : State) : Result := s.ends (s.hostRead by_ addrCmpReceipt 4)

/-- CMP_RELEASE_READ (R222). -/
def execCmpReleaseRead (by_ : Master) (s : State) : Result := s.ends (s.hostRead by_ addrCmpRelease 4)

/-- CMP_READOUT_IN (R225). -/
def execCmpReadoutIn (by_ : Master) (width : Width) (word : Nat) (s : State) : Result :=
  s.ends (s.hostWrite by_ addrReadoutIn width.bytes word)

/-- READOUT_TIMEOUT (R226). -/
def execReadoutTimeout (master : Nat) (s : State) : Result := s.serving fun m => m.readoutTimeout master

/-- LUT_SWAP (R238). -/
def execLutSwap (by_ : Master) (tables : Nat) (s : State) : Result := s.ends (s.hostWrite by_ addrLutSwap 4 tables)

/-- LUT_SWAP_CHECKED (R238). -/
def execLutSwapChecked (s : State) : Result := s.serving fun m => m.lutSwapChecked

/-- LUT_WINDOW_WRITE (R237). -/
def execLutWindowWrite (by_ : Master) (width : Width) (addr value : Nat) (s : State) : Result :=
  s.ends (s.hostWrite by_ addr width.bytes value)

/-- LUT_ECC_FATAL (R240). -/
def execLutEccFatal (table : Nat) (s : State) : Result := s.awake fun m => m.lutEccFatal table

/-- SIG_OUT_COMPLETE (R245). -/
def execSigOutComplete (r : Nat) (errors : List (Nat × Nat)) (s : State) : Result :=
  s.ends (if s.mach.mode.scans then s.outSignature r errors else s)

end Sys2Proof.Machine
end

