-- ==== Sys2Proof/Machine/CmdEvents.lean ====
section
/-! DEFINITION. Meanings of commands. The event controller, its registers and the low-speed pins (R308 to R317, R326 to R331). -/

namespace Sys2Proof.Machine

/-- EVENT_ARRIVAL (R310). -/
def execEventArrival (source : Nat) (s : State) : Result :=
  s.awake fun m => if source < 512 then m.raise source else m

/-- DELIVERY (R311). -/
def execDelivery (s : State) : Result := s.always fun m => m.delivery

/-- HOLDOFF_END (R316). -/
def execHoldoffEnd (group : Nat) (s : State) : Result := s.serving fun m => m.holdoffEnd group

/-- EVC_PEND_WRITE (R312). -/
def execEvcPendWrite (by_ : Master) (w value : Nat) (s : State) : Result :=
  s.ends (s.hostWrite by_ (addrEvcPend (w % 16)) 4 value)

/-- EVC_HOST_PEND_WRITE (R317). -/
def execEvcHostPendWrite (by_ : Master) (h w value : Nat) (s : State) : Result :=
  s.ends (s.hostWrite by_ (addrHostPend (h % 4) (w % 16)) 4 value)

/-- EVC_DOORBELL (R331). -/
def execEvcDoorbell (by_ : Master) (value : Nat) (s : State) : Result := s.ends (s.hostWrite by_ addrDoorbell 4 value)

/-- SEQ_LOG_READ (R326). -/
def execSeqLogRead (by_ : Master) (s : State) : Result := s.ends (s.hostRead by_ addrSeqLog 4)

/-- GPIO_EDGE (R327). -/
def execGpioEdge (pin : Nat) (level : Bool) (s : State) : Result := s.always fun m => m.gpioEdge pin level

/-- I2C_GO (R328). -/
def execI2cGo (by_ : Master) (value : Nat) (s : State) : Result :=
  s.ends (s.hostWrite by_ addrI2cCtl 4 (setBit value 31))

/-- I2C_DONE (R328). -/
def execI2cDone (ack : Nat) (data : List Nat) (s : State) : Result := s.clocked fun m => m.i2cDone ack data

/-- I2C_TIMEOUT (R328). -/
def execI2cTimeout (s : State) : Result := s.clocked fun m => m.i2cTimeout

end Sys2Proof.Machine
end

