-- ==== Sys2Proof/Machine/CmdFabric.lean ====
section
/-! DEFINITION. Meanings of commands. The fabric: ports, flits, flows, remote accesses and STATE floods (R93 to R125). -/

namespace Sys2Proof.Machine

/-- PORT_TRAIN (R95). -/
def execPortTrain (port : Nat) (s : State) : Result := s.linked fun m => m.portTrain port

/-- TRAIN_FAIL (R95). -/
def execTrainFail (port : Nat) (s : State) : Result := s.linked fun m => m.trainFail port

/-- TRAIN_LOCK (R95). -/
def execTrainLock (port lanes rate : Nat) (s : State) : Result := s.linked fun m => m.trainLock port lanes rate

/-- CONFIG_SEND (R96). -/
def execConfigSend (port : Nat) (s : State) : Result := s.linked fun m => m.configSend port

/-- CONFIG (R96). -/
def execConfig (port : Nat) (body : ConfigBody) (s : State) : Result := s.linked fun m => m.config port body

/-- CONFIG_TIMEOUT (R95). -/
def execConfigTimeout (port : Nat) (s : State) : Result := s.linked fun m => m.configTimeout port

/-- FLIT_RECEIVE (R100). -/
def execFlitReceive (port : Nat) (flit : Flit) (s : State) : Result := s.ends (s.flitReceive port flit)

/-- NAK (R100). -/
def execNak (port ackSeq : Nat) (s : State) : Result := s.linked fun m => m.nakMsg port ackSeq

/-- IDLE_LIMIT (R120). -/
def execIdleLimit (port : Nat) (s : State) : Result := s.linked fun m => m.idleLimit port

/-- RETRAIN (R95). -/
def execRetrain (port : Nat) (s : State) : Result := s.linked fun m => m.retrain port

/-- PORT_DISABLE (R120). -/
def execPortDisable (port : Nat) (s : State) : Result := s.linked fun m => m.portDisable port

/-- MEM_REQ (R107). -/
def execMemReq (origin : Nat) (req : MemReq) (s : State) : Result :=
  s.ends (if s.mach.serves then s.memReq origin req else s)

/-- MEM_RSP (R107). -/
def execMemRsp (tag status : Nat) (data : List Nat) (s : State) : Result :=
  s.ends (if s.mach.serves then s.memRsp tag status data else s)

/-- MEM_TIMEOUT (R107). -/
def execMemTimeout (tag : Nat) (s : State) : Result := s.ends (if s.mach.serves then s.memTimeout tag else s)

/-- JOIN (R109). -/
def execJoin (port : Nat) (msg : CtrlMsg) (s : State) : Result :=
  s.serving fun m => if m.portActive port then m.joinCommand port msg else m

/-- ACCEPT (R109). -/
def execAccept (port : Nat) (msg : CtrlMsg) (s : State) : Result :=
  s.serving fun m => if m.portActive port then m.acceptMsg port msg else m

/-- REFUSE (R112). -/
def execRefuse (port : Nat) (msg : CtrlMsg) (s : State) : Result :=
  s.serving fun m => if m.portActive port then m.refuseMsg port msg else m

/-- LEAVE (R112). -/
def execLeave (port : Nat) (msg : CtrlMsg) (s : State) : Result :=
  s.serving fun m => if m.portActive port then m.leaveMsg port msg else m

/-- FLOW_DOWN (R122). -/
def execFlowDown (port : Nat) (msg : CtrlMsg) (s : State) : Result :=
  s.serving fun m => if m.portActive port then m.flowDownMsg port msg else m

/-- REJOIN (R122). -/
def execRejoin (key : FlowKey) (s : State) : Result := s.serving fun m => m.rejoin key

/-- RESV_CHECK (R113). -/
def execResvCheck (port : Nat) (s : State) : Result :=
  s.serving fun m => if m.portActive port then m.resvCheck port else m

/-- STATE_FLOOD (R116). -/
def execStateFlood (s : State) : Result := s.linked fun m => m.stateFlood

/-- STATE (R116). -/
def execState (port : Nat) (msg : StateMsg) (s : State) : Result :=
  s.serving fun m => if m.portActive port then m.stateCommand port msg else m

/-- PEER_UNKNOWN (R116). -/
def execPeerUnknown (origin : Nat) (s : State) : Result := s.serving fun m => m.peerUnknown origin

/-- DOORBELL (R99). -/
def execDoorbell (index : Nat) (s : State) : Result := s.serving fun m => m.doorbell index

/-- FLOW_SILENT (R122). -/
def execFlowSilent (key : FlowKey) (s : State) : Result := s.serving fun m => m.flowSilent key

/-- STREAM_SLICE_RECEIVE (R156). -/
def execStreamSliceReceive (key : FlowKey) (slice : SliceIn) (s : State) : Result :=
  s.serving fun m => if m.flowHere key then m.sliceReceive key slice else m

/-- SPAN_BAND_ROW_RECEIVE (R119). -/
def execSpanBandRowReceive (key : FlowKey) (row : BandRow) (s : State) : Result :=
  s.serving fun m => if m.flowHere key then m.spanBandRow key row else m

end Sys2Proof.Machine
end

