-- ==== Sys2Proof/Machine/CmdIngest.lean ====
section
/-! DEFINITION. Meanings of commands. Ethernet, the management protocol and camera capture (R126 to R149). -/

namespace Sys2Proof.Machine

/-- ETH_FRAME_RECEIVE (R127). -/
def execEthFrameReceive (port : Nat) (bytes : List Nat) (full : Bool) (s : State) : Result :=
  s.ends (s.ethFrameReceive port bytes full)

/-- AU_RELEASE_TIMEOUT (R132). -/
def execAuReleaseTimeout (port entry ts : Nat) (s : State) : Result :=
  s.serving fun m => m.auReleaseTimeout (port * 64 + entry) ts

/-- STREAM_SILENT (R134). -/
def execStreamSilent (port entry : Nat) (s : State) : Result := s.serving fun m => m.streamSilent (port * 64 + entry)

/-- ETH_LINK (R148). -/
def execEthLink (port : Nat) (up fecLock : Bool) (s : State) : Result := s.serving fun m => m.ethLink port up fecLock

/-- NEIGHBOUR_REQUEST (R128). -/
def execNeighbourRequest (port addr : Nat) (s : State) : Result := s.serving fun m => m.neighbourRequest port addr

/-- NEIGHBOUR_EXPIRE (R128). -/
def execNeighbourExpire (port addr : Nat) (s : State) : Result := s.serving fun m => m.neighbourExpire port addr

/-- MEMBERSHIP_REPORT (R130). -/
def execMembershipReport (port group : Nat) (s : State) : Result := s.serving fun m => m.membershipReport port group

/-- RTCP_SR_SEND (R137). -/
def execRtcpSrSend (stream : Nat) (s : State) : Result := s.serving fun m => m.rtcpSrSend stream

/-- OPEN (R138, R141). -/
def execOpenMgmt (peer : MgmtPeer) (key : Nat) (nonce : List Nat) (s : State) : Result :=
  s.serving fun m => m.openMgmt peer key nonce

/-- PROVE (R139). -/
def execProve (peer : MgmtPeer) (mac : List Nat) (s : State) : Result := s.serving fun m => m.prove peer mac

/-- MGMT_READ (R140). -/
def execMgmtRead (session seq : Nat) (tagGood : Bool) (addr len : Nat) (s : State) : Result :=
  s.ends (s.mgmtReadFrom (s.mach.sessionPort session) session seq tagGood addr len)

/-- MGMT_WRITE (R140). -/
def execMgmtWrite (session seq : Nat) (tagGood : Bool) (addr : Nat) (data : List Nat) (s : State) : Result :=
  s.ends (s.mgmtWriteFrom (s.mach.sessionPort session) session seq tagGood addr data)

/-- MGMT_FENCE (R140). -/
def execMgmtFence (session seq : Nat) (tagGood : Bool) (s : State) : Result :=
  s.serving fun m => m.mgmtFenceFrom (m.sessionPort session) session seq tagGood

/-- MGMT_PENDING (R140). -/
def execMgmtPending (session seq : Nat) (tagGood : Bool) (data : Option (List Nat)) (s : State) : Result :=
  s.serving fun m => m.mgmtPendingFrom (m.sessionPort session) session seq tagGood data

/-- CLOSE (R141). -/
def execClose (session seq : Nat) (tagGood : Bool) (s : State) : Result :=
  s.serving fun m => m.closeFrom (m.sessionPort session) session seq tagGood

/-- MGMT_IDLE (R141). -/
def execMgmtIdle (session : Nat) (s : State) : Result := s.serving fun m => m.mgmtIdle session

/-- MGMT_LOCKOUT_END (R139). -/
def execMgmtLockoutEnd (peer : MgmtPeer) (s : State) : Result := s.clocked fun m => m.mgmtLockoutEnd peer

/-- CSI_FRAME_START (R144). -/
def execCsiFrameStart (port vc fnum : Nat) (s : State) : Result := s.serving fun m => m.csiFrameStart port vc fnum

/-- CSI_LINE (R143). -/
def execCsiLine (port vc dt : Nat) (data : List Nat) (good : Bool) (s : State) : Result :=
  s.serving fun m => m.csiLine port vc dt data good

/-- CSI_FRAME_END (R143). -/
def execCsiFrameEnd (port vc : Nat) (s : State) : Result := s.serving fun m => m.csiFrameEnd port vc

/-- CAP_SILENT (R145). -/
def execCapSilent (port : Nat) (s : State) : Result := s.serving fun m => m.capSilent port

/-- CAP_EN_WRITE (R145). -/
def execCapEnWrite (port : Nat) (s : State) : Result := s.clocked fun m => m.capEnWrite port

end Sys2Proof.Machine
end

