-- ==== Sys2Proof/Machine/CmdMemory.lean ====
section
/-! DEFINITION. Meanings of commands. Register accesses without a row of their own, the access gate, fences, the SPI target and the check-value channels (R2 to R4, R332 to R369). -/

namespace Sys2Proof.Machine

/-- REGISTER_WRITE (R2). -/
def execRegisterWrite (by_ : Master) (width : Width) (addr value : Nat) (s : State) : Result :=
  s.ends (s.hostWrite by_ addr width.bytes value)

/-- LOW_WORD_READ (R4). -/
def execLowWordRead (by_ : Master) (addr : Nat) (s : State) : Result := s.ends (s.hostRead by_ addr 4)

/-- GATE_COMMIT (R346). -/
def execGateCommit (by_ : Master) (index : Nat) (s : State) : Result :=
  s.ends (s.hostWrite by_ addrGateCommit 4 index)

/-- GATE_SYNC_WRITE (R347). -/
def execGateSyncWrite (by_ : Master) (value : Nat) (s : State) : Result :=
  s.ends (s.hostWrite by_ addrGateSync 4 value)

/-- GATE_SYNC_READ (R347). -/
def execGateSyncRead (by_ : Master) (s : State) : Result := s.ends (s.hostRead by_ addrGateSync 4)

/-- GATE_RECORD_READ (R352). -/
def execGateRecordRead (by_ : Master) (s : State) : Result := s.ends (s.hostRead by_ addrGateRecord 4)

/-- SYS_FENCE_READ (R340): the read returns once every earlier write of its requester has completed. -/
def execSysFenceRead (by_ : Master) (s : State) : Result :=
  s.ends (if s.mach.writesOpen by_.who then s else s.hostRead by_ addrSysFence 4)

/-- CISTERN_FATAL (R335). -/
def execCisternFatal (addr : Nat) (s : State) : Result := s.awake fun m => m.cisternFatal addr

/-- WRITE (R353). -/
def execSpiWrite (addr : Nat) (data : List Nat) (whole : Bool) (s : State) : Result :=
  s.ends (s.spiWrite addr data whole)

/-- READ_REQ (R353). -/
def execSpiReadReq (addr len : Nat) (whole : Bool) (s : State) : Result := s.ends (s.spiReadReq addr len whole)

/-- STATUS (R353). -/
def execSpiStatus (s : State) : Result := s.always fun m => m.spiStatus

/-- READ_DATA (R353). -/
def execSpiReadData (s : State) : Result := s.always fun m => m.spiReadData

/-- SPI_CS_LIMIT (R354). -/
def execSpiCsLimit (s : State) : Result := s.always fun m => m.spiAbort

/-- SPI_UNKNOWN_COMMAND (R354). -/
def execSpiUnknownCommand (code : Nat) (s : State) : Result := s.always fun m => m.spiUnknown code

/-- COMPUTE (R363). -/
def execChkCompute (by_ : Master) (c value : Nat) (s : State) : Result :=
  s.ends (s.hostWrite by_ (addrChkCtl (c % 32)) 4 (chkGo value 0))

/-- CHECK (R363). -/
def execChkCheck (by_ : Master) (c value : Nat) (s : State) : Result :=
  s.ends (s.hostWrite by_ (addrChkCtl (c % 32)) 4 (chkGo value 1))

/-- APPEND (R363). -/
def execChkAppend (by_ : Master) (c value : Nat) (s : State) : Result :=
  s.ends (s.hostWrite by_ (addrChkCtl (c % 32)) 4 (chkGo value 2))

/-- CHECK_STRIP (R363). -/
def execChkCheckStrip (by_ : Master) (c value : Nat) (s : State) : Result :=
  s.ends (s.hostWrite by_ (addrChkCtl (c % 32)) 4 (chkGo value 3))

/-- CHK_JOB_DONE (R365). -/
def execChkJobDone (c : Nat) (s : State) : Result := s.ends (s.chkJobDone c)

end Sys2Proof.Machine
end

