-- ==== Sys2Proof/Machine/CmdModes.lean ====
section
/-! DEFINITION. Meanings of commands. Modes, resets, the watchdog and power (R388 to R417). -/

namespace Sys2Proof.Machine

/-- CLOCK_FAULT (R14). -/
def execClockFault (island : Nat) (s : State) : Result := s.always fun m => m.clockFaultCommand island

/-- REQUEST_LIVE (R390). -/
def execRequestLive (by_ : Master) (s : State) : Result := s.ends (s.hostWrite by_ addrModeReq 4 5)

/-- REQUEST_STANDBY (R393). -/
def execRequestStandby (by_ : Master) (s : State) : Result := s.ends (s.hostWrite by_ addrModeReq 4 8)

/-- REQUEST_SLEEP (R394). -/
def execRequestSleep (by_ : Master) (s : State) : Result := s.ends (s.hostWrite by_ addrModeReq 4 9)

/-- REQUEST_SERVICE (R396). -/
def execRequestService (by_ : Master) (s : State) : Result := s.ends (s.hostWrite by_ addrModeReq 4 10)

/-- REQUEST_HALT (R397). -/
def execRequestHalt (by_ : Master) (s : State) : Result := s.ends (s.hostWrite by_ addrModeReq 4 11)

/-- POR (R400). -/
def execPor (s : State) : Result := s.ends s.powerOn

/-- RESET_N (R400). -/
def execResetN (s : State) : Result := s.always fun m => m.resetN

/-- SYS_RESET_REQ (R401). -/
def execSysResetReq (by_ : Master) (value : Nat) (s : State) : Result := s.ends (s.hostWrite by_ addrResetReq 4 value)

/-- HOLD_END (R400). -/
def execHoldEnd (s : State) : Result := s.always fun m => m.holdEnd

/-- SOFT_ETH (R403). -/
def execSoftEth (by_ : Master) (s : State) : Result := s.ends (s.hostWrite by_ addrSoftReset 4 1)

/-- SOFT_CAP (R403). -/
def execSoftCap (by_ : Master) (s : State) : Result := s.ends (s.hostWrite by_ addrSoftReset 4 2)

/-- SOFT_DEC (R403). -/
def execSoftDec (by_ : Master) (s : State) : Result := s.ends (s.hostWrite by_ addrSoftReset 4 4)

/-- SOFT_ENC (R403). -/
def execSoftEnc (by_ : Master) (s : State) : Result := s.ends (s.hostWrite by_ addrSoftReset 4 8)

/-- SOFT_TCH (R403). -/
def execSoftTch (by_ : Master) (s : State) : Result := s.ends (s.hostWrite by_ addrSoftReset 4 16)

/-- SOFT_CHK (R403). -/
def execSoftChk (by_ : Master) (s : State) : Result := s.ends (s.hostWrite by_ addrSoftReset 4 32)

/-- LEAVE_JOIN (R391). -/
def execLeaveJoin (s : State) : Result := s.always fun m => m.leaveJoin

/-- JOIN_LIMIT (R392). -/
def execJoinLimit (s : State) : Result := s.always fun m => m.joinLimit

/-- WAKE_TIMER (R393). -/
def execWakeTimer (s : State) : Result := s.always fun m => m.wakeTimer

/-- SLEEP_ENTRY_DONE (R394). -/
def execSleepEntryDone (s : State) : Result := s.always fun m => m.sleepEntryDone

/-- SLEEP_WAKE (R395). -/
def execSleepWake (source : SleepSource) (s : State) : Result := s.always fun m => m.sleepWake source

/-- SYS_WDT_KICK (R404). -/
def execSysWdtKick (by_ : Master) (value : Nat) (s : State) : Result := s.ends (s.hostWrite by_ addrWdtKick 4 value)

/-- SYS_WDT_WARN (R404). -/
def execSysWdtWarn (s : State) : Result := s.always fun m => m.wdtWarn

/-- WDT_EXPIRY (R405). -/
def execWdtExpiry (s : State) : Result := s.always fun m => m.wdtExpiry

/-- WDT_COUNT_DROP (R405). -/
def execWdtCountDrop (s : State) : Result := s.always fun m => m.wdtCountDrop

/-- PWR_RAIL (R406). -/
def execPwrRail (rail mv : Nat) (s : State) : Result := s.always fun m => m.pwrRail rail mv

/-- PWR_STAGE_UP (R408). -/
def execPwrStageUp (s : State) : Result := s.always fun m => m.pwrStageUp

/-- PWR_STAGE_DOWN (R408). -/
def execPwrStageDown (s : State) : Result := s.always fun m => m.pwrStageDown

/-- S5_DWELL (R413). -/
def execS5Dwell (s : State) : Result := s.always fun m => m.s5Dwell

/-- SAG_RESTART (R414). -/
def execSagRestart (s : State) : Result := s.always fun m => m.sagRestart

/-- PWR_THERMAL (R410). -/
def execPwrThermal (s : State) : Result := s.clocked fun m => m.pwrThermal

/-- THERMAL_CLEAR (R410). -/
def execThermalClear (s : State) : Result := s.clocked fun m => m.thermalClear

/-- THERMAL_CRIT (R410). -/
def execThermalCrit (s : State) : Result := s.clocked fun m => m.thermalCrit

end Sys2Proof.Machine
end

