-- ==== Sys2Proof/Machine/CmdObserve.lean ====
section
/-! DEFINITION. Meanings of commands. Counters, the sampler, telemetry and the trouble log (R418 to R434). -/

namespace Sys2Proof.Machine

/-- PMC_WRAP (R418). -/
def execPmcWrap (e : Nat) (s : State) : Result := s.clocked fun m => m.pmcWrap e

/-- PMC_SNAP (R422). -/
def execPmcSnap (by_ : Master) (value : Nat) (s : State) : Result :=
  s.ends (s.hostWrite by_ addrSnapCtl 4 (setBit value 31))

/-- PMC_SW (R420). -/
def execPmcSw (by_ : Master) (value : Nat) (s : State) : Result := s.ends (s.hostWrite by_ addrPmcSw 4 value)

/-- PMC_SAMP_READ (R424). -/
def execPmcSampRead (by_ : Master) (s : State) : Result := s.ends (s.hostRead by_ addrPmcSamp 4)

/-- SENSOR_READ (R425). -/
def execSensorRead (readings : List Int) (s : State) : Result := s.clocked fun m => m.sensorRead readings

/-- TEL_RECORD (R426). -/
def execTelRecord (s : State) : Result := s.clocked fun m => m.telRecord

/-- TROUBLE_LOG_WRITE (R431). -/
def execTroubleLogWrite (s : State) : Result := s.ends s.troubleLogWrite

end Sys2Proof.Machine
end

