-- ==== Sys2Proof/Machine/CmdScan.lean ====
section
/-! DEFINITION. Meanings of commands. Scan-out: frames, the DisplayPort link, AUX and the panel (R253 to R277). -/

namespace Sys2Proof.Machine

/-- FRAME_START (R255). -/
def execFrameStart (s : State) : Result := s.awake fun m => m.frameStart

/-- VBLANK (R275). -/
def execVblank (s : State) : Result := s.awake fun m => m.vblank

/-- HPD_PLUG (R265). -/
def execHpdPlug (sink : Sink) (trains : List (Nat × Nat × Bool)) (s : State) : Result :=
  s.awake fun m => m.hpdPlug sink trains

/-- HPD_UNPLUG (R265). -/
def execHpdUnplug (s : State) : Result := s.awake fun m => m.hpdUnplug

/-- IRQ_HPD (R265). -/
def execIrqHpd (lost auxFails : Bool) (trains : List (Nat × Nat × Bool)) (s : State) : Result :=
  s.awake fun m => m.irqHpd lost auxFails trains

/-- HPD_SHORT_PULSE (R265). -/
def execHpdShortPulse (s : State) : Result := s.awake fun m => m.hpdShortPulse

/-- DP_RETRY (R263). -/
def execDpRetry (trains : List (Nat × Nat × Bool)) (s : State) : Result := s.awake fun m => m.dpRetry trains

/-- AUX_GO (R266). -/
def execAuxGo (by_ : Master) (value : Nat) (s : State) : Result :=
  s.ends (s.hostWrite by_ addrAuxCtl 4 (setBit value 31))

/-- AUX_REPLY_TIMEOUT (R266). -/
def execAuxReplyTimeout (s : State) : Result := s.awake fun m => m.auxReplyTimeout

/-- AUX_REPLY (R266). -/
def execAuxReply (code : Nat) (data : List Nat) (fits : Bool) (s : State) : Result :=
  s.awake fun m => m.auxReply code data fits

/-- PANEL_STEP (R267). -/
def execPanelStep (trains : List (Nat × Nat × Bool)) (s : State) : Result := s.always fun m => m.panelStep trains

/-- NO_HPD (R267). -/
def execNoHpd (s : State) : Result := s.awake fun m => m.noHpd

/-- SCN_BL_WRITE (R261). -/
def execScnBlWrite (by_ : Master) (value : Nat) (s : State) : Result := s.ends (s.hostWrite by_ addrScnBl 4 value)

/-- FAULT_HOLD_END (R274). -/
def execFaultHoldEnd (s : State) : Result := s.awake fun m => m.faultHoldEnd

end Sys2Proof.Machine
end

