-- ==== Sys2Proof/Machine/CmdSequencer.lean ====
section
/-! DEFINITION. Meanings of commands. The actions that a sequencer issues, and the ends of its waits (R318 to R324). -/

namespace Sys2Proof.Machine

/-- NOP (R319). -/
def execSeqNop (k : Nat) (s : State) : Result := s.ends (s.seqIssue k 0)

/-- WRITE32 (R321). -/
def execSeqWrite32 (k : Nat) (s : State) : Result := s.ends (s.seqIssue k 1)

/-- WRITE64 (R321). -/
def execSeqWrite64 (k : Nat) (s : State) : Result := s.ends (s.seqIssue k 2)

/-- RMW (R321). -/
def execSeqRmw (k : Nat) (s : State) : Result := s.ends (s.seqIssue k 3)

/-- POLL (R321). -/
def execSeqPoll (k : Nat) (s : State) : Result := s.ends (s.seqPoll k)

/-- POLL_TIMEOUT (R321). -/
def execSeqPollTimeout (k : Nat) (s : State) : Result := s.ends (s.seqPollTimeout k)

/-- WAIT_EVENT (R321). -/
def execSeqWaitEvent (k : Nat) (s : State) : Result := s.ends (s.seqIssue k 5)

/-- WAIT_EVENT_TIMEOUT (R321). -/
def execSeqWaitEventTimeout (k : Nat) (s : State) : Result := s.ends (s.seqWaitEventTimeout k)

/-- WAIT_TIME (R321). -/
def execSeqWaitTime (k : Nat) (s : State) : Result := s.ends (s.seqIssue k 6)

/-- WAIT_TIME_EXPIRY (R321). -/
def execSeqWaitTimeExpiry (k : Nat) (s : State) : Result := s.always fun m => m.seqWaitTimeExpiry k

/-- IF_BITS (R321). -/
def execSeqIfBits (k : Nat) (s : State) : Result := s.ends (s.seqIssue k 7)

/-- JUMP (R321). -/
def execSeqJump (k : Nat) (s : State) : Result := s.ends (s.seqIssue k 8)

/-- FENCE (R321, R340). -/
def execSeqFence (k : Nat) (s : State) : Result := s.ends (s.seqIssue k 9)

/-- SIGNAL (R321). -/
def execSeqSignal (k : Nat) (s : State) : Result := s.ends (s.seqIssue k 10)

/-- COMMIT (R321). -/
def execSeqCommit (k : Nat) (s : State) : Result := s.ends (s.seqIssue k 11)

/-- COPY (R321). -/
def execSeqCopy (k : Nat) (s : State) : Result := s.ends (s.seqIssue k 12)

/-- LOG (R326). -/
def execSeqLog (k : Nat) (s : State) : Result := s.ends (s.seqIssue k 13)

/-- YIELD (R323). -/
def execSeqYield (k : Nat) (s : State) : Result := s.ends (s.seqIssue k 14)

/-- END (R315). -/
def execSeqEnd (k : Nat) (s : State) : Result := s.ends (s.seqIssue k 15)

/-- RUN_LIMIT (R324). -/
def execSeqRunLimit (k : Nat) (s : State) : Result := s.always fun m => m.seqRunLimit k

end Sys2Proof.Machine
end

