-- ==== Sys2Proof/Machine/CmdTest.lean ====
section
/-! DEFINITION. Meanings of commands. The Badger, JTAG, the debug master and the fuses (R435 to R449). -/

namespace Sys2Proof.Machine

/-- BADGER_SLOT (R436). -/
def execBadgerSlot (r : SlotResult) (s : State) : Result := s.ends ((s.on fun m => m.badgerSlot r).scrubbed r)

/-- TST_PERIOD (R439). -/
def execTstPeriod (s : State) : Result := s.always fun m => m.tstPeriod

/-- PROVE_TESTS (R442). -/
def execProveTests (r : ProveIn) (s : State) : Result := s.ends (s.proveTests r)

/-- TST_RESULT_READ (R441). -/
def execTstResultRead (by_ : Master) (s : State) : Result := s.ends (s.hostRead by_ addrTstResult 4)

/-- TAP_RESET (R444). -/
def execTapReset (s : State) : Result := s.always fun m => m.tapReset

/-- IDCODE (R444). -/
def execIdcode (s : State) : Result := s.always fun m => m.idcode

/-- SAMPLE_PRELOAD (R444). -/
def execSamplePreload (s : State) : Result := s.always fun m => m.samplePreload

/-- EXTEST (R445). -/
def execExtest (s : State) : Result := s.always fun m => m.takePins 3

/-- EXTEST_PULSE (R445). -/
def execExtestPulse (s : State) : Result := s.always fun m => m.takePins 4

/-- EXTEST_TRAIN (R445). -/
def execExtestTrain (s : State) : Result := s.always fun m => m.takePins 5

/-- CLAMP (R445). -/
def execClamp (s : State) : Result := s.always fun m => m.takePins 6

/-- HIGHZ (R445). -/
def execHighz (s : State) : Result := s.always fun m => m.takePins 7

/-- BYPASS (R444): its own code, and every code without a row. -/
def execBypass (code : Nat) (s : State) : Result := s.always fun m => m.bypassCode code

/-- FUSE_READ (R444). -/
def execFuseRead (s : State) : Result := s.ends s.fuseRead

/-- FUSE_PROG (R447). -/
def execFuseProg (digest crc : Nat) (s : State) : Result := s.always fun m => m.fuseProg digest crc

/-- DBG_FUSE_DONE (R447). -/
def execDbgFuseDone (readback : Nat) (s : State) : Result := s.ends (s.dbgFuseDone readback)

/-- DBG_NOP (R446). -/
def execDbgNop (s : State) : Result := s.always fun m => m.dbgNop

/-- DBG_READ32 (R446). -/
def execDbgRead32 (addr : Nat) (s : State) : Result := s.always fun m => m.dbgStart 1 addr 0

/-- DBG_WRITE32 (R446). -/
def execDbgWrite32 (addr data : Nat) (s : State) : Result := s.always fun m => m.dbgStart 2 addr data

/-- DBG_READ64 (R446). -/
def execDbgRead64 (addr : Nat) (s : State) : Result := s.always fun m => m.dbgStart 3 addr 0

/-- DBG_WRITE64 (R446). -/
def execDbgWrite64 (addr data : Nat) (s : State) : Result := s.always fun m => m.dbgStart 4 addr data

/-- DBG_FENCE (R446). -/
def execDbgFence (s : State) : Result := s.always fun m => m.dbgStart 5 0 0

/-- DBG_ACCESS_DONE (R446). -/
def execDbgAccessDone (s : State) : Result := s.ends s.dbgAccessDone

end Sys2Proof.Machine
end

