-- ==== Sys2Proof/Machine/CmdTime.lean ====
section
/-! DEFINITION. Meanings of commands. The timebase: time flits, references, PTP, pulse outputs and capture inputs (R60 to R92). -/

namespace Sys2Proof.Machine

/-- TIME_FLIT_SEND (R71). -/
def execTimeFlitSend (port : Nat) (s : State) : Result := s.serving fun m => m.timeFlitSend port

/-- TIME_FLIT_RECEIVE (R74). -/
def execTimeFlitReceive (port : Nat) (flit : Flit) (crcGood : Bool) (s : State) : Result :=
  s.linked fun m => m.timeFlitReceive port flit crcGood

/-- TIME_SETTLED (R66). -/
def execTimeSettled (s : State) : Result := s.serving fun m => m.timeSettled

/-- TIME_HOLDOVER (R77). -/
def execTimeHoldover (s : State) : Result := s.serving fun m => m.timeHoldover

/-- ROOT_LOST (R77). -/
def execRootLost (s : State) : Result := s.serving fun m => m.timeRootLost

/-- CLAIM (R78). -/
def execClaim (s : State) : Result := s.serving fun m => m.claim

/-- TIME_PARENT_CHANGE (R75). -/
def execTimeParentChange (port : Nat) (s : State) : Result := s.serving fun m => m.timeParentChange port

/-- PREEMPT_CLAIM (R80). -/
def execPreemptClaim (s : State) : Result := s.serving fun m => m.preemptClaim

/-- REF_PPS_EDGE (R83). -/
def execRefPpsEdge (s : State) : Result := s.serving fun m => m.refPpsEdge

/-- REF_F10M_GATE (R83). -/
def execRefF10mGate (count : Nat) (s : State) : Result := s.serving fun m => m.refF10mGate count

/-- TIME_REF_LOST (R83). -/
def execTimeRefLost (s : State) : Result := s.serving fun m => m.timeRefLost

/-- PTP_MESSAGE_TIMER (R85). -/
def execPtpMessageTimer (port : Nat) (kind : PtpKind) (s : State) : Result :=
  s.serving fun m => m.ptpMessageTimer port kind

/-- PTP_REFERENCE_LOST (R69). -/
def execPtpReferenceLost (s : State) : Result := s.serving fun m => m.ptpReferenceLost

/-- NO_ROOT_SEEN (R78). -/
def execNoRootSeen (s : State) : Result := s.serving fun m => m.noRootSeen

/-- PULSE_ARM (R89). -/
def execPulseArm (k : Nat) (periodic polarity : Bool) (s : State) : Result :=
  s.clocked fun m => m.pulseArmCmd k periodic polarity

/-- PULSE_EDGE (R89). -/
def execPulseEdge (k : Nat) (s : State) : Result := s.clocked fun m => m.pulseEdge k

/-- PULSE_RETURN (R89). -/
def execPulseReturn (k : Nat) (s : State) : Result := s.clocked fun m => m.pulseReturn k

/-- CAPTURE_EDGE (R90). -/
def execCaptureEdge (k : Nat) (rising : Bool) (s : State) : Result := s.clocked fun m => m.captureEdge k rising

/-- CAP_STAMP_READ (R90). -/
def execCapStampRead (by_ : Master) (k : Nat) (s : State) : Result := s.ends (s.hostRead by_ (addrCapStamp k) 4)

end Sys2Proof.Machine
end

