-- ==== Sys2Proof/Machine/CmdTouch.lean ====
section
/-! DEFINITION. Meanings of commands. The touch front end (R278 to R307). -/

namespace Sys2Proof.Machine

/-- TCH_CYCLE_START (R280). -/
def execTchCycleStart (s : State) : Result := s.serving fun m => m.touchCycleStart

/-- LISTEN_END (R288). -/
def execListenEnd (noise : List Nat) (s : State) : Result := s.serving fun m => m.listenEnd noise

/-- SCAN_END (R295). -/
def execScanEnd (data : ScanData) (s : State) : Result := s.serving fun m => m.scanEnd data

/-- SCAN_LATE (R303). -/
def execScanLate (s : State) : Result := s.serving fun m => m.scanLate

/-- BASELINE_ADOPTED (R291). -/
def execBaselineAdopted (node : Nat) (s : State) : Result := s.serving fun m => m.baselineAdopted node

/-- UNCONF_ADOPT (R292). -/
def execUnconfAdopt (node : Nat) (s : State) : Result := s.serving fun m => m.unconfAdopt node

/-- STUCK_CONTACT (R293). -/
def execStuckContact (slot : Nat) (s : State) : Result := s.serving fun m => m.stuckContact slot

/-- TCH_REBASE (R294). -/
def execTchRebase (by_ : Master) (mask : Nat) (s : State) : Result := s.ends (s.hostWrite by_ addrTchRebase 4 mask)

/-- TCH_TEST_GO (R304). -/
def execTchTestGo (by_ : Master) (s : State) : Result := s.ends (s.hostWrite by_ addrTchTest 4 (2 ^ 31))

/-- TCH_TEST_DONE (R304): of a test that was asked for; the one of PROVE ends with its other tests. -/
def execTchTestDone (raws coupled : List Nat) (s : State) : Result :=
  s.serving fun m => if m.tch.testWanted then m.touchTestDone raws coupled else m

/-- TCH_RX (R301). -/
def execTchRx (words : List Nat) (s : State) : Result := s.serving fun m => m.touchRx words

/-- TCH_RX_SILENT (R301). -/
def execTchRxSilent (origin : Nat) (s : State) : Result := s.serving fun m => m.touchRxSilent origin

/-- TCH_REPORT_READ (R299). -/
def execTchReportRead (by_ : Master) (s : State) : Result := s.ends (s.hostRead by_ addrTchReport 4)

/-- PROX_SAMPLE (R305). -/
def execProxSample (group count : Nat) (s : State) : Result := s.always fun m => m.proxCommand group count

end Sys2Proof.Machine
end

