-- ==== Sys2Proof/Machine/Dispatch.lean ====
section
/-! DEFINITION. The meaning of each command, by its constructor. -/

namespace Sys2Proof.Machine

open Sys2Proof

def exec (i : Instr) (s : State) : Host.Outcome State Fault Refusal :=
  match i with
  | .registerWrite by_ width addr value => Sys2Proof.Machine.execRegisterWrite by_ width addr value s
  | .lowWordRead by_ addr => Sys2Proof.Machine.execLowWordRead by_ addr s
  | .clockFault island => Sys2Proof.Machine.execClockFault island s
  | .bandSlotStart band => Sys2Proof.Machine.execBandSlotStart band s
  | .bandOverrun strip layers => Sys2Proof.Machine.execBandOverrun strip layers s
  | .cmpFrameDone => Sys2Proof.Machine.execCmpFrameDone s
  | .timeFlitSend port => Sys2Proof.Machine.execTimeFlitSend port s
  | .timeFlitReceive port flit crcGood => Sys2Proof.Machine.execTimeFlitReceive port flit crcGood s
  | .timeSettled => Sys2Proof.Machine.execTimeSettled s
  | .timeHoldover => Sys2Proof.Machine.execTimeHoldover s
  | .rootLost => Sys2Proof.Machine.execRootLost s
  | .claim => Sys2Proof.Machine.execClaim s
  | .timeParentChange port => Sys2Proof.Machine.execTimeParentChange port s
  | .preemptClaim => Sys2Proof.Machine.execPreemptClaim s
  | .refPpsEdge => Sys2Proof.Machine.execRefPpsEdge s
  | .refF10mGate count => Sys2Proof.Machine.execRefF10mGate count s
  | .timeRefLost => Sys2Proof.Machine.execTimeRefLost s
  | .ptpMessageTimer port kind => Sys2Proof.Machine.execPtpMessageTimer port kind s
  | .pulseArm k periodic polarity => Sys2Proof.Machine.execPulseArm k periodic polarity s
  | .pulseEdge k => Sys2Proof.Machine.execPulseEdge k s
  | .captureEdge k rising => Sys2Proof.Machine.execCaptureEdge k rising s
  | .capStampRead by_ k => Sys2Proof.Machine.execCapStampRead by_ k s
  | .portTrain port => Sys2Proof.Machine.execPortTrain port s
  | .trainFail port => Sys2Proof.Machine.execTrainFail port s
  | .configSend port => Sys2Proof.Machine.execConfigSend port s
  | .config port body => Sys2Proof.Machine.execConfig port body s
  | .configTimeout port => Sys2Proof.Machine.execConfigTimeout port s
  | .flitReceive port flit => Sys2Proof.Machine.execFlitReceive port flit s
  | .nak port ackSeq => Sys2Proof.Machine.execNak port ackSeq s
  | .idleLimit port => Sys2Proof.Machine.execIdleLimit port s
  | .retrain port => Sys2Proof.Machine.execRetrain port s
  | .portDisable port => Sys2Proof.Machine.execPortDisable port s
  | .memReq origin req => Sys2Proof.Machine.execMemReq origin req s
  | .memRsp tag status data => Sys2Proof.Machine.execMemRsp tag status data s
  | .memTimeout tag => Sys2Proof.Machine.execMemTimeout tag s
  | .join port msg => Sys2Proof.Machine.execJoin port msg s
  | .accept port msg => Sys2Proof.Machine.execAccept port msg s
  | .refuse port msg => Sys2Proof.Machine.execRefuse port msg s
  | .leave port msg => Sys2Proof.Machine.execLeave port msg s
  | .flowDown port msg => Sys2Proof.Machine.execFlowDown port msg s
  | .rejoin key => Sys2Proof.Machine.execRejoin key s
  | .resvCheck port => Sys2Proof.Machine.execResvCheck port s
  | .stateFlood => Sys2Proof.Machine.execStateFlood s
  | .state port msg => Sys2Proof.Machine.execState port msg s
  | .peerUnknown origin => Sys2Proof.Machine.execPeerUnknown origin s
  | .doorbell index => Sys2Proof.Machine.execDoorbell index s
  | .streamSliceReceive key slice => Sys2Proof.Machine.execStreamSliceReceive key slice s
  | .spanBandRowReceive key row => Sys2Proof.Machine.execSpanBandRowReceive key row s
  | .ethFrameReceive port bytes full => Sys2Proof.Machine.execEthFrameReceive port bytes full s
  | .auReleaseTimeout port entry ts => Sys2Proof.Machine.execAuReleaseTimeout port entry ts s
  | .streamSilent port entry => Sys2Proof.Machine.execStreamSilent port entry s
  | .ethLink port up fecLock => Sys2Proof.Machine.execEthLink port up fecLock s
  | .neighbourRequest port addr => Sys2Proof.Machine.execNeighbourRequest port addr s
  | .neighbourExpire port addr => Sys2Proof.Machine.execNeighbourExpire port addr s
  | .membershipReport port group => Sys2Proof.Machine.execMembershipReport port group s
  | .rtcpSrSend stream => Sys2Proof.Machine.execRtcpSrSend stream s
  | .openMgmt peer key nonce => Sys2Proof.Machine.execOpenMgmt peer key nonce s
  | .prove peer mac => Sys2Proof.Machine.execProve peer mac s
  | .mgmtRead session seq tagGood addr len => Sys2Proof.Machine.execMgmtRead session seq tagGood addr len s
  | .mgmtWrite session seq tagGood addr data => Sys2Proof.Machine.execMgmtWrite session seq tagGood addr data s
  | .mgmtFence session seq tagGood => Sys2Proof.Machine.execMgmtFence session seq tagGood s
  | .mgmtPending session seq tagGood data => Sys2Proof.Machine.execMgmtPending session seq tagGood data s
  | .close session seq tagGood => Sys2Proof.Machine.execClose session seq tagGood s
  | .mgmtIdle session => Sys2Proof.Machine.execMgmtIdle session s
  | .mgmtLockoutEnd peer => Sys2Proof.Machine.execMgmtLockoutEnd peer s
  | .csiFrameStart port vc fnum => Sys2Proof.Machine.execCsiFrameStart port vc fnum s
  | .csiLine port vc dt data good => Sys2Proof.Machine.execCsiLine port vc dt data good s
  | .csiFrameEnd port vc => Sys2Proof.Machine.execCsiFrameEnd port vc s
  | .capSilent port => Sys2Proof.Machine.execCapSilent port s
  | .capEnWrite port => Sys2Proof.Machine.execCapEnWrite port s
  | .sliceDecoded engine ctx r => Sys2Proof.Machine.execSliceDecoded engine ctx r s
  | .workLimit ctx => Sys2Proof.Machine.execWorkLimit ctx s
  | .contextResetEnd ctx => Sys2Proof.Machine.execContextResetEnd ctx s
  | .rowCoded engine ctx row bytes => Sys2Proof.Machine.execRowCoded engine ctx row bytes s
  | .rowLimitReached ctx row => Sys2Proof.Machine.execRowLimitReached ctx row s
  | .sliceEmit ctx nals => Sys2Proof.Machine.execSliceEmit ctx nals s
  | .encKeyReq by_ id => Sys2Proof.Machine.execEncKeyReq by_ id s
  | .encLtrReq by_ id => Sys2Proof.Machine.execEncLtrReq by_ id s
  | .latchLine => Sys2Proof.Machine.execLatchLine s
  | .applyPoint => Sys2Proof.Machine.execApplyPoint s
  | .cmpGroupCommit by_ group tag => Sys2Proof.Machine.execCmpGroupCommit by_ group tag s
  | .cmpFence by_ mask => Sys2Proof.Machine.execCmpFence by_ mask s
  | .cmpFenceClr by_ mask => Sys2Proof.Machine.execCmpFenceClr by_ mask s
  | .cmpReceiptRead by_ => Sys2Proof.Machine.execCmpReceiptRead by_ s
  | .cmpReleaseRead by_ => Sys2Proof.Machine.execCmpReleaseRead by_ s
  | .cmpReadoutIn by_ width word => Sys2Proof.Machine.execCmpReadoutIn by_ width word s
  | .readoutTimeout master => Sys2Proof.Machine.execReadoutTimeout master s
  | .frameStart => Sys2Proof.Machine.execFrameStart s
  | .vblank => Sys2Proof.Machine.execVblank s
  | .lutSwap by_ tables => Sys2Proof.Machine.execLutSwap by_ tables s
  | .lutSwapChecked => Sys2Proof.Machine.execLutSwapChecked s
  | .lutWindowWrite by_ width addr value => Sys2Proof.Machine.execLutWindowWrite by_ width addr value s
  | .lutEccFatal table => Sys2Proof.Machine.execLutEccFatal table s
  | .sigOutComplete r errors => Sys2Proof.Machine.execSigOutComplete r errors s
  | .hpdPlug sink trains => Sys2Proof.Machine.execHpdPlug sink trains s
  | .hpdUnplug => Sys2Proof.Machine.execHpdUnplug s
  | .irqHpd lost auxFails trains => Sys2Proof.Machine.execIrqHpd lost auxFails trains s
  | .dpRetry trains => Sys2Proof.Machine.execDpRetry trains s
  | .auxGo by_ value => Sys2Proof.Machine.execAuxGo by_ value s
  | .auxReplyTimeout => Sys2Proof.Machine.execAuxReplyTimeout s
  | .auxReply code data fits => Sys2Proof.Machine.execAuxReply code data fits s
  | .panelStep trains => Sys2Proof.Machine.execPanelStep trains s
  | .noHpd => Sys2Proof.Machine.execNoHpd s
  | .scnBlWrite by_ value => Sys2Proof.Machine.execScnBlWrite by_ value s
  | .faultHoldEnd => Sys2Proof.Machine.execFaultHoldEnd s
  | .hpdShortPulse => Sys2Proof.Machine.execHpdShortPulse s
  | .tchCycleStart => Sys2Proof.Machine.execTchCycleStart s
  | .listenEnd noise => Sys2Proof.Machine.execListenEnd noise s
  | .scanEnd data => Sys2Proof.Machine.execScanEnd data s
  | .scanLate => Sys2Proof.Machine.execScanLate s
  | .baselineAdopted node => Sys2Proof.Machine.execBaselineAdopted node s
  | .unconfAdopt node => Sys2Proof.Machine.execUnconfAdopt node s
  | .stuckContact slot => Sys2Proof.Machine.execStuckContact slot s
  | .tchRebase by_ mask => Sys2Proof.Machine.execTchRebase by_ mask s
  | .tchTestGo by_ => Sys2Proof.Machine.execTchTestGo by_ s
  | .tchTestDone raws coupled => Sys2Proof.Machine.execTchTestDone raws coupled s
  | .tchRx words => Sys2Proof.Machine.execTchRx words s
  | .tchRxSilent origin => Sys2Proof.Machine.execTchRxSilent origin s
  | .tchReportRead by_ => Sys2Proof.Machine.execTchReportRead by_ s
  | .proxSample group count => Sys2Proof.Machine.execProxSample group count s
  | .eventArrival source => Sys2Proof.Machine.execEventArrival source s
  | .delivery => Sys2Proof.Machine.execDelivery s
  | .seqNop k => Sys2Proof.Machine.execSeqNop k s
  | .seqWrite32 k => Sys2Proof.Machine.execSeqWrite32 k s
  | .seqWrite64 k => Sys2Proof.Machine.execSeqWrite64 k s
  | .seqRmw k => Sys2Proof.Machine.execSeqRmw k s
  | .seqPoll k => Sys2Proof.Machine.execSeqPoll k s
  | .seqPollTimeout k => Sys2Proof.Machine.execSeqPollTimeout k s
  | .seqWaitEvent k => Sys2Proof.Machine.execSeqWaitEvent k s
  | .seqWaitEventTimeout k => Sys2Proof.Machine.execSeqWaitEventTimeout k s
  | .seqWaitTime k => Sys2Proof.Machine.execSeqWaitTime k s
  | .seqWaitTimeExpiry k => Sys2Proof.Machine.execSeqWaitTimeExpiry k s
  | .seqIfBits k => Sys2Proof.Machine.execSeqIfBits k s
  | .seqJump k => Sys2Proof.Machine.execSeqJump k s
  | .seqFence k => Sys2Proof.Machine.execSeqFence k s
  | .seqSignal k => Sys2Proof.Machine.execSeqSignal k s
  | .seqCommit k => Sys2Proof.Machine.execSeqCommit k s
  | .seqCopy k => Sys2Proof.Machine.execSeqCopy k s
  | .seqLog k => Sys2Proof.Machine.execSeqLog k s
  | .seqYield k => Sys2Proof.Machine.execSeqYield k s
  | .seqEnd k => Sys2Proof.Machine.execSeqEnd k s
  | .seqRunLimit k => Sys2Proof.Machine.execSeqRunLimit k s
  | .holdoffEnd group => Sys2Proof.Machine.execHoldoffEnd group s
  | .evcPendWrite by_ w value => Sys2Proof.Machine.execEvcPendWrite by_ w value s
  | .evcHostPendWrite by_ h w value => Sys2Proof.Machine.execEvcHostPendWrite by_ h w value s
  | .evcDoorbell by_ value => Sys2Proof.Machine.execEvcDoorbell by_ value s
  | .seqLogRead by_ => Sys2Proof.Machine.execSeqLogRead by_ s
  | .gpioEdge pin level => Sys2Proof.Machine.execGpioEdge pin level s
  | .i2cGo by_ value => Sys2Proof.Machine.execI2cGo by_ value s
  | .i2cDone ack data => Sys2Proof.Machine.execI2cDone ack data s
  | .i2cTimeout => Sys2Proof.Machine.execI2cTimeout s
  | .gateCommit by_ index => Sys2Proof.Machine.execGateCommit by_ index s
  | .gateSyncWrite by_ value => Sys2Proof.Machine.execGateSyncWrite by_ value s
  | .gateSyncRead by_ => Sys2Proof.Machine.execGateSyncRead by_ s
  | .gateRecordRead by_ => Sys2Proof.Machine.execGateRecordRead by_ s
  | .sysFenceRead by_ => Sys2Proof.Machine.execSysFenceRead by_ s
  | .cisternFatal addr => Sys2Proof.Machine.execCisternFatal addr s
  | .spiWrite addr data whole => Sys2Proof.Machine.execSpiWrite addr data whole s
  | .spiReadReq addr len whole => Sys2Proof.Machine.execSpiReadReq addr len whole s
  | .spiStatus => Sys2Proof.Machine.execSpiStatus s
  | .spiReadData => Sys2Proof.Machine.execSpiReadData s
  | .spiCsLimit => Sys2Proof.Machine.execSpiCsLimit s
  | .spiUnknownCommand code => Sys2Proof.Machine.execSpiUnknownCommand code s
  | .chkCompute by_ c value => Sys2Proof.Machine.execChkCompute by_ c value s
  | .chkCheck by_ c value => Sys2Proof.Machine.execChkCheck by_ c value s
  | .chkAppend by_ c value => Sys2Proof.Machine.execChkAppend by_ c value s
  | .chkCheckStrip by_ c value => Sys2Proof.Machine.execChkCheckStrip by_ c value s
  | .chkJobDone c => Sys2Proof.Machine.execChkJobDone c s
  | .load flash => Sys2Proof.Machine.execLoad flash s
  | .imageCheck flash => Sys2Proof.Machine.execImageCheck flash s
  | .flashRead by_ len => Sys2Proof.Machine.execFlashRead by_ len s
  | .flashProgram by_ len => Sys2Proof.Machine.execFlashProgram by_ len s
  | .flashErase by_ => Sys2Proof.Machine.execFlashErase by_ s
  | .flashDone verified => Sys2Proof.Machine.execFlashDone verified s
  | .flashEraseTimeout => Sys2Proof.Machine.execFlashEraseTimeout s
  | .svcNew by_ => Sys2Proof.Machine.execSvcNew by_ s
  | .svcVerify by_ => Sys2Proof.Machine.execSvcVerify by_ s
  | .svcChallengeExpiry => Sys2Proof.Machine.execSvcChallengeExpiry s
  | .requestLive by_ => Sys2Proof.Machine.execRequestLive by_ s
  | .requestStandby by_ => Sys2Proof.Machine.execRequestStandby by_ s
  | .requestSleep by_ => Sys2Proof.Machine.execRequestSleep by_ s
  | .requestService by_ => Sys2Proof.Machine.execRequestService by_ s
  | .requestHalt by_ => Sys2Proof.Machine.execRequestHalt by_ s
  | .por => Sys2Proof.Machine.execPor s
  | .resetN => Sys2Proof.Machine.execResetN s
  | .sysResetReq by_ value => Sys2Proof.Machine.execSysResetReq by_ value s
  | .holdEnd => Sys2Proof.Machine.execHoldEnd s
  | .softEth by_ => Sys2Proof.Machine.execSoftEth by_ s
  | .softCap by_ => Sys2Proof.Machine.execSoftCap by_ s
  | .softDec by_ => Sys2Proof.Machine.execSoftDec by_ s
  | .softEnc by_ => Sys2Proof.Machine.execSoftEnc by_ s
  | .softTch by_ => Sys2Proof.Machine.execSoftTch by_ s
  | .softChk by_ => Sys2Proof.Machine.execSoftChk by_ s
  | .leaveJoin => Sys2Proof.Machine.execLeaveJoin s
  | .joinLimit => Sys2Proof.Machine.execJoinLimit s
  | .wakeTimer => Sys2Proof.Machine.execWakeTimer s
  | .sleepEntryDone => Sys2Proof.Machine.execSleepEntryDone s
  | .sleepWake source => Sys2Proof.Machine.execSleepWake source s
  | .sysWdtKick by_ value => Sys2Proof.Machine.execSysWdtKick by_ value s
  | .sysWdtWarn => Sys2Proof.Machine.execSysWdtWarn s
  | .wdtExpiry => Sys2Proof.Machine.execWdtExpiry s
  | .wdtCountDrop => Sys2Proof.Machine.execWdtCountDrop s
  | .pwrRail rail mv => Sys2Proof.Machine.execPwrRail rail mv s
  | .pwrStageUp => Sys2Proof.Machine.execPwrStageUp s
  | .pwrStageDown => Sys2Proof.Machine.execPwrStageDown s
  | .s5Dwell => Sys2Proof.Machine.execS5Dwell s
  | .sagRestart => Sys2Proof.Machine.execSagRestart s
  | .pwrThermal => Sys2Proof.Machine.execPwrThermal s
  | .thermalClear => Sys2Proof.Machine.execThermalClear s
  | .thermalCrit => Sys2Proof.Machine.execThermalCrit s
  | .pmcWrap e => Sys2Proof.Machine.execPmcWrap e s
  | .pmcSnap by_ value => Sys2Proof.Machine.execPmcSnap by_ value s
  | .pmcSw by_ value => Sys2Proof.Machine.execPmcSw by_ value s
  | .pmcSampRead by_ => Sys2Proof.Machine.execPmcSampRead by_ s
  | .sensorRead readings => Sys2Proof.Machine.execSensorRead readings s
  | .telRecord => Sys2Proof.Machine.execTelRecord s
  | .troubleLogWrite => Sys2Proof.Machine.execTroubleLogWrite s
  | .badgerSlot r => Sys2Proof.Machine.execBadgerSlot r s
  | .tstPeriod => Sys2Proof.Machine.execTstPeriod s
  | .proveTests r => Sys2Proof.Machine.execProveTests r s
  | .tstResultRead by_ => Sys2Proof.Machine.execTstResultRead by_ s
  | .tapReset => Sys2Proof.Machine.execTapReset s
  | .idcode => Sys2Proof.Machine.execIdcode s
  | .samplePreload => Sys2Proof.Machine.execSamplePreload s
  | .extest => Sys2Proof.Machine.execExtest s
  | .extestPulse => Sys2Proof.Machine.execExtestPulse s
  | .extestTrain => Sys2Proof.Machine.execExtestTrain s
  | .clamp => Sys2Proof.Machine.execClamp s
  | .highz => Sys2Proof.Machine.execHighz s
  | .bypass code => Sys2Proof.Machine.execBypass code s
  | .fuseRead => Sys2Proof.Machine.execFuseRead s
  | .fuseProg digest crc => Sys2Proof.Machine.execFuseProg digest crc s
  | .dbgFuseDone readback => Sys2Proof.Machine.execDbgFuseDone readback s
  | .dbgNop => Sys2Proof.Machine.execDbgNop s
  | .dbgRead32 addr => Sys2Proof.Machine.execDbgRead32 addr s
  | .dbgWrite32 addr data => Sys2Proof.Machine.execDbgWrite32 addr data s
  | .dbgRead64 addr => Sys2Proof.Machine.execDbgRead64 addr s
  | .dbgWrite64 addr data => Sys2Proof.Machine.execDbgWrite64 addr data s
  | .dbgFence => Sys2Proof.Machine.execDbgFence s
  | .dbgAccessDone => Sys2Proof.Machine.execDbgAccessDone s
  | .noRootSeen => Sys2Proof.Machine.execNoRootSeen s
  | .pulseReturn k => Sys2Proof.Machine.execPulseReturn k s
  | .trainLock port lanes rate => Sys2Proof.Machine.execTrainLock port lanes rate s
  | .ptpReferenceLost => Sys2Proof.Machine.execPtpReferenceLost s
  | .flowSilent key => Sys2Proof.Machine.execFlowSilent key s

end Sys2Proof.Machine
end

