-- ==== Sys2Proof/Machine/Step.lean ====
section
/-! DEFINITION. One step: the command that has waited longest, or one tick of the raw counter when none waits. -/

namespace Sys2Proof.Machine

/-- A step of the block. -/
def step (s : State) : Host.Outcome State Fault Refusal :=
  match s.pending with
  | [] => s.idle
  | c :: rest => exec c { s with pending := rest }

/-- The command that a word spells, at the front of the queue. -/
def State.withFetchWord (s : State) (nbits w : Nat) : State :=
  match decodeTableWord nbits w with
  | some c => { s with pending := c :: s.pending }
  | none => s

end Sys2Proof.Machine
end

