-- ==== Sys2Proof/Safety.lean ====
section
/-! DEFINITION. What counts as a sound state and a safe run: the memories, the flash and the register file in their
canonical forms, and no step that stops; and what it means that a command leaves the rest alone. -/

namespace Sys2Proof.Machine

/-- The canonical form of a memory whose unlisted bytes read d: addresses rise, and no entry equals d. -/
def Memory.wf (d : Byte) (l : List Host.Cell) : Bool := tWf (fun _ => d) l

/-- The memories and the flash of a state are in canonical form. -/
def State.memoryWf (s : State) : Bool := Memory.wf 0 s.mem && Memory.wf 0xFF s.flash

/-- A step answers a next state. -/
def State.steps (s : State) : Prop := ∃ t, step s = .next t

/-- k steps from a state: all answer a next state, and all states on the way are in canonical form. -/
def State.safeRun : Nat → State → Prop
  | 0, s => s.memoryWf = true
  | k + 1, s => s.memoryWf = true ∧ ∃ t, step s = .next t ∧ t.safeRun k

/-! ### Frames -/

/-- The registers that an arrival at an event source can reach (R310, R317, R321, R418, R421, R422, R428, R429): pending and
merged bits, arrival counts, the counters and their snapshot, the host sets, a sequencer that waited for the source, the
summary of troubles with the state of the log queue, and NO_ROUTE of a doorbell that finds no way to the fabric host. -/
def flagRegs : List Reg :=
  [.PMC_ARRIVALS, .PMC_CNT, .PMC_WRAPPED, .PMC_SNAP, .PMC_SNAP_TIME, .PMC_SNAP_STATUS, .EVC_PEND, .EVC_MERGED,
   .EVC_MERGES, .EVC_TROUBLE, .EVC_HOST_PEND, .SEQ_ST, .SEQ_STATE, .SYS_TROUBLE, .TEL_LOG_STATUS, .TEL_TROUBLE,
   .FAB_PORT_TROUBLE]

/-- The registers that the rise of a Sticky bit of r sets beside those: r, and the node cause of a codec (R174, R199). -/
def riseRegs : Reg → List Reg
  | .DEC_TROUBLE => [.DEC_TROUBLE, .DEC_NODE_CAUSE]
  | .ENC_TROUBLE => [.ENC_TROUBLE, .ENC_NODE_CAUSE]
  | r => [r]

/-- The registers that the end of every command can reach beside those: the precise sampler's records (R424). -/
def endRegs : List Reg := .PMC_SAMP_STATUS :: .PMC_TROUBLE :: flagRegs

/-- Between m and n every register outside rs is unchanged. -/
def Mach.regsSame (rs : List Reg) (m n : Mach) : Prop := ∀ r i, r ∉ rs → n.rd r i = m.rd r i

/-- Between m and n everything beyond the registers is unchanged but for what an arrival can reach: the event
controller, the counters, the output queues of the fabric (the doorbell of the fabric host) and the limits of events. -/
structure Mach.restSame (m n : Mach) : Prop where
  raw : n.raw = m.raw
  latches : n.latches = m.latches
  time : n.time = m.time
  eth : n.eth = m.eth
  cap : n.cap = m.cap
  dec : n.dec = m.dec
  enc : n.enc = m.enc
  cmp : n.cmp = m.cmp
  lut : n.lut = m.lut
  sig : n.sig = m.sig
  scn : n.scn = m.scn
  tch : n.tch = m.tch
  gate : n.gate = m.gate
  cfg : n.cfg = m.cfg
  chk : n.chk = m.chk
  sys : n.sys = m.sys
  pwr : n.pwr = m.pwr
  tst : n.tst = m.tst

/-- Between m and n nothing is changed but the registers and the state of the blocks bs, and what an arrival at an event
source can reach. -/
structure Mach.Within (bs : List Block) (m n : Mach) : Prop where
  regs : ∀ r i, r.block ∉ bs → r ∉ endRegs → n.rd r i = m.rd r i
  raw : n.raw = m.raw
  latches : n.latches = m.latches
  time : .time ∉ bs → n.time = m.time
  eth : .eth ∉ bs → n.eth = m.eth
  cap : .cap ∉ bs → n.cap = m.cap
  dec : .dec ∉ bs → n.dec = m.dec
  enc : .enc ∉ bs → n.enc = m.enc
  cmp : .cmp ∉ bs → n.cmp = m.cmp
  lut : .lut ∉ bs → n.lut = m.lut
  sig : .sig ∉ bs → n.sig = m.sig
  scn : .scn ∉ bs → n.scn = m.scn
  tch : .tch ∉ bs → n.tch = m.tch
  gate : .gate ∉ bs → n.gate = m.gate
  cfg : .cfg ∉ bs → n.cfg = m.cfg
  chk : .chk ∉ bs → n.chk = m.chk
  sys : .sys ∉ bs → n.sys = m.sys
  pwr : .pwr ∉ bs → n.pwr = m.pwr
  tst : .tst ∉ bs → n.tst = m.tst

/-! ### How a command leaves the machine -/

/-- The state after a command whose own effect on the block is f: f, and what ends every command. -/
def State.after (s : State) (f : Mach → Mach) : State := s.done (s.on f)

/-- Sequencer k may run and stands at the action `ws` of opcode op: its words are fetched and sound (R318, R319). -/
def State.standsAt (s : State) (k op : Nat) (ws : List Nat) : Prop :=
  s.mach.seqMay k seqRun = true ∧ s.fetchAction k = .inr ws ∧ ws.getD 0 0 / 2 ^ 60 = op ∧ badWord ws = false

/-- The state in which that action acts: its fetch counted, its opcode shown, and the sampler's choice made (R423). -/
def State.issued (s : State) (k op : Nat) (ws : List Nat) : State :=
  (s.fetchCorrected (s.mach.seqPc k) ws.length).on fun m =>
    (m.put F.SEQ_ST_OP op k).sampleIssue k (ws.getD 0 0) (ws.getD 1 0) (op = 8 || 14 ≤ op)

/-! ### Commands that store bytes -/

/-- The commands that can store a byte of the memories or of the flash: writes at any address, requests of other nodes,
engines that write pictures, statistics and check values, the actions of sequencers, and all that loads, tests or resets
memories. -/
def storesBytes : Instr → Bool
  | .registerWrite .. | .lutWindowWrite .. | .memReq .. | .memRsp .. | .memTimeout .. | .flitReceive ..
  | .ethFrameReceive .. | .mgmtWrite .. | .spiWrite .. | .chkJobDone .. | .sliceEmit .. | .bandSlotStart ..
  | .bandOverrun .. | .load .. | .imageCheck .. | .flashDone .. | .por | .troubleLogWrite | .proveTests ..
  | .dbgAccessDone | .seqWrite32 .. | .seqWrite64 .. | .seqRmw .. | .seqSignal .. | .seqCopy .. => true
  | _ => false

/-! ### Register accesses of commands (R3, R333, R343) -/

/-- A register access as a command makes it: who, how wide, where, and the value of a write. -/
structure HostAccess where
  by_ : Master
  width : Width
  addr : Nat
  value : Nat
  deriving DecidableEq, Repr

/-- The interconnect clock runs, the address lies in register space, and the gate grants the access, which leaves the
machine as m. -/
structure State.Granted (s : State) (x : HostAccess) (write : Bool) (m : Mach) : Prop where
  clock : s.mach.clockRuns = true
  space : x.addr < 0x10000000
  gate : s.mach.gateCheck x.by_ ⟨x.addr, x.width.bytes, write⟩ false = (none, m)

/-- The sampler is offered the access, which ended with a cause or with 0 (R423). -/
def State.sampled (s : State) (x : HostAccess) (write : Bool) (cause : Nat) (m : Mach) : Mach :=
  m.sampleMem x.by_.id write (s.mach.wallAddr x.addr) (m.originOf x.by_) x.width.bytes cause

/-- The write stored in the registers it covers, by the types of their fields (R2). -/
def Mach.storedBy (m : Mach) (x : HostAccess) : Mach :=
  (coversOf x.width x.addr x.value).foldl (fun (m : Mach) c => m.store c) m

/-- Every register that the write covers takes its value (R10, R11). -/
def Mach.Takes (m : Mach) (x : HostAccess) : Prop :=
  ∀ c ∈ coversOf x.width x.addr x.value, m.coverOk (m.storedBy x) x.by_ c = true

/-- The command ends with the machine as m, and its requester has its answer: whether the access was performed, and the
value of a read. -/
def State.answered (s : State) (m : Mach) (x : HostAccess) (ok : Bool) (v : Nat) : State :=
  s.done (s.on fun _ => m.emit (.data x.by_ ok v))

end Sys2Proof.Machine
end

