-- ==== Sys2Proof/Certificates/Slice0/Obligations.lean ====
section
/-! DEFINITION. The statements for the provers: what each family of commands does when its conditions hold, what every
command leaves alone, and the rules of the spec for registers, events, troubles, the gate, the memories and reset. -/

open Sys2Proof Sys2Proof.Machine


/-! ### The timebase -/

/-- R71 to R74, R101: the acting root originates a time flit on every ACTIVE port; any other node sends one with REVERSE
on its parent port, and on a port on which none has left for 1 µs. A time flit that fails its CRC is counted and dropped;
a good one is counted, acknowledges, gives a link delay, is recorded as the port's newest and decides the election; the
acting root then takes no time from it, and a node takes its time from a usable flit on its parent port. -/
def Obligations.TimeFlitCommands : Prop :=
  (∀ (s : State) (p : Nat), s.mach.serves = true → s.mach.portActive p = true → s.mach.on F.TIME_STATUS_IS_ROOT = true →
    exec (.timeFlitSend p) s = .next (s.after fun m => m.enqueue p .origin)) ∧
  (∀ (s : State) (p : Nat), s.mach.serves = true → s.mach.portActive p = true →
    s.mach.on F.TIME_STATUS_IS_ROOT = false → s.mach.isParent p = true ∨ s.mach.timeFlitFresh p = false →
    exec (.timeFlitSend p) s = .next (s.after fun m => m.enqueue p .reverse)) ∧
  (∀ (s : State) (p : Nat) (f : Flit) (good : Bool), s.mach.linksRun = true → s.mach.portActive p = true → f.type = 1 →
    (good && (s.mach.fabPort p).crcOk f) = false →
    exec (.timeFlitReceive p f good) s = .next (s.after fun m => ((m.count (34 + 8 * p)).chkUnit p false).fabDrop p)) ∧
  (∀ (s : State) (p : Nat) (f : Flit), s.mach.linksRun = true → s.mach.portActive p = true → f.type = 1 → f.vc = 0 →
    f.bodyLen ≤ 48 → f.nak = false → s.mach.mode ≠ .quarantine → (s.mach.fabPort p).crcOk f = true →
    exec (.timeFlitReceive p f true) s = .next (s.after fun m =>
      (((((m.setFabPort p ((m.fabPort p).owes f.creditKey)).count (33 + 8 * p)).chkUnit p true).takeAck p f).timeFlitTaken p
        (TimeFlit.ofWords f.body)))) ∧
  (∀ (m : Mach) (p : Nat) (f : TimeFlit),
    let d := m.linkDelay p f
    let n := (d.setTimePort p { d.timePort p with rxSeq := f.seq, rxRaw := d.raw, flit := some f, flitRaw := d.raw }).election p f
    (n.on F.TIME_STATUS_IS_ROOT = true → m.timeFlitTaken p f = n) ∧
    (n.on F.TIME_STATUS_IS_ROOT = false → n.usable p f = true → n.isParent p = true →
      m.timeFlitTaken p f = n.parentFlit p f))

/-- R66, R75, R77, R78, R80: ACQUIRE ends in LOCKED with event 16 once the offset has settled; loss of the parent gives
HOLDOVER, and another port that offers time, or a better one, is taken as parent; loss of the root sets ROOT_LOST, and a
candidate claims at once with rank 0 and otherwise after its wait; a claim makes it the acting root. -/
def Obligations.TimeServoCommands : Prop :=
  (∀ s : State, s.mach.serves = true → s.mach.servo = servoAcquire → s.mach.time.withinSince.isSome = true →
    exec .timeSettled s = .next (s.after fun m =>
      (({ m with time := { m.time with overCount := 0, holdRate := m.getS F.TIME_RATE_RATE } } : Mach).put
        F.TIME_STATUS_STATE servoLocked).raise 16)) ∧
  (∀ s : State, s.mach.serves = true → s.mach.on F.TIME_STATUS_IS_ROOT = false → s.mach.servo ≠ servoFree →
    exec .timeHoldover s = .next (s.after fun m =>
      let old := if m.on F.TIME_STATUS_PARENT_VALID then some (m.get F.TIME_STATUS_PARENT) else none
      let n := if m.servo = servoHoldover then m else m.enterHoldover
      match n.bestParent old with
      | some q => n.setParent q ((n.offers q).getD 0)
      | none => n.putB F.TIME_STATUS_PARENT_VALID false)) ∧
  (∀ s : State, s.mach.serves = true → s.mach.on F.TIME_STATUS_IS_ROOT = false → s.mach.servo ≠ servoFree →
    s.mach.time.rootLost = false →
    exec .rootLost s = .next (s.after fun m =>
      let n := ({ m with time := { m.time with rootLost := true, lostEpoch := m.get F.TIME_EPOCH_EPOCH } } : Mach).trouble
        F.TIME_TROUBLE_ROOT_LOST
      if n.candidate = false then n
      else if n.get F.TIME_ROOT_CFG_RANK = 0 then n.becomeRoot false
      else { n with time := { n.time with claimFrom := some n.raw } })) ∧
  (∀ s : State, s.mach.serves = true → s.mach.candidate = true → s.mach.claimDue = true →
    exec .claim s = .next (s.after fun m => m.becomeRoot false)) ∧
  (∀ s : State, s.mach.serves = true → s.mach.candidate = true → s.mach.on F.TIME_ROOT_CFG_PREEMPT = true →
    s.mach.on F.TIME_STATUS_IS_ROOT = false → s.mach.servo ≠ servoFree → s.mach.refSettled = true →
    s.mach.ownBetter = true →
    exec .preemptClaim s = .next (s.after fun m => m.becomeRoot true)) ∧
  (∀ s : State, s.mach.serves = true → s.mach.mode = .join → s.mach.candidate = true → s.mach.servo = servoFree →
    s.mach.on F.TIME_STATUS_IS_ROOT = false → s.mach.time.claimFrom = none →
    exec .noRootSeen s = .next (s.after fun m =>
      if m.get F.TIME_ROOT_CFG_RANK = 0 then m.becomeRoot false
      else { m with time := { m.time with claimFrom := some m.raw } })) ∧
  (∀ (s : State) (p h : Nat), s.mach.serves = true → s.mach.offers p = some h →
    s.mach.on F.TIME_STATUS_PARENT_VALID = true → s.mach.isParent p = false → s.mach.on F.TIME_STATUS_IS_ROOT = false →
    h + 1 < s.mach.get F.TIME_STATUS_HOPS →
    exec (.timeParentChange p) s = .next (s.after fun m => m.setParent p h))

/-- R78: a claim leaves the node as acting root, with its own tuple and an epoch one above the highest seen. -/
def Obligations.ClaimMakesRoot : Prop :=
  ∀ s : State, s.mach.serves = true → s.mach.candidate = true → s.mach.claimDue = true → s.mach.sys.resetDue = none →
    ∃ t, exec .claim s = .next t ∧
      t.mach.on F.TIME_STATUS_IS_ROOT = true ∧ t.mach.on F.TIME_STATUS_PARENT_VALID = false ∧
      t.mach.servo = servoLocked ∧
      t.mach.get F.TIME_EPOCH_EPOCH = (s.mach.time.maxEpoch + 1) % 2 ^ 32 ∧
      t.mach.get F.TIME_ROOT_NODE = s.mach.nodeId ∧ t.mach.get F.TIME_ROOT_PRIO = s.mach.get F.TIME_ROOT_CFG_PRIO

/-- R69, R83 to R85, R89, R90: an accepted 1PPS edge is counted, and with a time of day gives the phase of the second,
which locks the reference when the 10 MHz needs none or is good; any other edge is counted and left out of the window; a
gate of the 10 MHz within its window gives the acting root its frequency; a lost reference; the PTP messages of each
role; a pulse output is armed, driven and returned; an edge of a capture input is stamped and kept. -/
def Obligations.TimePinCommands : Prop :=
  (∀ s : State, s.mach.serves = true → s.mach.on F.TIME_REF_CFG_PPS_EN = true → 2 ≤ s.mach.get F.TIME_ROOT_CFG_REF_SEL →
    s.mach.ppsGood = true →
    exec .refPpsEdge s = .next (s.after fun m =>
      let n := ({ m with time := { m.time with ppsMisses := 0, ppsLast := some m.raw } } : Mach).count 30
      match n.time.todFrom with
      | none => n
      | some t =>
        let tod := n.get F.TIME_REF_TOD_TOD + (n.raw - t) / rawSecond
        let e := nsFx (tod * 1000000000 + n.getS F.TIME_REF_DELAY_DELAY) - n.wallFx
        let k := ({ n with time := { n.time with refOffset := e, todFrom := some (n.raw + rawSecond / 2) } } : Mach).put
          F.TIME_REF_TOD_TOD (tod + 1)
        if !k.on F.TIME_REF_CFG_F10M_EN || k.time.f10mGood then (k.refOk 3).rootOffset e else k)) ∧
  (∀ s : State, s.mach.serves = true → s.mach.on F.TIME_REF_CFG_PPS_EN = true → 2 ≤ s.mach.get F.TIME_ROOT_CFG_REF_SEL →
    s.mach.ppsGood = false →
    exec .refPpsEdge s = .next (s.after fun m =>
      let n := ({ m with time := { m.time with ppsMisses := m.time.ppsMisses + 1 } } : Mach).count 31
      if m.time.ppsMisses + 1 = n.get F.TIME_REF_CFG_MISS_LIMIT && n.time.refClass = 3 then n.refLost else n)) ∧
  (∀ (s : State) (n : Nat), s.mach.serves = true → s.mach.on F.TIME_REF_CFG_F10M_EN = true →
    ((n : Int) - 10000000).natAbs ≤ 10 * s.mach.get F.TIME_REF_CFG_F10M_WIN →
    exec (.refF10mGate n) s = .next (s.after fun m => { m with time := { m.time with
      f10mGood := true
      holdRate := if m.on F.TIME_STATUS_IS_ROOT && 2 ≤ m.get F.TIME_ROOT_CFG_REF_SEL
        then ((n : Int) - 10000000) * 2 ^ 40 / 10000000 else m.time.holdRate } })) ∧
  (∀ (s : State) (n : Nat), s.mach.serves = true → s.mach.on F.TIME_REF_CFG_F10M_EN = true →
    10 * s.mach.get F.TIME_REF_CFG_F10M_WIN < ((n : Int) - 10000000).natAbs →
    exec (.refF10mGate n) s = .next (s.after fun m => m.count 31)) ∧
  (∀ s : State, s.mach.serves = true → s.mach.time.refClass = 3 →
    exec .timeRefLost s = .next (s.after fun m =>
      ((({ m with time := { m.time with refLostU := m.ownRootU, refLostRaw := m.raw, refLockedRaw := none, refSlew := false,
                                        ppsLast := none, ppsMisses := 0 } } : Mach).setRefClass
        (if m.get F.TIME_ROOT_CFG_REF_SEL = 3 && m.time.ptpLocked then 2 else 1)).trouble
          F.TIME_TROUBLE_REF_LOST).raise 21)) ∧
  (∀ s : State, s.mach.serves = true →
    exec .ptpReferenceLost s = .next (s.after fun m =>
      if m.time.refClass = 2 then m.loseGrandmaster.refLost else m.loseGrandmaster)) ∧
  (∀ (s : State) (p : Nat), s.mach.serves = true → s.mach.get F.TIME_ETH_CTL_ROLE p = 2 →
    (s.mach.ptpPort p).state ≠ .passive →
    exec (.ptpMessageTimer p .sync) s = .next (s.after fun m =>
      let n := m.setPtpState p .master
      (n.setPtpPort p { n.ptpPort p with seqId := ((n.ptpPort p).seqId + 1) % 65536 }).sendPtp p
        { n.ownAnnounce p with kind := .sync, correction := n.wallFrac }) ∧
    exec (.ptpMessageTimer p .announce) s = .next (s.after fun m =>
      let n := m.setPtpState p .master
      (n.setPtpPort p { n.ptpPort p with seqId := ((n.ptpPort p).seqId + 1) % 65536 }).sendPtp p (n.ownAnnounce p))) ∧
  (∀ (s : State) (p : Nat) (kind : PtpKind), s.mach.serves = true →
    (kind = .delayReq ∧ s.mach.get F.TIME_ETH_CTL_ROLE p = 1 ∧ s.mach.peerProfile = false) ∨
      (kind = .pdelayReq ∧ s.mach.get F.TIME_ETH_CTL_ROLE p ≠ 0 ∧ s.mach.peerProfile = true) →
    exec (.ptpMessageTimer p kind) s = .next (s.after fun m =>
      (m.setPtpPort p { m.ptpPort p with seqId := ((m.ptpPort p).seqId + 1) % 65536,
                                         delayReq := some ((m.ptpPort p).seqId, m.wallFx), response := none }).sendPtp p
        { m.ownAnnounce p with kind := kind, correction := m.wallFrac - m.ptpAsym p })) ∧
  (∀ (s : State) (k : Nat) (per pol : Bool), s.mach.clockRuns = true → s.mach.on F.TIME_PULSE_CTL_EN k = false →
    (per = true → 100 ≤ s.mach.get F.TIME_PULSE_PERIOD_PERIOD k / 65536 ∧
      s.mach.get F.TIME_PULSE_PERIOD_PERIOD k / 65536 ≤ 4294967295 ∧
      s.mach.get F.TIME_PULSE_WIDTH_WIDTH k + 8 ≤ s.mach.get F.TIME_PULSE_PERIOD_PERIOD k / 65536) →
    s.mach.wallFx + 100 * 65536 ≤ s.mach.get F.TIME_PULSE_START_START k * 65536 →
    exec (.pulseArm k per pol) s = .next (s.after fun m =>
      (((m.putB F.TIME_PULSE_CTL_PERIODIC per k).putB F.TIME_PULSE_CTL_POLARITY pol k).putB F.TIME_PULSE_CTL_EN true k).setPulse
        k { armed := true, periodic := per, activeLow := pol, start := m.get F.TIME_PULSE_START_START k,
            period := m.get F.TIME_PULSE_PERIOD_PERIOD k, width := m.get F.TIME_PULSE_WIDTH_WIDTH k, nextEdge := 0,
            active := (m.pulse k).active, rest := (m.pulse k).rest })) ∧
  (∀ (s : State) (k : Nat), s.mach.clockRuns = true → (s.mach.pulse k).armed = true →
    exec (.pulseEdge k) s = .next (s.after fun m =>
      let x := m.pulse k
      let n := ((m.emit (.pin (.pulse k) (!x.activeLow))).count 29).setPulse k
        { x with active := true, rest := x.activeLow, nextEdge := x.nextEdge + 1, armed := x.periodic }
      if x.periodic then n else n.putB F.TIME_PULSE_CTL_EN false k)) ∧
  (∀ (s : State) (k : Nat), s.mach.clockRuns = true → (s.mach.pulse k).active = true →
    exec (.pulseReturn k) s = .next (s.after fun m =>
      (m.setPulse k { m.pulse k with active := false }).emit (.pin (.pulse k) (m.pulse k).rest))) ∧
  (∀ (s : State) (k : Nat) (rising : Bool), s.mach.clockRuns = true → s.mach.on F.TIME_CAP_CTL_EN k = true →
    s.mach.get F.TIME_CAP_CTL_EDGE k = 3 ∨ s.mach.get F.TIME_CAP_CTL_EDGE k = (if rising then 1 else 2) →
    (∀ t, (s.mach.capIn k).last = some t →
      (s.mach.get F.TIME_CAP_CTL_DEAD k : Int) ≤ ((s.mach.now - s.mach.get F.TIME_CAP_CTL_FILTER k : Nat) : Int) - t) →
    (s.mach.capIn k).fifo.length < 16 →
    exec (.captureEdge k rising) s = .next (s.after fun m =>
      let stamp := m.now - m.get F.TIME_CAP_CTL_FILTER k
      ((m.setCapIn k { fifo := (m.capIn k).fifo ++ [(stamp, rising)], last := some stamp }).count (24 + k)).raise (24 + k)))

/-! ### The fabric -/

/-- R94 to R96, R100, R102, R120: a port trains, fails with a longer back-off, locks and exchanges CONFIG; CONFIG copies
the peer's values and makes the port ACTIVE with event 32 + 8p, or leaves it DISABLED on a mismatch; a NAK has everything
behind ACK_SEQ sent again; a port that hears nothing, runs out of replays, is trained again or is disabled goes down. -/
def Obligations.PortCommands : Prop :=
  (∀ (s : State) (p : Nat), s.mach.linksRun = true → s.mach.portState p = portDown → s.mach.on F.FAB_PORT_CTL_EN p = true →
    exec (.portTrain p) s = .next (s.after fun m => m.put F.FAB_PORT_STATUS_STATE portTrainSt p)) ∧
  (∀ (s : State) (p : Nat), s.mach.linksRun = true → s.mach.portState p = portTrainSt →
    exec (.trainFail p) s = .next (s.after fun m =>
      let n := m.portToDown p portDown
      ((((n.setFabPort p { n.fabPort p with backoff := nextBackoff (n.fabPort p).backoff }).trouble
        F.FAB_PORT_TROUBLE_TRAIN_FAIL p).trouble F.FAB_PORT_TROUBLE_LINK_DOWN p).raise (34 + 8 * p)).raise (33 + 8 * p))) ∧
  (∀ (s : State) (p lanes rate : Nat), s.mach.linksRun = true → s.mach.portState p = portTrainSt →
    lanes = 4 ∨ (lanes = 2 ∧ s.mach.get F.FAB_PORT_CTL_WIDTH_MIN p = 2) → 1 ≤ rate →
    rate ≤ s.mach.get F.FAB_PORT_CTL_RATE_MAX p →
    exec (.trainLock p lanes rate) s = .next (s.after fun m =>
      ((m.put F.FAB_PORT_STATUS_STATE portConfig p).put F.FAB_PORT_STATUS_RATE rate p).put F.FAB_PORT_STATUS_WIDTH lanes p)) ∧
  (∀ (s : State) (p : Nat), s.mach.linksRun = true → s.mach.portState p = portConfig →
    exec (.configSend p) s = .next (s.after fun m =>
      (m.emit (.flit p (configFlit (m.ownConfig p).words))).flitSent p)) ∧
  (∀ (s : State) (p : Nat), s.mach.linksRun = true → s.mach.portState p = portConfig →
    exec (.configTimeout p) s = .next (s.after fun m =>
      let n := m.portToDown p portDown
      (n.setFabPort p { n.fabPort p with backoff := nextBackoff (n.fabPort p).backoff }).raise (34 + 8 * p))) ∧
  (∀ (s : State) (p : Nat) (c : ConfigBody), s.mach.linksRun = true →
    s.mach.portState p = portConfig ∨ s.mach.portState p = portActiveSt →
    exec (.config p c) s = .next (s.after fun m =>
      let n := (((m.put F.FAB_PORT_STATUS_PEER_PORT c.port p).putB F.FAB_PORT_STATUS_PEER_ID_VALID c.idValid p).put
        F.FAB_PORT_STATUS_PEER_NODE c.node p).put F.FAB_PORT_STATUS_PEER_MODE c.mode p
      let n := if m.get F.FAB_PORT_STATUS_PEER_MODE p = c.mode ∧ m.get F.FAB_PORT_STATUS_PEER_NODE p = c.node ∧
        m.on F.FAB_PORT_STATUS_PEER_ID_VALID p = c.idValid then n else n.raise (38 + 8 * p)
      if n.topoMismatch p c then (n.portFell p portDisabled).trouble F.FAB_PORT_TROUBLE_TOPO_MISMATCH p
      else (if m.portState p = portConfig then
          ((n.setFabPort p { n.fabPort p with
              backoff := 0, credits := (List.range 8).map fun i => (i, Config.fabCredits i % 512) }).put
            F.FAB_PORT_STATUS_STATE portActiveSt p).raise (32 + 8 * p)
        else n).walkId)) ∧
  (∀ (s : State) (p : Nat), s.mach.linksRun = true → s.mach.portActive p = true →
    exec (.idleLimit p) s = .next (s.after fun m => m.linkDown p portDown (some F.FAB_PORT_TROUBLE_IDLE_LIMIT))) ∧
  (∀ (s : State) (p : Nat), s.mach.linksRun = true → s.mach.portActive p = true →
    exec (.retrain p) s = .next (s.after fun m =>
      ((m.raise (34 + 8 * p)).linkDown p portDown none).put F.FAB_PORT_STATUS_STATE portTrainSt p)) ∧
  (∀ (s : State) (p : Nat), s.mach.linksRun = true → s.mach.on F.FAB_PORT_CTL_EN p = true →
    exec (.portDisable p) s = .next (s.after fun m =>
      (m.putB F.FAB_PORT_CTL_EN false p).linkDown p portDisabled none)) ∧
  (∀ (s : State) (p a : Nat), s.mach.linksRun = true → s.mach.portActive p = true →
    exec (.nak p a) s = .next (s.after fun m =>
      let x := (m.fabPort p).ack a
      let naks := if 0 < x.1 then 0 else x.2.naksInRow + 1
      let n := m.setFabPort p { x.2 with resend := x.2.replay, naksInRow := naks }
      if 0 < naks ∧ m.get F.FAB_PORT_LIMITS_REPLAY_LIMIT p ≤ naks then
        n.linkDown p portDown (some F.FAB_PORT_TROUBLE_REPLAY_LIMIT)
      else n))

/-- R100: a flit whose CRC is right and whose count is the one expected is accepted: the count advances, its credits and
its acknowledgement are taken, and its content acts; an IDLE flit has none. A flit that fails, or that leaves a gap, is
answered with one NAK; one that has been accepted before only acknowledges. -/
def Obligations.FlitReceiveCommand : Prop :=
  (∀ (s : State) (p : Nat) (f : Flit), s.mach.linksRun = true → p < 8 → s.mach.portActive p = true → f.type ≠ 1 →
    f.nak = false → (s.mach.fabPort p).crcOk f = true → (s.mach.fabPort p).countOf f = (s.mach.fabPort p).rxCount →
    exec (.flitReceive p f) s = .next (s.done (
      let x := s.mach.fabPort p
      let y : FabPort := { x.granted f with rxCount := x.rxCount + 1, nakSent := false }
      let n := (((s.mach.chkUnit p true).setFabPort p (if f.type = 0 then y else y.owes f.creditKey)).count (33 + 8 * p)).takeAck p f
      State.flitContent { s with mach := n } p f))) ∧
  (∀ (s : State) (p : Nat) (f : Flit), s.mach.linksRun = true → p < 8 → s.mach.portActive p = true → f.type = 0 →
    f.vc < 4 → f.bodyLen = 0 → f.nak = false → (s.mach.fabPort p).crcOk f = true →
    (s.mach.fabPort p).countOf f = (s.mach.fabPort p).rxCount →
    exec (.flitReceive p f) s = .next (s.after fun m =>
      let x := m.fabPort p
      (((m.chkUnit p true).setFabPort p { x.granted f with rxCount := x.rxCount + 1, nakSent := false }).count
        (33 + 8 * p)).takeAck p f)) ∧
  (∀ (s : State) (p : Nat) (f : Flit), s.mach.linksRun = true → p < 8 → s.mach.portActive p = true → f.type ≠ 1 →
    (s.mach.fabPort p).crcOk f = true → (s.mach.fabPort p).countOf f < (s.mach.fabPort p).rxCount →
    exec (.flitReceive p f) s = .next (s.after fun m => (m.chkUnit p true).takeAck p f)) ∧
  (∀ (s : State) (p : Nat) (f : Flit), s.mach.linksRun = true → p < 8 → s.mach.portActive p = true → f.type ≠ 1 →
    (s.mach.fabPort p).crcOk f = true → (s.mach.fabPort p).rxCount < (s.mach.fabPort p).countOf f →
    (s.mach.fabPort p).nakSent = false →
    exec (.flitReceive p f) s = .next (s.after fun m =>
      ((m.chkUnit p true).setFabPort p { m.fabPort p with nakSent := true, nakDue := true }).count (35 + 8 * p))) ∧
  (∀ (s : State) (p : Nat) (f : Flit), s.mach.linksRun = true → p < 8 → s.mach.portActive p = true → f.type ≠ 1 →
    (s.mach.fabPort p).crcOk f = false → (s.mach.fabPort p).nakSent = false →
    exec (.flitReceive p f) s = .next (s.after fun m =>
      (((m.chkUnit p false).count (34 + 8 * p)).setFabPort p { m.fabPort p with nakSent := true, nakDue := true }).count
        (35 + 8 * p)))

/-- R107: the request of another node is counted, performed under master 29 and answered; a response, or its absence,
ends the request of its tag, and the request leaves the table. -/
def Obligations.RemoteAccessCommands : Prop :=
  (∀ (s : State) (o : Nat) (q : MemReq), s.mach.serves = true → q.write = true → 0 < q.data.length →
    q.data.length ≤ 4096 →
    exec (.memReq o q) s = .next (s.done (
      let x := (s.on fun m => m.count 11).localWrite ⟨.remote o, 29⟩ q.addr q.data false
      x.2.on fun m => m.sendRsp o q.tag x.1.status []))) ∧
  (∀ (s : State) (o : Nat) (q : MemReq), s.mach.serves = true → q.write = false → 0 < q.len → q.len ≤ 4096 →
    exec (.memReq o q) s = .next (s.done (
      let x := (s.on fun m => m.count 11).localRead ⟨.remote o, 29⟩ q.addr q.len
      x.2.on fun m => m.sendRsp o q.tag x.1.status (if x.1.cause.isSome then [] else x.1.data)))) ∧
  (∀ (s : State) (tag : Nat) (data : List Nat) (x : RemoteReq), s.mach.serves = true →
    s.mach.remoteReq (tag % 256) = some x → x.write = false →
    exec (.memRsp tag 0 data) s = .next (s.done (
      ((s.on fun m => m.setFab { m.fab with remote := m.fab.remote.filter fun (y : RemoteReq) => y.tag ≠ x.tag }).deliverReply
        x 0 ⟨none, false, (data ++ List.replicate x.len 0).take x.len⟩ false).afterReply))) ∧
  (∀ (s : State) (tag : Nat) (x : RemoteReq), s.mach.serves = true → s.mach.remoteReq (tag % 256) = some x →
    x.write = false →
    exec (.memTimeout tag) s = .next (s.done (
      (((s.on fun m => m.setFab { m.fab with remote := m.fab.remote.filter fun (y : RemoteReq) => y.tag ≠ x.tag }).on
        fun m => m.remoteFault x.by_ false x.node x.addr x.len x.posted).deliverReply
          x 3 ⟨some .remote, false, List.replicate x.len 0⟩ true).afterReply)))

/-- R109 to R113, R122, R196: a JOIN for another origin makes an entry, a branch and a JOIN towards the origin, and one
for a flow that is held a branch and an ACCEPT; ACCEPT, REFUSE, LEAVE and FLOW_DOWN act on the entry of their label; a
member that waits joins again; the check of reservations starts a new window and declares a flow short of what it
reserves; a silent flow stops its layers. -/
def Obligations.FlowCommands : Prop :=
  (∀ (s : State) (q p l : Nat) (c : CtrlMsg) (n : Mach), s.mach.serves = true → s.mach.portActive q = true →
    c.key.origin ≠ s.mach.nodeId → s.mach.entryOf c.key = none → s.mach.towards c.key.origin = .inl p →
    s.mach.freeLabel p = some l →
    s.mach.addBranch { key := c.key, origin := false, port := p, label := l, local_ := false, group := none, vc := c.vc,
                       resv := c.resv, pktSeq := 0, headVc := c.vc } q c false = (0, n) →
    exec (.join q c) s = .next (s.after fun _ => n.sendCtrl p cmdJoin { c with label := l })) ∧
  (∀ (s : State) (q : Nat) (c : CtrlMsg) (e : FlowEntry) (n : Mach), s.mach.serves = true → s.mach.portActive q = true →
    s.mach.entryOf c.key = some e → s.mach.addBranch e q c true = (0, n) →
    exec (.join q c) s = .next (s.after fun _ => n.sendCtrl q cmdAccept c)) ∧
  (∀ (s : State) (p : Nat) (c : CtrlMsg) (e : FlowEntry), s.mach.serves = true → s.mach.portActive p = true →
    s.mach.entryAt p c.label = some e → e.key = c.key →
    exec (.accept p c) s = .next (s.after fun m =>
      let n := (m.branchesOf e.key).foldl (fun m b =>
        if b.accepted then m else m.sendCtrl b.port cmdAccept { c with label := b.label }) m
      let n := n.setBranches (n.fab.branches.map fun (b : Branch) => if b.key = e.key then { b with accepted := true } else b)
      match n.member e.key with
      | some x => if e.local_ then n.setMember { x with accepted := true, status := 0 } else n
      | none => n)) ∧
  (∀ (s : State) (p : Nat) (c : CtrlMsg) (e : FlowEntry), s.mach.serves = true → s.mach.portActive p = true →
    s.mach.entryAt p c.label = some e → e.key = c.key →
    exec (.refuse p c) s = .next (s.after fun m =>
      let n := if e.local_ then m.noteRefusal p c.status c.refuser false else m.bump F.FAB_NODE_REFUSALS_COUNT
      let n := (n.branchesOf e.key).foldl (fun m b => m.sendCtrl b.port cmdRefuse { c with label := b.label }) n
      match (n.freeEntry e).member e.key with
      | some x => (n.freeEntry e).setMember { x with accepted := false, status := c.status }
      | none => n.freeEntry e)) ∧
  (∀ (s : State) (q : Nat) (c : CtrlMsg) (e : FlowEntry), s.mach.serves = true → s.mach.portActive q = true →
    s.mach.entryOf c.key = some e →
    exec (.leave q c) s = .next (s.after fun m =>
      ((m.setBranches (m.fab.branches.filter fun b => !(b.key = c.key && b.port = q))).showEntry e).reapEntry c.key)) ∧
  (∀ (s : State) (p : Nat) (c : CtrlMsg) (e : FlowEntry), s.mach.serves = true → s.mach.portActive p = true →
    s.mach.entryAt p c.label = some e → e.key = c.key →
    exec (.flowDown p c) s = .next (s.after fun m => m.cutEntry e)) ∧
  (∀ (s : State) (key : FlowKey) (x : Member), s.mach.serves = true → s.mach.member key = some x →
    x.accepted = false → x.status = 0 ∨ x.status = stPathDown ∨ x.status = stOriginAbsent →
    exec (.rejoin key) s = .next (s.after fun m =>
      match m.entryOf key with
      | some e => m.sendCtrl e.port cmdJoin { key := key, vc := e.vc, label := e.label, member := m.nodeId, refuser := 0,
                                              resv := e.resv, status := 0 }
      | none => m.joinOwn key x.vc)) ∧
  (∀ (s : State) (p : Nat), s.mach.serves = true → s.mach.portActive p = true →
    exec (.resvCheck p) s = .next (s.after fun m =>
      let x := m.fabPort p
      let n := m.setFabPort p { x with sent := [], gaps := [], contacts := false }
      let short := m.fab.branches.any fun b => b.port = p && b.vc = 2 && 0 < b.resv && !x.gaps.contains b.label
        && (x.txq.any fun t => t.vc = 2 && t.flowLabel = some b.label) && tGet x.sent 0 b.label < 100 * b.resv
      if short then ((n.troubleNoEntry F.FAB_NODE_TROUBLE_RESV_BROKEN).raise 63).ladder (if x.contacts then 3 else 2) 6 .fab
      else n)) ∧
  (∀ (s : State) (key : FlowKey) (x : Member) (e : FlowEntry), s.mach.serves = true → s.mach.member key = some x →
    s.mach.entryOf key = some e → x.accepted = true → e.local_ = true →
    exec (.flowSilent key) s = .next (s.after fun m => m.stopFeeds (flowFeed key)
      (if m.peerMode key.origin = 6 ∨ m.peerMode key.origin = 7 then reasonShed
       else if key.span then reasonLinkDown else reasonNoSignal)))

/-- R99, R116, R331: a node with a valid ID floods its STATE under the next SEQ, which it keeps; a newer STATE of another
origin is passed on and recorded; an origin that is not heard is unknown; a doorbell raises its event (log entry 57
names the bytes above 31). -/
def Obligations.StateCommands : Prop :=
  (∀ s : State, s.mach.linksRun = true → s.mach.on F.FAB_NODE_ID_VALID = true →
    exec .stateFlood s = .next (s.after fun m =>
      let seq := (m.fab.ownSeq + 1) % 65536
      ({ m with fab := { m.fab with ownSeq := seq, peerSeq := tIns m.fab.peerSeq m.nodeId seq } } : Mach).sendState none
        { origin := m.nodeId, mode := m.get F.SYS_MODE_MODE, seq := seq, serial := m.cfg.serial })) ∧
  (∀ (s : State) (p : Nat) (c : StateMsg), s.mach.serves = true → s.mach.portActive p = true →
    c.origin ≠ s.mach.nodeId →
    (∀ q, tFind s.mach.fab.peerSeq c.origin = some q → 0 < toSigned (ofSigned ((c.seq : Int) - q) 16) 16) →
    exec (.state p c) s = .next (s.after fun m =>
      (({ m with fab := { m.fab with peerSeq := tIns m.fab.peerSeq c.origin c.seq } } : Mach).sendState (some p) c).setPeerMode
        c.origin c.mode)) ∧
  (∀ (s : State) (o : Nat), s.mach.serves = true →
    exec (.peerUnknown o) s = .next (s.after fun m =>
      ({ m with fab := { m.fab with peerSeq := tDel m.fab.peerSeq o } } : Mach).setPeerMode o 15)) ∧
  (∀ (s : State) (i : Nat), s.mach.serves = true →
    exec (.doorbell i) s = .next (s.after fun m => m.raise (480 + i % 32)))

/-- R40, R119, R156: a whole slice with a good record enters the bitstream buffer of the context that decodes its stream;
a whole band-row with a good record joins the picture with the same record, or starts one in a slot of the pool. -/
def Obligations.FlowPacketCommands : Prop :=
  (∀ (s : State) (key : FlowKey) (x : SliceIn) (n : Nat) (w : Witness), s.mach.serves = true →
    s.mach.flowHere key = true → s.mach.ctxOfStream key.id = some n → Witness.ofWords x.record = some w →
    s.mach.decState n ≠ decShed → x.data.length = x.bytes → (s.mach.decCtx n).ofSpoilt x.index w.frameNum = false →
    (s.mach.decCtx n).usedBytes + x.bytes ≤ s.mach.get F.DEC_CTX_BS_BS_KIB n * 1024 →
    exec (.streamSliceReceive key x) s = .next (s.after fun m => (m.chkUnit 10 true).joinSlice n w x)) ∧
  (∀ (s : State) (key : FlowKey) (r : BandRow) (w : Witness) (p : Pic), s.mach.serves = true → s.mach.flowHere key = true →
    Witness.ofWords r.record = some w → r.unbroken = true → r.received = r.bytes → s.mach.rowFits key r = true →
    (s.mach.spanPool key).spoilt r.row = false →
    (s.mach.spanPool key).slots.find? (fun p => p.wit.frameNum = w.frameNum && p.wit.srcNode = w.srcNode) = some p →
    p.wit = w → p.width = r.width → p.fmt = r.fmt →
    exec (.spanBandRowReceive key r) s = .next (s.after fun m =>
      (m.chkUnit 10 true).setSpanPool ((m.spanPool key).addRow p r))) ∧
  (∀ (s : State) (key : FlowKey) (r : BandRow) (w : Witness), s.mach.serves = true → s.mach.flowHere key = true →
    Witness.ofWords r.record = some w → r.unbroken = true → r.received = r.bytes → s.mach.rowFits key r = true →
    (s.mach.spanPool key).spoilt r.row = false →
    (s.mach.spanPool key).slots.find? (fun p => p.wit.frameNum = w.frameNum && p.wit.srcNode = w.srcNode) = none →
    (s.mach.spanPool key).slots.length < 3 →
    exec (.spanBandRowReceive key r) s = .next (s.after fun m =>
      (m.chkUnit 10 true).setSpanPool { m.spanPool key with bad := none, slots :=
        { id := ((m.spanPool key).slots.map (·.id)).foldl max 0 + 1, wit := w, lines := 0, rows := [r.row], width := r.width,
          height := 0, cropX := 0, cropY := 0, fmt := r.fmt, last := r.lastRow, concealed := r.degraded, clean := true,
          arrived := m.raw, usedBy := none } :: (m.spanPool key).slots }))

/-! ### Ethernet, management and capture -/

/-- R127, R128, R130, R132, R134, R137, R148: a frame is counted and, whole and of a legal size, goes on to its tag; with
the buffer full or a bad FCS it is dropped under its reason; timers release units, silence entries, ask neighbours,
repeat reports and send sender reports; the link goes up and down. -/
def Obligations.EthernetCommands : Prop :=
  (∀ (s : State) (p : Nat) (l : List Nat), s.mach.ethReceives p = true →
    exec (.ethFrameReceive p l true) s = .next (s.after fun m => (m.count (96 + 4 * p)).ethDrop p 15)) ∧
  (∀ (s : State) (p : Nat) (l : List Nat), s.mach.ethReceives p = true → l.length < 4 →
    exec (.ethFrameReceive p l false) s = .next (s.after fun m =>
      ((m.count (96 + 4 * p)).chkUnit (16 + p) false).ethDrop p 0)) ∧
  (∀ (s : State) (p : Nat) (l : List Nat), s.mach.ethReceives p = true → 64 ≤ l.length →
    checkValue .crc32 none (l.take (l.length - 4)) = ofNatBytes (l.drop (l.length - 4)) →
    l.length ≤ s.mach.get F.ETH_PORT_CTL_MAX_FRAME p →
    exec (.ethFrameReceive p l false) s =
      .next (s.done ((s.on fun m => (m.count (96 + 4 * p)).chkUnit (16 + p) true).ethTag p l))) ∧
  (∀ (s : State) (p e ts : Nat) (a : AuIn), s.mach.serves = true →
    (s.mach.ethStream (p * 64 + e)).aus.find? (fun a => a.ts = ts) = some a →
    ((s.mach.ethStream (p * 64 + e)).aus.map (·.ts) ++ (s.mach.ethStream (p * 64 + e)).released).any
      (fun t => 0 < tsDiff t ts) = true →
    exec (.auReleaseTimeout p e ts) s = .next (s.after fun m => m.releaseAu (p * 64 + e) a true)) ∧
  (∀ (s : State) (p e : Nat), s.mach.serves = true →
    s.mach.entState (p * 64 + e) = entWaiting ∨ s.mach.entState (p * 64 + e) = entReceiving →
    exec (.streamSilent p e) s = .next (s.after fun m =>
      let n := m.setEnt (p * 64 + e) entSilent
      n.stopFeeds (n.entFeed (p * 64 + e)) reasonNoSignal)) ∧
  (∀ (s : State) (p : Nat) (fec : Bool), s.mach.serves = true → s.mach.on F.ETH_PORT_CTL_EN p = true →
    s.mach.on F.ETH_PORT_STATUS_LINK p = false →
    exec (.ethLink p true fec) s = .next (s.after fun m =>
      ((m.putB F.ETH_PORT_STATUS_LINK true p).putB F.ETH_PORT_STATUS_FEC_LOCK
        (decide (m.get F.ETH_PORT_CTL_FEC p ≠ 0) && fec) p).raise (96 + 4 * p))) ∧
  (∀ (s : State) (p : Nat) (fec : Bool), s.mach.serves = true → s.mach.on F.ETH_PORT_STATUS_LINK p = true →
    exec (.ethLink p false fec) s = .next (s.after fun m =>
      let n := (m.putB F.ETH_PORT_STATUS_LINK false p).putB F.ETH_PORT_STATUS_FEC_LOCK false p
      let n := (List.range 64).foldl (fun (m : Mach) s => m.streamSilent (p * 64 + s)) n
      ((n.trouble F.ETH_TROUBLE_LINK_DOWN p).endSessions (MgmtPeer.onPort p)).raise (96 + 4 * p))) ∧
  (∀ (s : State) (p a : Nat) (b : Nat × Nat), s.mach.serves = true →
    takeTokens (s.mach.ethPort p).arp s.mach.raw (s.mach.get F.ETH_LIMITS_ARP_RATE p) (16 * 1562500000) 1562500000 = some b →
    exec (.neighbourRequest p a) s = .next (s.after fun m =>
      let x := m.ethPort p
      ((m.setEthPort p { x with
          arp := some b
          wanted := if x.neigh.any (fun n => n.addr = a) then x.wanted else tIns x.wanted a m.raw
          neigh := x.neigh.map fun (n : Neighbour) => if n.addr = a then { n with asked := true } else n }).emit
        (.ethTx p (if a / 2 ^ 32 = 0xFFFF then .arpRequest a else .ndSolicit a))).frameSent p)) ∧
  (∀ (s : State) (p a : Nat), s.mach.serves = true →
    exec (.neighbourExpire p a) s = .next (s.after fun m =>
      m.setEthPort p { m.ethPort p with neigh := (m.ethPort p).neigh.filter fun n => n.addr ≠ a })) ∧
  (∀ (s : State) (p g : Nat), s.mach.serves = true →
    exec (.membershipReport p g) s = .next (s.after fun m =>
      ((m.ethPort p).repeats.filter fun x => x.1 = g).foldl
        (fun n x => (n.emit (.ethTx p (.report x.1 x.2 true))).frameSent p)
        (m.setEthPort p { m.ethPort p with repeats := (m.ethPort p).repeats.filter fun x => x.1 ≠ g }))) ∧
  (∀ (s : State) (id mac : Nat) (e : List Nat), s.mach.serves = true → s.mach.encodeEntry id = some e →
    (b1 e 13).testBit 3 = true → (s.mach.encCtxOf id).isSome = true →
    s.mach.linkMac (b1 e 14) (Config.rtpDest id) = some mac →
    exec (.rtcpSrSend id) s = .next (s.after fun m =>
      (m.emit (.ethTx (b1 e 14) (.senderReport mac (Config.rtpDest id) id
        (m.now - m.getS F.TIME_UTC_OFFSET * 1000000000) (m.now * 9 / 100000 % 2 ^ 32)))).frameSent (b1 e 14)))

/-- R138 to R142: OPEN with a known key is answered with a nonce; a PROVE whose MAC is right opens a session; a request
of a session with a good tag and a new SEQ is taken, and answered when its answer is known; CLOSE and idling end the
session, and a lockout ends. -/
def Obligations.ManagementCommands : Prop :=
  (∀ (s : State) (p : MgmtPeer) (key : Nat) (nonce row : List Nat) (b : Nat × Nat), s.mach.serves = true →
    (s.mach.mgmtSource p).locked = none → takeTokens (s.mach.mgmtSource p).bucket s.mach.raw 8 (8 * second) second = some b →
    s.mach.mgmtKey key = some row → nonce.length = 16 → s.mach.eth.sessions.length < 4 →
    exec (.openMgmt p key nonce) s = .next (s.after fun m =>
      let x := ((m.setMgmtSource { m.mgmtSource p with bucket := some b }).count 13).freeBits 128
      let n := x.2.dropAttempt p
      (n.setEth { n.eth with attempts := n.eth.attempts ++
        [⟨p, key, nonce, natBytes 16 x.1, [], 0, [0], 0, n.raw, none, [], []⟩] }).mgmtSend p 2 0 0 0
          (natBytes 16 x.1 ++ n.serialBytes) none)) ∧
  (∀ (s : State) (p : MgmtPeer) (a : MgmtSession) (row : List Nat), s.mach.serves = true →
    s.mach.eth.attempts.find? (fun (a : MgmtSession) => a.peer.same p) = some a → s.mach.mgmtKey a.key = some row →
    exec (.prove p (hmac (hostKey row) (a.hostNonce ++ a.nodeNonce ++ s.mach.serialBytes))) s =
      .next (s.after fun m => (m.count 13).openSession p a row)) ∧
  (∀ (s : State) (k q a n : Nat) (m : Mach), s.mach.mgmtTake k q true (s.mach.sessionPort k) = (true, m) →
    1 ≤ n → n ≤ 1024 →
    exec (.mgmtRead k q true a n) s = .next (s.done (match m.spiTarget a with
      | .own l =>
        if readsFence l n && m.mgmtWritesOpen k q then { s with mach := m.mgmtSet k q (.fenceRead l n) }
        else
          let x := State.localRead { s with mach := m } (m.mgmtBy k) l n
          x.2.on fun m => m.mgmtDone k q x.1.status x.1.data
      | .far node l => { s with mach := m.mgmtFar k q false node l n [] }))) ∧
  (∀ (s : State) (k q a : Nat) (d : List Nat) (m : Mach), s.mach.mgmtTake k q true (s.mach.sessionPort k) = (true, m) →
    1 ≤ d.length → d.length ≤ 1024 →
    exec (.mgmtWrite k q true a d) s = .next (s.done (match m.spiTarget a with
      | .own l =>
        let x := State.localWrite { s with mach := m } (m.mgmtBy k) l d false
        x.2.on fun m => m.mgmtDone k q x.1.status []
      | .far node l => { s with mach := m.mgmtFar k q true node l d.length d }))) ∧
  (∀ (s : State) (k q : Nat) (m : Mach), s.mach.serves = true → s.mach.mgmtTake k q true (s.mach.sessionPort k) = (true, m) →
    exec (.mgmtFence k q true) s = .next (s.after fun _ =>
      if m.mgmtWritesOpen k q then m.mgmtSet k q .fence
      else (m.fence (.mgmt k)).2.mgmtDone k q (if (m.fence (.mgmt k)).1 then sGateFault else sOk) [])) ∧
  (∀ (s : State) (k q : Nat) (m : Mach), s.mach.serves = true → s.mach.mgmtTake k q true (s.mach.sessionPort k) = (true, m) →
    exec (.mgmtPending k q true none) s = .next (s.after fun _ => m.mgmtDone k q sOk m.hostBits)) ∧
  (∀ (s : State) (k q : Nat) (l : List Nat) (m : Mach), s.mach.serves = true →
    s.mach.mgmtTake k q true (s.mach.sessionPort k) = (true, m) → 1 ≤ l.length → l.length ≤ 64 →
    exec (.mgmtPending k q true (some l)) s = .next (s.after fun _ => (m.clearHostBits l).mgmtDone k q sOk m.hostBits)) ∧
  (∀ (s : State) (k q : Nat) (m : Mach), s.mach.serves = true →
    s.mach.mgmtAccept k q true (s.mach.sessionPort k) = (true, m) →
    exec (.close k q true) s = .next (s.after fun _ => m.endSession k)) ∧
  (∀ (s : State) (k : Nat), s.mach.serves = true → exec (.mgmtIdle k) s = .next (s.after fun m => m.endSession k)) ∧
  (∀ (s : State) (p : MgmtPeer), s.mach.clockRuns = true → (s.mach.mgmtSource p).locked.isSome = true →
    exec (.mgmtLockoutEnd p) s = .next (s.after fun m =>
      m.setMgmtSource { m.mgmtSource p with locked := none, fails := [] }))

/-- R143 to R145, R160: a frame start is counted and stamped and takes a slot of the pool, when one is free; a line of
the channel and data type of the port, of the right length, joins the frame, its PIXEL_CRC and the pool; a frame end
whose lines are all there completes the frame with its record; silence stops the port's layers; EN starts the port. -/
def Obligations.CaptureCommands : Prop :=
  (∀ (s : State) (c k : Nat), s.mach.serves = true → s.mach.capState c ≠ capOff → (s.mach.capPort c).current = none →
    exec (.csiFrameStart c (s.mach.get F.CAP_CTL_VC c) k) s = .next (s.after fun old =>
      let x := old.capPort c
      let m := old.count (128 + 8 * c)
      let e := (m.encStage c).encLate c (x.frameNum + 1)
      let w : Witness := { capture := m.now - m.get F.CAP_TIMING_STAMP_ADJ c * 1000, uStamp := ceilDiv m.uNode 1000,
                           frameNum := x.frameNum + 1, pixelCrc := 0, cls := 2, repeats := 0, frozen := false,
                           gap := x.gap,
                           continuity := m.on F.CAP_CTL_FNUM_CHECK c && (k = 0 || (match x.prevFnum with
                             | some q => decide (k ≠ q + 1 ∧ k ≠ 1)
                             | none => false)),
                           holdover := decide (m.servo = servoHoldover ∨ m.servo = servoSlew),
                           srcNode := m.nodeId, streamId := m.get F.CAP_ID_ID c }
      let f : Pic := { id := x.frameNum + 1, wit := w, lines := 0, rows := [], width := e.get F.CAP_GEOM_WIDTH c,
                       height := e.get F.CAP_GEOM_HEIGHT c, cropX := 0, cropY := 0, fmt := e.get F.CAP_CTL_POOL_FMT c,
                       last := false, concealed := false, clean := true, arrived := e.raw, usedBy := none,
                       form := { coded := e.get F.CAP_GEOM_HEIGHT c } }
      let free := decide (e.capSlots c < 4)
      let n := e.setCapPort c { x with
        frameNum := x.frameNum + 1, prevFnum := some k, current := some f, crc := 0xFFFFFFFF, lineCount := 0,
        failed := if free then 0 else 3, frames := if free then f :: x.frames else x.frames,
        store := if free then { frame := x.frameNum + 1 } :: x.store else x.store }
      let n := if n.cmp.composing then n else n.releaseFrames c
      if free then
        ((List.range 16).foldl (fun (n : Mach) i =>
          if n.get F.ENC_CTX_CFG_PORT i = c ∧ m.encState i ≠ encShed then
            n.encFrameStart i f (n.get F.CAP_STATUS_REPEATS c) (n.on F.CAP_STATUS_FROZEN c)
          else n) n).dispatchRows
      else n)) ∧
  (∀ (s : State) (c : Nat) (d : List Nat) (f : Pic), s.mach.serves = true → (s.mach.capPort c).current = some f →
    (s.mach.capPort c).failed = 0 →
    d.length = (if s.mach.get F.CAP_CTL_DT c = 0x1F then s.mach.get F.CAP_GEOM_WIDTH c * 5 / 2
      else 2 * s.mach.get F.CAP_GEOM_WIDTH c) →
    (s.mach.capPort c).lineCount < s.mach.get F.CAP_GEOM_HEIGHT c →
    exec (.csiLine c (s.mach.get F.CAP_CTL_VC c) (s.mach.get F.CAP_CTL_DT c) d true) s = .next (s.after fun m =>
      let x := m.capPort c
      let g := { f with lines := x.lineCount + 1 }
      let ten := decide (m.get F.CAP_CTL_DT c = 0x1F)
      (((((m.setCapPort c { x with
          crc := d.foldl CrcAlg.crc32c.step x.crc, lineCount := x.lineCount + 1, current := some g,
          store := x.store.map fun (y : CapStore) =>
            if y.frame = x.frameNum then y.addLine (m.get F.CAP_CTL_POOL_FMT c) ten d else y }).showFrame c g).count
        (133 + 8 * c)).encLines c x.frameNum (x.lineCount + 1)).dispatchRows))) ∧
  (∀ (s : State) (c : Nat) (f : Pic), s.mach.serves = true → (s.mach.capPort c).current = some f →
    (s.mach.capPort c).failed = 0 → (s.mach.capPort c).lineCount = s.mach.get F.CAP_GEOM_HEIGHT c →
    exec (.csiFrameEnd c (s.mach.get F.CAP_CTL_VC c)) s = .next (s.after fun m =>
      let crc := (m.capPort c).crc ^^^ 0xFFFFFFFF
      let n := (m.chkUnit (8 + c) true).frozenDetect c crc
      let g := { f with wit := { f.wit with pixelCrc := crc, repeats := n.get F.CAP_STATUS_REPEATS c,
                                            frozen := n.on F.CAP_STATUS_FROZEN c },
                        last := true, lines := f.height }
      let n := n.showFrame c g
      let n := (((n.setCapPort c { n.capPort c with current := none, gap := false }).count (129 + 8 * c)).chkUnit 10 true).put
        F.CAP_FRAMES_FRAME_NUM f.wit.frameNum c
      let n := if f.wit.continuity then ((n.trouble F.CAP_TROUBLE_CONTINUITY c).count (135 + 8 * c)).raise (132 + 8 * c) else n
      let n := if n.capState c = capSilentSt then n.raise (134 + 8 * c) else n
      (((n.put F.CAP_STATUS_STATE capReceiving c).raise (128 + 8 * c)).encFrameDone c g).dispatchRows)) ∧
  (∀ (s : State) (c : Nat), s.mach.serves = true → s.mach.capState c = capWaiting ∨ s.mach.capState c = capReceiving →
    exec (.capSilent c) s = .next (s.after fun m =>
      ((m.put F.CAP_STATUS_STATE capSilentSt c).stopFeeds (fun f => f = .cap c) reasonNoSignal).raise (133 + 8 * c))) ∧
  (∀ (s : State) (c : Nat), s.mach.clockRuns = true → s.mach.on F.CAP_CTL_EN c = false →
    exec (.capEnWrite c) s = .next (s.after fun m =>
      let n := m.putB F.CAP_CTL_EN true c
      if n.mode.runs then n.capStart c else n))

/-! ### Decoder, encoder, composition, tables and signatures -/

/-- R155, R163, R170, R171: a slice that an engine has decoded frees the engine, is counted and measured, extends its
picture and lets the context go on; a slice beyond its regions or its cycles faults the picture, one with a bad header is
dropped, and the data of any other one count; work beyond the limit is a fault 5; a context whose reset has ended waits
for a key. -/
def Obligations.DecoderCommands : Prop :=
  (∀ (s : State) (e n : Nat) (r : SliceResult) (d : DecPic), s.mach.serves = true → (s.mach.decCtx n).cur = some d →
    tFind s.mach.dec.engines e = some n → n ≠ orphan →
    exec (.sliceDecoded e n r) s = .next (s.after fun m =>
      (((({ m with dec := { m.dec with engines := tDel m.dec.engines e } } : Mach).showEngines.count 176).measureDec n
        r.samples).sliceDone n d r).decAdvance n)) ∧
  (∀ (m : Mach) (n : Nat) (d : DecPic) (r : SliceResult),
    let x : DecPic := { d with cycles := d.cycles + r.cycles, slices := d.slices + 1 }
    (r.contain = true → m.sliceDone n d r = m.decodeFault n 6) ∧
    (r.contain = false → m.workBound n x < d.cycles + r.cycles → m.sliceDone n d r = m.decodeFault n 5) ∧
    (r.contain = false → d.cycles + r.cycles ≤ m.workBound n x → r.fault = .header →
      m.sliceDone n d r = (m.setDecCtx n { m.decCtx n with cur := some { x with
        dropCode := 3, pic := { d.pic with concealed := true } } }).decDrop n 3) ∧
    (r.contain = false → d.cycles + r.cycles ≤ m.workBound n x → r.fault ≠ .header →
      let y := m.useRefs n x r
      let z := y.2.useData n y.1 r
      m.sliceDone n d r = (z.2.setDecCtx n { z.2.decCtx n with
        refs := (z.2.decCtx n).refs.filter fun q => r.keep.contains q.poc }).issueRecord n z.1)) ∧
  (∀ (s : State) (n : Nat), s.mach.serves = true → (s.mach.decCtx n).busy = true →
    exec (.workLimit n) s = .next (s.after fun m => (m.decodeFault n 5).decAdvance n)) ∧
  (∀ (s : State) (n : Nat), s.mach.serves = true → s.mach.decState n = decReset →
    exec (.contextResetEnd n) s = .next (s.after fun m => (m.setDecState n decWaitKey).decAdvance n))

/-- R184, R185, R187, R192: a row that an engine has coded frees the engine and ends in its picture; a row at its limit is
coded again as fallback and the picture counts as fallen; a slice whose rows are all coded leaves with its record, on the
fabric and, where the stream asks for it, on Ethernet, and the last one completes the picture. -/
def Obligations.EncoderCommands : Prop :=
  (∀ (s : State) (e n r b : Nat) (p : EncPic), s.mach.serves = true → (s.mach.encCtx n).cur = some p →
    tFind s.mach.enc.engines e = some (n * 64 + r) →
    exec (.rowCoded e n r b) s = .next (s.after fun m =>
      let k : Mach := { m with enc := { m.enc with engines := tDel m.enc.engines e } }
      let k := if (p.rows.getD r encRow0).fallback then k.count 187 else k
      (k.setEncCtx n { m.encCtx n with cur := some (p.endRow r b) }).dispatchRows)) ∧
  (∀ (s : State) (n r : Nat) (p : EncPic), s.mach.serves = true → (s.mach.encCtx n).cur = some p →
    (p.rows.getD r encRow0).st = 1 →
    exec (.rowLimitReached n r) s = .next (s.after fun m =>
      let c := m.encCtx n
      let x := p.rows.getD r encRow0
      (m.setEncCtx n { c with cur := some { p with
        fallen := true, starved := p.starved + (if x.fallback then 0 else 1),
        rows := p.rows.set r { x with
          fallback := true,
          content := if p.key then x.content
            else c.refStamp p.refresh (m.get F.ENC_CTX_LTR_REFRESH n) r x.content } } }).dispatchRows)) ∧
  (∀ (s : State) (n : Nat) (nals : List (List Nat)) (p : EncPic), s.mach.serves = true →
    (s.mach.encCtx n).cur = some p → (s.mach.sliceRows n p.emitted).isEmpty = false →
    (s.mach.sliceRows n p.emitted).any (fun r => (p.rows.getD r encRow0).st ≠ 2) = false →
    exec (.sliceEmit n nals) s = .next (s.done (
      let last := (s.mach.sliceRows n p.emitted).contains (s.mach.encRows n - 1)
      let id := s.mach.get F.ENC_CTX_STREAM_ID n
      let w := s.mach.sliceRecord n p p.emitted last
      let b := nalStream nals
      let q := { p with emitted := p.emitted + 1, out := p.out + (nals.map (·.length)).foldl (· + ·) 0 }
      let w4 := b.length <<< 32 ||| (p.emitted % 65536) <<< 16 ||| (if p.key then 2 ^ 15 else 0) ||| (if last then 2 ^ 14 else 0)
      let m := s.mach.chkUnit 10 true
      let m := (m.sendFlow { origin := m.nodeId, span := false, id := id, part := 0 } 5 (m.streamVc id) (w.words ++ [w4, 0])
        (bytesWords (b.length + 1) b) b.length).count 184
      let m := match m.encodeEntry id with
        | some e => if (b1 e 13).testBit 3 then m.sendRtp id (b1 e 14) p.frame.wit.capture w nals last else m
        | none => m
      let m := (m.setEncCtx n { s.mach.encCtx n with cur := some q }).encCause n F.ENC_CTX_CAUSE_SLICE
      let x := if last then m.encPictureDone n q else ([], m)
      x.1.foldl (fun (t : State) y => t.setByte y.1 (BitVec.ofNat 8 y.2)) { s with mach := x.2 })))

/-- R209, R211, R216, R219, R226, R229: the slot of a band signs the lines before it, chooses its pictures and renders; a
strip that overruns is rendered again in its treatment; the frame ends; at the latch line commits, tables and backlight are
taken; at the apply point the staged layers come into force for the next frame, unless S3 repeats the frame. -/
def Obligations.ComposeCommands : Prop :=
  (∀ (s : State) (b : Nat), s.mach.mode.composes = true → s.mach.cmp.skip = false → b < s.mach.bands →
    exec (.bandSlotStart b) s = .next (s.done (
      ((s.cmpSignatures fun l => decide (s.mach.cmp.band ≤ l) && decide (l < b)).on fun m => m.bandSlot b).renderBand b))) ∧
  (∀ (s : State) (k : Nat) (ns : List Nat), s.mach.cmp.composing = true → k < 8 →
    exec (.bandOverrun k ns) s = .next (s.done (
      (s.on fun m => m.bandOverrun k ns).renderColumns s.mach.cmp.band (512 * k) (512 * (k + 1))))) ∧
  (∀ (m : Mach) (k : Nat) (ns : List Nat), m.cmp.composing = true →
    m.bandOverrun k ns = ((((({ m with cmp := { m.cmp with overruns := tIns m.cmp.overruns k ns } } : Mach).bump
      F.CMP_OVERRUNS_COUNT).count 201).trouble F.CMP_TROUBLE_OVERRUN).raise 246)) ∧
  (∀ s : State, s.mach.cmp.composing = true → exec .cmpFrameDone s = .next (s.done (
    (s.cmpSignatures fun l => decide (s.mach.cmp.band ≤ l)).on fun m => m.frameDone))) ∧
  (∀ m : Mach, m.cmp.composing = true → m.frameDone =
    (let n := ({ m with cmp := { m.cmp with composing := false, overruns := [], bandPics := [] },
                        dec := { m.dec with lent := 0 } } : Mach)
     let n := (List.range 2).foldl (fun (n : Mach) c => n.releaseFrames c) n
     (((n.putB F.CMP_STATUS_COMPOSING false).put F.CMP_LOAD_PEAK_PEAK n.cmp.loadNow).summary.showAges).raise 264)) ∧
  (∀ s : State, s.mach.serves = true →
    exec .latchLine s = .next (s.after fun m => m.decAgain.latchCommits.lutLatch.dutyLatch)) ∧
  (∀ s : State, s.mach.serves = true → s.mach.mode.composes = true → s.mach.dec.stage < 3 ∨ s.mach.cmp.repeatNext = false →
    exec .applyPoint s = .next (s.after fun m =>
      let frame := m.get F.SCN_FRAME_N + 1
      let n := ((List.range 16).foldl (fun (m : Mach) r =>
        m.setSigRegion r { m.sigRegion r with changed := false }) m).applyStaged.endLeases
      let n := n.setLeases (n.cmp.leases.map fun (e : Nat × Lease) => (e.1, { e.2 with frame := frame }))
      let n : Mach := { n with cmp := { n.cmp with
        repeatNext := decide (3 ≤ n.dec.stage), skip := false, frame := frame, band := 0, treated := 0, filled := 0,
        back := if n.on F.CMP_CTL_MODE then 0 else 1 - n.cmp.back } }
      { n with cmp := { n.cmp with cull := n.cullTable, loadNow := n.maxLoad } })) ∧
  (∀ s : State, s.mach.serves = true → s.mach.mode.composes = true → 3 ≤ s.mach.dec.stage → s.mach.cmp.repeatNext = true →
    exec .applyPoint s = .next (s.after fun m =>
      { m with cmp := { m.cmp with repeatNext := false, skip := true } })) ∧
  (∀ (s : State) (k : Nat) (w : List Nat × Nat), s.mach.serves = true → tFind s.mach.cmp.readoutIn k = some w →
    exec (.readoutTimeout k) s = .next (s.after fun m => (m.setReadoutIn (tDel m.cmp.readoutIn k)).readoutDrop))

/-- R238, R240, R245: a swap whose CRC and contrast hold waits for the latch line, any other is refused with its reason
and event 292; an uncorrectable error forces the bypass with event 293; the output signature of a region is compared. -/
def Obligations.TableCommands : Prop :=
  (∀ s : State, s.mach.serves = true → s.mach.lut.checking ≠ 0 →
    exec .lutSwapChecked s = .next (s.after fun m =>
      let t := m.lut.checking
      let n := m.chkUnit 15 (m.swapCrcOk t)
      if m.swapCrcOk t && n.contrastOk (n.tablesAfter t) then
        (({ n with lut := { n.lut with checking := 0, passed := t, latched := false } } : Mach).putB
          F.LUT_SWAP_STATUS_CHECKING false).putB F.LUT_SWAP_STATUS_PENDING true
      else
        ((((({ n with lut := { n.lut with checking := 0, passed := 0, latched := false } } : Mach).putB
          F.LUT_SWAP_STATUS_CHECKING false).putB F.LUT_SWAP_STATUS_PENDING false).put F.LUT_SWAP_STATUS_LAST
            (if m.swapCrcOk t then swContrast else swBadCrc)).trouble F.LUT_TROUBLE_SWAP_REFUSED).raise 292)) ∧
  (∀ (s : State) (t : Nat), s.mach.mode ≠ .hold → s.mach.mode ≠ .sleep →
    exec (.lutEccFatal t) s = .next (s.after fun m =>
      ((({ m with lut := { m.lut with bad := setBit m.lut.bad (t % 3) } } : Mach).putB F.LUT_CTL_FORCED_BYPASS true).trouble
        F.LUT_TROUBLE_ECC_FATAL 0 t).raise 293)) ∧
  (∀ (s : State) (r : Nat) (l : List (Nat × Nat)), s.mach.mode.scans = true → s.mach.sigOn r = true →
    exec (.sigOutComplete r l) s = .next (s.after fun m =>
      m.outSignature r (m.regionSig r (fun x y => s.outPixel x y) l)))

/-! ### Scan-out and touch -/

/-- R255, R263, R265 to R267, R269, R274, R275: frames start and end with their events; the plug, its interrupt and its
loss raise event 276, and an attempt due is made; a lost link darkens the panel; the AUX channel answers, retries and ends;
the panel's steps take the link up, light the panel, darken it and cut its supply. -/
def Obligations.ScanCommands : Prop :=
  (∀ s : State, s.mach.mode ≠ .hold → s.mach.mode ≠ .sleep → s.mach.timingRuns = true →
    exec .frameStart s = .next (s.after fun m => m.s5Frame.scanFrameStart.decStage.lutFrame.dutyFrame.showSuspended)) ∧
  (∀ s : State, s.mach.mode ≠ .hold → s.mach.mode ≠ .sleep → s.mach.timingRuns = true →
    exec .vblank s = .next (s.after fun m => m.raise 273)) ∧
  (∀ (s : State) (k : Sink) (l : List (Nat × Nat × Bool)), s.mach.mode ≠ .hold → s.mach.mode ≠ .sleep →
    exec (.hpdPlug k l) s = .next (s.after fun m =>
      let fb := m.scn.fallback.map fun _ => match k.timing with
        | some t => if sinkTimingOk t then t else timing1080
        | none => timing1080
      let n := ((m.putB F.SCN_STATUS_HPD true).setScn { m.scn with sink := some k, fallback := fb }).raise 276
      if n.linkWaits then n.linkTry l else n)) ∧
  (∀ s : State, s.mach.mode ≠ .hold → s.mach.mode ≠ .sleep →
    exec .hpdUnplug s = .next (s.after fun m => ((m.putB F.SCN_STATUS_HPD false).raise 276).linkLost)) ∧
  (∀ (s : State) (lost fails : Bool) (l : List (Nat × Nat × Bool)), s.mach.mode ≠ .hold → s.mach.mode ≠ .sleep →
    exec (.irqHpd lost fails l) s = .next (s.after fun m =>
      let n := (m.raise 276).count 215
      let n := if fails then n.trouble F.SCN_TROUBLE_AUX_FAIL else n
      if (lost || fails) && n.scn.linkUp then
        if n.linkLost.linkWaits then n.linkLost.linkTry l else n.linkLost
      else n)) ∧
  (∀ s : State, s.mach.mode ≠ .hold → s.mach.mode ≠ .sleep →
    exec .hpdShortPulse s = .next (s.after fun m => m.setScn { m.scn with shortPulses := m.scn.shortPulses + 1 })) ∧
  (∀ (s : State) (l : List (Nat × Nat × Bool)), s.mach.mode ≠ .hold → s.mach.mode ≠ .sleep → s.mach.linkWaits = true →
    s.mach.on F.SCN_STATUS_HPD = true → s.mach.scn.linkUp = false →
    exec (.dpRetry l) s = .next (s.after fun m => m.linkTry l)) ∧
  (∀ (m : Mach) (k : Sink) (l : List (Nat × Nat × Bool)), m.scn.sink = some k →
    m.linkAttempt l = (match (m.linkCandidates k).find? l.contains with
      | some (r, w, d) =>
        let n := m.setScn { m.scn with linkUp := true, retryMs := 100, step := if m.scn.step = 7 then 8 else 2 }
        ((n.showLink (r + 1) w d).setPanel panelLink).raise 274
      | none =>
        (m.setScn { m.scn with retryMs := min 5000 (2 * m.scn.retryMs) }).trouble
          (if (m.linkCandidates k).isEmpty then F.SCN_TROUBLE_NO_FIT else F.SCN_TROUBLE_TRAIN_FAIL))) ∧
  (∀ (s : State) (q : AuxReq), s.mach.mode ≠ .hold → s.mach.mode ≠ .sleep → s.mach.scn.aux = some q →
    exec .auxReplyTimeout s = .next (s.after fun m =>
      if q.noReply = 0 then m.auxDone auxTimeout 0
      else m.setScn { m.scn with aux := some { q with noReply := q.noReply - 1 } })) ∧
  (∀ (s : State) (q : AuxReq) (d : List Nat), s.mach.mode ≠ .hold → s.mach.mode ≠ .sleep → s.mach.scn.aux = some q →
    (q.op % 2 = 1 → exec (.auxReply 0 d true) s = .next (s.after fun m => m.auxDone auxOk q.len)) ∧
    (q.op % 2 = 0 → exec (.auxReply 0 d true) s = .next (s.after fun m =>
      (((d.take q.len).zip (List.range 16)).foldl (fun m e => m.putAuxByte e.2 (e.1 % 256)) m).auxDone auxOk
        (d.take q.len).length)) ∧
    exec (.auxReply 1 d true) s = .next (s.after fun m => m.auxDone auxNack 0) ∧
    exec (.auxReply 2 d true) s = .next (s.after fun m =>
      if q.defers = 0 then m.auxDone auxDefer 0
      else m.setScn { m.scn with aux := some { q with defers := q.defers - 1 } })) ∧
  (∀ (s : State) (l : List (Nat × Nat × Bool)),
    (s.mach.linkWaits = true → s.mach.on F.SCN_STATUS_HPD = true →
      exec (.panelStep l) s = .next (s.after fun m => m.linkTry l)) ∧
    (s.mach.scn.step = 3 → exec (.panelStep l) s = .next (s.after fun m =>
      ((((m.backlight true).setPanel panelLit).setScn { m.scn with step := 0 }).raise 280).panelUpdate)) ∧
    (s.mach.scn.step = 4 → exec (.panelStep l) s = .next (s.after fun m =>
      (m.showLink 0 0 false).setScn { m.scn with step := 5, linkUp := false })) ∧
    (s.mach.scn.step = 5 → exec (.panelStep l) s = .next (s.after fun m =>
      (((m.emit (.pin .panelVdd false)).setPanel panelOff).setScn { m.scn with step := 6 }).raise 280)) ∧
    (s.mach.scn.step = 6 → exec (.panelStep l) s = .next (s.after fun m =>
      (m.setScn { m.scn with step := 0 }).panelUpdate)) ∧
    (s.mach.scn.step = 9 → exec (.panelStep l) s = .next (s.after fun m =>
      (((m.backlight true).setPanel panelLit).setScn { m.scn with step := 0 }).panelUpdate))) ∧
  (∀ s : State, s.mach.mode ≠ .hold → s.mach.mode ≠ .sleep → s.mach.scn.step = 1 → s.mach.on F.SCN_STATUS_HPD = false →
    exec .noHpd s = .next (s.after fun m => (m.trouble F.SCN_TROUBLE_NO_HPD).panelStartDown)) ∧
  (∀ s : State, s.mach.mode = .halt →
    exec .faultHoldEnd s = .next (s.after fun m => (m.setScn { m.scn with faultOff := true }).panelUpdate))

/-- R280, R288, R291 to R293, R295, R303 to R305: a cycle starts with LISTEN under its number; LISTEN measures the noise,
chooses the frequency and leads to the scan; a scan out of its window is dropped, and any other cross-checks after a start
and then tracks its contacts; a late scan is dropped; regions, nodes and contacts that have waited are adopted or marked
stuck; the self-test shows the pins it found bad; a group in SLEEP learns its baseline, and wakes the node. -/
def Obligations.TouchCommands : Prop :=
  (∀ s : State, s.mach.serves = true → s.mach.mode.touches = true → s.mach.on F.TCH_CTL_EN = true →
    exec .tchCycleStart s = .next (s.after fun m =>
      let k := ofSigned ((2 * ((m.now : Int) - m.get F.TIME_FRAME_EPOCH_EPOCH - m.get F.TCH_PHASE_NS) * m.touchRate
        + 1000000000) / 2000000000) 16
      let quiet := m.tch.contacts.isEmpty && m.tch.pend.isEmpty && m.tch.quietRaw + msTicks 1000 ≤ m.raw
      let n := m.setTch { m.tch with
        phase := 1, cycle := k, testLeft := if m.tch.testWanted && quiet && m.tch.testLeft = 0 then 2 else m.tch.testLeft }
      let n := match m.tch.freqNext with
        | some f => (n.setTch { n.tch with freqNext := none }).put F.TCH_STATUS_FREQ f
        | none => n
      ((n.put F.TCH_STATUS_CYCLE k).put F.TCH_STATUS_STATE (if 0 < n.tch.testLeft then 1 else 2)).count 224)) ∧
  (∀ (s : State) (l : List Nat), s.mach.serves = true → s.mach.tch.phase = 1 →
    exec (.listenEnd l) s = .next (s.after fun m =>
      let n := (List.range 8).foldl (fun (m : Mach) i =>
        if m.on F.TCH_FREQ_EN i then m.put F.TCH_NOISE_NOISE (min 32767 (l.getD i 0)) i else m) m
      let n := n.setTch { n.tch with phase := 2 }
      match n.bestFreq with
      | none => n
      | some best =>
        if n.tch.first ∧ n.tch.dropRun = 0 then (n.put F.TCH_STATUS_FREQ best).setTch { n.tch with highCount := 0 }
        else
          let cur := n.get F.TCH_NOISE_NOISE (n.get F.TCH_STATUS_FREQ)
          let low := n.get F.TCH_NOISE_NOISE best
          let high := if n.get F.TCH_HOP_NOISE_HIGH < cur then n.tch.highCount + 1 else 0
          let k := if n.get F.TCH_HOP_HOP_COUNT ≤ high && low * 2 ≤ cur then
              ((n.setTch { n.tch with freqNext := some best, highCount := 0 }).raise 311).count 230
            else n.setTch { n.tch with highCount := high }
          let noisy := decide (k.get F.TCH_HOP_NOISE_MAX < low)
          if noisy = k.on F.TCH_STATUS_NOISY then k
          else
            let k := k.putB F.TCH_STATUS_NOISY noisy
            (if noisy then k.trouble F.TCH_TROUBLE_NOISY else k).raise 312)) ∧
  (∀ (s : State) (d : ScanData), s.mach.serves = true → s.mach.tch.phase = 2 →
    exec (.scanEnd d) s = .next (s.after fun m =>
      let out := (List.range 128).filter fun k => m.usedPin k && !m.on F.TCH_PIN_FAULT k &&
        (d.raws.getD k 0 < m.get F.TCH_TEST_LIMITS_OPEN_MIN || m.get F.TCH_TEST_LIMITS_SHORT_MAX < d.raws.getD k 0)
      if 0 < m.tch.testLeft then
        (m.setTch { m.tch with phase := 0, testLeft := m.tch.testLeft - 1 }).ownCursor.heartbeat
      else if out ≠ [] then m.dropScan false out
      else
        let n := (List.range 128).foldl (fun (m : Mach) k =>
          if m.usedPin k then m.put F.TCH_PIN_SELF_RAW (min 65535 (d.raws.getD k 0)) k else m) m
        let n := n.setTch { n.tch with
          phase := 0, dropRun := 0, dropPins := [], live := n.gridNodes.zip d.mutual_,
          livePin := (List.range 128).zip d.self_ }
        if n.tch.first then
          (n.crossCheck.showNodes (n.crossCheck.deltas (n.crossCheck.get F.TCH_STATUS_FREQ))).ownCursor.heartbeat
        else
          let n := n.watchRegions
          let e := n.deltas (n.get F.TCH_STATUS_FREQ)
          let n := n.waterState e
          let c := n.candidates e
          ((((n.bump F.TCH_REJECTS_COUNT 0 c.2).count 229 c.2).track e c.1).drifts e c.1).showNodes e)) ∧
  (∀ s : State, s.mach.serves = true → s.mach.tch.phase = 2 →
    exec .scanLate s = .next (s.after fun m => m.dropScan true [])) ∧
  (∀ (s : State) (n : Nat) (g : TouchRegion), s.mach.serves = true →
    s.mach.tch.regions.find? (fun g => g.nodes.contains n) = some g →
    exec (.baselineAdopted n) s = .next (s.after fun m =>
      ((((m.resolveRegion g).bump F.TCH_ADOPTIONS_COUNT).count 238).trouble F.TCH_TROUBLE_ADOPTED).raise 309)) ∧
  (∀ (s : State) (n t : Nat), s.mach.serves = true → tFind s.mach.tch.unconf n = some t →
    exec (.unconfAdopt n) s = .next (s.after fun m => m.adoptNode n)) ∧
  (∀ (s : State) (k : Nat) (c : Contact), s.mach.serves = true → s.mach.tch.contacts.find? (fun c => c.slot = k) = some c →
    c.stuck = false → c.stuckDue = false → s.mach.get F.TCH_HOLD_MINUTES ≠ 0 →
    exec (.stuckContact k) s = .next (s.after fun m =>
      (((m.setTch { m.tch with contacts := m.tch.contacts.map fun (x : Contact) =>
        if x.slot = k then { x with stuckDue := true } else x }).putB F.TCH_CONTACT_0_STUCK true k).trouble
          F.TCH_TROUBLE_STUCK).raise 310)) ∧
  (∀ (s : State) (a b : List Nat), s.mach.serves = true → s.mach.tch.testWanted = true →
    exec (.tchTestDone a b) s = .next (s.after fun m =>
      let used := (List.range 128).filter m.usedPin
      let open_ := used.filter fun k => decide (a.getD k 0 < m.get F.TCH_TEST_LIMITS_OPEN_MIN)
      let short := used.filter fun k =>
        decide (m.get F.TCH_TEST_LIMITS_SHORT_MAX < a.getD k 0 ∨ 65535 ≤ a.getD k 0) || b.contains k
      let bad := open_ ++ short
      let word := fun (l : List Nat) (w : Nat) => (l.filter fun k => k / 32 = w).foldl (fun a k => setBit a (k % 32)) 0
      let n := (List.range 4).foldl (fun (m : Mach) w =>
        (m.put F.TCH_TEST_OPEN_PINS (word open_ w) w).put F.TCH_TEST_SHORT_PINS (word short w) w) m
      let n := used.foldl (fun (m : Mach) k => m.putB F.TCH_PIN_FAULT (bad.contains k) k) n
      let n := ((n.putB F.TCH_TEST_GO false).putB F.TCH_TEST_PASS bad.isEmpty).putB F.TCH_STATUS_DEGRADED (!bad.isEmpty)
      let n := (n.setTch { n.tch with testWanted := false, testLeft := 0 }).raise 319
      if bad.isEmpty then n else (n.trouble F.TCH_TROUBLE_PIN_FAULT).raise 314)) ∧
  (∀ (s : State) (g n : Nat), s.mach.mode = .sleep → (s.mach.get F.TCH_PROX_CFG_GROUP_EN).testBit g = true →
    (List.range 128).any (fun k => s.mach.on F.TCH_PIN_PROX_EN k && s.mach.get F.TCH_PIN_PROX_GROUP k = g) = true →
    (tGet s.mach.tch.prox { base := none, run := 0 } g).base = none →
    exec (.proxSample g n) s = .next (s.after fun m =>
      let x := (m.put F.TCH_PROX_COUNT_COUNT n g).count 237
      x.setTch { x.tch with prox := tIns x.tch.prox g { base := some (64 * n), run := 0 } })) ∧
  (∀ (s : State) (g n b : Nat), s.mach.mode = .sleep → (s.mach.get F.TCH_PROX_CFG_GROUP_EN).testBit g = true →
    (List.range 128).any (fun k => s.mach.on F.TCH_PIN_PROX_EN k && s.mach.get F.TCH_PIN_PROX_GROUP k = g) = true →
    (tGet s.mach.tch.prox { base := none, run := 0 } g).base = some b →
    exec (.proxSample g n) s = .next (s.after fun m =>
      let x := tGet m.tch.prox { base := none, run := 0 } g
      let k := (m.put F.TCH_PROX_COUNT_COUNT n g).count 237
      let run := if b * (10000 + k.get F.TCH_PROX_CFG_THRESH) < 64 * n * 10000 then x.run + 1 else 0
      let d := k.get F.TCH_PROX_STATUS_DETECT
      if k.get F.TCH_PROX_CFG_DEBOUNCE ≤ run then
        let k := (k.setTch { k.tch with prox := tIns k.tch.prox g { x with run := run } }).put F.TCH_PROX_STATUS_DETECT
          (setBit d g)
        (if d.testBit g then k else k.raise (315 + g)).sleepWake (.proximity g)
      else
        let k := k.put F.TCH_PROX_STATUS_DETECT (clearBit d g)
        k.setTch { k.tch with prox := tIns k.tch.prox g { base := some (roundOpen (63 * b + 64 * n) 64), run := run } }))

/-- R301: a remote report whose CRC is wrong is counted and discarded; a good one whose origin has an entry, or gets one,
is recorded there with its cycle and its contact and enters the report FIFO; an origin that falls silent has its held
contacts ended with CANCEL and its entry cleared. -/
def Obligations.RemoteTouchCommands : Prop :=
  (∀ (s : State) (w0 w1 w2 w3 : Nat), s.mach.serves = true → reportCrc w0 w1 w2 (w3 % 2 ^ 32) ≠ bits w3 32 32 →
    exec (.tchRx [w0, w1, w2, w3]) s = .next (s.after fun m =>
      (((m.chkUnit 12 false).bump F.TCH_RX_BAD_COUNT).count 235).trouble F.TCH_TROUBLE_RX_BAD)) ∧
  (∀ (s : State) (w0 w1 w2 w3 : Nat), s.mach.serves = true → reportCrc w0 w1 w2 (w3 % 2 ^ 32) = bits w3 32 32 →
    exec (.tchRx [w0, w1, w2, w3]) s = .next (s.after fun m =>
      let m := m.chkUnit 12 true
      let src := bits w1 20 12
      let known := (List.range 8).find? fun o => m.on F.TCH_RX_0_VALID o && m.get F.TCH_RX_0_ORIGIN o = src
      match known.orElse fun _ => (List.range 8).find? fun o => !m.on F.TCH_RX_0_VALID o with
      | none => (m.bump F.TCH_RX_BAD_COUNT).count 235
      | some o =>
        let cyc := bits w1 0 16
        let step := (cyc + 65536 - m.get F.TCH_RX_0_CYCLE o) % 65536
        let n := if known.isSome ∧ step ≠ 1 ∧ step ≠ 0 then m.bump F.TCH_RX_1_GAPS o else m
        let n := ((n.putB F.TCH_RX_0_VALID true o).put F.TCH_RX_0_ORIGIN src o).put F.TCH_RX_0_CYCLE cyc o
        let x := tGet n.tch.origins { node := src, lastRaw := 0, held := [] } o
        let ev := bits w1 48 4
        let held := if ev = evUp ∨ ev = evCancel then tDel x.held (bits w1 52 4) else if ev = evNone then x.held
          else tIns x.held (bits w1 52 4) [w0, w1, w2, w3]
        let n := n.setTch { n.tch with origins := tIns n.tch.origins o { node := src, lastRaw := n.raw, held := held } }
        let n := n.setCursor src { sample := w0, u := w3 % 2 ^ 32, contacts := held.map fun e =>
          (e.1, bits (e.2.getD 2 0) 48 16, bits (e.2.getD 2 0) 32 16, (e.2.getD 1 0).testBit 44) }
        if ev = evNone then n else ((n.pushReport [w0, w1, w2, w3]).raise 307).count 234)) ∧
  (∀ (s : State) (k o : Nat), s.mach.serves = true →
    (List.range 8).find? (fun o => s.mach.on F.TCH_RX_0_VALID o && s.mach.get F.TCH_RX_0_ORIGIN o = k) = some o →
    exec (.tchRxSilent k) s = .next (s.after fun m =>
      let x := tGet m.tch.origins { node := k, lastRaw := 0, held := [] } o
      let n := x.held.foldl (fun (m : Mach) e =>
        let w1 := e.2.getD 1 0
        let w2 := e.2.getD 2 0
        ((m.pushReport (reportWords m.now (bits w1 56 8) (bits w1 52 4) evCancel (bits w1 40 8) k (bits w1 0 16)
          (bits w2 48 16) (bits w2 32 16) (bits w2 16 16) (bits w2 8 8) m.uStamp)).raise 306).count 228) m
      let n := (n.setTch { n.tch with origins := tIns n.tch.origins o { x with held := [] } }).setRings k []
      (((n.wr .TCH_RX_0 o 0).wr .TCH_RX_1 o 0).trouble F.TCH_TROUBLE_RX_SILENT).raise 321))


/-! ### Events, sequencers, pins and I²C -/

/-- R310, R311, R316, R327, R328: an arrival is raised at its source; a delivery hands the lowest eligible source to the
sequencer that R313 chooses; a group opens again; an edge of an input pin shows, counts and raises its event; a transfer
ends with its bytes, or with TIMEOUT. -/
def Obligations.EventCommands : Prop :=
  (∀ (s : State) (n : Nat), s.mach.mode ≠ .hold → s.mach.mode ≠ .sleep → n < 512 →
    exec (.eventArrival n) s = .next (s.after fun m => m.raise n)) ∧
  (∀ (s : State) (n k : Nat), s.mach.pickDelivery none = some (n, k) →
    exec .delivery s = .next (s.after fun m => (m.countSkips n).handOver n k)) ∧
  (∀ (s : State) (g : Nat), s.mach.serves = true →
    exec (.holdoffEnd g) s = .next (s.after fun m => m.putB F.EVC_HOLDOFF_OPEN true g)) ∧
  (∀ (s : State) (i : Nat) (level : Bool), s.mach.mode.runs = true → i < 16 →
    (s.mach.get F.SEQ_GPIO_IN_IN).testBit i ≠ level →
    exec (.gpioEdge i level) s = .next (s.after fun m =>
      let n := m.put F.SEQ_GPIO_IN_IN
        (if level then setBit (m.get F.SEQ_GPIO_IN_IN) i else clearBit (m.get F.SEQ_GPIO_IN_IN) i)
      if (n.get F.SEQ_GPIO_DIR_DIR).testBit i then n
      else
        let n := n.count 271
        let n := if (n.get F.SEQ_GPIO_CFG_EDGE i).testBit (if level then 0 else 1) then n.raise (368 + i) else n
        if (n.get F.SYS_WAKE_CFG_GPIO).testBit i then n.wakeUp 3 i else n)) ∧
  (∀ (s : State) (ack : Nat) (d : List Nat), s.mach.clockRuns = true → s.mach.evc.i2cBusy = true →
    exec (.i2cDone ack d) s = .next (s.after fun m =>
      let r := m.get F.SEQ_I2C_CTL_RLEN
      if ack = 1 then m.i2cEnd 2 0
      else if ack ≠ 0 then m.i2cEnd 3 0
      else if m.on F.SEQ_I2C_CTL_BLOCK ∧ r ≠ 0 then
        if r - 1 < d.headD 0 then m.i2cEnd 5 0
        else (m.i2cStore (d.take (d.headD 0 + 1))).i2cEnd 0 (d.headD 0 + 1)
      else (m.i2cStore (d.take r)).i2cEnd 0 r)) ∧
  (∀ s : State, s.mach.clockRuns = true → s.mach.evc.i2cBusy = true →
    exec .i2cTimeout s = .next (s.after fun m => (m.i2cEnd 4 0).emit .i2cFree))

/-- R321: what the actions that read and write do: NOP, WRITE32 and WRITE64, RMW, POLL, COPY and LOG. -/
def Obligations.SequencerAccessActions : Prop :=
  (∀ (s : State) (k : Nat) (ws : List Nat), s.standsAt k 0 ws →
    exec (.seqNop k) s = .next (s.done ((s.issued k 0 ws).on fun m => (m.sampleEnd k false).seqNext k 1))) ∧
  (∀ (s : State) (k : Nat) (ws : List Nat), s.standsAt k 1 ws →
    let i := s.issued k 1 ws
    (i.mach.target (ws.getD 0 0)).addr % 4 = 0 →
    exec (.seqWrite32 k) s = .next (s.done (
      let x := i.postWrite (i.mach.seqBy k) (i.mach.target (ws.getD 0 0)) (natBytes 4 (ws.getD 1 0))
      x.2.on fun m => m.seqDone k x.1 2))) ∧
  (∀ (s : State) (k : Nat) (ws : List Nat), s.standsAt k 2 ws →
    let i := s.issued k 2 ws
    (i.mach.target (ws.getD 0 0)).addr % 8 = 0 →
    exec (.seqWrite64 k) s = .next (s.done (
      let x := i.postWrite (i.mach.seqBy k) (i.mach.target (ws.getD 0 0)) (natBytes 8 (ws.getD 1 0))
      x.2.on fun m => m.seqDone k x.1 2))) ∧
  (∀ (s : State) (k a : Nat) (ws : List Nat), s.standsAt k 3 ws →
    let i := s.issued k 3 ws
    i.mach.target (ws.getD 0 0) = .own a → a % 4 = 0 →
    let x := i.localRead (i.mach.seqBy k) a 4
    x.1.cause = none →
    let old := ofNatBytes x.1.data
    let j := x.2.on fun m => m.put F.SEQ_LAST_LAST old k
    let new := (old &&& (2 ^ 32 - 1 - ws.getD 1 0 / 2 ^ 32)) ||| ws.getD 1 0 % 2 ^ 32
    exec (.seqRmw k) s = .next (s.done (
      let y := j.localWrite (j.mach.seqBy k) a (natBytes 4 new) false
      y.2.on fun m => m.seqDone k y.1.status 2))) ∧
  (∀ (s : State) (k : Nat) (ws : List Nat) (r : Reply) (t : State), s.standsAt k 4 ws →
    let i := s.issued k 4 ws
    (i.mach.target (ws.getD 0 0)).addr % 4 = 0 →
    (i.on fun m => m.setSeqCore k { m.seqCore k with waitRaw := m.raw }).seqRead k (i.mach.target (ws.getD 0 0)) 4 =
      (.inr r, t) →
    exec (.seqPoll k) s = .next (s.done (t.on fun m => m.pollReply k ws r))) ∧
  (∀ (s : State) (k : Nat) (ws : List Nat), s.waitingAction k = some ws → (s.mach.seqCore k).wait = .poll →
    exec (.seqPollTimeout k) s = .next (s.after fun m => m.seqDone k sTimeout 3)) ∧
  (∀ (s : State) (k n : Nat) (ws : List Nat), s.waitingAction k = some ws → (s.mach.seqCore k).wait = .remote n →
    ws.getD 0 0 / 2 ^ 60 = 4 →
    exec (.seqPollTimeout k) s = .next (s.after fun m => m.seqDone k sTimeout 3)) ∧
  (∀ (s : State) (k : Nat) (ws : List Nat), s.standsAt k 12 ws →
    let i := s.issued k 12 ws
    let len := bits (ws.getD 2 0) 0 13
    let src := (i.mach.target (ws.getD 0 0)).addr
    let dst := (i.mach.target (ws.getD 1 0)).addr
    len ≠ 0 → len ≤ 4096 → len % 4 = 0 → src % copyBeat src dst len = 0 → dst % copyBeat src dst len = 0 →
    exec (.seqCopy k) s = .next (s.done (i.copyFrom k (i.mach.copyPlan ws) 1026 0))) ∧
  (∀ (s : State) (k : Nat) (ws : List Nat), s.standsAt k 13 ws →
    exec (.seqLog k) s = .next (s.done ((s.issued k 13 ws).on fun m =>
      (m.logAction k (ws.getD 0 0 % 2 ^ 32) ((ws.getD 0 0).testBit 59)).seqDone k sOk 1)))

/-- R315, R321, R323, R324, R340: what the actions of control do: waits and their ends, IF_BITS, JUMP, FENCE, SIGNAL,
COMMIT, YIELD, END and the run limit. -/
def Obligations.SequencerControlActions : Prop :=
  (∀ (s : State) (k : Nat) (ws : List Nat), s.standsAt k 5 ws →
    (ws.getD 0 0).testBit 59 = true ∨ ws.getD 0 0 % 2 ^ 32 ≠ 0 →
    exec (.seqWaitEvent k) s = .next (s.done ((s.issued k 5 ws).on fun m =>
      (m.setSeqCore k { m.seqCore k with waitRaw := m.raw }).seqWaits k (.event (bits (ws.getD 0 0) 32 9))))) ∧
  (∀ (s : State) (k n : Nat) (ws : List Nat), s.waitingAction k = some ws → (s.mach.seqCore k).wait = .event n →
    (ws.getD 0 0).testBit 59 = false →
    exec (.seqWaitEventTimeout k) s = .next (s.after fun m => m.seqDone k sTimeout 1)) ∧
  (∀ (s : State) (k : Nat) (ws : List Nat), s.standsAt k 6 ws →
    (if (ws.getD 0 0).testBit 59 then 0 < stampDiff (ws.getD 0 0 % 2 ^ 32) ((s.issued k 6 ws).mach.now % 2 ^ 32)
      else ws.getD 0 0 % 2 ^ 32 ≠ 0) →
    exec (.seqWaitTime k) s = .next (s.done ((s.issued k 6 ws).on fun m =>
      (m.setSeqCore k { m.seqCore k with waitRaw := m.raw }).seqWaits k .time))) ∧
  (∀ (s : State) (k : Nat), s.mach.seqMay k seqWait = true → (s.mach.seqCore k).wait = .time →
    exec (.seqWaitTimeExpiry k) s = .next (s.after fun m => m.seqDone k sOk 1)) ∧
  (∀ (s : State) (k : Nat) (ws : List Nat), s.standsAt k 7 ws → (ws.getD 0 0).testBit 58 = true →
    exec (.seqIfBits k) s = .next (s.done (
      let i := s.issued k 7 ws
      let v := if bits (ws.getD 0 0) 0 52 = 0 then i.mach.get F.SEQ_ST_ST k else i.mach.get F.SEQ_LAST_LAST k % 2 ^ 32
      let next := if bitsMatch v (ws.getD 1 0) ((ws.getD 0 0).testBit 57) then i.mach.seqPc k + 2
        else i.skipActions k (bits (ws.getD 0 0) 52 4) (i.mach.seqPc k + 2)
      i.on fun m => (m.sampleEnd k false).seqNext k (next + 2 ^ 17 - m.seqPc k)))) ∧
  (∀ (s : State) (k a : Nat) (ws : List Nat), s.standsAt k 7 ws → (ws.getD 0 0).testBit 58 = false →
    (s.issued k 7 ws).mach.target (ws.getD 0 0) = .own a → a % 4 = 0 →
    exec (.seqIfBits k) s = .next (s.done (
      let i := s.issued k 7 ws
      let x := i.localRead (i.mach.seqBy k) a 4
      x.2.ifBitsReply k ws x.1))) ∧
  (∀ (s : State) (k : Nat) (ws : List Nat), s.standsAt k 8 ws →
    exec (.seqJump k) s = .next (s.done ((s.issued k 8 ws).on fun m =>
      let c := bits (ws.getD 0 0) 58 2
      let to_ := bits (ws.getD 0 0) 0 17
      if c = 0 ∨ (c = 1 ∧ m.get F.SEQ_ST_ST k = sOk) ∨ (c = 2 ∧ m.get F.SEQ_ST_ST k ≠ sOk) then
        if m.inRegion k to_ then m.put F.SEQ_STATE_PC to_ k else m.seqFault k 2
      else m.seqNext k 1))) ∧
  (∀ (s : State) (k : Nat) (ws : List Nat), s.standsAt k 9 ws →
    (s.issued k 9 ws).mach.writesOpen (.seq k) = false →
    exec (.seqFence k) s = .next (s.done ((s.issued k 9 ws).on fun m =>
      let x := m.fence (.seq k)
      (if (ws.getD 0 0).testBit 59 then x.2.gateSync else x.2).seqDone k (if x.1 then sGateFault else sOk) 1))) ∧
  (∀ (s : State) (k : Nat) (ws : List Nat), s.standsAt k 10 ws →
    (s.issued k 10 ws).mach.writesOpen (.seq k) = false → ((s.issued k 10 ws).mach.fence (.seq k)).1 = false →
    exec (.seqSignal k) s = .next (s.done (
      let j := (s.issued k 10 ws).on fun m => (m.fence (.seq k)).2
      let w := ws.getD 0 0
      if bits w 58 2 = 0 ∧ w.testBit 57 = true ∧ bits w 40 12 ≠ j.mach.nodeId then
        j.on fun m => (m.sendRouted 12 1 (bits w 40 12) [bits w 0 6] 1).seqDone k sOk 1
      else
        let x := if bits w 58 2 = 0 then j.localWrite (j.mach.seqBy k) addrDoorbell (natBytes 4 (2 ^ bits w 0 6)) false
          else j.localWrite (j.mach.seqBy k) addrCmpFence (natBytes 8 (2 ^ bits w 0 6)) false
        x.2.on fun m => m.seqDone k x.1.status 1))) ∧
  (∀ (s : State) (k : Nat) (ws : List Nat), s.standsAt k 11 ws →
    (s.issued k 11 ws).mach.writesOpen (.seq k) = false → ((s.issued k 11 ws).mach.fence (.seq k)).1 = false →
    exec (.seqCommit k) s = .next (s.done (
      let g := bits (ws.getD 0 0) 32 3
      let waits := (ws.getD 0 0).testBit 59
      let j := (s.issued k 11 ws).on fun m =>
        if waits then (m.fence (.seq k)).2.seqWaits k (.commit g) else (m.fence (.seq k)).2
      let x := j.localWrite (j.mach.seqBy k) (addrGroupCommit g) (natBytes 4 (ws.getD 0 0 % 2 ^ 32)) false
      if x.1.status = sOk ∧ waits = true then x.2 else x.2.on fun m => m.seqDone k x.1.status 1))) ∧
  (∀ (s : State) (k : Nat) (ws : List Nat), s.standsAt k 14 ws →
    exec (.seqYield k) s = .next (s.done ((s.issued k 14 ws).on fun m =>
      let n := m.get F.SEQ_STATE_SRC k
      ((((m.put F.EVC_SRC_2_RESUME (m.seqPc k + 1) n).putB F.EVC_SRC_2_RESUME_VALID true n).setBitOf .EVC_PEND n).count
        259).seqExit k))) ∧
  (∀ (s : State) (k : Nat) (ws : List Nat), s.standsAt k 15 ws →
    exec (.seqEnd k) s = .next (s.done ((s.issued k 15 ws).on fun m => m.seqExit k))) ∧
  (∀ (s : State) (k : Nat), s.mach.seqMay k seqRun = true ∨ s.mach.seqMay k seqWait = true →
    exec (.seqRunLimit k) s = .next (s.after fun m => m.seqFault k 4))

/-! ### SPI, check values, image, modes, power and counters -/

/-- R335, R353, R354, R365: the SPI target counts each transaction; a WRITE is one posted access; a READ_REQ of this node
is performed, one of another node goes out and its bytes wait for READ_DATA, a read of SYS_FENCE waits for the port's
earlier writes; STATUS shows and clears the drop count; a transaction cut short or of an unknown code is dropped; a check
job reads its bytes and ends with its value, its comparison or its appended value, or with GATE_FAULT; an uncorrectable
error of the Cistern is counted and fails the signatures of its pixels. -/
def Obligations.SpiAndCheckCommands : Prop :=
  (∀ (s : State) (a : Nat) (d : List Nat), s.mach.spiOn = true → d.length % 4 = 0 → 0 < d.length → d.length ≤ 256 →
    exec (.spiWrite a d true) s = .next (s.done (
      let i := s.on fun m => m.count 12
      let x := i.postWrite spiMaster (i.mach.spiTarget a) d
      x.2.on fun m => m.spiResult x.1))) ∧
  (∀ (s : State) (a n : Nat), s.mach.spiOn = true → n % 4 = 0 → 0 < n → n ≤ 256 →
    (s.mach.count 12).gate.spiBusy = none →
    exec (.spiReadReq a n true) s = .next (s.done (
      let i := (s.on fun m => m.count 12).on fun m => m.setGate { m.gate with spiReady := none, spiResult := sOk }
      match i.mach.spiTarget a with
      | .own l =>
        if readsFence l n && i.mach.writesOpen .spi then
          i.on fun m => m.setGate { m.gate with spiBusy := some (a % 2 ^ 52, n) }
        else
          let x := i.localRead spiMaster l n
          x.2.on fun m => m.spiReadEnd x.1
      | .far node l =>
        if i.mach.reaches node then
          i.on fun m => (m.setGate { m.gate with spiBusy := some (a % 2 ^ 52, n) }).request
            ⟨0, spiMaster, false, node, l, n, false, 0⟩ []
        else i.on fun m => (m.remoteFault spiMaster false node l n false).spiReadEnd (Reply.fault .remote n)))) ∧
  (∀ s : State, s.mach.spiOn = true →
    exec .spiStatus s = .next (s.after fun m =>
      let g := m.gate
      let n := (g.spiReady.map List.length).getD 0
      let b0 := (if g.spiBusy.isSome then 128 else 0) + (if g.spiReady.isSome then 64 else 0)
        + (if g.faulted.contains .spi then 32 else 0) + g.spiResult % 16
      ((m.count 12).emit (.spi [b0, n / 256, n % 256, g.spiDropped])).setGate { g with spiDropped := 0 })) ∧
  (∀ s : State, s.mach.spiOn = true →
    exec .spiReadData s = .next (s.after fun m => (m.count 12).emit (.spi (((m.count 12).gate.spiReady).getD [0])))) ∧
  (∀ s : State, s.mach.spiOn = true → exec .spiCsLimit s = .next (s.after fun m => (m.count 12).spiDrop)) ∧
  (∀ (s : State) (c : Nat), s.mach.spiOn = true → spiCommands.contains (c % 256) = false →
    exec (.spiUnknownCommand c) s = .next (s.after fun m => (m.count 12).spiDrop)) ∧
  (∀ (s : State) (c : Nat) (j : ChkJob), tFind s.mach.chk.jobs c = some j →
    exec (.chkJobDone c) s = .next (s.done (
      let alg := CrcAlg.ofPoly j.poly
      let n := if j.mode = 3 then j.len - alg.bytes else j.len
      let start := if j.foldEn then alg.fold alg.init j.fold else alg.init
      match s.jobFold (fun (x : Nat) d => d.foldl alg.step x) j.by_ (n + 1) j.addr n start with
      | (none, t) => t.on fun m => (m.trouble F.CHK_TROUBLE_GATE_FAULT 0 c).chkEnd c 3 (some 0)
      | (some x, t) =>
        let v := x ^^^ alg.xorout
        match j.mode with
        | 0 => t.on fun m => m.chkEnd c 0 (some v)
        | 1 => t.on fun m => m.jobCompare c j v (v = j.expect)
        | 2 =>
          let w := State.jobWrite j.by_ 9 (j.addr + j.len) (crcBytes alg j.msbFirst v) t
          w.2.on fun m => if w.1 then m.chkEnd c 0 (some v) else m.jobFault c
        | _ =>
          match t.jobFold (fun (l : List Nat) d => l ++ d) j.by_ (alg.bytes + 1) (j.addr + j.len - alg.bytes)
              alg.bytes [] with
          | (none, u) => u.on fun m => m.jobFault c
          | (some l, u) => u.on fun m => m.jobCompare c j v (v = ofCrcBytes j.msbFirst l)))) ∧
  (∀ (m : Mach) (c v : Nat) (j : ChkJob) (good : Bool), m.jobCompare c j v good =
    let n := if j.mode = 3 then
        m.put F.CHK_CH_OUT_LEN_OUT_LEN (if good then j.len - (CrcAlg.ofPoly j.poly).bytes else 0) c
      else m
    if good then n.chkEnd c 0 (some v)
    else ((((n.bump F.CHK_CH_MISMATCH_COUNT c).count 283).troubleBit F.CHK_MISMATCH_SUM_CHANNEL c).trouble
      F.CHK_TROUBLE_MISMATCH 0 c).chkEnd c 4 (some v)) ∧
  (∀ (s : State) (a : Nat), s.mach.mode ≠ .hold → s.mach.mode ≠ .sleep →
    exec (.cisternFatal a) s = .next (s.after fun m =>
      let n := ((m.bump F.MEM_CIS_FATAL_COUNT).trouble F.MEM_TROUBLE_CISTERN_FATAL).raise 342
      let base := pixelAddr n.frontBuffer 0 0
      if a < base then n
      else
        let y := (a - base) / 16384
        let x := (a - base) % 16384 / 4
        let hit := (List.range 16).filter fun r => [x, x + 1].any fun x => n.comparedAt x y (· = r)
        n.setSig { n.sig with bad := n.sig.bad.filter (fun r => !hit.contains r) ++ hit }))

/-- R380, R381, R384, R385: LOAD brings the flash up and tries its slots, or takes QUARANTINE when the flash does not
answer; after a WDT or FAB reset an image that still stands is kept, and one that does not is loaded again; a read brings
its bytes into the buffer, a program or an erase changes the flash and is verified, and an erase that takes too long fails;
a challenge expires. -/
def Obligations.ImageCommands : Prop :=
  (∀ (s : State) (f : FlashIn), s.mach.mode = .load → s.mach.checksImage = false →
    exec (.load f) s = .next (s.done (
      let u := (s.flashUp f).clear dramBase (2 ^ 40)
      let t := if f.answers then u.findLog.loadSlots f
        else (u.clear actionBase actionSize).on fun m =>
          (m.unload.put F.CFG_STATUS_PHASE 8).sagEntry.loadQuarantine causeNoFlash
      t.on fun m => m.put F.CFG_LOAD_TIME_US f.us))) ∧
  (∀ (s : State) (f : FlashIn), s.mach.mode = .load → s.mach.checksImage = true →
    exec (.imageCheck f) s = .next (s.done (
      if s.imageKept f then
        s.on fun _ =>
          let m := (s.flashUp f).mach
          let m := (m.putB F.MEM_STATUS_TRAINED true).put F.MEM_STATUS_VISIBLE m.dramMib
          (m.putB F.CFG_STATUS_SKIPPED true).derive.enterMode .prove
      else (s.on fun m => m.trouble F.CFG_TROUBLE_WDT_RELOAD).load f))) ∧
  (∀ (s : State) (v : Bool) (x : FlashOp), s.mach.cfg.flashOp = some x →
    exec (.flashDone v) s = .next (s.done (
      if x.op = 0 then s.on fun m => (m.setFlashBytes 0 (s.fbytes x.addr x.len)).flashEnd 0
      else
        let t := if x.op = 1 then s.fprogram x.addr x.data else s.ferase x.addr
        let same : Bool := x.op ≠ 1 || (v && t.fbytes x.addr x.len = x.data)
        t.on fun m => m.flashEnd (if same then 0 else 5)))) ∧
  (∀ (s : State) (x : FlashOp), s.mach.clockRuns = true → s.mach.cfg.flashOp = some x → x.op = 2 →
    exec .flashEraseTimeout s = .next (s.after fun m => m.flashEnd 4)) ∧
  (∀ s : State, s.mach.clockRuns = true →
    exec .svcChallengeExpiry s = .next (s.after fun m => m.setCfg { m.cfg with challengeRaw := none }))

/-- R14, R391 to R395, R400, R404, R405: a clock fault halts with cause 1; JOIN ends when its conditions hold, or at its
limit; timers and sources wake the node; resets hold it and HOLD ends in LOAD under the reset's class; the watchdog warns,
expires and forgets. -/
def Obligations.ModeCommands : Prop :=
  (∀ (s : State) (i : Nat), s.mach.mode ≠ .halt → s.mach.mode ≠ .hold → s.mach.mode ≠ .sleep → refIsland i = true →
    exec (.clockFault i) s = .next (s.after fun m => ((m.trouble F.SYS_TROUBLE_CLOCK 0 i).halt 1 i).blank i)) ∧
  (∀ s : State, s.mach.mode = .sleep → exec (.clockFault 0) s = .next (s.after fun m => m.resetNode clsPin 0)) ∧
  (∀ s : State, exec .por s = .next (s.done (
    if s.mach.tst.burning.isNone then s.por
    else { s.por with
      mach := s.por.mach.fresh.2
      fuses := { s.fuses with customerKey := some (deadKey (Config.freeWord s.por.mach.freeIdx)) } }))) ∧
  (∀ s : State, exec .resetN s = .next (s.after fun m =>
    (m.resetNode clsPin 0).setSys { (m.resetNode clsPin 0).sys with resetLow := true })) ∧
  (∀ s : State, s.mach.mode = .hold → s.mach.on F.DBG_STATUS_SCAN_HOLD = false →
    exec .holdEnd s = .next (s.after fun m =>
      let n := (m.setSys { m.sys with resetLow := false }).put F.SYS_RESET_CAUSE_CLASS m.sys.cls
      let n := if m.sys.cls = clsSlp then
          [0, 1, 3, 4, 5, 6].foldl (fun (n : Mach) r => n.put F.PWR_RAIL_STATUS_STATE 0 r) n
        else n
      ((n.enterMode .load).stageRestart).showWatched)) ∧
  (∀ s : State, s.mach.mode = .join → s.mach.mayLeaveJoin = true →
    exec .leaveJoin s = .next (s.after fun m => m.enterMode m.operatingMode)) ∧
  (∀ s : State, s.mach.mode = .join →
    exec .joinLimit s = .next (s.after fun m =>
      let n := (m.trouble F.SYS_TROUBLE_JOIN_LIMIT).raise 9
      if n.on F.FAB_NODE_ID_VALID = false then n.quarantine 19
      else (n.setSys { n.sys with joinLate := true }).leaveJoin)) ∧
  (∀ s : State, s.mach.mode = .standby → s.mach.timerDue = true →
    exec .wakeTimer s = .next (s.after fun m => m.wakeUp 4 0)) ∧
  (∀ s : State, s.mach.mode = .sleep → s.mach.timerDue = true → s.mach.sys.entering = false →
    exec .wakeTimer s = .next (s.after fun m => m.wakeNow 4 0)) ∧
  (∀ s : State, s.mach.mode = .sleep → s.mach.sys.entering = true → s.mach.panel = panelOff →
    exec .sleepEntryDone s = .next (s.after fun m =>
      let n := (List.range 8).foldl (fun (n : Mach) p => n.ethDown p) m.portsFall
      match n.sys.wake with
      | some (source, i) => n.wakeNow source i
      | none =>
        if n.timerDue then n.wakeNow 4 0
        else ((n.setSys { n.sys with entering := false, mainPwr := false }).showWatched).emit (.pin .mainPwrEn false))) ∧
  (∀ (s : State) (w : SleepSource), s.mach.mode = .sleep → s.mach.sleepSourceOn w = true →
    exec (.sleepWake w) s = .next (s.after fun m =>
      if m.sys.entering then
        (if m.sys.wake.isSome then m else m.setSys { m.sys with wake := some (w.code, w.index) })
      else m.wakeNow w.code w.index)) ∧
  (∀ (m : Mach) (source i : Nat), m.wakeNow source i =
    let n := ((m.put F.SYS_WAKE_STATUS_SOURCE source).put F.SYS_WAKE_STATUS_INDEX i).resetNode clsSlp 0
    n.setSys { n.sys with wakeDue := true }) ∧
  (∀ s : State, s.mach.wdtCounts = true → s.mach.sys.wdtWarned = false →
    exec .sysWdtWarn s = .next (s.after fun m => (m.setSys { m.sys with wdtWarned := true }).raise 5)) ∧
  (∀ s : State, s.mach.wdtCounts = true →
    exec .wdtExpiry s = .next (s.after fun m =>
      let n := m.trouble F.SYS_TROUBLE_WDT
      let k := n.get F.SYS_WDT_STATUS_COUNT
      if n.get F.SYS_WDT_CFG_MAX ≤ k + 1 then n.halt 6 k
      else
        let n := n.put F.SYS_WDT_STATUS_COUNT (k + 1)
        n.setSys { n.sys with resetDue := some (clsWdt, 0) })) ∧
  (∀ s : State, exec .wdtCountDrop s = .next (s.after fun m =>
    m.put F.SYS_WDT_STATUS_COUNT (m.get F.SYS_WDT_STATUS_COUNT - 1)))

/-- R406 to R414: a reading of a watched rail shows, keeps its lowest, and moves its monitor and the stages; stages rise
and fall by one; the dwell of S5 records the sag and halts a node whose panel is off; heat raises the floor, and heat
beyond CRIT halts; HALT of cause POWER ends when every rail is good. -/
def Obligations.PowerCommands : Prop :=
  (∀ (s : State) (r mv : Nat), s.mach.railWatched r = true →
    exec (.pwrRail r mv) s = .next (s.after fun m =>
      let old := m.get F.PWR_RAIL_STATUS_STATE r
      let new := m.railNext r mv
      let n := m.put F.PWR_RAIL_STATUS_MV mv r
      let n := n.put F.PWR_RAIL_MIN_MIN_MV (min mv (n.get F.PWR_RAIL_MIN_MIN_MV r)) r
      let low := min mv ((tFind n.pwr.sagMin r).getD mv)
      let n := n.setPwr { n.pwr with sagMin := if new = 0 then tDel n.pwr.sagMin r else tIns n.pwr.sagMin r low }
      if new = old then n
      else
        let n := (n.put F.PWR_RAIL_STATUS_STATE new r).raise 2
        let n := if new = 1 ∨ old = 0 then n.trouble F.PWR_TROUBLE_SAG else n
        let n := if new = 2 then n.trouble F.PWR_TROUBLE_CRIT else n
        let n :=
          if (n.railIn 2).isSome then (if (m.railIn 2).isSome then n else n.setStage (max n.stage 4) r)
          else if (n.railIn 1).isSome ∧ !(m.railIn 1).isSome then n.setStage (max n.stage 1) r
          else n
        n.stageFloor)) ∧
  (∀ (s : State) (r : Nat), s.mach.railIn 1 = some r → s.mach.railIn 2 = none → s.mach.stage < 4 →
    exec .pwrStageUp s = .next (s.after fun m => m.setStage (m.stage + 1) r)) ∧
  (∀ s : State, s.mach.railIn 1 = none → s.mach.stageWant < s.mach.stage → s.mach.stage < 5 →
    exec .pwrStageDown s = .next (s.after fun m => m.setStage (m.stage - 1) 15)) ∧
  (∀ (s : State) (r : Nat), s.mach.railIn 2 = some r → s.mach.mode ≠ .halt → s.mach.mode ≠ .hold → s.mach.stage ≠ 5 →
    exec .s5Dwell s = .next (s.after fun m =>
      let low := (tFind m.pwr.sagMin r).getD (m.get F.PWR_RAIL_STATUS_MV r)
      let n := ((m.put F.PWR_SAG_RECORD_RAIL r).put F.PWR_SAG_RECORD_MIN_MV low).putB F.PWR_SAG_RECORD_VALID true
      let n := n.setPwr { n.pwr with sagTime := n.now, sagTv := n.get F.TIME_STATUS_STATE ≠ 0, sagLog := true }
      let n := ((n.troubleNoEntry F.PWR_TROUBLE_POWER_HALT).setStage 5 r).stopServices
      if n.mode = .load ∨ n.mode = .prove ∨ n.mode = .sleep ∨ n.panel = panelOff then n.halt 2 r
      else n.setPwr { n.pwr with s5 := 2 })) ∧
  (∀ s : State, s.mach.mode = .halt → s.mach.get F.SYS_HALT_CAUSE = 2 → s.mach.railIn 1 = none →
    exec .sagRestart s = .next (s.after fun m => m.resetNode clsSag 0)) ∧
  (∀ s : State, s.mach.clockRuns = true → (s.mach.get F.PWR_THERMAL_WARN : Int) ≤ s.mach.hottest →
    s.mach.pwr.thermal = 0 →
    exec .pwrThermal s = .next (s.after fun m =>
      (((m.setPwr { m.pwr with thermal := 2 }).trouble F.PWR_TROUBLE_THERMAL).raise 8).stageFloor)) ∧
  (∀ s : State, s.mach.clockRuns = true → s.mach.hottest < (s.mach.get F.PWR_THERMAL_WARN : Int) - 5 →
    exec .thermalClear s = .next (s.after fun m => m.setPwr { m.pwr with thermal := 0 })) ∧
  (∀ s : State, s.mach.clockRuns = true → (s.mach.get F.PWR_THERMAL_CRIT : Int) ≤ s.mach.hottest →
    exec .thermalCrit s = .next (s.after fun m =>
      m.halt 4 (((List.range 16).find? fun i =>
        m.getS F.TEL_TEMP_TEMP i / 8 = m.hottest && !m.on F.TEL_TEMP_FAILED i).getD 15)))

/-- R418, R425, R426, R431: a counter at its top wraps and sets its bit; readings are taken over sensor by sensor; a
telemetry record, full or minimum, goes out under the next SEQ with event 448; the oldest entry of the log queue is written
at the write point. -/
def Obligations.ObserveCommands : Prop :=
  (∀ (s : State) (e : Nat), s.mach.clockRuns = true → e < 320 → s.mach.get F.PMC_CNT_COUNT e = 2 ^ 48 - 1 →
    exec (.pmcWrap e) s = .next (s.after fun m =>
      (m.put F.PMC_CNT_COUNT (2 ^ 48) e).setBitOf .PMC_WRAPPED e)) ∧
  (∀ (s : State) (l : List Int), s.mach.clockRuns = true →
    exec (.sensorRead l) s = .next (s.after fun m =>
      let n := ((l.take 16).zip (List.range 16)).foldl (fun (m : Mach) x => m.sensor x.2 x.1) m
      n.put F.PWR_STATUS_TEMP (ofSigned n.hottest 8))) ∧
  (∀ s : State, s.mach.clockRuns = true → s.mach.on F.TEL_CFG_EN = true → s.mach.mode.runs = true → s.mach.stage ≠ 5 →
    exec .telRecord s = .next (s.after fun m =>
      let q := (m.get F.TEL_STATUS_SEQ + 1) % 65536
      let every := m.get F.TEL_CFG_FULL_EVERY
      let full : Bool := every ≠ 0 ∧ m.stage = 0 ∧ (m.pmc.telCount + 1) % every = 0
      let n := m.putTel (m.telMinimum full q ++ (if full then m.telRest else []))
      ((((n.setPmc { n.pmc with
        telCount := m.pmc.telCount + 1,
        telBase := telEvents.foldl (fun t e => tIns t e (n.telCounter e)) n.pmc.telBase }).put F.TEL_STATUS_SEQ q).count
          297).raise 448))) ∧
  (∀ (s : State) (e : TroubleEntry) (l : List TroubleEntry), s.mach.pmc.logQueue = e :: l → s.mach.mayLog = true →
    exec .troubleLogWrite s = .next (s.done (
      let q := (s.mach.get F.TEL_LOG_SEQ_SEQ + 1) % 2 ^ 32
      let x := s.logWrite (s.mach.get F.TEL_LOG_POS_POS) q e
      x.1.on fun m => m.logWritten q x.2 l)))

/-- R436, R439, R442, R444, R445, R447: a slot of the Badger that yields is counted, one that ends a pass covers its unit
and passes or fails it; a period ends with its record; the tests of PROVE run and lead to JOIN or HALT; the TAP's
instructions select their register; a boundary scan during RESET_N holds the pins and is refused otherwise; a digest is
burned where R447 allows it, and read back. -/
def Obligations.TestCommands : Prop :=
  (∀ (s : State) (r : SlotResult), s.mach.slotTaken r = true → r.yielded = true →
    exec (.badgerSlot r) s = .next (s.after fun m => (m.count 288).count 289)) ∧
  (∀ (s : State) (r : SlotResult), s.mach.slotTaken r = true → r.yielded = false →
    exec (.badgerSlot r) s = .next (s.done ((s.on fun m =>
      let n := (m.count 288).slotCounts r
      if r.ends = false then n
      else
        let n := (n.passCounts r).coverUnit r.cls r.unit
        if r.passes then n.setTst { n.tst with fails := tDel n.tst.fails (r.cls * 64 + r.unit) }
        else n.testFail r.cls r.unit r.observed r.expected).scrubbed r))) ∧
  (∀ s : State, s.mach.badgerRuns = true →
    exec .tstPeriod s = .next (s.after fun m =>
      let enabled := m.get F.TST_CLASS_EN_CLASS * 2
      let cover := m.get F.TST_COVER_CLASS
      let n := (bitsSet enabled 12).foldl (fun (n : Mach) c =>
        if cover.testBit c then n
        else ((n.troubleBit F.TST_LATE_CLASS c).trouble F.TST_TROUBLE_COVERAGE).raise 418) m
      let n := (n.pushResult 2 0 0 cover enabled).raise 417
      ((n.put F.TST_COVER_CLASS 0).setTst { n.tst with covered := [] }).advance F.TST_STATUS_SEQ)) ∧
  (∀ (s : State) (r : ProveIn), s.mach.mode = .prove →
    exec (.proveTests r) s = .next (s.done (s.proveMemory.on fun m =>
      let run := m.proveClasses
      let x := m.proveTouch r
      let fails := r.fails.filter (fun f => run.testBit f.1) ++ x.2
      let n := fails.foldl Mach.proveFail (x.1.proveCounts fails)
      let passed := fails.foldl (fun a f => clearBit a f.1) run
      let first := fails.find? fun f => x.1.terminal f.1 f.2.2.1
      let detail := match first with
        | some (c, u, _, _) => c * 64 + u % 64
        | none => 0
      let n := (n.pushResult 4 0 0 passed run).putB F.TST_PROVE_PASSED first.isNone
      let n := ((n.put F.TST_PROVE_DETAIL detail).put F.TST_PROVE_MS r.ms).raise 421
      if first.isSome then n.halt 5 detail else (n.enterMode .join).joinEntered))) ∧
  (∀ s : State, exec .tapReset s = .next (s.after fun m => m.loadIr irIdcode)) ∧
  (∀ s : State, exec .idcode s = .next (s.after fun m => m.capture irIdcode 0x07400C3D)) ∧
  (∀ s : State, exec .samplePreload s = .next (s.after fun m =>
    m.fresh.2.capture irSample (Config.freeWord m.freeIdx))) ∧
  (∀ (s : State) (c : Instr) (ir : Nat), s.mach.sys.resetLow = true →
    (c, ir) ∈ [(Instr.extest, 3), (Instr.extestPulse, 4), (Instr.extestTrain, 5), (Instr.clamp, 6), (Instr.highz, 7)] →
    exec c s = .next (s.after fun m => (m.put F.DBG_STATUS_IR ir).putB F.DBG_STATUS_SCAN_HOLD true)) ∧
  (∀ (s : State) (c : Instr), s.mach.sys.resetLow = false →
    c ∈ [Instr.extest, Instr.extestPulse, Instr.extestTrain, Instr.clamp, Instr.highz] →
    exec c s = .next (s.after fun m => ((m.loadIr irBypass).trouble F.DBG_TROUBLE_SCAN_REFUSED).raise 442)) ∧
  (∀ (s : State) (code : Nat), code % 256 ∉ [0x01, 0x02, 0x03, 0x04, 0x05, 0x06, 0x07, 0x20, 0x21, 0x22] →
    exec (.bypass code) s = .next (s.after fun m => m.loadIr irBypass)) ∧
  (∀ s : State, exec .fuseRead s = .next (s.after fun m => m.capture irFuseRead s.fuseWord)) ∧
  (∀ (s : State) (d c : Nat), s.mach.mode = .quarantine → s.mach.get F.CFG_STATUS_CAUSE = 6 →
    s.mach.on F.CFG_SVN_CUSTOMER_SET = false → s.mach.tst.burning = none → crc32c (natBytes 48 d) = c % 2 ^ 32 →
    exec (.fuseProg d c) s = .next (s.after fun m =>
      (m.loadIr irFuseProg).setTst { m.tst with burning := some (d % 2 ^ 384) })) ∧
  (∀ (s : State) (d v : Nat), s.mach.tst.burning = some d →
    exec (.dbgFuseDone v) s = .next (s.done (
      let good : Bool := v % 2 ^ 384 = d
      let m := ((s.mach.setTst { s.mach.tst with burning := none }).putB F.CFG_SVN_CUSTOMER_SET true).raise 441
      { s with
        mach := if good then m else m.trouble F.DBG_TROUBLE_FUSE_FAIL
        fuses := { s.fuses with customerKey := some (if good then d else deadKey v) } }))) ∧
  (∀ s : State, exec .dbgNop s = .next (s.after fun m => m.capture irDbgAccess m.dbgWord))

/-- R446: an access of the debug port begins in SERVICE when none runs and its address is aligned, going out at once to
another node; outside SERVICE, while one runs, and misaligned it answers its STAT; it ends with its status and data, that
to another node once its response has come. -/
def Obligations.DebugCommands : Prop :=
  (∀ (s : State) (c : Instr) (op a d : Nat),
    (c, op, d) ∈ [(Instr.dbgRead32 a, 1, 0), (Instr.dbgWrite32 a d, 2, d), (Instr.dbgRead64 a, 3, 0),
                  (Instr.dbgWrite64 a d, 4, d)] →
    exec c s = .next (s.after fun m =>
      let n := m.capture irDbgAccess m.dbgWord
      if n.mode ≠ .service then n.dbgStat 3
      else if n.tst.dbgRun.isSome then n.dbgStat 4
      else if a % dbgLen op ≠ 0 then n.dbgStat 5
      else
        let n := n.setTst { n.tst with dbgRun := some (op, a, d), dbgRsp := none }
        match n.spiTarget a with
        | .own _ => n
        | .far node l =>
          if n.reaches node then
            n.request ⟨0, dbgMaster, dbgWrites op, node, l, dbgLen op, false, 0⟩
              (if dbgWrites op then natBytes (dbgLen op) d else [])
          else
            let n := n.remoteFault dbgMaster (dbgWrites op) node l (dbgLen op) false
            n.setTst { n.tst with dbgRsp := some (3, 0) })) ∧
  (∀ s : State, exec .dbgFence s = .next (s.after fun m =>
    let n := m.capture irDbgAccess m.dbgWord
    if n.mode ≠ .service then n.dbgStat 3
    else if n.tst.dbgRun.isSome then n.dbgStat 4
    else n.dbgBegin 5 0 0)) ∧
  (∀ (s : State) (op w d : Nat), s.mach.mode = .service → s.mach.tst.dbgRun = some (op, w, d) → op ≠ 5 →
    exec .dbgAccessDone s = .next (s.done (
      match s.mach.spiTarget w, s.mach.tst.dbgRsp with
      | .own a, _ =>
        if dbgWrites op then
          let x := s.localWrite dbgMaster a (natBytes (dbgLen op) d) false
          x.2.on fun m => m.dbgEnd w x.1.dbgStat 0
        else
          let x := s.localRead dbgMaster a (dbgLen op)
          x.2.on fun m => m.dbgEnd w x.1.dbgStat (ofNatBytes x.1.data)
      | .far _ _, some (st, v) => s.on fun m => m.dbgEnd w (if st = 0 then 0 else if st = 2 then 5 else 1) v
      | .far _ _, none => s))) ∧
  (∀ (s : State) (w d : Nat), s.mach.mode = .service → s.mach.tst.dbgRun = some (5, w, d) →
    exec .dbgAccessDone s = .next (s.done (
      let x := s.localRead dbgMaster 0x40 4
      x.2.on fun m => m.dbgEnd (m.wallAddr 0x40) x.1.dbgStat (ofNatBytes x.1.data))))

/-! ### Register accesses -/

/-- R2, R3, R10, R11, R333: a granted write that every register it covers takes is stored by the types of the fields,
then acts register by register; a trouble bit it may have cleared is counted out of the summaries; the writer is
answered. -/
def Obligations.RegisterWriteTaken : Prop :=
  ∀ (s : State) (m : Mach) (c : Instr) (x : HostAccess),
    (c, x) ∈ [(Instr.registerWrite x.by_ x.width x.addr x.value, x), (.lutWindowWrite x.by_ x.width x.addr x.value, x)] →
    s.Granted x true m →
    let n := s.sampled x true 0 m
    n.Takes x →
    let cs := coversOf x.width x.addr x.value
    let done := cs.foldl (fun (y : Mach) c => y.wrote n x.by_ c) (n.storedBy x)
    exec c s = .next (s.answered
      (if cs.any (fun c => c.bitsOf .w1c ≠ 0) then done.resummarise else done) x true 0)

/-- R10, R11, R344, R351: a write that some covered register refuses stores nothing: the first such register's refusal is
recorded, and the writer is told. An access that the gate rejects has no effect but the rejection's own: a write's requester
is told so, and a read returns zeros. -/
def Obligations.AccessesRefused : Prop :=
  (∀ (s : State) (m : Mach) (x : HostAccess) (c : Cover), s.Granted x true m →
    let n := s.sampled x true 0 m
    (coversOf x.width x.addr x.value).find? (fun c => !n.coverOk (n.storedBy x) x.by_ c) = some c →
    exec (.registerWrite x.by_ x.width x.addr x.value) s = .next (s.answered (n.refuseWrite c) x false 0)) ∧
  (∀ (s : State) (m : Mach) (x : HostAccess) (g : GateCause), s.mach.clockRuns = true →
    s.mach.gateCheck x.by_ ⟨x.addr, x.width.bytes, true⟩ false = (some g, m) →
    exec (.registerWrite x.by_ x.width x.addr x.value) s = .next (s.answered (s.sampled x true g.code m) x false 0)) ∧
  (∀ (s : State) (m : Mach) (b : Master) (a : Nat) (g : GateCause), s.mach.clockRuns = true →
    s.mach.gateCheck b ⟨a, 4, false⟩ false = (some g, m) →
    exec (.lowWordRead b a) s = .next (s.answered (s.sampled ⟨b, .w32, a, 0⟩ false g.code m) ⟨b, .w32, a, 0⟩ false 0))

/-- R7, R332, R335, R338: a granted write to the Cistern, action memory or DRAM stores the value's bytes, the least
significant at the lowest address, and leaves every other byte and the flash as they were; a granted read of a word of them
without bit errors answers, and returns the word where no engine writes (there it is free: log entry 42). -/
def Obligations.MemoryAccesses : Prop :=
  (∀ (s : State) (m : Mach) (b : Master) (w : Width) (a v : Nat) (r : Region), s.mach.clockRuns = true →
    s.mach.gateCheck b ⟨a, w.bytes, true⟩ false = (none, m) → m.region a = some r → r ≠ .regs →
    ∃ t, exec (.registerWrite b w a v) s = .next t ∧
      (∀ i, i < w.bytes → (t.byte (a + i)).toNat = v / 256 ^ i % 256) ∧
      (∀ x, x < a ∨ a + w.bytes ≤ x → t.byte x = s.byte x) ∧ t.flash = s.flash) ∧
  (∀ (s : State) (m : Mach) (b : Master) (a : Nat) (r : Region), s.mach.clockRuns = true →
    s.mach.gateCheck b ⟨a, 4, false⟩ false = (none, m) → m.region a = some r → r ≠ .regs → s.eccIn a 4 = [] →
    let x := { s with mach := m }.memRead b r a 4
    exec (.lowWordRead b a) s = .next (s.answered
      (x.2.mach.sampleMem b.id false (s.mach.wallAddr a) (m.originOf b) 4 0) ⟨b, .w32, a, 0⟩ true (ofNatBytes x.1.data)) ∧
    (m.engineBytes a 4 = false → ofNatBytes x.1.data = s.word a 4))

/-- R4, R340, R347: a granted 32-bit read returns the word that its requester's latch holds, once, and else the word's own
value with what reading it does. Reading GATE_SYNC answers the count of commits and ends the overlap of old and new rules;
reading SYS_FENCE, once the requester's earlier writes are done, answers and clears its pending fault. -/
def Obligations.RegisterReads : Prop :=
  (∀ (s : State) (m : Mach) (b : Master) (a v : Nat), s.Granted ⟨b, .w32, a, 0⟩ false m →
    tFind (m.latch b.who) a = some v → v < 2 ^ 32 →
    let n := m.setLatch b.who ((m.latch b.who).filter fun e => e.1 ≠ a)
    exec (.lowWordRead b a) s = .next (s.answered
      (n.sampleMem b.id false (s.mach.wallAddr a) (m.originOf b) 4 0) ⟨b, .w32, a, 0⟩ true v)) ∧
  (∀ (s : State) (m : Mach) (b : Master) (a : Nat) (x : RegAt), s.Granted ⟨b, .w32, a, 0⟩ false m →
    tFind (m.latch b.who) a = none → findReg a = some x → m.readOwn b.who x.desc.reg = none → m.live32 a < 2 ^ 32 →
    let e := m.readEffect x a
    let n := if e.1.isEmpty then e.2 else e.2.setLatch b.who e.1
    exec (.lowWordRead b a) s = .next (s.answered
      (n.sampleMem b.id false (s.mach.wallAddr a) (m.originOf b) 4 0) ⟨b, .w32, a, 0⟩ true (m.live32 a))) ∧
  (∀ (s : State) (m : Mach) (b : Master), s.Granted ⟨b, .w32, addrGateSync, 0⟩ false m →
    tFind (m.latch b.who) addrGateSync = none →
    exec (.gateSyncRead b) s = .next (s.answered
      (m.gateSyncRead.2.sampleMem b.id false (s.mach.wallAddr addrGateSync) (m.originOf b) 4 0)
      ⟨b, .w32, addrGateSync, 0⟩ true (m.gateSyncRead.1 % 2 ^ 32))) ∧
  (∀ (s : State) (m : Mach) (b : Master), s.mach.writesOpen b.who = false →
    s.Granted ⟨b, .w32, addrSysFence, 0⟩ false m → tFind (m.latch b.who) addrSysFence = none →
    exec (.sysFenceRead b) s = .next (s.answered
      ((m.fence b.who).2.sampleMem b.id false (s.mach.wallAddr addrSysFence) (m.originOf b) 4 0)
      ⟨b, .w32, addrSysFence, 0⟩ true (if m.gate.faulted.contains b.who then 1 else 0)))

/-- R3, R10, R11, R384, R385, R390, R401, R403, R404, R420, R422: the writes that ask for a mode, a reset, a restart of a
domain, a kick of the watchdog, work of the flash or of a service session, a snapshot or a software event store their
value and do what they ask for. -/
def Obligations.SystemWrites : Prop :=
  ∀ (s : State) (m : Mach) (b : Master) (v : Nat) (c : Instr) (x : HostAccess) (f : Mach → Mach),
    (c, x, f) ∈ [
      (Instr.requestLive b, ⟨b, .w32, addrModeReq, 5⟩, fun m => m.modeRequest b.id 5),
      (.requestStandby b, ⟨b, .w32, addrModeReq, 8⟩, fun m => m.modeRequest b.id 8),
      (.requestSleep b, ⟨b, .w32, addrModeReq, 9⟩, fun m => m.modeRequest b.id 9),
      (.requestService b, ⟨b, .w32, addrModeReq, 10⟩, fun m => m.modeRequest b.id 10),
      (.requestHalt b, ⟨b, .w32, addrModeReq, 11⟩, fun m => m.modeRequest b.id 11),
      (.softEth b, ⟨b, .w32, addrSoftReset, 1⟩, fun m => m.softReset 1),
      (.softCap b, ⟨b, .w32, addrSoftReset, 2⟩, fun m => m.softReset 2),
      (.softDec b, ⟨b, .w32, addrSoftReset, 4⟩, fun m => m.softReset 4),
      (.softEnc b, ⟨b, .w32, addrSoftReset, 8⟩, fun m => m.softReset 8),
      (.softTch b, ⟨b, .w32, addrSoftReset, 16⟩, fun m => m.softReset 16),
      (.softChk b, ⟨b, .w32, addrSoftReset, 32⟩, fun m => m.softReset 32),
      (.flashErase b, ⟨b, .w32, addrFlashCtl, flashGoWord 2 0⟩, fun m => m.flashGo),
      (.svcNew b, ⟨b, .w32, addrSvcCtl, 2 ^ 31⟩, fun m => m.svcNew),
      (.svcVerify b, ⟨b, .w32, addrSvcCtl, 2 ^ 30⟩, fun m => m.svcVerify),
      (.sysWdtKick b v, ⟨b, .w32, addrWdtKick, v⟩, fun m => m.wdtKick (v % 2 ^ 16)),
      (.pmcSw b v, ⟨b, .w32, addrPmcSw, v⟩, fun m => m.pmcSw (v % 2 ^ 16)),
      (.pmcSnap b v, ⟨b, .w32, addrSnapCtl, setBit v 31⟩, fun m => m.snapNow),
      (.flashRead b v, ⟨b, .w32, addrFlashCtl, flashGoWord 0 v⟩, fun m => m.flashGo),
      (.flashProgram b v, ⟨b, .w32, addrFlashCtl, flashGoWord 1 v⟩, fun m => m.flashGo),
      (.sysResetReq b v, ⟨b, .w32, addrResetReq, v⟩, fun m =>
        if m.mode ≠ .hold ∧ m.mode ≠ .load ∧ m.mode ≠ .prove ∧ m.mode ≠ .halt ∧ v % 2 = 1 then
          m.setSys { m.sys with resetDue := some (clsFab, m.originOf b) }
        else m)] →
    s.Granted x true m → (s.sampled x true 0 m).Takes x →
    exec c s = .next (s.answered (f ((s.sampled x true 0 m).storedBy x)) x true 0)

/-- R310, R316, R328, R331, R346, R347, R363, R365: the writes that clear pending bits, ring doorbells, start a transfer
of the serial bus, commit or synchronise a gate rule, or start a check channel store their value and do what they ask
for. -/
def Obligations.ControlWrites : Prop :=
  ∀ (s : State) (m : Mach) (b : Master) (v i h : Nat) (c : Instr) (x : HostAccess) (f : Mach → Mach),
    (c, x, f) ∈ [
      (Instr.evcPendWrite b i v, ⟨b, .w32, addrEvcPend (i % 16), v⟩, fun m => m.resummarise),
      (.evcHostPendWrite b h i v, ⟨b, .w32, addrHostPend (h % 4) (i % 16), v⟩, fun m => m.resummarise),
      (.evcDoorbell b v, ⟨b, .w32, addrDoorbell, v⟩, fun m => m.doorbells (v % 2 ^ 32)),
      (.i2cGo b v, ⟨b, .w32, addrI2cCtl, setBit v 31⟩, fun m => m.i2cGo),
      (.gateCommit b v, ⟨b, .w32, addrGateCommit, v⟩, fun m => m.gateCommit (v % 2 ^ 8)),
      (.gateSyncWrite b v, ⟨b, .w32, addrGateSync, v⟩, fun m => m.gateSyncWrite),
      (.chkCompute b i v, ⟨b, .w32, addrChkCtl (i % 32), chkGo v 0⟩, fun m => m.chkGo b (i % 32)),
      (.chkCheck b i v, ⟨b, .w32, addrChkCtl (i % 32), chkGo v 1⟩, fun m => m.chkGo b (i % 32)),
      (.chkAppend b i v, ⟨b, .w32, addrChkCtl (i % 32), chkGo v 2⟩, fun m => m.chkGo b (i % 32)),
      (.chkCheckStrip b i v, ⟨b, .w32, addrChkCtl (i % 32), chkGo v 3⟩, fun m => m.chkGo b (i % 32))] →
    s.Granted x true m → (s.sampled x true 0 m).Takes x →
    exec c s = .next (s.answered (f ((s.sampled x true 0 m).storedBy x)) x true 0)

/-- R188, R189, R201, R217, R225, R238, R253, R263, R266, R294, R304: the writes that ask the encoder for a picture, commit
a layer group, set and clear fences, hand a readout word over, swap tables, set the backlight, or start work of the panel
link and of the touch front end store their value and do what they ask for. -/
def Obligations.PictureWrites : Prop :=
  ∀ (s : State) (m : Mach) (b : Master) (v g : Nat) (w : Width) (c : Instr) (x : HostAccess) (f : Mach → Mach),
    (c, x, f) ∈ [
      (Instr.encKeyReq b v, ⟨b, .w32, addrEncKeyReq, v⟩, fun m => m.encRequestPicture (v % 2 ^ 32) false),
      (.encLtrReq b v, ⟨b, .w32, addrEncLtrReq, v⟩, fun m => m.encRequestPicture (v % 2 ^ 32) true),
      (.cmpGroupCommit b g v, ⟨b, .w32, addrGroupCommit (g % 8), v⟩, fun m => m.groupCommit (g % 8) (v % 2 ^ 32)),
      (.cmpFence b v, ⟨b, .w64, addrCmpFence, v⟩, fun m => m),
      (.cmpFenceClr b v, ⟨b, .w64, addrCmpFenceClr, v⟩, fun m => m.fenceClr (v % 2 ^ 64)),
      (.cmpReadoutIn b w v, ⟨b, w, addrReadoutIn, v⟩, fun m => m.readoutIn b.id w (v % 2 ^ (8 * w.bytes))),
      (.lutSwap b v, ⟨b, .w32, addrLutSwap, v⟩, fun m => m.lutSwap (v % 2 ^ 3)),
      (.scnBlWrite b v, ⟨b, .w32, addrScnBl, v⟩, fun m =>
        let n := m.dutyWrite (m.get F.SCN_BL_DUTY)
        if n.panel = panelLit then n.pwm else n),
      (.auxGo b v, ⟨b, .w32, addrAuxCtl, setBit v 31⟩, fun m => m.auxGo),
      (.tchRebase b v, ⟨b, .w32, addrTchRebase, v⟩, fun m => m.touchRebase (v % 2 ^ 10)),
      (.tchTestGo b, ⟨b, .w32, addrTchTest, 2 ^ 31⟩, fun m => m.touchTestGo)] →
    s.Granted x true m → (s.sampled x true 0 m).Takes x →
    exec c s = .next (s.answered (f ((s.sampled x true 0 m).storedBy x)) x true 0)

/-- R4: reading the low word of a FIFO register returns it, latches the entry's other words for the requester, and pops the
entry; the low word of a capture stamp latches its high word and pops the stamp. -/
def Obligations.FifoReads : Prop :=
  (∀ (s : State) (m : Mach) (b : Master) (c : Instr) (r : Reg) (a k : Nat) (ws : List Nat),
    (c, r, a, k) ∈ [(Instr.cmpReceiptRead b, Reg.CMP_RECEIPT, addrCmpReceipt, 8), (.cmpReleaseRead b, .CMP_RELEASE, addrCmpRelease, 4),
      (.tchReportRead b, .TCH_REPORT, addrTchReport, 8), (.seqLogRead b, .SEQ_LOG, addrSeqLog, 8),
      (.gateRecordRead b, .GATE_RECORD, addrGateRecord, 8), (.pmcSampRead b, .PMC_SAMP, addrPmcSamp, 8),
      (.tstResultRead b, .TST_RESULT, addrTstResult, 8)] →
    s.Granted ⟨b, .w32, a, 0⟩ false m → tFind (m.latch b.who) a = none → m.fifoHead r = some ws →
    let n := (m.fifoPop r).setLatch b.who ((List.range (k - 1)).map fun j => (a + 4 * (j + 1), word32 ws (j + 1)))
    exec c s = .next (s.answered (n.sampleMem b.id false (s.mach.wallAddr a) (m.originOf b) 4 0) ⟨b, .w32, a, 0⟩
      true (word32 ws 0))) ∧
  (∀ (s : State) (m : Mach) (b : Master) (k : Nat), k < 4 →
    let a := addrCapStamp k
    s.Granted ⟨b, .w32, a, 0⟩ false m → tFind (m.latch b.who) a = none →
    let v := (m.rd .TIME_CAP_STAMP k).toNat
    let n := (m.popCapture k).2.setLatch b.who [(a + 4, v / 2 ^ 32)]
    exec (.capStampRead b k) s = .next (s.answered
      (n.sampleMem b.id false (s.mach.wallAddr a) (m.originOf b) 4 0) ⟨b, .w32, a, 0⟩ true (v % 2 ^ 32)))


/-! ### Steps, reset and what holds of every command -/

/-- A step takes the command at the front of the queue and runs it with the rest of the queue. An empty queue is the
delivery of what the node has sent to its own ID, and one tick of the raw counter: that is the model's choice (log entry
4). -/
def Obligations.StepRunsFront : Prop :=
  (∀ (s : State) (c : Instr) (q : List Instr), s.pending = c :: q → step s = exec c { s with pending := q }) ∧
  (∀ s : State, s.pending = [] → step s = .next (s.done (s.deliverHome.on fun m => m.tick)))

/-- R5, R60, R333: the machine right after reset: no byte written, no command waiting, the raw counter at 0, and the
fields below at the reset values of their rows. -/
def Obligations.ResetValues : Prop :=
  State.reset.mem = [] ∧ State.reset.pending = [] ∧ State.reset.mach.raw = 0 ∧ State.reset.mach.mode = .hold ∧
  State.reset.mach.out = [] ∧
  ∀ (f : Field) (i v : Nat), (f, i, v) ∈ [
      (F.CMP_FRS_UBOUND_BOUND, 0, 1000), (F.CMP_FRS_LABEL_HEIGHT, 0, 24), (F.CMP_LAYER_FRS_CTL_F, 63, 1),
      (F.CMP_LAYER_BUDGET_B, 5, 80000), (F.CMP_LAYER_STATE_STATE, 0, 4), (F.TIME_UNCERT_U_NODE, 0, 0xFFFFFFFF),
      (F.TIME_JUMP_THRESHOLD, 0, 1000), (F.TIME_FRAME_PERIOD_NS, 0, 8333333), (F.TIME_FRAME_PERIOD_FRAC, 0, 21845),
      (F.FAB_PORT_LIMITS_REPLAY_LIMIT, 7, 16), (F.FAB_PEER_MODE_MODES, 2, 0xFFFFFFFF), (F.ETH_PORT_CTL_MAX_FRAME, 1, 1518),
      (F.ETH_STREAM_UDP_UDP_PORT, 9, 5004), (F.CAP_GEOM_WIDTH, 3, 1920), (F.DEC_ADMIT_LIMIT, 0, 6000),
      (F.ENC_CTX_WIN_WIN_PICS, 4, 60), (F.ENC_CTX_RC_QTARGET, 15, 30)] →
    State.reset.mach.get f i = v

/-- The invariant holds after reset: memories and flash in canonical form. -/
def Obligations.ResetInForm : Prop := State.reset.memoryWf = true

/-- Every command answers a next state in every state; it leaves the queue alone, and no reset stays due. -/
def Obligations.CommandsAnswer : Prop :=
  ∀ (c : Instr) (s : State), ∃ t, exec c s = .next t ∧ t.pending = s.pending ∧ t.mach.sys.resetDue = none

/-- Every step, of every state, keeps the memories and the flash in canonical form: addresses rising, and no entry that
says what an unlisted address reads. -/
def Obligations.StepKeepsMemoryForm : Prop :=
  ∀ s t : State, s.memoryWf = true → step s = .next t → t.memoryWf = true

/-- R60: no command but POR changes the raw counter, and so no write of a register does; POR starts it from 0. That a
step on an empty queue is its tick is the model's choice (log entry 4). -/
def Obligations.RawCounter : Prop :=
  (∀ (c : Instr) (s t : State), c ≠ .por → exec c s = .next t → t.mach.raw = s.mach.raw) ∧
  (∀ s t : State, exec .por s = .next t → t.mach.raw = 0) ∧
  (∀ s t : State, s.pending = [] → step s = .next t → t.mach.raw = s.mach.raw + 1)

/-- The commands that store no byte leave every byte of the memories and of the flash as it was. -/
def Obligations.BytesKept : Prop :=
  ∀ (c : Instr) (s t : State) (a : Nat), storesBytes c = false → exec c s = .next t →
    t.byte a = s.byte a ∧ t.fbyte a = s.fbyte a

/-- R384: an erase that is done leaves its sector erased, and every byte of the flash outside it, and every byte of the
memories, as it was. -/
def Obligations.FlashEraseClears : Prop :=
  ∀ (s : State) (v : Bool) (x : FlashOp), s.mach.cfg.flashOp = some x → x.op = 2 →
    ∃ t, exec (.flashDone v) s = .next t ∧
      (∀ a, a / 65536 = x.addr / 65536 → t.fbyte a = 0xFF) ∧
      (∀ a, a / 65536 ≠ x.addr / 65536 → t.fbyte a = s.fbyte a) ∧ t.mem = s.mem

/-- R374, R375, R446: no command changes the vendor key or the serial number in the fuses, the blown SVN never falls, and a
customer key once burned stays while no burn runs. -/
def Obligations.FusesOnlyGrow : Prop :=
  ∀ (c : Instr) (s t : State), exec c s = .next t →
    t.fuses.vendorKey = s.fuses.vendorKey ∧ t.fuses.serial = s.fuses.serial ∧ s.fuses.svn ≤ t.fuses.svn ∧
    (s.mach.tst.burning = none → t.fuses.customerKey = s.fuses.customerKey)

/-! ### Rules of the machine as a whole -/

/-- R421: an arrival counts in the arrival counter of its source, saturating at 32 bits, whatever its EVC_SRC holds and
whether or not it merges. In HOLD and SLEEP, whose islands stand, nothing reaches the event controller. -/
def Obligations.ArrivalsCounted : Prop :=
  ∀ (m : Mach) (n : Nat) (trigger : Bool), m.mode ≠ .hold → m.mode ≠ .sleep →
    (m.arrive n trigger).1.get F.PMC_ARRIVALS_ARRIVALS n = min (2 ^ 32 - 1) (m.get F.PMC_ARRIVALS_ARRIVALS n + 1)

/-- R310: after an arrival at a source that is enabled, its pending bit is 1. -/
def Obligations.RaiseSetsPending : Prop :=
  ∀ (m : Mach) (n : Nat), m.mode ≠ .hold → m.mode ≠ .sleep → n < 512 → m.on F.EVC_SRC_0_EN n = true →
    (m.raise n).bitOf .EVC_PEND n = true

/-- R2: what a write makes of a register of the map: an RW field takes the written bits, an RO, WO or SC field stores what
it held, a W1C field loses the bits written as 1, and a W1S field gains them; bits outside the fields stay. -/
def Obligations.WriteByType : Prop :=
  ∀ (d : RegDesc) (i old v : Nat), d ∈ allRegs → old < 2 ^ 64 → v < 2 ^ 64 →
    let c : Cover := ⟨d, i, 2 ^ 64 - 1, v⟩
    (∀ (f : FieldDesc) (k : Nat), f ∈ d.fields → k < f.field.width →
      let j := f.field.lo + k
      (f.ty = .rw → (c.stored old).testBit j = v.testBit j) ∧
      (f.ty = .ro ∨ f.ty = .wo ∨ f.ty = .sc → (c.stored old).testBit j = old.testBit j) ∧
      (f.ty = .w1c → (c.stored old).testBit j = (old.testBit j && !v.testBit j)) ∧
      (f.ty = .w1s → (c.stored old).testBit j = (old.testBit j || v.testBit j))) ∧
    (∀ k : Nat, (∀ f ∈ d.fields, k < f.field.lo ∨ f.field.lo + f.field.width ≤ k) →
      (c.stored old).testBit k = old.testBit k)

/-- R344, R349, R350: the gate never lets the debug master touch a page of a locked rule, never lets any master write a
leased page outside QUARANTINE, and allows a P master whatever is mapped, unlocked, not leased and without a rule. -/
def Obligations.GateBars : Prop :=
  (∀ (m : Mach) (old : Bool) (x : Access), m.lockedAt x.addr = true ∨ m.lockedAt (x.addr + x.len - 1) = true →
    m.gateDecide old 2 x ≠ none) ∧
  (∀ (m : Mach) (old : Bool) (k : Nat) (x : Access), x.write = true → m.mode ≠ .quarantine →
    m.leasedAt x.addr = true ∨ m.leasedAt (x.addr + x.len - 1) = true → m.gateDecide old k x ≠ none) ∧
  (∀ (m : Mach) (old : Bool) (k : Nat) (x : Access) (r : Region), m.mode ≠ .quarantine → k ≠ 2 →
    m.region x.addr = some r → m.region (x.addr + x.len - 1) = some r → (r = .regs → alignedReg x = true) →
    (∀ a, a = x.addr ∨ a = x.addr + x.len - 1 → m.leasedAt a = false ∧ m.ruleAt old k a = none) →
    m.gateDecide old k x = if m.privileged k then none else some .noMatch)

/-- R28: ages are unsigned 32-bit numbers of µs, rounded up and saturating; the reported age adds the uncertainty; a
capture stamp after the scan-out by up to the bound gives age 0 before it is added, and one later than that is taken as
implausible, which loses the layer as TIME UNSURE (R57). -/
def Obligations.FreshnessAge : Prop :=
  ∀ (tScan uNode bound b s minClass : Nat) (localA : Bool) (o : Offer),
    let c := checkPicture tScan uNode bound b s minClass localA o
    (o.cap * 65536 ≤ tScan → c.future = false ∧
      c.age = min 0xFFFFFFFF (min 0xFFFFFFFF (ceilDiv (tScan - o.cap * 65536) 65536000) + (uNode + o.u))) ∧
    (tScan < o.cap * 65536 → o.cap * 65536 ≤ tScan + bound * 65536000 →
      c.future = false ∧ c.age = min 0xFFFFFFFF (uNode + o.u)) ∧
    (tScan + bound * 65536000 < o.cap * 65536 → c.future = true ∧ c.st = stLost ∧ c.reason = reasonTimeUnsure)

/-- R30, R31, R45, R47: a picture is LIVE exactly when its stamp is plausible, its age is within B, it is not frozen, the
uncertainty is within the bound unless the node itself captured it, and its class is at least MIN_CLASS; an uncertainty
above ten times the bound loses it; and a greater uncertainty of the node never lowers its state. -/
def Obligations.FreshnessStates : Prop :=
  (∀ (tScan uNode bound b s minClass : Nat) (localA : Bool) (o : Offer),
    (checkPicture tScan uNode bound b s minClass localA o).st = stLive ↔
      o.cap * 65536 ≤ tScan + bound * 65536000 ∧ sat32 (ageUs tScan o.cap + (uNode + o.u)) ≤ b ∧ o.frozen = false ∧
      (localA = true ∨ uNode + o.u ≤ bound) ∧ minClass ≤ o.cls) ∧
  (∀ (tScan uNode bound b s minClass : Nat) (o : Offer), 10 * bound < uNode + o.u →
    (checkPicture tScan uNode bound b s minClass false o).st = stLost) ∧
  (∀ (tScan u1 u2 bound b s minClass : Nat) (localA : Bool) (o : Offer), u1 ≤ u2 →
    (checkPicture tScan u1 bound b s minClass localA o).st ≤ (checkPicture tScan u2 bound b s minClass localA o).st)

/-- R233: with the cube and the post-LUT off, a pre-LUT that is on gives the 12-bit entry that the 10-bit value selects, of
the component's 1,024, with no interpolation; a pre-LUT that is off gives four times the value (of R236). -/
def Obligations.LutChain : Prop :=
  ∀ (m : Mach) (t : Tables) (c : Rgb), t.bypass = false → m.on F.LUT_CTL_CUBE_EN = false →
    m.on F.LUT_CTL_POST_EN = false →
    (m.on F.LUT_CTL_PRE_EN = false → m.chain t c = ⟨4 * c.r, 4 * c.g, 4 * c.b⟩) ∧
    (m.on F.LUT_CTL_PRE_EN = true → c.r < 1024 → c.g < 1024 → c.b < 1024 →
      m.chain t c = ⟨bits (tGet t.pre 0 c.r).toNat 0 12, bits (tGet t.pre 0 (1024 + c.g)).toNat 0 12,
        bits (tGet t.pre 0 (2048 + c.b)).toNat 0 12⟩)

/-- From every state in canonical form a run of any length answers a next state at each step and stays in canonical form:
no command, in any state, stops the block. That an empty queue is a tick is the model's choice (log entry 4). -/
def Obligations.EveryRunIsSafe : Prop := ∀ (k : Nat) (s : State), s.memoryWf = true → s.safeRun k

/-! ### Frames -/

/-- R61, R66 to R92, R95 to R124, R340: what the commands of the timebase and of the fabric's links leave alone: every
register and every part of the state outside their own block, but for what an arrival at an event source reaches. When
no reset is due, each command named changes only registers and state of the blocks named and what an arrival at an
event source can reach. -/
def Obligations.TimeAndFabricFrames : Prop :=
  (∀ (s t : State) (c : Instr) (a : Nat) (x y : Bool),
    s.mach.sys.resetDue = none → c ∈ [
      Instr.timeSettled, .timeHoldover, .pulseArm a x y, .rootLost, .claim, .timeParentChange a, .preemptClaim, .refPpsEdge,
      .refF10mGate a, .timeRefLost, .ptpReferenceLost, .noRootSeen, .pulseEdge a, .pulseReturn a,
      .captureEdge a x] →
    exec c s = .next t → s.mach.Within [.time] t.mach) ∧
  (∀ (s t : State) (c : Instr) (a : Nat) (kind : PtpKind),
    s.mach.sys.resetDue = none → c ∈ [
      Instr.ptpMessageTimer a kind] →
    exec c s = .next t → s.mach.Within [.time, .chk] t.mach) ∧
  (∀ (s t : State) (c : Instr) (a : Nat) (f : Flit) (x : Bool),
    s.mach.sys.resetDue = none → c ∈ [
      Instr.timeFlitReceive a f x] →
    exec c s = .next t → s.mach.Within [.time, .chk, .fab, .cmp] t.mach) ∧
  (∀ (s t : State) (c : Instr) (a b d : Nat) (key : FlowKey) (msg : CtrlMsg),
    s.mach.sys.resetDue = none → c ∈ [
      Instr.portTrain a, .trainFail a, .trainLock a b d, .configTimeout a, .rejoin key, .peerUnknown a, .refuse a msg,
      .leave a msg, .resvCheck a] →
    exec c s = .next t → s.mach.Within [.fab] t.mach) ∧
  (∀ (s t : State) (c : Instr) (a b : Nat) (body : ConfigBody) (msg : CtrlMsg),
    s.mach.sys.resetDue = none → c ∈ [
      Instr.config a body, .nak a b, .idleLimit a, .retrain a, .portDisable a, .flowDown a msg] →
    exec c s = .next t → s.mach.Within [.fab, .cmp] t.mach) ∧
  (∀ (s t : State) (c : Instr) (a : Nat) (msg : CtrlMsg),
    s.mach.sys.resetDue = none → c ∈ [
      Instr.join a msg] →
    exec c s = .next t → s.mach.Within [.fab, .enc] t.mach) ∧
  (∀ (s t : State) (c : Instr) (a : Nat),
    s.mach.sys.resetDue = none → c ∈ [
      Instr.configSend a] →
    exec c s = .next t → s.mach.Within [.chk] t.mach) ∧
  (∀ (s t : State) (c : Instr) (key : FlowKey) (row : BandRow),
    s.mach.sys.resetDue = none → c ∈ [
      Instr.spanBandRowReceive key row] →
    exec c s = .next t → s.mach.Within [.chk, .cmp] t.mach) ∧
  (∀ (s t : State) (c : Instr) (key : FlowKey) (slice : SliceIn),
    s.mach.sys.resetDue = none → c ∈ [
      Instr.streamSliceReceive key slice] →
    exec c s = .next t → s.mach.Within [.chk, .cmp, .dec, .fab] t.mach) ∧
  (∀ (s t : State) (c : Instr) (a : Nat) (msg : CtrlMsg),
    s.mach.sys.resetDue = none → c ∈ [
      Instr.stateFlood, .doorbell a, .timeFlitSend a, .accept a msg] →
    exec c s = .next t → s.mach.Within [] t.mach)

/-- R127 to R149: what commands of the Ethernet ports, of management sessions and of the cameras leave alone. When no
reset is due, each command named changes only registers and state of the blocks named and what an arrival at an event
source can reach. -/
def Obligations.InputFrames : Prop :=
  (∀ (s t : State) (c : Instr) (a b : Nat) (x : Bool) (peer : MgmtPeer),
    s.mach.sys.resetDue = none → c ∈ [
      Instr.neighbourExpire a b, .mgmtIdle a, .mgmtLockoutEnd peer, .close a b x] →
    exec c s = .next t → s.mach.Within [.eth] t.mach) ∧
  (∀ (s t : State) (c : Instr) (a b : Nat) (x : Bool) (peer : MgmtPeer) (l : List Nat) (o : Option (List Nat)),
    s.mach.sys.resetDue = none → c ∈ [
      Instr.neighbourRequest a b, .membershipReport a b, .prove peer l, .openMgmt peer a l, .mgmtPending a b x o] →
    exec c s = .next t → s.mach.Within [.chk, .eth] t.mach) ∧
  (∀ (s t : State) (c : Instr) (a b : Nat) (x : Bool),
    s.mach.sys.resetDue = none → c ∈ [
      Instr.mgmtFence a b x] →
    exec c s = .next t → s.mach.Within [.chk, .eth, .gate] t.mach) ∧
  (∀ (s t : State) (c : Instr) (a b d : Nat),
    s.mach.sys.resetDue = none → c ∈ [
      Instr.auReleaseTimeout a b d] →
    exec c s = .next t → s.mach.Within [.chk, .cmp, .dec, .eth, .fab] t.mach) ∧
  (∀ (s t : State) (c : Instr) (a b : Nat) (x y : Bool),
    s.mach.sys.resetDue = none → c ∈ [
      Instr.streamSilent a b, .ethLink a x y] →
    exec c s = .next t → s.mach.Within [.cmp, .eth] t.mach) ∧
  (∀ (s t : State) (c : Instr) (a : Nat),
    s.mach.sys.resetDue = none → c ∈ [
      Instr.capEnWrite a] →
    exec c s = .next t → s.mach.Within [.cap] t.mach) ∧
  (∀ (s t : State) (c : Instr) (a b : Nat),
    s.mach.sys.resetDue = none → c ∈ [
      Instr.csiFrameEnd a b] →
    exec c s = .next t → s.mach.Within [.cap, .chk, .enc] t.mach) ∧
  (∀ (s t : State) (c : Instr) (a : Nat),
    s.mach.sys.resetDue = none → c ∈ [
      Instr.capSilent a] →
    exec c s = .next t → s.mach.Within [.cap, .cmp] t.mach) ∧
  (∀ (s t : State) (c : Instr) (a b d : Nat) (l : List Nat) (x : Bool),
    s.mach.sys.resetDue = none → c ∈ [
      Instr.csiFrameStart a b d, .csiLine a b d l x] →
    exec c s = .next t → s.mach.Within [.cap, .enc] t.mach) ∧
  (∀ (s t : State) (c : Instr) (a : Nat),
    s.mach.sys.resetDue = none → c ∈ [
      Instr.rtcpSrSend a] →
    exec c s = .next t → s.mach.Within [.chk] t.mach)

/-- R155, R184, R185, R216 to R222, R226, R238, R240: what commands of the picture path leave alone. When no reset is
due, each command named changes only registers and state of the blocks named and what an arrival at an event source
can reach. -/
def Obligations.PictureFrames : Prop :=
  (∀ (s t : State) (c : Instr) (a : Nat) (l : List Nat) (key : FlowKey),
    s.mach.sys.resetDue = none → c ∈ [
      Instr.readoutTimeout a, .flowSilent key, .bandOverrun a l] →
    exec c s = .next t → s.mach.Within [.cmp] t.mach) ∧
  (∀ (s t : State) (c : Instr),
    s.mach.sys.resetDue = none → c ∈ [
      Instr.applyPoint] →
    exec c s = .next t → s.mach.Within [.cmp, .gate, .sig] t.mach) ∧
  (∀ (s t : State) (c : Instr),
    s.mach.sys.resetDue = none → c ∈ [
      Instr.lutSwapChecked] →
    exec c s = .next t → s.mach.Within [.chk, .lut] t.mach) ∧
  (∀ (s t : State) (c : Instr) (a : Nat),
    s.mach.sys.resetDue = none → c ∈ [
      Instr.lutEccFatal a] →
    exec c s = .next t → s.mach.Within [.lut] t.mach) ∧
  (∀ (s t : State) (c : Instr) (a b d e : Nat),
    s.mach.sys.resetDue = none → c ∈ [
      Instr.rowCoded a b d e, .rowLimitReached a b] →
    exec c s = .next t → s.mach.Within [.enc] t.mach) ∧
  (∀ (s t : State) (c : Instr) (a : Nat) (l : List (List Nat)),
    s.mach.sys.resetDue = none → c ∈ [
      Instr.sliceEmit a l] →
    exec c s = .next t → s.mach.Within [.chk, .enc, .eth, .fab] t.mach) ∧
  (∀ (s t : State) (c : Instr) (a b : Nat) (r : SliceResult),
    s.mach.sys.resetDue = none → c ∈ [
      Instr.contextResetEnd a, .sliceDecoded a b r, .workLimit a] →
    exec c s = .next t → s.mach.Within [.dec, .cmp, .fab] t.mach) ∧
  (∀ (s t : State) (c : Instr),
    s.mach.sys.resetDue = none → c ∈ [
      Instr.vblank] →
    exec c s = .next t → s.mach.Within [] t.mach)

/-- R263 to R276, R281 to R308: what commands of the panel link and of the touch front end leave alone. When no reset
is due, each command named changes only registers and state of the blocks named and what an arrival at an event source
can reach. -/
def Obligations.PanelAndTouchFrames : Prop :=
  (∀ (s t : State) (c : Instr) (sink : Sink) (steps : List (Nat × Nat × Bool)) (x y : Bool) (a : Nat) (l : List
      Nat),
    s.mach.sys.resetDue = none → c ∈ [
      Instr.hpdPlug sink steps, .hpdUnplug, .irqHpd x y steps, .hpdShortPulse, .dpRetry steps, .auxReplyTimeout,
      .auxReply a l x, .panelStep steps, .noHpd, .faultHoldEnd] →
    exec c s = .next t → s.mach.Within [.scn] t.mach) ∧
  (∀ (s t : State) (c : Instr) (l l1 : List Nat) (a : Nat),
    s.mach.sys.resetDue = none → c ∈ [
      Instr.tchCycleStart, .listenEnd l, .baselineAdopted a, .unconfAdopt a, .stuckContact a, .tchTestDone l l1,
      .tchRxSilent a] →
    exec c s = .next t → s.mach.Within [.tch] t.mach) ∧
  (∀ (s t : State) (c : Instr) (scan : ScanData) (l : List Nat),
    s.mach.sys.resetDue = none → c ∈ [
      Instr.scanEnd scan, .scanLate, .tchRx l] →
    exec c s = .next t → s.mach.Within [.chk, .tch] t.mach)

/-- R313, R315, R328 to R331, R353, R354, R384, R385, R404 to R410, R418, R425, R426, R439, R444: what commands of the
system blocks leave alone. When no reset is due, each command named changes only registers and state of the blocks
named and what an arrival at an event source can reach. -/
def Obligations.SystemFrames : Prop :=
  (∀ (s t : State) (c : Instr) (x : Bool),
    s.mach.sys.resetDue = none → c ∈ [
      Instr.flashEraseTimeout, .svcChallengeExpiry, .flashDone x] →
    exec c s = .next t → s.mach.Within [.cfg] t.mach) ∧
  (∀ (s t : State) (c : Instr) (a : Nat),
    s.mach.sys.resetDue = none → c ∈ [
      Instr.tapReset, .idcode, .extest, .extestPulse, .extestTrain, .clamp, .highz, .bypass a, .dbgNop,
      .fuseRead, .samplePreload] →
    exec c s = .next t → s.mach.Within [.dbg] t.mach) ∧
  (∀ (s t : State) (c : Instr) (a b : Nat),
    s.mach.sys.resetDue = none → c ∈ [
      Instr.fuseProg a b] →
    exec c s = .next t → s.mach.Within [.dbg, .tst] t.mach) ∧
  (∀ (s t : State) (c : Instr) (a : Nat),
    s.mach.sys.resetDue = none → c ∈ [
      Instr.dbgFuseDone a] →
    exec c s = .next t → s.mach.Within [.cfg, .dbg, .tst] t.mach) ∧
  (∀ (s t : State) (c : Instr) (a b : Nat),
    s.mach.sys.resetDue = none → c ∈ [
      Instr.dbgRead32 a, .dbgWrite32 a b, .dbgRead64 a, .dbgWrite64 a b, .dbgFence] →
    exec c s = .next t → s.mach.Within [.dbg, .gate, .tst] t.mach) ∧
  (∀ (s t : State) (c : Instr) (r : SlotResult),
    s.mach.sys.resetDue = none → c ∈ [
      Instr.badgerSlot r] →
    exec c s = .next t → s.mach.Within [.cfg, .dec, .enc, .lut, .mem, .tst] t.mach) ∧
  (∀ (s t : State) (c : Instr),
    s.mach.sys.resetDue = none → c ∈ [
      Instr.tstPeriod] →
    exec c s = .next t → s.mach.Within [.tst] t.mach) ∧
  (∀ (s t : State) (c : Instr) (a : Nat),
    s.mach.sys.resetDue = none → c ∈ [
      Instr.holdoffEnd a] →
    exec c s = .next t → s.mach.Within [.evc] t.mach) ∧
  (∀ (s t : State) (c : Instr) (a : Nat),
    s.mach.sys.resetDue = none → c ∈ [
      Instr.delivery, .seqRunLimit a] →
    exec c s = .next t → s.mach.Within [.evc, .seq] t.mach) ∧
  (∀ (s t : State) (c : Instr) (a : Nat) (l : List Nat),
    s.mach.sys.resetDue = none → c ∈ [
      Instr.i2cDone a l, .i2cTimeout] →
    exec c s = .next t → s.mach.Within [.seq] t.mach) ∧
  (∀ (s t : State) (c : Instr),
    s.mach.sys.resetDue = none → c ∈ [
      Instr.spiStatus] →
    exec c s = .next t → s.mach.Within [.gate] t.mach) ∧
  (∀ (s t : State) (c : Instr) (a : Nat),
    s.mach.sys.resetDue = none → c ∈ [
      Instr.spiCsLimit, .spiUnknownCommand a] →
    exec c s = .next t → s.mach.Within [.gate, .mem] t.mach) ∧
  (∀ (s t : State) (c : Instr) (a : Nat),
    s.mach.sys.resetDue = none → c ∈ [
      Instr.cisternFatal a] →
    exec c s = .next t → s.mach.Within [.mem, .sig] t.mach) ∧
  (∀ (s t : State) (c : Instr),
    s.mach.sys.resetDue = none → c ∈ [
      Instr.thermalClear] →
    exec c s = .next t → s.mach.Within [.pwr] t.mach) ∧
  (∀ (s t : State) (c : Instr) (l : List Int),
    s.mach.sys.resetDue = none → c ∈ [
      Instr.sensorRead l] →
    exec c s = .next t → s.mach.Within [.pwr, .tel] t.mach) ∧
  (∀ (s t : State) (c : Instr),
    s.mach.sys.resetDue = none → c ∈ [
      Instr.sysWdtWarn, .wdtCountDrop] →
    exec c s = .next t → s.mach.Within [.sys] t.mach) ∧
  (∀ (s t : State) (c : Instr),
    s.mach.sys.resetDue = none → c ∈ [
      Instr.telRecord, .troubleLogWrite] →
    exec c s = .next t → s.mach.Within [.tel] t.mach) ∧
  (∀ (s t : State) (c : Instr) (a : Nat),
    s.mach.sys.resetDue = none → c ∈ [
      Instr.spiReadData, .pmcWrap a, .eventArrival a, .seqPollTimeout a, .seqWaitEventTimeout a,
      .seqWaitTimeExpiry a] →
    exec c s = .next t → s.mach.Within [] t.mach)
end

