-- ==== Sys2Proof/Laws/Bits.lean ====
section
/-! SUPPORT. Bit fields: what a field reads as after a field is replaced. -/

namespace Sys2Proof.Machine

theorem testBit_bits (v lo w i : Nat) : (bits v lo w).testBit i = (decide (i < w) && v.testBit (lo + i)) := by
  simp [bits, Nat.testBit_mod_two_pow, Nat.testBit_shiftRight]

/-- A number cut into what lies above a field, the field and what lies below it. -/
theorem bits_split (v lo w : Nat) :
    v = (v / 2 ^ (lo + w)) * 2 ^ (lo + w) + bits v lo w * 2 ^ lo + v % 2 ^ lo := by
  have h1 := Nat.div_add_mod v (2 ^ lo)
  have h2 := Nat.div_add_mod (v / 2 ^ lo) (2 ^ w)
  have h3 : v / 2 ^ lo / 2 ^ w = v / 2 ^ (lo + w) := by rw [Nat.div_div_eq_div_mul, ← pow_add]
  have h4 : bits v lo w = v / 2 ^ lo % 2 ^ w := by simp [bits, Nat.shiftRight_eq_div_pow]
  rw [h3] at h2
  have h5 : v / 2 ^ (lo + w) * 2 ^ (lo + w) + v / 2 ^ lo % 2 ^ w * 2 ^ lo =
      2 ^ lo * (2 ^ w * (v / 2 ^ (lo + w)) + v / 2 ^ lo % 2 ^ w) := by
    generalize v / 2 ^ (lo + w) = a
    rw [pow_add]
    ring
  rw [h4, h5, h2]
  exact h1.symm

theorem setBits_split (v lo w x : Nat) :
    setBits v lo w x = (v / 2 ^ (lo + w)) * 2 ^ (lo + w) + (x % 2 ^ w) * 2 ^ lo + v % 2 ^ lo := by
  have h := bits_split v lo w
  simp only [setBits, Nat.shiftLeft_eq]
  omega

/-- Replacing a field replaces its bits and no other. -/
theorem testBit_setBits (v lo w x i : Nat) :
    (setBits v lo w x).testBit i = if lo ≤ i ∧ i < lo + w then x.testBit (i - lo) else v.testBit i := by
  have hv := bits_split v lo w
  have hs := setBits_split v lo w x
  have hc : v % 2 ^ lo < 2 ^ lo := Nat.mod_lt _ (Nat.two_pow_pos _)
  have hx : x % 2 ^ w < 2 ^ w := Nat.mod_lt _ (Nat.two_pow_pos _)
  have hb : bits v lo w < 2 ^ w := by simp only [bits]; exact Nat.mod_lt _ (Nat.two_pow_pos _)
  have form (a y c : Nat) (hc : c < 2 ^ lo) (hy : y < 2 ^ w) :
      (a * 2 ^ (lo + w) + y * 2 ^ lo + c).testBit i =
        if i < lo then c.testBit i else if i < lo + w then y.testBit (i - lo) else a.testBit (i - lo - w) := by
    have e : a * 2 ^ (lo + w) + y * 2 ^ lo + c = 2 ^ lo * (2 ^ w * a + y) + c := by rw [pow_add]; ring
    rw [e, Nat.testBit_two_pow_mul_add _ hc]
    split
    · rfl
    · rw [Nat.testBit_two_pow_mul_add _ hy]
      split <;> split <;> first | rfl | omega
  rw [hs, form _ _ _ hc hx]
  conv => rhs; rw [hv]
  rw [form _ _ _ hc hb]
  by_cases h1 : i < lo
  · simp [h1, Nat.not_le.2 h1]
  · by_cases h2 : i < lo + w
    · have : i - lo < w := by omega
      simp [h1, h2, Nat.le_of_not_lt h1, Nat.testBit_mod_two_pow, this]
    · simp [h1, h2]

theorem setBits_lt {v lo w x n : Nat} (hv : v < 2 ^ n) (h : lo + w ≤ n) : setBits v lo w x < 2 ^ n := by
  refine Nat.lt_pow_two_of_testBit _ fun i hi => ?_
  rw [testBit_setBits, if_neg (by omega)]
  exact Nat.testBit_lt_two_pow (lt_of_lt_of_le hv (Nat.pow_le_pow_right (by decide) hi))

/-- The field replaced reads as the low bits of what was put there. -/
theorem bits_setBits_same (v lo w x : Nat) : bits (setBits v lo w x) lo w = x % 2 ^ w := by
  refine Nat.eq_of_testBit_eq fun i => ?_
  rw [testBit_bits, testBit_setBits, Nat.testBit_mod_two_pow]
  by_cases h : i < w <;> simp [h]

/-- A field that shares no bit with the one replaced reads as before. -/
theorem bits_setBits_ne {lo w lo' w' : Nat} (v x : Nat) (h : lo' + w' ≤ lo ∨ lo + w ≤ lo') :
    bits (setBits v lo w x) lo' w' = bits v lo' w' := by
  refine Nat.eq_of_testBit_eq fun i => ?_
  rw [testBit_bits, testBit_bits, testBit_setBits]
  by_cases hi : i < w'
  · rw [if_neg (by omega)]
  · simp [hi]

theorem bits_lt (v lo w : Nat) : bits v lo w < 2 ^ w := by
  simp only [bits]; exact Nat.mod_lt _ (Nat.two_pow_pos _)

end Sys2Proof.Machine
end

