-- ==== Sys2Proof/Laws/Access.lean ====
section
/-! SUPPORT. Register accesses of commands: numbers and their bytes, what a granted write and a granted read come to, and
what a taken write of one register does. -/

namespace Sys2Proof.Machine

theorem natBytes_length (n v : Nat) : (natBytes n v).length = n := by
  induction n generalizing v with
  | zero => rfl
  | succ n ih => simp [natBytes, ih]

theorem ofNatBytes_natBytes (n v : Nat) : ofNatBytes (natBytes n v) = v % 2 ^ (8 * n) := by
  induction n generalizing v with
  | zero => simp [natBytes, ofNatBytes, Nat.mod_one]
  | succ n ih =>
    have h : 2 ^ (8 * (n + 1)) = 256 * 2 ^ (8 * n) := by rw [Nat.mul_add, Nat.pow_add]; ring
    simp only [natBytes, ofNatBytes, ih, h, Nat.mod_mul, Nat.mod_mod]

theorem widthOf_bytes (w : Width) : widthOf w.bytes = w := by cases w <;> rfl

theorem Mach.region_regs (m : Mach) {a : Nat} (h : a < 0x10000000) : m.region a = some .regs := by
  simp [Mach.region, h]

/-- A write covers the same registers with the same values whatever lies above its width. -/
theorem coversOf_mod (w : Width) (a v : Nat) : coversOf w a (v % 2 ^ (8 * w.bytes)) = coversOf w a v := by
  cases w
  · simp only [coversOf, cover32, Width.bytes]
    rw [show 8 * 4 = 32 from rfl, Nat.mod_mod]
  · have h1 : v % 2 ^ (8 * 8) % 2 ^ 32 = v % 2 ^ 32 := Nat.mod_mod_of_dvd _ (Nat.pow_dvd_pow 2 (by decide))
    have h2 : v % 2 ^ (8 * 8) / 2 ^ 32 % 2 ^ 32 = v / 2 ^ 32 % 2 ^ 32 := by
      rw [show 2 ^ (8 * 8) = 2 ^ 32 * 2 ^ 32 from rfl, Nat.mod_mul_right_div_self, Nat.mod_mod]
    simp only [coversOf, cover32, Width.bytes, h1, h2, show 8 * 8 = 64 from rfl, Nat.mod_mod]

/-- The covers of a 32-bit write to the low word of a register. -/
theorem coversOf_w32 {a : Nat} {x : RegAt} (h : findReg a = some x) (hh : x.high = false) (v : Nat) :
    coversOf .w32 a v = [⟨x.desc, x.i, 2 ^ 32 - 1, v % 2 ^ 32⟩] := by
  simp [coversOf, cover32, h, hh]

/-- What a granted write of a command comes to. -/
theorem State.hostWrite_granted {s : State} {m : Mach} {x : HostAccess} (h : s.Granted x true m) :
    s.hostWrite x.by_ x.addr x.width.bytes x.value =
      s.on fun _ => (((s.sampled x true 0 m).regWrite x.by_ x.width x.addr x.value).2).emit
        (.data x.by_ ((s.sampled x true 0 m).regWrite x.by_ x.width x.addr x.value).1 0) := by
  have e : ∀ m : Mach, m.regWrite x.by_ x.width x.addr (x.value % 2 ^ (8 * x.width.bytes)) =
      m.regWrite x.by_ x.width x.addr x.value := fun m => by simp only [Mach.regWrite, coversOf_mod]
  simp only [State.hostWrite, h.clock, State.localWrite, natBytes_length, h.gate, Mach.region_regs m h.space,
    ofNatBytes_natBytes, widthOf_bytes, e, State.sampled, State.on]
  simp

/-- What a granted 32-bit read of a command comes to. -/
theorem State.hostRead_granted {s : State} {m : Mach} {b : Master} {a : Nat} (h : s.Granted ⟨b, .w32, a, 0⟩ false m) :
    s.hostRead b a 4 =
      s.on fun _ => (((m.read32 b.who a).2).sampleMem b.id false (s.mach.wallAddr a) (m.originOf b) 4 0).emit
        (.data b true ((m.read32 b.who a).1 % 2 ^ 32)) := by
  have hg : s.mach.gateCheck b ⟨a, 4, false⟩ false = (none, m) := h.gate
  have hw : widthOf 4 = .w32 := rfl
  simp only [State.hostRead, h.clock, State.localRead, hg, Mach.region_regs m h.space, hw, Mach.regRead, State.on]
  simp only [Bool.not_true, Bool.false_eq_true, if_false, ofNatBytes_natBytes, Option.isNone_none]

/-- A write that every covered register takes. -/
theorem Mach.regWrite_taken {n : Mach} {x : HostAccess} (h : n.Takes x) :
    n.regWrite x.by_ x.width x.addr x.value =
      (true, let cs := coversOf x.width x.addr x.value
        let done := cs.foldl (fun (y : Mach) c => y.wrote n x.by_ c) (n.storedBy x)
        if cs.any (fun c => c.bitsOf .w1c ≠ 0) then done.resummarise else done) := by
  have e : (coversOf x.width x.addr x.value).find? (fun c => !n.coverOk (n.storedBy x) x.by_ c) = none := by
    rw [List.find?_eq_none]
    intro c hc
    simp [h c hc]
  simp only [Mach.regWrite]
  simp only [Mach.storedBy] at e ⊢
  simp only [e]

/-- A command that is a granted write ends in the effect f, when the registers take the write and f is what storing it
leads to. -/
theorem exec_write {s : State} {m : Mach} {c : Instr} {x : HostAccess} (f : Mach → Mach)
    (he : exec c s = s.ends (s.hostWrite x.by_ x.addr x.width.bytes x.value)) (hg : s.Granted x true m)
    (ht : (s.sampled x true 0 m).Takes x)
    (hf : (let n := s.sampled x true 0 m
      let cs := coversOf x.width x.addr x.value
      let done := cs.foldl (fun (y : Mach) c => y.wrote n x.by_ c) (n.storedBy x)
      if cs.any (fun c => c.bitsOf .w1c ≠ 0) then done.resummarise else done) = f ((s.sampled x true 0 m).storedBy x)) :
    exec c s = .next (s.answered (f ((s.sampled x true 0 m).storedBy x)) x true 0) := by
  rw [he, State.hostWrite_granted hg, Mach.regWrite_taken ht, ← hf]
  rfl

/-- The same for a 32-bit write of one register, known by its name, its block and its W1C bits. -/
theorem exec_write_one {s : State} {m : Mach} {c : Instr} {x : HostAccess} (f : Mach → Mach) {r : Reg} {k : Block}
    {w i : Nat} (he : exec c s = s.ends (s.hostWrite x.by_ x.addr x.width.bytes x.value)) (hg : s.Granted x true m)
    (ht : (s.sampled x true 0 m).Takes x) (hw : x.width = .w32)
    (hr : (findReg x.addr).map (fun y => (y.desc.reg, y.desc.block, y.desc.maskOf (·.ty = .w1c), y.i, y.high)) =
      some (r, k, w, i, false))
    (hf : ∀ (n y : Mach) (d : RegDesc), d.reg = r → d.block = k →
      (let z := y.wrote n x.by_ ⟨d, i, 2 ^ 32 - 1, x.value % 2 ^ 32⟩
       if w &&& (2 ^ 32 - 1) ≠ 0 then z.resummarise else z) = f y) :
    exec c s = .next (s.answered (f ((s.sampled x true 0 m).storedBy x)) x true 0) := by
  refine exec_write f he hg ht ?_
  cases hx : findReg x.addr with
  | none => simp [hx] at hr
  | some y =>
    simp only [hx, Option.map_some, Option.some.injEq, Prod.mk.injEq] at hr
    obtain ⟨h1, h2, h3, h4, h5⟩ := hr
    rw [hw, coversOf_w32 hx h5, ← hf (s.sampled x true 0 m) _ y.desc h1 h2]
    simp [Cover.bitsOf, h3, h4]

/-! ### Bits of written words -/

theorem testBit_setBit (v i j : Nat) : (setBit v i).testBit j = (v.testBit j || decide (i = j)) := by
  simp [setBit, Nat.one_shiftLeft, Nat.testBit_two_pow]

theorem bits_one (v i : Nat) : bits v i 1 = if v.testBit i then 1 else 0 := by
  simp only [bits, Nat.testBit, Nat.pow_one, Nat.one_and_eq_mod_two]
  rcases Nat.mod_two_eq_zero_or_one (v >>> i) with h | h <;> simp [h]

/-- Bit 31 of a 32-bit word with that bit set. -/
theorem bits_setBit_31 (v : Nat) : bits (setBit v 31 % 2 ^ 32) 31 1 = 1 := by
  rw [bits_one, Nat.testBit_mod_two_pow, testBit_setBit]
  simp

end Sys2Proof.Machine
end

