-- ==== Sys2Proof/Laws/Table.lean ====
section
/-! SUPPORT. Sparse tables: reading after writing, and the canonical form. -/

namespace Sys2Proof.Machine

variable {α : Type}

/-! ### Reading after writing, for any list -/

@[simp] theorem tGet_nil (d : α) (k : Nat) : tGet [] d k = d := rfl

@[simp] theorem tFind_nil (k : Nat) : tFind ([] : List (Nat × α)) k = none := rfl

theorem tGet_eq_tFind (t : List (Nat × α)) (d : α) (k : Nat) : tGet t d k = (tFind t k).getD d := by
  induction t with
  | nil => rfl
  | cons e t ih => simp only [tGet, tFind]; split <;> simp [ih]

@[simp] theorem tFind_tIns_same (t : List (Nat × α)) (k : Nat) (v : α) : tFind (tIns t k v) k = some v := by
  induction t with
  | nil => simp [tIns, tFind]
  | cons e t ih =>
    simp only [tIns]
    split
    · simp [tFind]
    · split
      · simp [tFind]
      · next h => simp [tFind, h, ih]

theorem tFind_tIns_ne (t : List (Nat × α)) {k j : Nat} (v : α) (h : j ≠ k) : tFind (tIns t k v) j = tFind t j := by
  induction t with
  | nil => simp [tIns, tFind, h]
  | cons e t ih =>
    simp only [tIns]
    split
    · simp [tFind, h]
    · split
      · next hk => subst hk; simp [tFind, h]
      · simp [tFind, ih]

@[simp] theorem tFind_tDel_same (t : List (Nat × α)) (k : Nat) : tFind (tDel t k) k = none := by
  induction t with
  | nil => rfl
  | cons e t ih =>
    unfold tDel at ih ⊢
    by_cases h : e.1 = k
    · simp [h, ih]
    · simp [h, tFind, ih, Ne.symm h]

theorem tFind_tDel_ne (t : List (Nat × α)) {k j : Nat} (h : j ≠ k) : tFind (tDel t k) j = tFind t j := by
  induction t with
  | nil => rfl
  | cons e t ih =>
    unfold tDel at ih ⊢
    by_cases hk : e.1 = k
    · have : j ≠ e.1 := by omega
      simp [hk, tFind, ih, h]
    · simp [hk, tFind, ih]

variable [DecidableEq α]

/-- A read after a write to the same key answers the value written. -/
@[simp] theorem tGet_tPut_same (t : List (Nat × α)) (d v : α) (k : Nat) : tGet (tPut t d k v) d k = v := by
  rw [tGet_eq_tFind]
  unfold tPut
  split
  · next hv => simp [hv]
  · simp

/-- A write leaves every other key alone, whatever that key reads as when unlisted. -/
theorem tGet_tPut_ne (t : List (Nat × α)) {k j : Nat} (x y v : α) (h : j ≠ k) :
    tGet (tPut t x k v) y j = tGet t y j := by
  rw [tGet_eq_tFind, tGet_eq_tFind]
  unfold tPut
  split
  · rw [tFind_tDel_ne t h]
  · rw [tFind_tIns_ne t v h]

/-! ### The canonical form -/

variable {d : Nat → α}

theorem tWf_cons {e : Nat × α} {t : List (Nat × α)} :
    tWf d (e :: t) = true ↔ e.2 ≠ d e.1 ∧ (∀ x ∈ t, e.1 < x.1) ∧ tWf d t = true := by
  simp [tWf, and_assoc]

@[simp] theorem tWf_nil : tWf d [] = true := rfl

theorem tWf_filter {t : List (Nat × α)} (p : Nat × α → Bool) (h : tWf d t = true) : tWf d (t.filter p) = true := by
  induction t with
  | nil => rfl
  | cons e t ih =>
    obtain ⟨he, ha, hw⟩ := tWf_cons.1 h
    by_cases hp : p e = true
    · rw [List.filter_cons_of_pos hp]
      exact tWf_cons.2 ⟨he, fun x hx => ha x (List.mem_filter.1 hx).1, ih hw⟩
    · rw [List.filter_cons_of_neg hp]
      exact ih hw

theorem tWf_tDel {t : List (Nat × α)} (k : Nat) (h : tWf d t = true) : tWf d (tDel t k) = true := tWf_filter _ h

omit [DecidableEq α] in
theorem mem_tIns {t : List (Nat × α)} {k : Nat} {v : α} {x : Nat × α} (h : x ∈ tIns t k v) : x = (k, v) ∨ x ∈ t := by
  induction t with
  | nil => simpa [tIns] using h
  | cons e t ih =>
    simp only [tIns] at h
    split at h
    · simpa using h
    · split at h
      · rcases List.mem_cons.1 h with h | h
        · exact .inl h
        · exact .inr (List.mem_cons_of_mem _ h)
      · rcases List.mem_cons.1 h with h | h
        · exact .inr (by simp [h])
        · rcases ih h with h | h
          · exact .inl h
          · exact .inr (List.mem_cons_of_mem _ h)

/-- An entry that differs from what its key reads as when unlisted keeps the canonical form. -/
theorem tWf_tIns {t : List (Nat × α)} {k : Nat} {v : α} (h : tWf d t = true) (hv : v ≠ d k) :
    tWf d (tIns t k v) = true := by
  induction t with
  | nil => simp [tIns, tWf, hv]
  | cons e t ih =>
    obtain ⟨he, ha, hw⟩ := tWf_cons.1 h
    simp only [tIns]
    split
    · next hlt =>
      refine tWf_cons.2 ⟨hv, fun x hx => ?_, h⟩
      rcases List.mem_cons.1 hx with hx | hx
      · simpa [hx] using hlt
      · exact Nat.lt_trans hlt (ha x hx)
    · split
      · next hk =>
        subst hk
        exact tWf_cons.2 ⟨hv, ha, hw⟩
      · refine tWf_cons.2 ⟨he, fun x hx => ?_, ih hw⟩
        rcases mem_tIns hx with hx | hx
        · rw [hx]
          have h1 : ¬ k < e.1 := by assumption
          have h2 : ¬ k = e.1 := by assumption
          show e.1 < k
          omega
        · exact ha x hx

/-- A write keeps the canonical form. -/
theorem tWf_tPut {t : List (Nat × α)} (k : Nat) (v : α) (h : tWf d t = true) :
    tWf d (tPut t (d k) k v) = true := by
  unfold tPut
  split
  · exact tWf_tDel k h
  · next hv => exact tWf_tIns h hv

end Sys2Proof.Machine
end

