-- ==== Sys2Proof/Laws/Regs.lean ====
section
/-! SUPPORT. The register file: what a register and a field read as after a write. -/

namespace Sys2Proof.Machine

theorem Reg.ctorIdx_lt (r : Reg) : r.ctorIdx < 512 := by cases r <;> decide

theorem Reg.ctorIdx_inj {r r' : Reg} (h : r.ctorIdx = r'.ctorIdx) : r = r' := by
  rw [← Reg.ofNat_ctorIdx r, h, Reg.ofNat_ctorIdx]

/-- A register's key tells which register and which instance it is. -/
theorem regKey_inj {r r' : Reg} {i i' : Nat} (h : regKey r i = regKey r' i') : r = r' ∧ i = i' := by
  have h1 := r.ctorIdx_lt
  have h2 := r'.ctorIdx_lt
  simp only [regKey] at h
  exact ⟨Reg.ctorIdx_inj (by omega), by omega⟩

theorem Reg.ofNat_regKey (r : Reg) (i : Nat) : Reg.ofNat (regKey r i % 512) = r := by
  have h1 := r.ctorIdx_lt
  have : regKey r i % 512 = r.ctorIdx := by simp only [regKey]; omega
  rw [this, Reg.ofNat_ctorIdx]

theorem regKey_div (r : Reg) (i : Nat) : regKey r i / 512 = i := by
  have h1 := r.ctorIdx_lt
  simp only [regKey]; omega

/-- A register reads as the word written to it. -/
@[simp] theorem Mach.rd_wr_same (m : Mach) (r : Reg) (i : Nat) (v : DWord) : (m.wr r i v).rd r i = v := by
  simp [Mach.rd, Mach.wr]

/-- A write leaves every other register alone. -/
theorem Mach.rd_wr_ne (m : Mach) {r r' : Reg} {i i' : Nat} (v : DWord) (h : r' ≠ r ∨ i' ≠ i) :
    (m.wr r i v).rd r' i' = m.rd r' i' := by
  simp only [Mach.rd, Mach.wr]
  refine tGet_tPut_ne _ _ _ _ fun e => ?_
  obtain ⟨h1, h2⟩ := regKey_inj e
  tauto

@[simp] theorem Mach.rd_wr_reg (m : Mach) (r r' : Reg) (i i' : Nat) (v : DWord) :
    (m.wr r i v).rd r' i' = if r' = r ∧ i' = i then v else m.rd r' i' := by
  split
  · next h => obtain ⟨rfl, rfl⟩ := h; simp
  · next h => exact m.rd_wr_ne v (by tauto)

theorem Mach.rd_put (m : Mach) (f : Field) (v i : Nat) (r : Reg) (j : Nat) :
    (m.put f v i).rd r j =
      if r = f.reg ∧ j = i then BitVec.ofNat 64 (setBits (m.rd f.reg i).toNat f.lo f.width v) else m.rd r j := by
  simp [Mach.put]

/-- A field reads as the low bits of what was put there. -/
@[simp] theorem Mach.get_put_same (m : Mach) (f : Field) (v i : Nat) (h : f.lo + f.width ≤ 64) :
    (m.put f v i).get f i = v % 2 ^ f.width := by
  have hlt := setBits_lt (lo := f.lo) (w := f.width) (x := v) (m.rd f.reg i).isLt h
  simp only [Mach.get, Mach.rd_put, and_self, if_true, BitVec.toNat_ofNat]
  rw [Nat.mod_eq_of_lt hlt, bits_setBits_same]

/-- A field of another register, or of another instance, reads as before. -/
theorem Mach.get_put_ne (m : Mach) {f g : Field} {i j : Nat} (v : Nat) (h : g.reg ≠ f.reg ∨ j ≠ i) :
    (m.put f v i).get g j = m.get g j := by
  have : ¬(g.reg = f.reg ∧ j = i) := by tauto
  simp [Mach.get, Mach.rd_put, this]

/-- Another field of the same register reads as before. -/
theorem Mach.get_put_field (m : Mach) {f g : Field} (i v : Nat) (hr : g.reg = f.reg) (h : f.lo + f.width ≤ 64)
    (hd : g.lo + g.width ≤ f.lo ∨ f.lo + f.width ≤ g.lo) : (m.put f v i).get g i = m.get g i := by
  have hlt := setBits_lt (lo := f.lo) (w := f.width) (x := v) (m.rd f.reg i).isLt h
  simp only [Mach.get, Mach.rd_put, hr, and_self, if_true, BitVec.toNat_ofNat]
  rw [Nat.mod_eq_of_lt hlt, bits_setBits_ne _ _ hd]

/-- What a field reads as after a field is put: by case on whether they share register, instance and bits. -/
theorem Mach.get_put (m : Mach) (f g : Field) (v i j : Nat) (h : f.lo + f.width ≤ 64)
    (hd : g.reg ≠ f.reg ∨ g = f ∨ g.lo + g.width ≤ f.lo ∨ f.lo + f.width ≤ g.lo) :
    (m.put f v i).get g j = if g = f ∧ j = i then v % 2 ^ f.width else m.get g j := by
  by_cases e : g = f ∧ j = i
  · obtain ⟨rfl, rfl⟩ := e; simp [h]
  · rw [if_neg e]
    by_cases hr : g.reg ≠ f.reg ∨ j ≠ i
    · exact m.get_put_ne v hr
    · simp only [not_or, not_not] at hr
      obtain ⟨hr, rfl⟩ := hr
      refine m.get_put_field j v hr h ?_
      tauto

end Sys2Proof.Machine
end

