-- ==== Sys2Proof/Laws/State.lean ====
section
/-! SUPPORT. Every field of the state after every update of one: what was put there, or what stood there. -/

namespace Sys2Proof.Machine

/-! ### Register writes leave everything else alone -/

@[simp] theorem Mach.wr_raw (m : Mach) (r : Reg) (i : Nat) (v : DWord) : (m.wr r i v).raw = m.raw := rfl
@[simp] theorem Mach.wr_freeIdx (m : Mach) (r : Reg) (i : Nat) (v : DWord) : (m.wr r i v).freeIdx = m.freeIdx := rfl
@[simp] theorem Mach.wr_out (m : Mach) (r : Reg) (i : Nat) (v : DWord) : (m.wr r i v).out = m.out := rfl
@[simp] theorem Mach.wr_limited (m : Mach) (r : Reg) (i : Nat) (v : DWord) : (m.wr r i v).limited = m.limited := rfl
@[simp] theorem Mach.wr_latches (m : Mach) (r : Reg) (i : Nat) (v : DWord) : (m.wr r i v).latches = m.latches := rfl
@[simp] theorem Mach.wr_time (m : Mach) (r : Reg) (i : Nat) (v : DWord) : (m.wr r i v).time = m.time := rfl
@[simp] theorem Mach.wr_fab (m : Mach) (r : Reg) (i : Nat) (v : DWord) : (m.wr r i v).fab = m.fab := rfl
@[simp] theorem Mach.wr_eth (m : Mach) (r : Reg) (i : Nat) (v : DWord) : (m.wr r i v).eth = m.eth := rfl
@[simp] theorem Mach.wr_cap (m : Mach) (r : Reg) (i : Nat) (v : DWord) : (m.wr r i v).cap = m.cap := rfl
@[simp] theorem Mach.wr_dec (m : Mach) (r : Reg) (i : Nat) (v : DWord) : (m.wr r i v).dec = m.dec := rfl
@[simp] theorem Mach.wr_enc (m : Mach) (r : Reg) (i : Nat) (v : DWord) : (m.wr r i v).enc = m.enc := rfl
@[simp] theorem Mach.wr_cmp (m : Mach) (r : Reg) (i : Nat) (v : DWord) : (m.wr r i v).cmp = m.cmp := rfl
@[simp] theorem Mach.wr_lut (m : Mach) (r : Reg) (i : Nat) (v : DWord) : (m.wr r i v).lut = m.lut := rfl
@[simp] theorem Mach.wr_sig (m : Mach) (r : Reg) (i : Nat) (v : DWord) : (m.wr r i v).sig = m.sig := rfl
@[simp] theorem Mach.wr_scn (m : Mach) (r : Reg) (i : Nat) (v : DWord) : (m.wr r i v).scn = m.scn := rfl
@[simp] theorem Mach.wr_tch (m : Mach) (r : Reg) (i : Nat) (v : DWord) : (m.wr r i v).tch = m.tch := rfl
@[simp] theorem Mach.wr_evc (m : Mach) (r : Reg) (i : Nat) (v : DWord) : (m.wr r i v).evc = m.evc := rfl
@[simp] theorem Mach.wr_pmc (m : Mach) (r : Reg) (i : Nat) (v : DWord) : (m.wr r i v).pmc = m.pmc := rfl
@[simp] theorem Mach.wr_gate (m : Mach) (r : Reg) (i : Nat) (v : DWord) : (m.wr r i v).gate = m.gate := rfl
@[simp] theorem Mach.wr_cfg (m : Mach) (r : Reg) (i : Nat) (v : DWord) : (m.wr r i v).cfg = m.cfg := rfl
@[simp] theorem Mach.wr_chk (m : Mach) (r : Reg) (i : Nat) (v : DWord) : (m.wr r i v).chk = m.chk := rfl
@[simp] theorem Mach.wr_sys (m : Mach) (r : Reg) (i : Nat) (v : DWord) : (m.wr r i v).sys = m.sys := rfl
@[simp] theorem Mach.wr_pwr (m : Mach) (r : Reg) (i : Nat) (v : DWord) : (m.wr r i v).pwr = m.pwr := rfl
@[simp] theorem Mach.wr_tst (m : Mach) (r : Reg) (i : Nat) (v : DWord) : (m.wr r i v).tst = m.tst := rfl

@[simp] theorem Mach.put_raw (m : Mach) (f : Field) (v i : Nat) : (m.put f v i).raw = m.raw := rfl
@[simp] theorem Mach.put_freeIdx (m : Mach) (f : Field) (v i : Nat) : (m.put f v i).freeIdx = m.freeIdx := rfl
@[simp] theorem Mach.put_out (m : Mach) (f : Field) (v i : Nat) : (m.put f v i).out = m.out := rfl
@[simp] theorem Mach.put_limited (m : Mach) (f : Field) (v i : Nat) : (m.put f v i).limited = m.limited := rfl
@[simp] theorem Mach.put_latches (m : Mach) (f : Field) (v i : Nat) : (m.put f v i).latches = m.latches := rfl
@[simp] theorem Mach.put_time (m : Mach) (f : Field) (v i : Nat) : (m.put f v i).time = m.time := rfl
@[simp] theorem Mach.put_fab (m : Mach) (f : Field) (v i : Nat) : (m.put f v i).fab = m.fab := rfl
@[simp] theorem Mach.put_eth (m : Mach) (f : Field) (v i : Nat) : (m.put f v i).eth = m.eth := rfl
@[simp] theorem Mach.put_cap (m : Mach) (f : Field) (v i : Nat) : (m.put f v i).cap = m.cap := rfl
@[simp] theorem Mach.put_dec (m : Mach) (f : Field) (v i : Nat) : (m.put f v i).dec = m.dec := rfl
@[simp] theorem Mach.put_enc (m : Mach) (f : Field) (v i : Nat) : (m.put f v i).enc = m.enc := rfl
@[simp] theorem Mach.put_cmp (m : Mach) (f : Field) (v i : Nat) : (m.put f v i).cmp = m.cmp := rfl
@[simp] theorem Mach.put_lut (m : Mach) (f : Field) (v i : Nat) : (m.put f v i).lut = m.lut := rfl
@[simp] theorem Mach.put_sig (m : Mach) (f : Field) (v i : Nat) : (m.put f v i).sig = m.sig := rfl
@[simp] theorem Mach.put_scn (m : Mach) (f : Field) (v i : Nat) : (m.put f v i).scn = m.scn := rfl
@[simp] theorem Mach.put_tch (m : Mach) (f : Field) (v i : Nat) : (m.put f v i).tch = m.tch := rfl
@[simp] theorem Mach.put_evc (m : Mach) (f : Field) (v i : Nat) : (m.put f v i).evc = m.evc := rfl
@[simp] theorem Mach.put_pmc (m : Mach) (f : Field) (v i : Nat) : (m.put f v i).pmc = m.pmc := rfl
@[simp] theorem Mach.put_gate (m : Mach) (f : Field) (v i : Nat) : (m.put f v i).gate = m.gate := rfl
@[simp] theorem Mach.put_cfg (m : Mach) (f : Field) (v i : Nat) : (m.put f v i).cfg = m.cfg := rfl
@[simp] theorem Mach.put_chk (m : Mach) (f : Field) (v i : Nat) : (m.put f v i).chk = m.chk := rfl
@[simp] theorem Mach.put_sys (m : Mach) (f : Field) (v i : Nat) : (m.put f v i).sys = m.sys := rfl
@[simp] theorem Mach.put_pwr (m : Mach) (f : Field) (v i : Nat) : (m.put f v i).pwr = m.pwr := rfl
@[simp] theorem Mach.put_tst (m : Mach) (f : Field) (v i : Nat) : (m.put f v i).tst = m.tst := rfl

@[simp] theorem Mach.putB_raw (m : Mach) (f : Field) (b : Bool) (i : Nat) : (m.putB f b i).raw = m.raw := rfl
@[simp] theorem Mach.putB_freeIdx (m : Mach) (f : Field) (b : Bool) (i : Nat) : (m.putB f b i).freeIdx = m.freeIdx := rfl
@[simp] theorem Mach.putB_out (m : Mach) (f : Field) (b : Bool) (i : Nat) : (m.putB f b i).out = m.out := rfl
@[simp] theorem Mach.putB_limited (m : Mach) (f : Field) (b : Bool) (i : Nat) : (m.putB f b i).limited = m.limited := rfl
@[simp] theorem Mach.putB_latches (m : Mach) (f : Field) (b : Bool) (i : Nat) : (m.putB f b i).latches = m.latches := rfl
@[simp] theorem Mach.putB_time (m : Mach) (f : Field) (b : Bool) (i : Nat) : (m.putB f b i).time = m.time := rfl
@[simp] theorem Mach.putB_fab (m : Mach) (f : Field) (b : Bool) (i : Nat) : (m.putB f b i).fab = m.fab := rfl
@[simp] theorem Mach.putB_eth (m : Mach) (f : Field) (b : Bool) (i : Nat) : (m.putB f b i).eth = m.eth := rfl
@[simp] theorem Mach.putB_cap (m : Mach) (f : Field) (b : Bool) (i : Nat) : (m.putB f b i).cap = m.cap := rfl
@[simp] theorem Mach.putB_dec (m : Mach) (f : Field) (b : Bool) (i : Nat) : (m.putB f b i).dec = m.dec := rfl
@[simp] theorem Mach.putB_enc (m : Mach) (f : Field) (b : Bool) (i : Nat) : (m.putB f b i).enc = m.enc := rfl
@[simp] theorem Mach.putB_cmp (m : Mach) (f : Field) (b : Bool) (i : Nat) : (m.putB f b i).cmp = m.cmp := rfl
@[simp] theorem Mach.putB_lut (m : Mach) (f : Field) (b : Bool) (i : Nat) : (m.putB f b i).lut = m.lut := rfl
@[simp] theorem Mach.putB_sig (m : Mach) (f : Field) (b : Bool) (i : Nat) : (m.putB f b i).sig = m.sig := rfl
@[simp] theorem Mach.putB_scn (m : Mach) (f : Field) (b : Bool) (i : Nat) : (m.putB f b i).scn = m.scn := rfl
@[simp] theorem Mach.putB_tch (m : Mach) (f : Field) (b : Bool) (i : Nat) : (m.putB f b i).tch = m.tch := rfl
@[simp] theorem Mach.putB_evc (m : Mach) (f : Field) (b : Bool) (i : Nat) : (m.putB f b i).evc = m.evc := rfl
@[simp] theorem Mach.putB_pmc (m : Mach) (f : Field) (b : Bool) (i : Nat) : (m.putB f b i).pmc = m.pmc := rfl
@[simp] theorem Mach.putB_gate (m : Mach) (f : Field) (b : Bool) (i : Nat) : (m.putB f b i).gate = m.gate := rfl
@[simp] theorem Mach.putB_cfg (m : Mach) (f : Field) (b : Bool) (i : Nat) : (m.putB f b i).cfg = m.cfg := rfl
@[simp] theorem Mach.putB_chk (m : Mach) (f : Field) (b : Bool) (i : Nat) : (m.putB f b i).chk = m.chk := rfl
@[simp] theorem Mach.putB_sys (m : Mach) (f : Field) (b : Bool) (i : Nat) : (m.putB f b i).sys = m.sys := rfl
@[simp] theorem Mach.putB_pwr (m : Mach) (f : Field) (b : Bool) (i : Nat) : (m.putB f b i).pwr = m.pwr := rfl
@[simp] theorem Mach.putB_tst (m : Mach) (f : Field) (b : Bool) (i : Nat) : (m.putB f b i).tst = m.tst := rfl

@[simp] theorem Mach.bump_raw (m : Mach) (f : Field) (i n : Nat) : (m.bump f i n).raw = m.raw := rfl
@[simp] theorem Mach.bump_freeIdx (m : Mach) (f : Field) (i n : Nat) : (m.bump f i n).freeIdx = m.freeIdx := rfl
@[simp] theorem Mach.bump_out (m : Mach) (f : Field) (i n : Nat) : (m.bump f i n).out = m.out := rfl
@[simp] theorem Mach.bump_limited (m : Mach) (f : Field) (i n : Nat) : (m.bump f i n).limited = m.limited := rfl
@[simp] theorem Mach.bump_latches (m : Mach) (f : Field) (i n : Nat) : (m.bump f i n).latches = m.latches := rfl
@[simp] theorem Mach.bump_time (m : Mach) (f : Field) (i n : Nat) : (m.bump f i n).time = m.time := rfl
@[simp] theorem Mach.bump_fab (m : Mach) (f : Field) (i n : Nat) : (m.bump f i n).fab = m.fab := rfl
@[simp] theorem Mach.bump_eth (m : Mach) (f : Field) (i n : Nat) : (m.bump f i n).eth = m.eth := rfl
@[simp] theorem Mach.bump_cap (m : Mach) (f : Field) (i n : Nat) : (m.bump f i n).cap = m.cap := rfl
@[simp] theorem Mach.bump_dec (m : Mach) (f : Field) (i n : Nat) : (m.bump f i n).dec = m.dec := rfl
@[simp] theorem Mach.bump_enc (m : Mach) (f : Field) (i n : Nat) : (m.bump f i n).enc = m.enc := rfl
@[simp] theorem Mach.bump_cmp (m : Mach) (f : Field) (i n : Nat) : (m.bump f i n).cmp = m.cmp := rfl
@[simp] theorem Mach.bump_lut (m : Mach) (f : Field) (i n : Nat) : (m.bump f i n).lut = m.lut := rfl
@[simp] theorem Mach.bump_sig (m : Mach) (f : Field) (i n : Nat) : (m.bump f i n).sig = m.sig := rfl
@[simp] theorem Mach.bump_scn (m : Mach) (f : Field) (i n : Nat) : (m.bump f i n).scn = m.scn := rfl
@[simp] theorem Mach.bump_tch (m : Mach) (f : Field) (i n : Nat) : (m.bump f i n).tch = m.tch := rfl
@[simp] theorem Mach.bump_evc (m : Mach) (f : Field) (i n : Nat) : (m.bump f i n).evc = m.evc := rfl
@[simp] theorem Mach.bump_pmc (m : Mach) (f : Field) (i n : Nat) : (m.bump f i n).pmc = m.pmc := rfl
@[simp] theorem Mach.bump_gate (m : Mach) (f : Field) (i n : Nat) : (m.bump f i n).gate = m.gate := rfl
@[simp] theorem Mach.bump_cfg (m : Mach) (f : Field) (i n : Nat) : (m.bump f i n).cfg = m.cfg := rfl
@[simp] theorem Mach.bump_chk (m : Mach) (f : Field) (i n : Nat) : (m.bump f i n).chk = m.chk := rfl
@[simp] theorem Mach.bump_sys (m : Mach) (f : Field) (i n : Nat) : (m.bump f i n).sys = m.sys := rfl
@[simp] theorem Mach.bump_pwr (m : Mach) (f : Field) (i n : Nat) : (m.bump f i n).pwr = m.pwr := rfl
@[simp] theorem Mach.bump_tst (m : Mach) (f : Field) (i n : Nat) : (m.bump f i n).tst = m.tst := rfl

@[simp] theorem Mach.advance_raw (m : Mach) (f : Field) (i n : Nat) : (m.advance f i n).raw = m.raw := rfl
@[simp] theorem Mach.advance_freeIdx (m : Mach) (f : Field) (i n : Nat) : (m.advance f i n).freeIdx = m.freeIdx := rfl
@[simp] theorem Mach.advance_out (m : Mach) (f : Field) (i n : Nat) : (m.advance f i n).out = m.out := rfl
@[simp] theorem Mach.advance_limited (m : Mach) (f : Field) (i n : Nat) : (m.advance f i n).limited = m.limited := rfl
@[simp] theorem Mach.advance_latches (m : Mach) (f : Field) (i n : Nat) : (m.advance f i n).latches = m.latches := rfl
@[simp] theorem Mach.advance_time (m : Mach) (f : Field) (i n : Nat) : (m.advance f i n).time = m.time := rfl
@[simp] theorem Mach.advance_fab (m : Mach) (f : Field) (i n : Nat) : (m.advance f i n).fab = m.fab := rfl
@[simp] theorem Mach.advance_eth (m : Mach) (f : Field) (i n : Nat) : (m.advance f i n).eth = m.eth := rfl
@[simp] theorem Mach.advance_cap (m : Mach) (f : Field) (i n : Nat) : (m.advance f i n).cap = m.cap := rfl
@[simp] theorem Mach.advance_dec (m : Mach) (f : Field) (i n : Nat) : (m.advance f i n).dec = m.dec := rfl
@[simp] theorem Mach.advance_enc (m : Mach) (f : Field) (i n : Nat) : (m.advance f i n).enc = m.enc := rfl
@[simp] theorem Mach.advance_cmp (m : Mach) (f : Field) (i n : Nat) : (m.advance f i n).cmp = m.cmp := rfl
@[simp] theorem Mach.advance_lut (m : Mach) (f : Field) (i n : Nat) : (m.advance f i n).lut = m.lut := rfl
@[simp] theorem Mach.advance_sig (m : Mach) (f : Field) (i n : Nat) : (m.advance f i n).sig = m.sig := rfl
@[simp] theorem Mach.advance_scn (m : Mach) (f : Field) (i n : Nat) : (m.advance f i n).scn = m.scn := rfl
@[simp] theorem Mach.advance_tch (m : Mach) (f : Field) (i n : Nat) : (m.advance f i n).tch = m.tch := rfl
@[simp] theorem Mach.advance_evc (m : Mach) (f : Field) (i n : Nat) : (m.advance f i n).evc = m.evc := rfl
@[simp] theorem Mach.advance_pmc (m : Mach) (f : Field) (i n : Nat) : (m.advance f i n).pmc = m.pmc := rfl
@[simp] theorem Mach.advance_gate (m : Mach) (f : Field) (i n : Nat) : (m.advance f i n).gate = m.gate := rfl
@[simp] theorem Mach.advance_cfg (m : Mach) (f : Field) (i n : Nat) : (m.advance f i n).cfg = m.cfg := rfl
@[simp] theorem Mach.advance_chk (m : Mach) (f : Field) (i n : Nat) : (m.advance f i n).chk = m.chk := rfl
@[simp] theorem Mach.advance_sys (m : Mach) (f : Field) (i n : Nat) : (m.advance f i n).sys = m.sys := rfl
@[simp] theorem Mach.advance_pwr (m : Mach) (f : Field) (i n : Nat) : (m.advance f i n).pwr = m.pwr := rfl
@[simp] theorem Mach.advance_tst (m : Mach) (f : Field) (i n : Nat) : (m.advance f i n).tst = m.tst := rfl

@[simp] theorem Mach.setBitOf_raw (m : Mach) (r : Reg) (n : Nat) : (m.setBitOf r n).raw = m.raw := rfl
@[simp] theorem Mach.setBitOf_freeIdx (m : Mach) (r : Reg) (n : Nat) : (m.setBitOf r n).freeIdx = m.freeIdx := rfl
@[simp] theorem Mach.setBitOf_out (m : Mach) (r : Reg) (n : Nat) : (m.setBitOf r n).out = m.out := rfl
@[simp] theorem Mach.setBitOf_limited (m : Mach) (r : Reg) (n : Nat) : (m.setBitOf r n).limited = m.limited := rfl
@[simp] theorem Mach.setBitOf_latches (m : Mach) (r : Reg) (n : Nat) : (m.setBitOf r n).latches = m.latches := rfl
@[simp] theorem Mach.setBitOf_time (m : Mach) (r : Reg) (n : Nat) : (m.setBitOf r n).time = m.time := rfl
@[simp] theorem Mach.setBitOf_fab (m : Mach) (r : Reg) (n : Nat) : (m.setBitOf r n).fab = m.fab := rfl
@[simp] theorem Mach.setBitOf_eth (m : Mach) (r : Reg) (n : Nat) : (m.setBitOf r n).eth = m.eth := rfl
@[simp] theorem Mach.setBitOf_cap (m : Mach) (r : Reg) (n : Nat) : (m.setBitOf r n).cap = m.cap := rfl
@[simp] theorem Mach.setBitOf_dec (m : Mach) (r : Reg) (n : Nat) : (m.setBitOf r n).dec = m.dec := rfl
@[simp] theorem Mach.setBitOf_enc (m : Mach) (r : Reg) (n : Nat) : (m.setBitOf r n).enc = m.enc := rfl
@[simp] theorem Mach.setBitOf_cmp (m : Mach) (r : Reg) (n : Nat) : (m.setBitOf r n).cmp = m.cmp := rfl
@[simp] theorem Mach.setBitOf_lut (m : Mach) (r : Reg) (n : Nat) : (m.setBitOf r n).lut = m.lut := rfl
@[simp] theorem Mach.setBitOf_sig (m : Mach) (r : Reg) (n : Nat) : (m.setBitOf r n).sig = m.sig := rfl
@[simp] theorem Mach.setBitOf_scn (m : Mach) (r : Reg) (n : Nat) : (m.setBitOf r n).scn = m.scn := rfl
@[simp] theorem Mach.setBitOf_tch (m : Mach) (r : Reg) (n : Nat) : (m.setBitOf r n).tch = m.tch := rfl
@[simp] theorem Mach.setBitOf_evc (m : Mach) (r : Reg) (n : Nat) : (m.setBitOf r n).evc = m.evc := rfl
@[simp] theorem Mach.setBitOf_pmc (m : Mach) (r : Reg) (n : Nat) : (m.setBitOf r n).pmc = m.pmc := rfl
@[simp] theorem Mach.setBitOf_gate (m : Mach) (r : Reg) (n : Nat) : (m.setBitOf r n).gate = m.gate := rfl
@[simp] theorem Mach.setBitOf_cfg (m : Mach) (r : Reg) (n : Nat) : (m.setBitOf r n).cfg = m.cfg := rfl
@[simp] theorem Mach.setBitOf_chk (m : Mach) (r : Reg) (n : Nat) : (m.setBitOf r n).chk = m.chk := rfl
@[simp] theorem Mach.setBitOf_sys (m : Mach) (r : Reg) (n : Nat) : (m.setBitOf r n).sys = m.sys := rfl
@[simp] theorem Mach.setBitOf_pwr (m : Mach) (r : Reg) (n : Nat) : (m.setBitOf r n).pwr = m.pwr := rfl
@[simp] theorem Mach.setBitOf_tst (m : Mach) (r : Reg) (n : Nat) : (m.setBitOf r n).tst = m.tst := rfl

@[simp] theorem Mach.clearBitOf_raw (m : Mach) (r : Reg) (n : Nat) : (m.clearBitOf r n).raw = m.raw := rfl
@[simp] theorem Mach.clearBitOf_freeIdx (m : Mach) (r : Reg) (n : Nat) : (m.clearBitOf r n).freeIdx = m.freeIdx := rfl
@[simp] theorem Mach.clearBitOf_out (m : Mach) (r : Reg) (n : Nat) : (m.clearBitOf r n).out = m.out := rfl
@[simp] theorem Mach.clearBitOf_limited (m : Mach) (r : Reg) (n : Nat) : (m.clearBitOf r n).limited = m.limited := rfl
@[simp] theorem Mach.clearBitOf_latches (m : Mach) (r : Reg) (n : Nat) : (m.clearBitOf r n).latches = m.latches := rfl
@[simp] theorem Mach.clearBitOf_time (m : Mach) (r : Reg) (n : Nat) : (m.clearBitOf r n).time = m.time := rfl
@[simp] theorem Mach.clearBitOf_fab (m : Mach) (r : Reg) (n : Nat) : (m.clearBitOf r n).fab = m.fab := rfl
@[simp] theorem Mach.clearBitOf_eth (m : Mach) (r : Reg) (n : Nat) : (m.clearBitOf r n).eth = m.eth := rfl
@[simp] theorem Mach.clearBitOf_cap (m : Mach) (r : Reg) (n : Nat) : (m.clearBitOf r n).cap = m.cap := rfl
@[simp] theorem Mach.clearBitOf_dec (m : Mach) (r : Reg) (n : Nat) : (m.clearBitOf r n).dec = m.dec := rfl
@[simp] theorem Mach.clearBitOf_enc (m : Mach) (r : Reg) (n : Nat) : (m.clearBitOf r n).enc = m.enc := rfl
@[simp] theorem Mach.clearBitOf_cmp (m : Mach) (r : Reg) (n : Nat) : (m.clearBitOf r n).cmp = m.cmp := rfl
@[simp] theorem Mach.clearBitOf_lut (m : Mach) (r : Reg) (n : Nat) : (m.clearBitOf r n).lut = m.lut := rfl
@[simp] theorem Mach.clearBitOf_sig (m : Mach) (r : Reg) (n : Nat) : (m.clearBitOf r n).sig = m.sig := rfl
@[simp] theorem Mach.clearBitOf_scn (m : Mach) (r : Reg) (n : Nat) : (m.clearBitOf r n).scn = m.scn := rfl
@[simp] theorem Mach.clearBitOf_tch (m : Mach) (r : Reg) (n : Nat) : (m.clearBitOf r n).tch = m.tch := rfl
@[simp] theorem Mach.clearBitOf_evc (m : Mach) (r : Reg) (n : Nat) : (m.clearBitOf r n).evc = m.evc := rfl
@[simp] theorem Mach.clearBitOf_pmc (m : Mach) (r : Reg) (n : Nat) : (m.clearBitOf r n).pmc = m.pmc := rfl
@[simp] theorem Mach.clearBitOf_gate (m : Mach) (r : Reg) (n : Nat) : (m.clearBitOf r n).gate = m.gate := rfl
@[simp] theorem Mach.clearBitOf_cfg (m : Mach) (r : Reg) (n : Nat) : (m.clearBitOf r n).cfg = m.cfg := rfl
@[simp] theorem Mach.clearBitOf_chk (m : Mach) (r : Reg) (n : Nat) : (m.clearBitOf r n).chk = m.chk := rfl
@[simp] theorem Mach.clearBitOf_sys (m : Mach) (r : Reg) (n : Nat) : (m.clearBitOf r n).sys = m.sys := rfl
@[simp] theorem Mach.clearBitOf_pwr (m : Mach) (r : Reg) (n : Nat) : (m.clearBitOf r n).pwr = m.pwr := rfl
@[simp] theorem Mach.clearBitOf_tst (m : Mach) (r : Reg) (n : Nat) : (m.clearBitOf r n).tst = m.tst := rfl

@[simp] theorem Mach.setRegBit_raw (m : Mach) (r : Reg) (i b : Nat) : (m.setRegBit r i b).raw = m.raw := rfl
@[simp] theorem Mach.setRegBit_freeIdx (m : Mach) (r : Reg) (i b : Nat) : (m.setRegBit r i b).freeIdx = m.freeIdx := rfl
@[simp] theorem Mach.setRegBit_out (m : Mach) (r : Reg) (i b : Nat) : (m.setRegBit r i b).out = m.out := rfl
@[simp] theorem Mach.setRegBit_limited (m : Mach) (r : Reg) (i b : Nat) : (m.setRegBit r i b).limited = m.limited := rfl
@[simp] theorem Mach.setRegBit_latches (m : Mach) (r : Reg) (i b : Nat) : (m.setRegBit r i b).latches = m.latches := rfl
@[simp] theorem Mach.setRegBit_time (m : Mach) (r : Reg) (i b : Nat) : (m.setRegBit r i b).time = m.time := rfl
@[simp] theorem Mach.setRegBit_fab (m : Mach) (r : Reg) (i b : Nat) : (m.setRegBit r i b).fab = m.fab := rfl
@[simp] theorem Mach.setRegBit_eth (m : Mach) (r : Reg) (i b : Nat) : (m.setRegBit r i b).eth = m.eth := rfl
@[simp] theorem Mach.setRegBit_cap (m : Mach) (r : Reg) (i b : Nat) : (m.setRegBit r i b).cap = m.cap := rfl
@[simp] theorem Mach.setRegBit_dec (m : Mach) (r : Reg) (i b : Nat) : (m.setRegBit r i b).dec = m.dec := rfl
@[simp] theorem Mach.setRegBit_enc (m : Mach) (r : Reg) (i b : Nat) : (m.setRegBit r i b).enc = m.enc := rfl
@[simp] theorem Mach.setRegBit_cmp (m : Mach) (r : Reg) (i b : Nat) : (m.setRegBit r i b).cmp = m.cmp := rfl
@[simp] theorem Mach.setRegBit_lut (m : Mach) (r : Reg) (i b : Nat) : (m.setRegBit r i b).lut = m.lut := rfl
@[simp] theorem Mach.setRegBit_sig (m : Mach) (r : Reg) (i b : Nat) : (m.setRegBit r i b).sig = m.sig := rfl
@[simp] theorem Mach.setRegBit_scn (m : Mach) (r : Reg) (i b : Nat) : (m.setRegBit r i b).scn = m.scn := rfl
@[simp] theorem Mach.setRegBit_tch (m : Mach) (r : Reg) (i b : Nat) : (m.setRegBit r i b).tch = m.tch := rfl
@[simp] theorem Mach.setRegBit_evc (m : Mach) (r : Reg) (i b : Nat) : (m.setRegBit r i b).evc = m.evc := rfl
@[simp] theorem Mach.setRegBit_pmc (m : Mach) (r : Reg) (i b : Nat) : (m.setRegBit r i b).pmc = m.pmc := rfl
@[simp] theorem Mach.setRegBit_gate (m : Mach) (r : Reg) (i b : Nat) : (m.setRegBit r i b).gate = m.gate := rfl
@[simp] theorem Mach.setRegBit_cfg (m : Mach) (r : Reg) (i b : Nat) : (m.setRegBit r i b).cfg = m.cfg := rfl
@[simp] theorem Mach.setRegBit_chk (m : Mach) (r : Reg) (i b : Nat) : (m.setRegBit r i b).chk = m.chk := rfl
@[simp] theorem Mach.setRegBit_sys (m : Mach) (r : Reg) (i b : Nat) : (m.setRegBit r i b).sys = m.sys := rfl
@[simp] theorem Mach.setRegBit_pwr (m : Mach) (r : Reg) (i b : Nat) : (m.setRegBit r i b).pwr = m.pwr := rfl
@[simp] theorem Mach.setRegBit_tst (m : Mach) (r : Reg) (i b : Nat) : (m.setRegBit r i b).tst = m.tst := rfl

/-! ### Updates of one field -/

@[simp] theorem Mach.emit_regs (m : Mach) (o : Out) : (m.emit o).regs = m.regs := rfl
@[simp] theorem Mach.emit_raw (m : Mach) (o : Out) : (m.emit o).raw = m.raw := rfl
@[simp] theorem Mach.emit_freeIdx (m : Mach) (o : Out) : (m.emit o).freeIdx = m.freeIdx := rfl
@[simp] theorem Mach.emit_out (m : Mach) (o : Out) : (m.emit o).out = o :: m.out := rfl
@[simp] theorem Mach.emit_limited (m : Mach) (o : Out) : (m.emit o).limited = m.limited := rfl
@[simp] theorem Mach.emit_latches (m : Mach) (o : Out) : (m.emit o).latches = m.latches := rfl
@[simp] theorem Mach.emit_time (m : Mach) (o : Out) : (m.emit o).time = m.time := rfl
@[simp] theorem Mach.emit_fab (m : Mach) (o : Out) : (m.emit o).fab = m.fab := rfl
@[simp] theorem Mach.emit_eth (m : Mach) (o : Out) : (m.emit o).eth = m.eth := rfl
@[simp] theorem Mach.emit_cap (m : Mach) (o : Out) : (m.emit o).cap = m.cap := rfl
@[simp] theorem Mach.emit_dec (m : Mach) (o : Out) : (m.emit o).dec = m.dec := rfl
@[simp] theorem Mach.emit_enc (m : Mach) (o : Out) : (m.emit o).enc = m.enc := rfl
@[simp] theorem Mach.emit_cmp (m : Mach) (o : Out) : (m.emit o).cmp = m.cmp := rfl
@[simp] theorem Mach.emit_lut (m : Mach) (o : Out) : (m.emit o).lut = m.lut := rfl
@[simp] theorem Mach.emit_sig (m : Mach) (o : Out) : (m.emit o).sig = m.sig := rfl
@[simp] theorem Mach.emit_scn (m : Mach) (o : Out) : (m.emit o).scn = m.scn := rfl
@[simp] theorem Mach.emit_tch (m : Mach) (o : Out) : (m.emit o).tch = m.tch := rfl
@[simp] theorem Mach.emit_evc (m : Mach) (o : Out) : (m.emit o).evc = m.evc := rfl
@[simp] theorem Mach.emit_pmc (m : Mach) (o : Out) : (m.emit o).pmc = m.pmc := rfl
@[simp] theorem Mach.emit_gate (m : Mach) (o : Out) : (m.emit o).gate = m.gate := rfl
@[simp] theorem Mach.emit_cfg (m : Mach) (o : Out) : (m.emit o).cfg = m.cfg := rfl
@[simp] theorem Mach.emit_chk (m : Mach) (o : Out) : (m.emit o).chk = m.chk := rfl
@[simp] theorem Mach.emit_sys (m : Mach) (o : Out) : (m.emit o).sys = m.sys := rfl
@[simp] theorem Mach.emit_pwr (m : Mach) (o : Out) : (m.emit o).pwr = m.pwr := rfl
@[simp] theorem Mach.emit_tst (m : Mach) (o : Out) : (m.emit o).tst = m.tst := rfl
@[simp] theorem Mach.emit_rd (m : Mach) (o : Out) (r : Reg) (j : Nat) : (m.emit o).rd r j = m.rd r j := rfl
@[simp] theorem Mach.emit_get (m : Mach) (o : Out) (g : Field) (j : Nat) : (m.emit o).get g j = m.get g j := rfl
@[simp] theorem Mach.emit_mode (m : Mach) (o : Out) : (m.emit o).mode = m.mode := rfl

@[simp] theorem Mach.markNow_regs (m : Mach) (n : Nat) : (m.markNow n).regs = m.regs := rfl
@[simp] theorem Mach.markNow_raw (m : Mach) (n : Nat) : (m.markNow n).raw = m.raw := rfl
@[simp] theorem Mach.markNow_freeIdx (m : Mach) (n : Nat) : (m.markNow n).freeIdx = m.freeIdx := rfl
@[simp] theorem Mach.markNow_out (m : Mach) (n : Nat) : (m.markNow n).out = m.out := rfl
@[simp] theorem Mach.markNow_limited (m : Mach) (n : Nat) : (m.markNow n).limited = tIns m.limited n m.raw := rfl
@[simp] theorem Mach.markNow_latches (m : Mach) (n : Nat) : (m.markNow n).latches = m.latches := rfl
@[simp] theorem Mach.markNow_time (m : Mach) (n : Nat) : (m.markNow n).time = m.time := rfl
@[simp] theorem Mach.markNow_fab (m : Mach) (n : Nat) : (m.markNow n).fab = m.fab := rfl
@[simp] theorem Mach.markNow_eth (m : Mach) (n : Nat) : (m.markNow n).eth = m.eth := rfl
@[simp] theorem Mach.markNow_cap (m : Mach) (n : Nat) : (m.markNow n).cap = m.cap := rfl
@[simp] theorem Mach.markNow_dec (m : Mach) (n : Nat) : (m.markNow n).dec = m.dec := rfl
@[simp] theorem Mach.markNow_enc (m : Mach) (n : Nat) : (m.markNow n).enc = m.enc := rfl
@[simp] theorem Mach.markNow_cmp (m : Mach) (n : Nat) : (m.markNow n).cmp = m.cmp := rfl
@[simp] theorem Mach.markNow_lut (m : Mach) (n : Nat) : (m.markNow n).lut = m.lut := rfl
@[simp] theorem Mach.markNow_sig (m : Mach) (n : Nat) : (m.markNow n).sig = m.sig := rfl
@[simp] theorem Mach.markNow_scn (m : Mach) (n : Nat) : (m.markNow n).scn = m.scn := rfl
@[simp] theorem Mach.markNow_tch (m : Mach) (n : Nat) : (m.markNow n).tch = m.tch := rfl
@[simp] theorem Mach.markNow_evc (m : Mach) (n : Nat) : (m.markNow n).evc = m.evc := rfl
@[simp] theorem Mach.markNow_pmc (m : Mach) (n : Nat) : (m.markNow n).pmc = m.pmc := rfl
@[simp] theorem Mach.markNow_gate (m : Mach) (n : Nat) : (m.markNow n).gate = m.gate := rfl
@[simp] theorem Mach.markNow_cfg (m : Mach) (n : Nat) : (m.markNow n).cfg = m.cfg := rfl
@[simp] theorem Mach.markNow_chk (m : Mach) (n : Nat) : (m.markNow n).chk = m.chk := rfl
@[simp] theorem Mach.markNow_sys (m : Mach) (n : Nat) : (m.markNow n).sys = m.sys := rfl
@[simp] theorem Mach.markNow_pwr (m : Mach) (n : Nat) : (m.markNow n).pwr = m.pwr := rfl
@[simp] theorem Mach.markNow_tst (m : Mach) (n : Nat) : (m.markNow n).tst = m.tst := rfl
@[simp] theorem Mach.markNow_rd (m : Mach) (n : Nat) (r : Reg) (j : Nat) : (m.markNow n).rd r j = m.rd r j := rfl
@[simp] theorem Mach.markNow_get (m : Mach) (n : Nat) (g : Field) (j : Nat) : (m.markNow n).get g j = m.get g j := rfl
@[simp] theorem Mach.markNow_mode (m : Mach) (n : Nat) : (m.markNow n).mode = m.mode := rfl

@[simp] theorem Mach.setSys_regs (m : Mach) (x : SysSt) : (m.setSys x).regs = m.regs := rfl
@[simp] theorem Mach.setSys_raw (m : Mach) (x : SysSt) : (m.setSys x).raw = m.raw := rfl
@[simp] theorem Mach.setSys_freeIdx (m : Mach) (x : SysSt) : (m.setSys x).freeIdx = m.freeIdx := rfl
@[simp] theorem Mach.setSys_out (m : Mach) (x : SysSt) : (m.setSys x).out = m.out := rfl
@[simp] theorem Mach.setSys_limited (m : Mach) (x : SysSt) : (m.setSys x).limited = m.limited := rfl
@[simp] theorem Mach.setSys_latches (m : Mach) (x : SysSt) : (m.setSys x).latches = m.latches := rfl
@[simp] theorem Mach.setSys_time (m : Mach) (x : SysSt) : (m.setSys x).time = m.time := rfl
@[simp] theorem Mach.setSys_fab (m : Mach) (x : SysSt) : (m.setSys x).fab = m.fab := rfl
@[simp] theorem Mach.setSys_eth (m : Mach) (x : SysSt) : (m.setSys x).eth = m.eth := rfl
@[simp] theorem Mach.setSys_cap (m : Mach) (x : SysSt) : (m.setSys x).cap = m.cap := rfl
@[simp] theorem Mach.setSys_dec (m : Mach) (x : SysSt) : (m.setSys x).dec = m.dec := rfl
@[simp] theorem Mach.setSys_enc (m : Mach) (x : SysSt) : (m.setSys x).enc = m.enc := rfl
@[simp] theorem Mach.setSys_cmp (m : Mach) (x : SysSt) : (m.setSys x).cmp = m.cmp := rfl
@[simp] theorem Mach.setSys_lut (m : Mach) (x : SysSt) : (m.setSys x).lut = m.lut := rfl
@[simp] theorem Mach.setSys_sig (m : Mach) (x : SysSt) : (m.setSys x).sig = m.sig := rfl
@[simp] theorem Mach.setSys_scn (m : Mach) (x : SysSt) : (m.setSys x).scn = m.scn := rfl
@[simp] theorem Mach.setSys_tch (m : Mach) (x : SysSt) : (m.setSys x).tch = m.tch := rfl
@[simp] theorem Mach.setSys_evc (m : Mach) (x : SysSt) : (m.setSys x).evc = m.evc := rfl
@[simp] theorem Mach.setSys_pmc (m : Mach) (x : SysSt) : (m.setSys x).pmc = m.pmc := rfl
@[simp] theorem Mach.setSys_gate (m : Mach) (x : SysSt) : (m.setSys x).gate = m.gate := rfl
@[simp] theorem Mach.setSys_cfg (m : Mach) (x : SysSt) : (m.setSys x).cfg = m.cfg := rfl
@[simp] theorem Mach.setSys_chk (m : Mach) (x : SysSt) : (m.setSys x).chk = m.chk := rfl
@[simp] theorem Mach.setSys_sys (m : Mach) (x : SysSt) : (m.setSys x).sys = x := rfl
@[simp] theorem Mach.setSys_pwr (m : Mach) (x : SysSt) : (m.setSys x).pwr = m.pwr := rfl
@[simp] theorem Mach.setSys_tst (m : Mach) (x : SysSt) : (m.setSys x).tst = m.tst := rfl
@[simp] theorem Mach.setSys_rd (m : Mach) (x : SysSt) (r : Reg) (j : Nat) : (m.setSys x).rd r j = m.rd r j := rfl
@[simp] theorem Mach.setSys_get (m : Mach) (x : SysSt) (g : Field) (j : Nat) : (m.setSys x).get g j = m.get g j := rfl
@[simp] theorem Mach.setSys_mode (m : Mach) (x : SysSt) : (m.setSys x).mode = m.mode := rfl

@[simp] theorem Mach.setPwr_regs (m : Mach) (x : PwrSt) : (m.setPwr x).regs = m.regs := rfl
@[simp] theorem Mach.setPwr_raw (m : Mach) (x : PwrSt) : (m.setPwr x).raw = m.raw := rfl
@[simp] theorem Mach.setPwr_freeIdx (m : Mach) (x : PwrSt) : (m.setPwr x).freeIdx = m.freeIdx := rfl
@[simp] theorem Mach.setPwr_out (m : Mach) (x : PwrSt) : (m.setPwr x).out = m.out := rfl
@[simp] theorem Mach.setPwr_limited (m : Mach) (x : PwrSt) : (m.setPwr x).limited = m.limited := rfl
@[simp] theorem Mach.setPwr_latches (m : Mach) (x : PwrSt) : (m.setPwr x).latches = m.latches := rfl
@[simp] theorem Mach.setPwr_time (m : Mach) (x : PwrSt) : (m.setPwr x).time = m.time := rfl
@[simp] theorem Mach.setPwr_fab (m : Mach) (x : PwrSt) : (m.setPwr x).fab = m.fab := rfl
@[simp] theorem Mach.setPwr_eth (m : Mach) (x : PwrSt) : (m.setPwr x).eth = m.eth := rfl
@[simp] theorem Mach.setPwr_cap (m : Mach) (x : PwrSt) : (m.setPwr x).cap = m.cap := rfl
@[simp] theorem Mach.setPwr_dec (m : Mach) (x : PwrSt) : (m.setPwr x).dec = m.dec := rfl
@[simp] theorem Mach.setPwr_enc (m : Mach) (x : PwrSt) : (m.setPwr x).enc = m.enc := rfl
@[simp] theorem Mach.setPwr_cmp (m : Mach) (x : PwrSt) : (m.setPwr x).cmp = m.cmp := rfl
@[simp] theorem Mach.setPwr_lut (m : Mach) (x : PwrSt) : (m.setPwr x).lut = m.lut := rfl
@[simp] theorem Mach.setPwr_sig (m : Mach) (x : PwrSt) : (m.setPwr x).sig = m.sig := rfl
@[simp] theorem Mach.setPwr_scn (m : Mach) (x : PwrSt) : (m.setPwr x).scn = m.scn := rfl
@[simp] theorem Mach.setPwr_tch (m : Mach) (x : PwrSt) : (m.setPwr x).tch = m.tch := rfl
@[simp] theorem Mach.setPwr_evc (m : Mach) (x : PwrSt) : (m.setPwr x).evc = m.evc := rfl
@[simp] theorem Mach.setPwr_pmc (m : Mach) (x : PwrSt) : (m.setPwr x).pmc = m.pmc := rfl
@[simp] theorem Mach.setPwr_gate (m : Mach) (x : PwrSt) : (m.setPwr x).gate = m.gate := rfl
@[simp] theorem Mach.setPwr_cfg (m : Mach) (x : PwrSt) : (m.setPwr x).cfg = m.cfg := rfl
@[simp] theorem Mach.setPwr_chk (m : Mach) (x : PwrSt) : (m.setPwr x).chk = m.chk := rfl
@[simp] theorem Mach.setPwr_sys (m : Mach) (x : PwrSt) : (m.setPwr x).sys = m.sys := rfl
@[simp] theorem Mach.setPwr_pwr (m : Mach) (x : PwrSt) : (m.setPwr x).pwr = x := rfl
@[simp] theorem Mach.setPwr_tst (m : Mach) (x : PwrSt) : (m.setPwr x).tst = m.tst := rfl
@[simp] theorem Mach.setPwr_rd (m : Mach) (x : PwrSt) (r : Reg) (j : Nat) : (m.setPwr x).rd r j = m.rd r j := rfl
@[simp] theorem Mach.setPwr_get (m : Mach) (x : PwrSt) (g : Field) (j : Nat) : (m.setPwr x).get g j = m.get g j := rfl
@[simp] theorem Mach.setPwr_mode (m : Mach) (x : PwrSt) : (m.setPwr x).mode = m.mode := rfl

@[simp] theorem Mach.setEvc_regs (m : Mach) (x : EvcSt) : (m.setEvc x).regs = m.regs := rfl
@[simp] theorem Mach.setEvc_raw (m : Mach) (x : EvcSt) : (m.setEvc x).raw = m.raw := rfl
@[simp] theorem Mach.setEvc_freeIdx (m : Mach) (x : EvcSt) : (m.setEvc x).freeIdx = m.freeIdx := rfl
@[simp] theorem Mach.setEvc_out (m : Mach) (x : EvcSt) : (m.setEvc x).out = m.out := rfl
@[simp] theorem Mach.setEvc_limited (m : Mach) (x : EvcSt) : (m.setEvc x).limited = m.limited := rfl
@[simp] theorem Mach.setEvc_latches (m : Mach) (x : EvcSt) : (m.setEvc x).latches = m.latches := rfl
@[simp] theorem Mach.setEvc_time (m : Mach) (x : EvcSt) : (m.setEvc x).time = m.time := rfl
@[simp] theorem Mach.setEvc_fab (m : Mach) (x : EvcSt) : (m.setEvc x).fab = m.fab := rfl
@[simp] theorem Mach.setEvc_eth (m : Mach) (x : EvcSt) : (m.setEvc x).eth = m.eth := rfl
@[simp] theorem Mach.setEvc_cap (m : Mach) (x : EvcSt) : (m.setEvc x).cap = m.cap := rfl
@[simp] theorem Mach.setEvc_dec (m : Mach) (x : EvcSt) : (m.setEvc x).dec = m.dec := rfl
@[simp] theorem Mach.setEvc_enc (m : Mach) (x : EvcSt) : (m.setEvc x).enc = m.enc := rfl
@[simp] theorem Mach.setEvc_cmp (m : Mach) (x : EvcSt) : (m.setEvc x).cmp = m.cmp := rfl
@[simp] theorem Mach.setEvc_lut (m : Mach) (x : EvcSt) : (m.setEvc x).lut = m.lut := rfl
@[simp] theorem Mach.setEvc_sig (m : Mach) (x : EvcSt) : (m.setEvc x).sig = m.sig := rfl
@[simp] theorem Mach.setEvc_scn (m : Mach) (x : EvcSt) : (m.setEvc x).scn = m.scn := rfl
@[simp] theorem Mach.setEvc_tch (m : Mach) (x : EvcSt) : (m.setEvc x).tch = m.tch := rfl
@[simp] theorem Mach.setEvc_evc (m : Mach) (x : EvcSt) : (m.setEvc x).evc = x := rfl
@[simp] theorem Mach.setEvc_pmc (m : Mach) (x : EvcSt) : (m.setEvc x).pmc = m.pmc := rfl
@[simp] theorem Mach.setEvc_gate (m : Mach) (x : EvcSt) : (m.setEvc x).gate = m.gate := rfl
@[simp] theorem Mach.setEvc_cfg (m : Mach) (x : EvcSt) : (m.setEvc x).cfg = m.cfg := rfl
@[simp] theorem Mach.setEvc_chk (m : Mach) (x : EvcSt) : (m.setEvc x).chk = m.chk := rfl
@[simp] theorem Mach.setEvc_sys (m : Mach) (x : EvcSt) : (m.setEvc x).sys = m.sys := rfl
@[simp] theorem Mach.setEvc_pwr (m : Mach) (x : EvcSt) : (m.setEvc x).pwr = m.pwr := rfl
@[simp] theorem Mach.setEvc_tst (m : Mach) (x : EvcSt) : (m.setEvc x).tst = m.tst := rfl
@[simp] theorem Mach.setEvc_rd (m : Mach) (x : EvcSt) (r : Reg) (j : Nat) : (m.setEvc x).rd r j = m.rd r j := rfl
@[simp] theorem Mach.setEvc_get (m : Mach) (x : EvcSt) (g : Field) (j : Nat) : (m.setEvc x).get g j = m.get g j := rfl
@[simp] theorem Mach.setEvc_mode (m : Mach) (x : EvcSt) : (m.setEvc x).mode = m.mode := rfl

@[simp] theorem Mach.setChk_regs (m : Mach) (x : ChkSt) : (m.setChk x).regs = m.regs := rfl
@[simp] theorem Mach.setChk_raw (m : Mach) (x : ChkSt) : (m.setChk x).raw = m.raw := rfl
@[simp] theorem Mach.setChk_freeIdx (m : Mach) (x : ChkSt) : (m.setChk x).freeIdx = m.freeIdx := rfl
@[simp] theorem Mach.setChk_out (m : Mach) (x : ChkSt) : (m.setChk x).out = m.out := rfl
@[simp] theorem Mach.setChk_limited (m : Mach) (x : ChkSt) : (m.setChk x).limited = m.limited := rfl
@[simp] theorem Mach.setChk_latches (m : Mach) (x : ChkSt) : (m.setChk x).latches = m.latches := rfl
@[simp] theorem Mach.setChk_time (m : Mach) (x : ChkSt) : (m.setChk x).time = m.time := rfl
@[simp] theorem Mach.setChk_fab (m : Mach) (x : ChkSt) : (m.setChk x).fab = m.fab := rfl
@[simp] theorem Mach.setChk_eth (m : Mach) (x : ChkSt) : (m.setChk x).eth = m.eth := rfl
@[simp] theorem Mach.setChk_cap (m : Mach) (x : ChkSt) : (m.setChk x).cap = m.cap := rfl
@[simp] theorem Mach.setChk_dec (m : Mach) (x : ChkSt) : (m.setChk x).dec = m.dec := rfl
@[simp] theorem Mach.setChk_enc (m : Mach) (x : ChkSt) : (m.setChk x).enc = m.enc := rfl
@[simp] theorem Mach.setChk_cmp (m : Mach) (x : ChkSt) : (m.setChk x).cmp = m.cmp := rfl
@[simp] theorem Mach.setChk_lut (m : Mach) (x : ChkSt) : (m.setChk x).lut = m.lut := rfl
@[simp] theorem Mach.setChk_sig (m : Mach) (x : ChkSt) : (m.setChk x).sig = m.sig := rfl
@[simp] theorem Mach.setChk_scn (m : Mach) (x : ChkSt) : (m.setChk x).scn = m.scn := rfl
@[simp] theorem Mach.setChk_tch (m : Mach) (x : ChkSt) : (m.setChk x).tch = m.tch := rfl
@[simp] theorem Mach.setChk_evc (m : Mach) (x : ChkSt) : (m.setChk x).evc = m.evc := rfl
@[simp] theorem Mach.setChk_pmc (m : Mach) (x : ChkSt) : (m.setChk x).pmc = m.pmc := rfl
@[simp] theorem Mach.setChk_gate (m : Mach) (x : ChkSt) : (m.setChk x).gate = m.gate := rfl
@[simp] theorem Mach.setChk_cfg (m : Mach) (x : ChkSt) : (m.setChk x).cfg = m.cfg := rfl
@[simp] theorem Mach.setChk_chk (m : Mach) (x : ChkSt) : (m.setChk x).chk = x := rfl
@[simp] theorem Mach.setChk_sys (m : Mach) (x : ChkSt) : (m.setChk x).sys = m.sys := rfl
@[simp] theorem Mach.setChk_pwr (m : Mach) (x : ChkSt) : (m.setChk x).pwr = m.pwr := rfl
@[simp] theorem Mach.setChk_tst (m : Mach) (x : ChkSt) : (m.setChk x).tst = m.tst := rfl
@[simp] theorem Mach.setChk_rd (m : Mach) (x : ChkSt) (r : Reg) (j : Nat) : (m.setChk x).rd r j = m.rd r j := rfl
@[simp] theorem Mach.setChk_get (m : Mach) (x : ChkSt) (g : Field) (j : Nat) : (m.setChk x).get g j = m.get g j := rfl
@[simp] theorem Mach.setChk_mode (m : Mach) (x : ChkSt) : (m.setChk x).mode = m.mode := rfl

@[simp] theorem Mach.setTst_regs (m : Mach) (x : TstSt) : (m.setTst x).regs = m.regs := rfl
@[simp] theorem Mach.setTst_raw (m : Mach) (x : TstSt) : (m.setTst x).raw = m.raw := rfl
@[simp] theorem Mach.setTst_freeIdx (m : Mach) (x : TstSt) : (m.setTst x).freeIdx = m.freeIdx := rfl
@[simp] theorem Mach.setTst_out (m : Mach) (x : TstSt) : (m.setTst x).out = m.out := rfl
@[simp] theorem Mach.setTst_limited (m : Mach) (x : TstSt) : (m.setTst x).limited = m.limited := rfl
@[simp] theorem Mach.setTst_latches (m : Mach) (x : TstSt) : (m.setTst x).latches = m.latches := rfl
@[simp] theorem Mach.setTst_time (m : Mach) (x : TstSt) : (m.setTst x).time = m.time := rfl
@[simp] theorem Mach.setTst_fab (m : Mach) (x : TstSt) : (m.setTst x).fab = m.fab := rfl
@[simp] theorem Mach.setTst_eth (m : Mach) (x : TstSt) : (m.setTst x).eth = m.eth := rfl
@[simp] theorem Mach.setTst_cap (m : Mach) (x : TstSt) : (m.setTst x).cap = m.cap := rfl
@[simp] theorem Mach.setTst_dec (m : Mach) (x : TstSt) : (m.setTst x).dec = m.dec := rfl
@[simp] theorem Mach.setTst_enc (m : Mach) (x : TstSt) : (m.setTst x).enc = m.enc := rfl
@[simp] theorem Mach.setTst_cmp (m : Mach) (x : TstSt) : (m.setTst x).cmp = m.cmp := rfl
@[simp] theorem Mach.setTst_lut (m : Mach) (x : TstSt) : (m.setTst x).lut = m.lut := rfl
@[simp] theorem Mach.setTst_sig (m : Mach) (x : TstSt) : (m.setTst x).sig = m.sig := rfl
@[simp] theorem Mach.setTst_scn (m : Mach) (x : TstSt) : (m.setTst x).scn = m.scn := rfl
@[simp] theorem Mach.setTst_tch (m : Mach) (x : TstSt) : (m.setTst x).tch = m.tch := rfl
@[simp] theorem Mach.setTst_evc (m : Mach) (x : TstSt) : (m.setTst x).evc = m.evc := rfl
@[simp] theorem Mach.setTst_pmc (m : Mach) (x : TstSt) : (m.setTst x).pmc = m.pmc := rfl
@[simp] theorem Mach.setTst_gate (m : Mach) (x : TstSt) : (m.setTst x).gate = m.gate := rfl
@[simp] theorem Mach.setTst_cfg (m : Mach) (x : TstSt) : (m.setTst x).cfg = m.cfg := rfl
@[simp] theorem Mach.setTst_chk (m : Mach) (x : TstSt) : (m.setTst x).chk = m.chk := rfl
@[simp] theorem Mach.setTst_sys (m : Mach) (x : TstSt) : (m.setTst x).sys = m.sys := rfl
@[simp] theorem Mach.setTst_pwr (m : Mach) (x : TstSt) : (m.setTst x).pwr = m.pwr := rfl
@[simp] theorem Mach.setTst_tst (m : Mach) (x : TstSt) : (m.setTst x).tst = x := rfl
@[simp] theorem Mach.setTst_rd (m : Mach) (x : TstSt) (r : Reg) (j : Nat) : (m.setTst x).rd r j = m.rd r j := rfl
@[simp] theorem Mach.setTst_get (m : Mach) (x : TstSt) (g : Field) (j : Nat) : (m.setTst x).get g j = m.get g j := rfl
@[simp] theorem Mach.setTst_mode (m : Mach) (x : TstSt) : (m.setTst x).mode = m.mode := rfl

@[simp] theorem Mach.setCfg_regs (m : Mach) (x : CfgSt) : (m.setCfg x).regs = m.regs := rfl
@[simp] theorem Mach.setCfg_raw (m : Mach) (x : CfgSt) : (m.setCfg x).raw = m.raw := rfl
@[simp] theorem Mach.setCfg_freeIdx (m : Mach) (x : CfgSt) : (m.setCfg x).freeIdx = m.freeIdx := rfl
@[simp] theorem Mach.setCfg_out (m : Mach) (x : CfgSt) : (m.setCfg x).out = m.out := rfl
@[simp] theorem Mach.setCfg_limited (m : Mach) (x : CfgSt) : (m.setCfg x).limited = m.limited := rfl
@[simp] theorem Mach.setCfg_latches (m : Mach) (x : CfgSt) : (m.setCfg x).latches = m.latches := rfl
@[simp] theorem Mach.setCfg_time (m : Mach) (x : CfgSt) : (m.setCfg x).time = m.time := rfl
@[simp] theorem Mach.setCfg_fab (m : Mach) (x : CfgSt) : (m.setCfg x).fab = m.fab := rfl
@[simp] theorem Mach.setCfg_eth (m : Mach) (x : CfgSt) : (m.setCfg x).eth = m.eth := rfl
@[simp] theorem Mach.setCfg_cap (m : Mach) (x : CfgSt) : (m.setCfg x).cap = m.cap := rfl
@[simp] theorem Mach.setCfg_dec (m : Mach) (x : CfgSt) : (m.setCfg x).dec = m.dec := rfl
@[simp] theorem Mach.setCfg_enc (m : Mach) (x : CfgSt) : (m.setCfg x).enc = m.enc := rfl
@[simp] theorem Mach.setCfg_cmp (m : Mach) (x : CfgSt) : (m.setCfg x).cmp = m.cmp := rfl
@[simp] theorem Mach.setCfg_lut (m : Mach) (x : CfgSt) : (m.setCfg x).lut = m.lut := rfl
@[simp] theorem Mach.setCfg_sig (m : Mach) (x : CfgSt) : (m.setCfg x).sig = m.sig := rfl
@[simp] theorem Mach.setCfg_scn (m : Mach) (x : CfgSt) : (m.setCfg x).scn = m.scn := rfl
@[simp] theorem Mach.setCfg_tch (m : Mach) (x : CfgSt) : (m.setCfg x).tch = m.tch := rfl
@[simp] theorem Mach.setCfg_evc (m : Mach) (x : CfgSt) : (m.setCfg x).evc = m.evc := rfl
@[simp] theorem Mach.setCfg_pmc (m : Mach) (x : CfgSt) : (m.setCfg x).pmc = m.pmc := rfl
@[simp] theorem Mach.setCfg_gate (m : Mach) (x : CfgSt) : (m.setCfg x).gate = m.gate := rfl
@[simp] theorem Mach.setCfg_cfg (m : Mach) (x : CfgSt) : (m.setCfg x).cfg = x := rfl
@[simp] theorem Mach.setCfg_chk (m : Mach) (x : CfgSt) : (m.setCfg x).chk = m.chk := rfl
@[simp] theorem Mach.setCfg_sys (m : Mach) (x : CfgSt) : (m.setCfg x).sys = m.sys := rfl
@[simp] theorem Mach.setCfg_pwr (m : Mach) (x : CfgSt) : (m.setCfg x).pwr = m.pwr := rfl
@[simp] theorem Mach.setCfg_tst (m : Mach) (x : CfgSt) : (m.setCfg x).tst = m.tst := rfl
@[simp] theorem Mach.setCfg_rd (m : Mach) (x : CfgSt) (r : Reg) (j : Nat) : (m.setCfg x).rd r j = m.rd r j := rfl
@[simp] theorem Mach.setCfg_get (m : Mach) (x : CfgSt) (g : Field) (j : Nat) : (m.setCfg x).get g j = m.get g j := rfl
@[simp] theorem Mach.setCfg_mode (m : Mach) (x : CfgSt) : (m.setCfg x).mode = m.mode := rfl

@[simp] theorem Mach.setGate_regs (m : Mach) (x : GateSt) : (m.setGate x).regs = m.regs := rfl
@[simp] theorem Mach.setGate_raw (m : Mach) (x : GateSt) : (m.setGate x).raw = m.raw := rfl
@[simp] theorem Mach.setGate_freeIdx (m : Mach) (x : GateSt) : (m.setGate x).freeIdx = m.freeIdx := rfl
@[simp] theorem Mach.setGate_out (m : Mach) (x : GateSt) : (m.setGate x).out = m.out := rfl
@[simp] theorem Mach.setGate_limited (m : Mach) (x : GateSt) : (m.setGate x).limited = m.limited := rfl
@[simp] theorem Mach.setGate_latches (m : Mach) (x : GateSt) : (m.setGate x).latches = m.latches := rfl
@[simp] theorem Mach.setGate_time (m : Mach) (x : GateSt) : (m.setGate x).time = m.time := rfl
@[simp] theorem Mach.setGate_fab (m : Mach) (x : GateSt) : (m.setGate x).fab = m.fab := rfl
@[simp] theorem Mach.setGate_eth (m : Mach) (x : GateSt) : (m.setGate x).eth = m.eth := rfl
@[simp] theorem Mach.setGate_cap (m : Mach) (x : GateSt) : (m.setGate x).cap = m.cap := rfl
@[simp] theorem Mach.setGate_dec (m : Mach) (x : GateSt) : (m.setGate x).dec = m.dec := rfl
@[simp] theorem Mach.setGate_enc (m : Mach) (x : GateSt) : (m.setGate x).enc = m.enc := rfl
@[simp] theorem Mach.setGate_cmp (m : Mach) (x : GateSt) : (m.setGate x).cmp = m.cmp := rfl
@[simp] theorem Mach.setGate_lut (m : Mach) (x : GateSt) : (m.setGate x).lut = m.lut := rfl
@[simp] theorem Mach.setGate_sig (m : Mach) (x : GateSt) : (m.setGate x).sig = m.sig := rfl
@[simp] theorem Mach.setGate_scn (m : Mach) (x : GateSt) : (m.setGate x).scn = m.scn := rfl
@[simp] theorem Mach.setGate_tch (m : Mach) (x : GateSt) : (m.setGate x).tch = m.tch := rfl
@[simp] theorem Mach.setGate_evc (m : Mach) (x : GateSt) : (m.setGate x).evc = m.evc := rfl
@[simp] theorem Mach.setGate_pmc (m : Mach) (x : GateSt) : (m.setGate x).pmc = m.pmc := rfl
@[simp] theorem Mach.setGate_gate (m : Mach) (x : GateSt) : (m.setGate x).gate = x := rfl
@[simp] theorem Mach.setGate_cfg (m : Mach) (x : GateSt) : (m.setGate x).cfg = m.cfg := rfl
@[simp] theorem Mach.setGate_chk (m : Mach) (x : GateSt) : (m.setGate x).chk = m.chk := rfl
@[simp] theorem Mach.setGate_sys (m : Mach) (x : GateSt) : (m.setGate x).sys = m.sys := rfl
@[simp] theorem Mach.setGate_pwr (m : Mach) (x : GateSt) : (m.setGate x).pwr = m.pwr := rfl
@[simp] theorem Mach.setGate_tst (m : Mach) (x : GateSt) : (m.setGate x).tst = m.tst := rfl
@[simp] theorem Mach.setGate_rd (m : Mach) (x : GateSt) (r : Reg) (j : Nat) : (m.setGate x).rd r j = m.rd r j := rfl
@[simp] theorem Mach.setGate_get (m : Mach) (x : GateSt) (g : Field) (j : Nat) : (m.setGate x).get g j = m.get g j := rfl
@[simp] theorem Mach.setGate_mode (m : Mach) (x : GateSt) : (m.setGate x).mode = m.mode := rfl

@[simp] theorem Mach.setPmc_regs (m : Mach) (x : PmcSt) : (m.setPmc x).regs = m.regs := rfl
@[simp] theorem Mach.setPmc_raw (m : Mach) (x : PmcSt) : (m.setPmc x).raw = m.raw := rfl
@[simp] theorem Mach.setPmc_freeIdx (m : Mach) (x : PmcSt) : (m.setPmc x).freeIdx = m.freeIdx := rfl
@[simp] theorem Mach.setPmc_out (m : Mach) (x : PmcSt) : (m.setPmc x).out = m.out := rfl
@[simp] theorem Mach.setPmc_limited (m : Mach) (x : PmcSt) : (m.setPmc x).limited = m.limited := rfl
@[simp] theorem Mach.setPmc_latches (m : Mach) (x : PmcSt) : (m.setPmc x).latches = m.latches := rfl
@[simp] theorem Mach.setPmc_time (m : Mach) (x : PmcSt) : (m.setPmc x).time = m.time := rfl
@[simp] theorem Mach.setPmc_fab (m : Mach) (x : PmcSt) : (m.setPmc x).fab = m.fab := rfl
@[simp] theorem Mach.setPmc_eth (m : Mach) (x : PmcSt) : (m.setPmc x).eth = m.eth := rfl
@[simp] theorem Mach.setPmc_cap (m : Mach) (x : PmcSt) : (m.setPmc x).cap = m.cap := rfl
@[simp] theorem Mach.setPmc_dec (m : Mach) (x : PmcSt) : (m.setPmc x).dec = m.dec := rfl
@[simp] theorem Mach.setPmc_enc (m : Mach) (x : PmcSt) : (m.setPmc x).enc = m.enc := rfl
@[simp] theorem Mach.setPmc_cmp (m : Mach) (x : PmcSt) : (m.setPmc x).cmp = m.cmp := rfl
@[simp] theorem Mach.setPmc_lut (m : Mach) (x : PmcSt) : (m.setPmc x).lut = m.lut := rfl
@[simp] theorem Mach.setPmc_sig (m : Mach) (x : PmcSt) : (m.setPmc x).sig = m.sig := rfl
@[simp] theorem Mach.setPmc_scn (m : Mach) (x : PmcSt) : (m.setPmc x).scn = m.scn := rfl
@[simp] theorem Mach.setPmc_tch (m : Mach) (x : PmcSt) : (m.setPmc x).tch = m.tch := rfl
@[simp] theorem Mach.setPmc_evc (m : Mach) (x : PmcSt) : (m.setPmc x).evc = m.evc := rfl
@[simp] theorem Mach.setPmc_pmc (m : Mach) (x : PmcSt) : (m.setPmc x).pmc = x := rfl
@[simp] theorem Mach.setPmc_gate (m : Mach) (x : PmcSt) : (m.setPmc x).gate = m.gate := rfl
@[simp] theorem Mach.setPmc_cfg (m : Mach) (x : PmcSt) : (m.setPmc x).cfg = m.cfg := rfl
@[simp] theorem Mach.setPmc_chk (m : Mach) (x : PmcSt) : (m.setPmc x).chk = m.chk := rfl
@[simp] theorem Mach.setPmc_sys (m : Mach) (x : PmcSt) : (m.setPmc x).sys = m.sys := rfl
@[simp] theorem Mach.setPmc_pwr (m : Mach) (x : PmcSt) : (m.setPmc x).pwr = m.pwr := rfl
@[simp] theorem Mach.setPmc_tst (m : Mach) (x : PmcSt) : (m.setPmc x).tst = m.tst := rfl
@[simp] theorem Mach.setPmc_rd (m : Mach) (x : PmcSt) (r : Reg) (j : Nat) : (m.setPmc x).rd r j = m.rd r j := rfl
@[simp] theorem Mach.setPmc_get (m : Mach) (x : PmcSt) (g : Field) (j : Nat) : (m.setPmc x).get g j = m.get g j := rfl
@[simp] theorem Mach.setPmc_mode (m : Mach) (x : PmcSt) : (m.setPmc x).mode = m.mode := rfl

@[simp] theorem Mach.setScn_regs (m : Mach) (x : ScnSt) : (m.setScn x).regs = m.regs := rfl
@[simp] theorem Mach.setScn_raw (m : Mach) (x : ScnSt) : (m.setScn x).raw = m.raw := rfl
@[simp] theorem Mach.setScn_freeIdx (m : Mach) (x : ScnSt) : (m.setScn x).freeIdx = m.freeIdx := rfl
@[simp] theorem Mach.setScn_out (m : Mach) (x : ScnSt) : (m.setScn x).out = m.out := rfl
@[simp] theorem Mach.setScn_limited (m : Mach) (x : ScnSt) : (m.setScn x).limited = m.limited := rfl
@[simp] theorem Mach.setScn_latches (m : Mach) (x : ScnSt) : (m.setScn x).latches = m.latches := rfl
@[simp] theorem Mach.setScn_time (m : Mach) (x : ScnSt) : (m.setScn x).time = m.time := rfl
@[simp] theorem Mach.setScn_fab (m : Mach) (x : ScnSt) : (m.setScn x).fab = m.fab := rfl
@[simp] theorem Mach.setScn_eth (m : Mach) (x : ScnSt) : (m.setScn x).eth = m.eth := rfl
@[simp] theorem Mach.setScn_cap (m : Mach) (x : ScnSt) : (m.setScn x).cap = m.cap := rfl
@[simp] theorem Mach.setScn_dec (m : Mach) (x : ScnSt) : (m.setScn x).dec = m.dec := rfl
@[simp] theorem Mach.setScn_enc (m : Mach) (x : ScnSt) : (m.setScn x).enc = m.enc := rfl
@[simp] theorem Mach.setScn_cmp (m : Mach) (x : ScnSt) : (m.setScn x).cmp = m.cmp := rfl
@[simp] theorem Mach.setScn_lut (m : Mach) (x : ScnSt) : (m.setScn x).lut = m.lut := rfl
@[simp] theorem Mach.setScn_sig (m : Mach) (x : ScnSt) : (m.setScn x).sig = m.sig := rfl
@[simp] theorem Mach.setScn_scn (m : Mach) (x : ScnSt) : (m.setScn x).scn = x := rfl
@[simp] theorem Mach.setScn_tch (m : Mach) (x : ScnSt) : (m.setScn x).tch = m.tch := rfl
@[simp] theorem Mach.setScn_evc (m : Mach) (x : ScnSt) : (m.setScn x).evc = m.evc := rfl
@[simp] theorem Mach.setScn_pmc (m : Mach) (x : ScnSt) : (m.setScn x).pmc = m.pmc := rfl
@[simp] theorem Mach.setScn_gate (m : Mach) (x : ScnSt) : (m.setScn x).gate = m.gate := rfl
@[simp] theorem Mach.setScn_cfg (m : Mach) (x : ScnSt) : (m.setScn x).cfg = m.cfg := rfl
@[simp] theorem Mach.setScn_chk (m : Mach) (x : ScnSt) : (m.setScn x).chk = m.chk := rfl
@[simp] theorem Mach.setScn_sys (m : Mach) (x : ScnSt) : (m.setScn x).sys = m.sys := rfl
@[simp] theorem Mach.setScn_pwr (m : Mach) (x : ScnSt) : (m.setScn x).pwr = m.pwr := rfl
@[simp] theorem Mach.setScn_tst (m : Mach) (x : ScnSt) : (m.setScn x).tst = m.tst := rfl
@[simp] theorem Mach.setScn_rd (m : Mach) (x : ScnSt) (r : Reg) (j : Nat) : (m.setScn x).rd r j = m.rd r j := rfl
@[simp] theorem Mach.setScn_get (m : Mach) (x : ScnSt) (g : Field) (j : Nat) : (m.setScn x).get g j = m.get g j := rfl
@[simp] theorem Mach.setScn_mode (m : Mach) (x : ScnSt) : (m.setScn x).mode = m.mode := rfl

@[simp] theorem Mach.setEth_regs (m : Mach) (x : EthSt) : (m.setEth x).regs = m.regs := rfl
@[simp] theorem Mach.setEth_raw (m : Mach) (x : EthSt) : (m.setEth x).raw = m.raw := rfl
@[simp] theorem Mach.setEth_freeIdx (m : Mach) (x : EthSt) : (m.setEth x).freeIdx = m.freeIdx := rfl
@[simp] theorem Mach.setEth_out (m : Mach) (x : EthSt) : (m.setEth x).out = m.out := rfl
@[simp] theorem Mach.setEth_limited (m : Mach) (x : EthSt) : (m.setEth x).limited = m.limited := rfl
@[simp] theorem Mach.setEth_latches (m : Mach) (x : EthSt) : (m.setEth x).latches = m.latches := rfl
@[simp] theorem Mach.setEth_time (m : Mach) (x : EthSt) : (m.setEth x).time = m.time := rfl
@[simp] theorem Mach.setEth_fab (m : Mach) (x : EthSt) : (m.setEth x).fab = m.fab := rfl
@[simp] theorem Mach.setEth_eth (m : Mach) (x : EthSt) : (m.setEth x).eth = x := rfl
@[simp] theorem Mach.setEth_cap (m : Mach) (x : EthSt) : (m.setEth x).cap = m.cap := rfl
@[simp] theorem Mach.setEth_dec (m : Mach) (x : EthSt) : (m.setEth x).dec = m.dec := rfl
@[simp] theorem Mach.setEth_enc (m : Mach) (x : EthSt) : (m.setEth x).enc = m.enc := rfl
@[simp] theorem Mach.setEth_cmp (m : Mach) (x : EthSt) : (m.setEth x).cmp = m.cmp := rfl
@[simp] theorem Mach.setEth_lut (m : Mach) (x : EthSt) : (m.setEth x).lut = m.lut := rfl
@[simp] theorem Mach.setEth_sig (m : Mach) (x : EthSt) : (m.setEth x).sig = m.sig := rfl
@[simp] theorem Mach.setEth_scn (m : Mach) (x : EthSt) : (m.setEth x).scn = m.scn := rfl
@[simp] theorem Mach.setEth_tch (m : Mach) (x : EthSt) : (m.setEth x).tch = m.tch := rfl
@[simp] theorem Mach.setEth_evc (m : Mach) (x : EthSt) : (m.setEth x).evc = m.evc := rfl
@[simp] theorem Mach.setEth_pmc (m : Mach) (x : EthSt) : (m.setEth x).pmc = m.pmc := rfl
@[simp] theorem Mach.setEth_gate (m : Mach) (x : EthSt) : (m.setEth x).gate = m.gate := rfl
@[simp] theorem Mach.setEth_cfg (m : Mach) (x : EthSt) : (m.setEth x).cfg = m.cfg := rfl
@[simp] theorem Mach.setEth_chk (m : Mach) (x : EthSt) : (m.setEth x).chk = m.chk := rfl
@[simp] theorem Mach.setEth_sys (m : Mach) (x : EthSt) : (m.setEth x).sys = m.sys := rfl
@[simp] theorem Mach.setEth_pwr (m : Mach) (x : EthSt) : (m.setEth x).pwr = m.pwr := rfl
@[simp] theorem Mach.setEth_tst (m : Mach) (x : EthSt) : (m.setEth x).tst = m.tst := rfl
@[simp] theorem Mach.setEth_rd (m : Mach) (x : EthSt) (r : Reg) (j : Nat) : (m.setEth x).rd r j = m.rd r j := rfl
@[simp] theorem Mach.setEth_get (m : Mach) (x : EthSt) (g : Field) (j : Nat) : (m.setEth x).get g j = m.get g j := rfl
@[simp] theorem Mach.setEth_mode (m : Mach) (x : EthSt) : (m.setEth x).mode = m.mode := rfl

@[simp] theorem Mach.setFab_regs (m : Mach) (x : FabSt) : (m.setFab x).regs = m.regs := rfl
@[simp] theorem Mach.setFab_raw (m : Mach) (x : FabSt) : (m.setFab x).raw = m.raw := rfl
@[simp] theorem Mach.setFab_freeIdx (m : Mach) (x : FabSt) : (m.setFab x).freeIdx = m.freeIdx := rfl
@[simp] theorem Mach.setFab_out (m : Mach) (x : FabSt) : (m.setFab x).out = m.out := rfl
@[simp] theorem Mach.setFab_limited (m : Mach) (x : FabSt) : (m.setFab x).limited = m.limited := rfl
@[simp] theorem Mach.setFab_latches (m : Mach) (x : FabSt) : (m.setFab x).latches = m.latches := rfl
@[simp] theorem Mach.setFab_time (m : Mach) (x : FabSt) : (m.setFab x).time = m.time := rfl
@[simp] theorem Mach.setFab_fab (m : Mach) (x : FabSt) : (m.setFab x).fab = x := rfl
@[simp] theorem Mach.setFab_eth (m : Mach) (x : FabSt) : (m.setFab x).eth = m.eth := rfl
@[simp] theorem Mach.setFab_cap (m : Mach) (x : FabSt) : (m.setFab x).cap = m.cap := rfl
@[simp] theorem Mach.setFab_dec (m : Mach) (x : FabSt) : (m.setFab x).dec = m.dec := rfl
@[simp] theorem Mach.setFab_enc (m : Mach) (x : FabSt) : (m.setFab x).enc = m.enc := rfl
@[simp] theorem Mach.setFab_cmp (m : Mach) (x : FabSt) : (m.setFab x).cmp = m.cmp := rfl
@[simp] theorem Mach.setFab_lut (m : Mach) (x : FabSt) : (m.setFab x).lut = m.lut := rfl
@[simp] theorem Mach.setFab_sig (m : Mach) (x : FabSt) : (m.setFab x).sig = m.sig := rfl
@[simp] theorem Mach.setFab_scn (m : Mach) (x : FabSt) : (m.setFab x).scn = m.scn := rfl
@[simp] theorem Mach.setFab_tch (m : Mach) (x : FabSt) : (m.setFab x).tch = m.tch := rfl
@[simp] theorem Mach.setFab_evc (m : Mach) (x : FabSt) : (m.setFab x).evc = m.evc := rfl
@[simp] theorem Mach.setFab_pmc (m : Mach) (x : FabSt) : (m.setFab x).pmc = m.pmc := rfl
@[simp] theorem Mach.setFab_gate (m : Mach) (x : FabSt) : (m.setFab x).gate = m.gate := rfl
@[simp] theorem Mach.setFab_cfg (m : Mach) (x : FabSt) : (m.setFab x).cfg = m.cfg := rfl
@[simp] theorem Mach.setFab_chk (m : Mach) (x : FabSt) : (m.setFab x).chk = m.chk := rfl
@[simp] theorem Mach.setFab_sys (m : Mach) (x : FabSt) : (m.setFab x).sys = m.sys := rfl
@[simp] theorem Mach.setFab_pwr (m : Mach) (x : FabSt) : (m.setFab x).pwr = m.pwr := rfl
@[simp] theorem Mach.setFab_tst (m : Mach) (x : FabSt) : (m.setFab x).tst = m.tst := rfl
@[simp] theorem Mach.setFab_rd (m : Mach) (x : FabSt) (r : Reg) (j : Nat) : (m.setFab x).rd r j = m.rd r j := rfl
@[simp] theorem Mach.setFab_get (m : Mach) (x : FabSt) (g : Field) (j : Nat) : (m.setFab x).get g j = m.get g j := rfl
@[simp] theorem Mach.setFab_mode (m : Mach) (x : FabSt) : (m.setFab x).mode = m.mode := rfl

@[simp] theorem Mach.setSig_regs (m : Mach) (x : SigSt) : (m.setSig x).regs = m.regs := rfl
@[simp] theorem Mach.setSig_raw (m : Mach) (x : SigSt) : (m.setSig x).raw = m.raw := rfl
@[simp] theorem Mach.setSig_freeIdx (m : Mach) (x : SigSt) : (m.setSig x).freeIdx = m.freeIdx := rfl
@[simp] theorem Mach.setSig_out (m : Mach) (x : SigSt) : (m.setSig x).out = m.out := rfl
@[simp] theorem Mach.setSig_limited (m : Mach) (x : SigSt) : (m.setSig x).limited = m.limited := rfl
@[simp] theorem Mach.setSig_latches (m : Mach) (x : SigSt) : (m.setSig x).latches = m.latches := rfl
@[simp] theorem Mach.setSig_time (m : Mach) (x : SigSt) : (m.setSig x).time = m.time := rfl
@[simp] theorem Mach.setSig_fab (m : Mach) (x : SigSt) : (m.setSig x).fab = m.fab := rfl
@[simp] theorem Mach.setSig_eth (m : Mach) (x : SigSt) : (m.setSig x).eth = m.eth := rfl
@[simp] theorem Mach.setSig_cap (m : Mach) (x : SigSt) : (m.setSig x).cap = m.cap := rfl
@[simp] theorem Mach.setSig_dec (m : Mach) (x : SigSt) : (m.setSig x).dec = m.dec := rfl
@[simp] theorem Mach.setSig_enc (m : Mach) (x : SigSt) : (m.setSig x).enc = m.enc := rfl
@[simp] theorem Mach.setSig_cmp (m : Mach) (x : SigSt) : (m.setSig x).cmp = m.cmp := rfl
@[simp] theorem Mach.setSig_lut (m : Mach) (x : SigSt) : (m.setSig x).lut = m.lut := rfl
@[simp] theorem Mach.setSig_sig (m : Mach) (x : SigSt) : (m.setSig x).sig = x := rfl
@[simp] theorem Mach.setSig_scn (m : Mach) (x : SigSt) : (m.setSig x).scn = m.scn := rfl
@[simp] theorem Mach.setSig_tch (m : Mach) (x : SigSt) : (m.setSig x).tch = m.tch := rfl
@[simp] theorem Mach.setSig_evc (m : Mach) (x : SigSt) : (m.setSig x).evc = m.evc := rfl
@[simp] theorem Mach.setSig_pmc (m : Mach) (x : SigSt) : (m.setSig x).pmc = m.pmc := rfl
@[simp] theorem Mach.setSig_gate (m : Mach) (x : SigSt) : (m.setSig x).gate = m.gate := rfl
@[simp] theorem Mach.setSig_cfg (m : Mach) (x : SigSt) : (m.setSig x).cfg = m.cfg := rfl
@[simp] theorem Mach.setSig_chk (m : Mach) (x : SigSt) : (m.setSig x).chk = m.chk := rfl
@[simp] theorem Mach.setSig_sys (m : Mach) (x : SigSt) : (m.setSig x).sys = m.sys := rfl
@[simp] theorem Mach.setSig_pwr (m : Mach) (x : SigSt) : (m.setSig x).pwr = m.pwr := rfl
@[simp] theorem Mach.setSig_tst (m : Mach) (x : SigSt) : (m.setSig x).tst = m.tst := rfl
@[simp] theorem Mach.setSig_rd (m : Mach) (x : SigSt) (r : Reg) (j : Nat) : (m.setSig x).rd r j = m.rd r j := rfl
@[simp] theorem Mach.setSig_get (m : Mach) (x : SigSt) (g : Field) (j : Nat) : (m.setSig x).get g j = m.get g j := rfl
@[simp] theorem Mach.setSig_mode (m : Mach) (x : SigSt) : (m.setSig x).mode = m.mode := rfl

@[simp] theorem Mach.setTch_regs (m : Mach) (x : TchSt) : (m.setTch x).regs = m.regs := rfl
@[simp] theorem Mach.setTch_raw (m : Mach) (x : TchSt) : (m.setTch x).raw = m.raw := rfl
@[simp] theorem Mach.setTch_freeIdx (m : Mach) (x : TchSt) : (m.setTch x).freeIdx = m.freeIdx := rfl
@[simp] theorem Mach.setTch_out (m : Mach) (x : TchSt) : (m.setTch x).out = m.out := rfl
@[simp] theorem Mach.setTch_limited (m : Mach) (x : TchSt) : (m.setTch x).limited = m.limited := rfl
@[simp] theorem Mach.setTch_latches (m : Mach) (x : TchSt) : (m.setTch x).latches = m.latches := rfl
@[simp] theorem Mach.setTch_time (m : Mach) (x : TchSt) : (m.setTch x).time = m.time := rfl
@[simp] theorem Mach.setTch_fab (m : Mach) (x : TchSt) : (m.setTch x).fab = m.fab := rfl
@[simp] theorem Mach.setTch_eth (m : Mach) (x : TchSt) : (m.setTch x).eth = m.eth := rfl
@[simp] theorem Mach.setTch_cap (m : Mach) (x : TchSt) : (m.setTch x).cap = m.cap := rfl
@[simp] theorem Mach.setTch_dec (m : Mach) (x : TchSt) : (m.setTch x).dec = m.dec := rfl
@[simp] theorem Mach.setTch_enc (m : Mach) (x : TchSt) : (m.setTch x).enc = m.enc := rfl
@[simp] theorem Mach.setTch_cmp (m : Mach) (x : TchSt) : (m.setTch x).cmp = m.cmp := rfl
@[simp] theorem Mach.setTch_lut (m : Mach) (x : TchSt) : (m.setTch x).lut = m.lut := rfl
@[simp] theorem Mach.setTch_sig (m : Mach) (x : TchSt) : (m.setTch x).sig = m.sig := rfl
@[simp] theorem Mach.setTch_scn (m : Mach) (x : TchSt) : (m.setTch x).scn = m.scn := rfl
@[simp] theorem Mach.setTch_tch (m : Mach) (x : TchSt) : (m.setTch x).tch = x := rfl
@[simp] theorem Mach.setTch_evc (m : Mach) (x : TchSt) : (m.setTch x).evc = m.evc := rfl
@[simp] theorem Mach.setTch_pmc (m : Mach) (x : TchSt) : (m.setTch x).pmc = m.pmc := rfl
@[simp] theorem Mach.setTch_gate (m : Mach) (x : TchSt) : (m.setTch x).gate = m.gate := rfl
@[simp] theorem Mach.setTch_cfg (m : Mach) (x : TchSt) : (m.setTch x).cfg = m.cfg := rfl
@[simp] theorem Mach.setTch_chk (m : Mach) (x : TchSt) : (m.setTch x).chk = m.chk := rfl
@[simp] theorem Mach.setTch_sys (m : Mach) (x : TchSt) : (m.setTch x).sys = m.sys := rfl
@[simp] theorem Mach.setTch_pwr (m : Mach) (x : TchSt) : (m.setTch x).pwr = m.pwr := rfl
@[simp] theorem Mach.setTch_tst (m : Mach) (x : TchSt) : (m.setTch x).tst = m.tst := rfl
@[simp] theorem Mach.setTch_rd (m : Mach) (x : TchSt) (r : Reg) (j : Nat) : (m.setTch x).rd r j = m.rd r j := rfl
@[simp] theorem Mach.setTch_get (m : Mach) (x : TchSt) (g : Field) (j : Nat) : (m.setTch x).get g j = m.get g j := rfl
@[simp] theorem Mach.setTch_mode (m : Mach) (x : TchSt) : (m.setTch x).mode = m.mode := rfl

@[simp] theorem Mach.setFabPort_regs (m : Mach) (p : Nat) (x : FabPort) : (m.setFabPort p x).regs = m.regs := rfl
@[simp] theorem Mach.setFabPort_raw (m : Mach) (p : Nat) (x : FabPort) : (m.setFabPort p x).raw = m.raw := rfl
@[simp] theorem Mach.setFabPort_freeIdx (m : Mach) (p : Nat) (x : FabPort) : (m.setFabPort p x).freeIdx = m.freeIdx := rfl
@[simp] theorem Mach.setFabPort_out (m : Mach) (p : Nat) (x : FabPort) : (m.setFabPort p x).out = m.out := rfl
@[simp] theorem Mach.setFabPort_limited (m : Mach) (p : Nat) (x : FabPort) : (m.setFabPort p x).limited = m.limited := rfl
@[simp] theorem Mach.setFabPort_latches (m : Mach) (p : Nat) (x : FabPort) : (m.setFabPort p x).latches = m.latches := rfl
@[simp] theorem Mach.setFabPort_time (m : Mach) (p : Nat) (x : FabPort) : (m.setFabPort p x).time = m.time := rfl
@[simp] theorem Mach.setFabPort_eth (m : Mach) (p : Nat) (x : FabPort) : (m.setFabPort p x).eth = m.eth := rfl
@[simp] theorem Mach.setFabPort_cap (m : Mach) (p : Nat) (x : FabPort) : (m.setFabPort p x).cap = m.cap := rfl
@[simp] theorem Mach.setFabPort_dec (m : Mach) (p : Nat) (x : FabPort) : (m.setFabPort p x).dec = m.dec := rfl
@[simp] theorem Mach.setFabPort_enc (m : Mach) (p : Nat) (x : FabPort) : (m.setFabPort p x).enc = m.enc := rfl
@[simp] theorem Mach.setFabPort_cmp (m : Mach) (p : Nat) (x : FabPort) : (m.setFabPort p x).cmp = m.cmp := rfl
@[simp] theorem Mach.setFabPort_lut (m : Mach) (p : Nat) (x : FabPort) : (m.setFabPort p x).lut = m.lut := rfl
@[simp] theorem Mach.setFabPort_sig (m : Mach) (p : Nat) (x : FabPort) : (m.setFabPort p x).sig = m.sig := rfl
@[simp] theorem Mach.setFabPort_scn (m : Mach) (p : Nat) (x : FabPort) : (m.setFabPort p x).scn = m.scn := rfl
@[simp] theorem Mach.setFabPort_tch (m : Mach) (p : Nat) (x : FabPort) : (m.setFabPort p x).tch = m.tch := rfl
@[simp] theorem Mach.setFabPort_evc (m : Mach) (p : Nat) (x : FabPort) : (m.setFabPort p x).evc = m.evc := rfl
@[simp] theorem Mach.setFabPort_pmc (m : Mach) (p : Nat) (x : FabPort) : (m.setFabPort p x).pmc = m.pmc := rfl
@[simp] theorem Mach.setFabPort_gate (m : Mach) (p : Nat) (x : FabPort) : (m.setFabPort p x).gate = m.gate := rfl
@[simp] theorem Mach.setFabPort_cfg (m : Mach) (p : Nat) (x : FabPort) : (m.setFabPort p x).cfg = m.cfg := rfl
@[simp] theorem Mach.setFabPort_chk (m : Mach) (p : Nat) (x : FabPort) : (m.setFabPort p x).chk = m.chk := rfl
@[simp] theorem Mach.setFabPort_sys (m : Mach) (p : Nat) (x : FabPort) : (m.setFabPort p x).sys = m.sys := rfl
@[simp] theorem Mach.setFabPort_pwr (m : Mach) (p : Nat) (x : FabPort) : (m.setFabPort p x).pwr = m.pwr := rfl
@[simp] theorem Mach.setFabPort_tst (m : Mach) (p : Nat) (x : FabPort) : (m.setFabPort p x).tst = m.tst := rfl
@[simp] theorem Mach.setFabPort_rd (m : Mach) (p : Nat) (x : FabPort) (r : Reg) (j : Nat) : (m.setFabPort p x).rd r j = m.rd r j := rfl
@[simp] theorem Mach.setFabPort_get (m : Mach) (p : Nat) (x : FabPort) (g : Field) (j : Nat) : (m.setFabPort p x).get g j = m.get g j := rfl
@[simp] theorem Mach.setFabPort_mode (m : Mach) (p : Nat) (x : FabPort) : (m.setFabPort p x).mode = m.mode := rfl

@[simp] theorem Mach.setLayer_regs (m : Mach) (n : Nat) (x : Layer) : (m.setLayer n x).regs = m.regs := rfl
@[simp] theorem Mach.setLayer_raw (m : Mach) (n : Nat) (x : Layer) : (m.setLayer n x).raw = m.raw := rfl
@[simp] theorem Mach.setLayer_freeIdx (m : Mach) (n : Nat) (x : Layer) : (m.setLayer n x).freeIdx = m.freeIdx := rfl
@[simp] theorem Mach.setLayer_out (m : Mach) (n : Nat) (x : Layer) : (m.setLayer n x).out = m.out := rfl
@[simp] theorem Mach.setLayer_limited (m : Mach) (n : Nat) (x : Layer) : (m.setLayer n x).limited = m.limited := rfl
@[simp] theorem Mach.setLayer_latches (m : Mach) (n : Nat) (x : Layer) : (m.setLayer n x).latches = m.latches := rfl
@[simp] theorem Mach.setLayer_time (m : Mach) (n : Nat) (x : Layer) : (m.setLayer n x).time = m.time := rfl
@[simp] theorem Mach.setLayer_fab (m : Mach) (n : Nat) (x : Layer) : (m.setLayer n x).fab = m.fab := rfl
@[simp] theorem Mach.setLayer_eth (m : Mach) (n : Nat) (x : Layer) : (m.setLayer n x).eth = m.eth := rfl
@[simp] theorem Mach.setLayer_cap (m : Mach) (n : Nat) (x : Layer) : (m.setLayer n x).cap = m.cap := rfl
@[simp] theorem Mach.setLayer_dec (m : Mach) (n : Nat) (x : Layer) : (m.setLayer n x).dec = m.dec := rfl
@[simp] theorem Mach.setLayer_enc (m : Mach) (n : Nat) (x : Layer) : (m.setLayer n x).enc = m.enc := rfl
@[simp] theorem Mach.setLayer_lut (m : Mach) (n : Nat) (x : Layer) : (m.setLayer n x).lut = m.lut := rfl
@[simp] theorem Mach.setLayer_sig (m : Mach) (n : Nat) (x : Layer) : (m.setLayer n x).sig = m.sig := rfl
@[simp] theorem Mach.setLayer_scn (m : Mach) (n : Nat) (x : Layer) : (m.setLayer n x).scn = m.scn := rfl
@[simp] theorem Mach.setLayer_tch (m : Mach) (n : Nat) (x : Layer) : (m.setLayer n x).tch = m.tch := rfl
@[simp] theorem Mach.setLayer_evc (m : Mach) (n : Nat) (x : Layer) : (m.setLayer n x).evc = m.evc := rfl
@[simp] theorem Mach.setLayer_pmc (m : Mach) (n : Nat) (x : Layer) : (m.setLayer n x).pmc = m.pmc := rfl
@[simp] theorem Mach.setLayer_gate (m : Mach) (n : Nat) (x : Layer) : (m.setLayer n x).gate = m.gate := rfl
@[simp] theorem Mach.setLayer_cfg (m : Mach) (n : Nat) (x : Layer) : (m.setLayer n x).cfg = m.cfg := rfl
@[simp] theorem Mach.setLayer_chk (m : Mach) (n : Nat) (x : Layer) : (m.setLayer n x).chk = m.chk := rfl
@[simp] theorem Mach.setLayer_sys (m : Mach) (n : Nat) (x : Layer) : (m.setLayer n x).sys = m.sys := rfl
@[simp] theorem Mach.setLayer_pwr (m : Mach) (n : Nat) (x : Layer) : (m.setLayer n x).pwr = m.pwr := rfl
@[simp] theorem Mach.setLayer_tst (m : Mach) (n : Nat) (x : Layer) : (m.setLayer n x).tst = m.tst := rfl
@[simp] theorem Mach.setLayer_rd (m : Mach) (n : Nat) (x : Layer) (r : Reg) (j : Nat) : (m.setLayer n x).rd r j = m.rd r j := rfl
@[simp] theorem Mach.setLayer_get (m : Mach) (n : Nat) (x : Layer) (g : Field) (j : Nat) : (m.setLayer n x).get g j = m.get g j := rfl
@[simp] theorem Mach.setLayer_mode (m : Mach) (n : Nat) (x : Layer) : (m.setLayer n x).mode = m.mode := rfl

@[simp] theorem Mach.setTimePort_regs (m : Mach) (p : Nat) (x : TimePort) : (m.setTimePort p x).regs = m.regs := rfl
@[simp] theorem Mach.setTimePort_raw (m : Mach) (p : Nat) (x : TimePort) : (m.setTimePort p x).raw = m.raw := rfl
@[simp] theorem Mach.setTimePort_freeIdx (m : Mach) (p : Nat) (x : TimePort) : (m.setTimePort p x).freeIdx = m.freeIdx := rfl
@[simp] theorem Mach.setTimePort_out (m : Mach) (p : Nat) (x : TimePort) : (m.setTimePort p x).out = m.out := rfl
@[simp] theorem Mach.setTimePort_limited (m : Mach) (p : Nat) (x : TimePort) : (m.setTimePort p x).limited = m.limited := rfl
@[simp] theorem Mach.setTimePort_latches (m : Mach) (p : Nat) (x : TimePort) : (m.setTimePort p x).latches = m.latches := rfl
@[simp] theorem Mach.setTimePort_fab (m : Mach) (p : Nat) (x : TimePort) : (m.setTimePort p x).fab = m.fab := rfl
@[simp] theorem Mach.setTimePort_eth (m : Mach) (p : Nat) (x : TimePort) : (m.setTimePort p x).eth = m.eth := rfl
@[simp] theorem Mach.setTimePort_cap (m : Mach) (p : Nat) (x : TimePort) : (m.setTimePort p x).cap = m.cap := rfl
@[simp] theorem Mach.setTimePort_dec (m : Mach) (p : Nat) (x : TimePort) : (m.setTimePort p x).dec = m.dec := rfl
@[simp] theorem Mach.setTimePort_enc (m : Mach) (p : Nat) (x : TimePort) : (m.setTimePort p x).enc = m.enc := rfl
@[simp] theorem Mach.setTimePort_cmp (m : Mach) (p : Nat) (x : TimePort) : (m.setTimePort p x).cmp = m.cmp := rfl
@[simp] theorem Mach.setTimePort_lut (m : Mach) (p : Nat) (x : TimePort) : (m.setTimePort p x).lut = m.lut := rfl
@[simp] theorem Mach.setTimePort_sig (m : Mach) (p : Nat) (x : TimePort) : (m.setTimePort p x).sig = m.sig := rfl
@[simp] theorem Mach.setTimePort_scn (m : Mach) (p : Nat) (x : TimePort) : (m.setTimePort p x).scn = m.scn := rfl
@[simp] theorem Mach.setTimePort_tch (m : Mach) (p : Nat) (x : TimePort) : (m.setTimePort p x).tch = m.tch := rfl
@[simp] theorem Mach.setTimePort_evc (m : Mach) (p : Nat) (x : TimePort) : (m.setTimePort p x).evc = m.evc := rfl
@[simp] theorem Mach.setTimePort_pmc (m : Mach) (p : Nat) (x : TimePort) : (m.setTimePort p x).pmc = m.pmc := rfl
@[simp] theorem Mach.setTimePort_gate (m : Mach) (p : Nat) (x : TimePort) : (m.setTimePort p x).gate = m.gate := rfl
@[simp] theorem Mach.setTimePort_cfg (m : Mach) (p : Nat) (x : TimePort) : (m.setTimePort p x).cfg = m.cfg := rfl
@[simp] theorem Mach.setTimePort_chk (m : Mach) (p : Nat) (x : TimePort) : (m.setTimePort p x).chk = m.chk := rfl
@[simp] theorem Mach.setTimePort_sys (m : Mach) (p : Nat) (x : TimePort) : (m.setTimePort p x).sys = m.sys := rfl
@[simp] theorem Mach.setTimePort_pwr (m : Mach) (p : Nat) (x : TimePort) : (m.setTimePort p x).pwr = m.pwr := rfl
@[simp] theorem Mach.setTimePort_tst (m : Mach) (p : Nat) (x : TimePort) : (m.setTimePort p x).tst = m.tst := rfl
@[simp] theorem Mach.setTimePort_rd (m : Mach) (p : Nat) (x : TimePort) (r : Reg) (j : Nat) : (m.setTimePort p x).rd r j = m.rd r j := rfl
@[simp] theorem Mach.setTimePort_get (m : Mach) (p : Nat) (x : TimePort) (g : Field) (j : Nat) : (m.setTimePort p x).get g j = m.get g j := rfl
@[simp] theorem Mach.setTimePort_mode (m : Mach) (p : Nat) (x : TimePort) : (m.setTimePort p x).mode = m.mode := rfl

@[simp] theorem Mach.setDecCtx_regs (m : Mach) (n : Nat) (x : DecCtx) : (m.setDecCtx n x).regs = m.regs := rfl
@[simp] theorem Mach.setDecCtx_raw (m : Mach) (n : Nat) (x : DecCtx) : (m.setDecCtx n x).raw = m.raw := rfl
@[simp] theorem Mach.setDecCtx_freeIdx (m : Mach) (n : Nat) (x : DecCtx) : (m.setDecCtx n x).freeIdx = m.freeIdx := rfl
@[simp] theorem Mach.setDecCtx_out (m : Mach) (n : Nat) (x : DecCtx) : (m.setDecCtx n x).out = m.out := rfl
@[simp] theorem Mach.setDecCtx_limited (m : Mach) (n : Nat) (x : DecCtx) : (m.setDecCtx n x).limited = m.limited := rfl
@[simp] theorem Mach.setDecCtx_latches (m : Mach) (n : Nat) (x : DecCtx) : (m.setDecCtx n x).latches = m.latches := rfl
@[simp] theorem Mach.setDecCtx_time (m : Mach) (n : Nat) (x : DecCtx) : (m.setDecCtx n x).time = m.time := rfl
@[simp] theorem Mach.setDecCtx_fab (m : Mach) (n : Nat) (x : DecCtx) : (m.setDecCtx n x).fab = m.fab := rfl
@[simp] theorem Mach.setDecCtx_eth (m : Mach) (n : Nat) (x : DecCtx) : (m.setDecCtx n x).eth = m.eth := rfl
@[simp] theorem Mach.setDecCtx_cap (m : Mach) (n : Nat) (x : DecCtx) : (m.setDecCtx n x).cap = m.cap := rfl
@[simp] theorem Mach.setDecCtx_enc (m : Mach) (n : Nat) (x : DecCtx) : (m.setDecCtx n x).enc = m.enc := rfl
@[simp] theorem Mach.setDecCtx_cmp (m : Mach) (n : Nat) (x : DecCtx) : (m.setDecCtx n x).cmp = m.cmp := rfl
@[simp] theorem Mach.setDecCtx_lut (m : Mach) (n : Nat) (x : DecCtx) : (m.setDecCtx n x).lut = m.lut := rfl
@[simp] theorem Mach.setDecCtx_sig (m : Mach) (n : Nat) (x : DecCtx) : (m.setDecCtx n x).sig = m.sig := rfl
@[simp] theorem Mach.setDecCtx_scn (m : Mach) (n : Nat) (x : DecCtx) : (m.setDecCtx n x).scn = m.scn := rfl
@[simp] theorem Mach.setDecCtx_tch (m : Mach) (n : Nat) (x : DecCtx) : (m.setDecCtx n x).tch = m.tch := rfl
@[simp] theorem Mach.setDecCtx_evc (m : Mach) (n : Nat) (x : DecCtx) : (m.setDecCtx n x).evc = m.evc := rfl
@[simp] theorem Mach.setDecCtx_pmc (m : Mach) (n : Nat) (x : DecCtx) : (m.setDecCtx n x).pmc = m.pmc := rfl
@[simp] theorem Mach.setDecCtx_gate (m : Mach) (n : Nat) (x : DecCtx) : (m.setDecCtx n x).gate = m.gate := rfl
@[simp] theorem Mach.setDecCtx_cfg (m : Mach) (n : Nat) (x : DecCtx) : (m.setDecCtx n x).cfg = m.cfg := rfl
@[simp] theorem Mach.setDecCtx_chk (m : Mach) (n : Nat) (x : DecCtx) : (m.setDecCtx n x).chk = m.chk := rfl
@[simp] theorem Mach.setDecCtx_sys (m : Mach) (n : Nat) (x : DecCtx) : (m.setDecCtx n x).sys = m.sys := rfl
@[simp] theorem Mach.setDecCtx_pwr (m : Mach) (n : Nat) (x : DecCtx) : (m.setDecCtx n x).pwr = m.pwr := rfl
@[simp] theorem Mach.setDecCtx_tst (m : Mach) (n : Nat) (x : DecCtx) : (m.setDecCtx n x).tst = m.tst := rfl
@[simp] theorem Mach.setDecCtx_rd (m : Mach) (n : Nat) (x : DecCtx) (r : Reg) (j : Nat) : (m.setDecCtx n x).rd r j = m.rd r j := rfl
@[simp] theorem Mach.setDecCtx_get (m : Mach) (n : Nat) (x : DecCtx) (g : Field) (j : Nat) : (m.setDecCtx n x).get g j = m.get g j := rfl
@[simp] theorem Mach.setDecCtx_mode (m : Mach) (n : Nat) (x : DecCtx) : (m.setDecCtx n x).mode = m.mode := rfl

@[simp] theorem Mach.setEncCtx_regs (m : Mach) (n : Nat) (x : EncCtx) : (m.setEncCtx n x).regs = m.regs := rfl
@[simp] theorem Mach.setEncCtx_raw (m : Mach) (n : Nat) (x : EncCtx) : (m.setEncCtx n x).raw = m.raw := rfl
@[simp] theorem Mach.setEncCtx_freeIdx (m : Mach) (n : Nat) (x : EncCtx) : (m.setEncCtx n x).freeIdx = m.freeIdx := rfl
@[simp] theorem Mach.setEncCtx_out (m : Mach) (n : Nat) (x : EncCtx) : (m.setEncCtx n x).out = m.out := rfl
@[simp] theorem Mach.setEncCtx_limited (m : Mach) (n : Nat) (x : EncCtx) : (m.setEncCtx n x).limited = m.limited := rfl
@[simp] theorem Mach.setEncCtx_latches (m : Mach) (n : Nat) (x : EncCtx) : (m.setEncCtx n x).latches = m.latches := rfl
@[simp] theorem Mach.setEncCtx_time (m : Mach) (n : Nat) (x : EncCtx) : (m.setEncCtx n x).time = m.time := rfl
@[simp] theorem Mach.setEncCtx_fab (m : Mach) (n : Nat) (x : EncCtx) : (m.setEncCtx n x).fab = m.fab := rfl
@[simp] theorem Mach.setEncCtx_eth (m : Mach) (n : Nat) (x : EncCtx) : (m.setEncCtx n x).eth = m.eth := rfl
@[simp] theorem Mach.setEncCtx_cap (m : Mach) (n : Nat) (x : EncCtx) : (m.setEncCtx n x).cap = m.cap := rfl
@[simp] theorem Mach.setEncCtx_dec (m : Mach) (n : Nat) (x : EncCtx) : (m.setEncCtx n x).dec = m.dec := rfl
@[simp] theorem Mach.setEncCtx_cmp (m : Mach) (n : Nat) (x : EncCtx) : (m.setEncCtx n x).cmp = m.cmp := rfl
@[simp] theorem Mach.setEncCtx_lut (m : Mach) (n : Nat) (x : EncCtx) : (m.setEncCtx n x).lut = m.lut := rfl
@[simp] theorem Mach.setEncCtx_sig (m : Mach) (n : Nat) (x : EncCtx) : (m.setEncCtx n x).sig = m.sig := rfl
@[simp] theorem Mach.setEncCtx_scn (m : Mach) (n : Nat) (x : EncCtx) : (m.setEncCtx n x).scn = m.scn := rfl
@[simp] theorem Mach.setEncCtx_tch (m : Mach) (n : Nat) (x : EncCtx) : (m.setEncCtx n x).tch = m.tch := rfl
@[simp] theorem Mach.setEncCtx_evc (m : Mach) (n : Nat) (x : EncCtx) : (m.setEncCtx n x).evc = m.evc := rfl
@[simp] theorem Mach.setEncCtx_pmc (m : Mach) (n : Nat) (x : EncCtx) : (m.setEncCtx n x).pmc = m.pmc := rfl
@[simp] theorem Mach.setEncCtx_gate (m : Mach) (n : Nat) (x : EncCtx) : (m.setEncCtx n x).gate = m.gate := rfl
@[simp] theorem Mach.setEncCtx_cfg (m : Mach) (n : Nat) (x : EncCtx) : (m.setEncCtx n x).cfg = m.cfg := rfl
@[simp] theorem Mach.setEncCtx_chk (m : Mach) (n : Nat) (x : EncCtx) : (m.setEncCtx n x).chk = m.chk := rfl
@[simp] theorem Mach.setEncCtx_sys (m : Mach) (n : Nat) (x : EncCtx) : (m.setEncCtx n x).sys = m.sys := rfl
@[simp] theorem Mach.setEncCtx_pwr (m : Mach) (n : Nat) (x : EncCtx) : (m.setEncCtx n x).pwr = m.pwr := rfl
@[simp] theorem Mach.setEncCtx_tst (m : Mach) (n : Nat) (x : EncCtx) : (m.setEncCtx n x).tst = m.tst := rfl
@[simp] theorem Mach.setEncCtx_rd (m : Mach) (n : Nat) (x : EncCtx) (r : Reg) (j : Nat) : (m.setEncCtx n x).rd r j = m.rd r j := rfl
@[simp] theorem Mach.setEncCtx_get (m : Mach) (n : Nat) (x : EncCtx) (g : Field) (j : Nat) : (m.setEncCtx n x).get g j = m.get g j := rfl
@[simp] theorem Mach.setEncCtx_mode (m : Mach) (n : Nat) (x : EncCtx) : (m.setEncCtx n x).mode = m.mode := rfl

@[simp] theorem Mach.setCapPort_regs (m : Mach) (n : Nat) (x : CapPort) : (m.setCapPort n x).regs = m.regs := rfl
@[simp] theorem Mach.setCapPort_raw (m : Mach) (n : Nat) (x : CapPort) : (m.setCapPort n x).raw = m.raw := rfl
@[simp] theorem Mach.setCapPort_freeIdx (m : Mach) (n : Nat) (x : CapPort) : (m.setCapPort n x).freeIdx = m.freeIdx := rfl
@[simp] theorem Mach.setCapPort_out (m : Mach) (n : Nat) (x : CapPort) : (m.setCapPort n x).out = m.out := rfl
@[simp] theorem Mach.setCapPort_limited (m : Mach) (n : Nat) (x : CapPort) : (m.setCapPort n x).limited = m.limited := rfl
@[simp] theorem Mach.setCapPort_latches (m : Mach) (n : Nat) (x : CapPort) : (m.setCapPort n x).latches = m.latches := rfl
@[simp] theorem Mach.setCapPort_time (m : Mach) (n : Nat) (x : CapPort) : (m.setCapPort n x).time = m.time := rfl
@[simp] theorem Mach.setCapPort_fab (m : Mach) (n : Nat) (x : CapPort) : (m.setCapPort n x).fab = m.fab := rfl
@[simp] theorem Mach.setCapPort_eth (m : Mach) (n : Nat) (x : CapPort) : (m.setCapPort n x).eth = m.eth := rfl
@[simp] theorem Mach.setCapPort_dec (m : Mach) (n : Nat) (x : CapPort) : (m.setCapPort n x).dec = m.dec := rfl
@[simp] theorem Mach.setCapPort_enc (m : Mach) (n : Nat) (x : CapPort) : (m.setCapPort n x).enc = m.enc := rfl
@[simp] theorem Mach.setCapPort_cmp (m : Mach) (n : Nat) (x : CapPort) : (m.setCapPort n x).cmp = m.cmp := rfl
@[simp] theorem Mach.setCapPort_lut (m : Mach) (n : Nat) (x : CapPort) : (m.setCapPort n x).lut = m.lut := rfl
@[simp] theorem Mach.setCapPort_sig (m : Mach) (n : Nat) (x : CapPort) : (m.setCapPort n x).sig = m.sig := rfl
@[simp] theorem Mach.setCapPort_scn (m : Mach) (n : Nat) (x : CapPort) : (m.setCapPort n x).scn = m.scn := rfl
@[simp] theorem Mach.setCapPort_tch (m : Mach) (n : Nat) (x : CapPort) : (m.setCapPort n x).tch = m.tch := rfl
@[simp] theorem Mach.setCapPort_evc (m : Mach) (n : Nat) (x : CapPort) : (m.setCapPort n x).evc = m.evc := rfl
@[simp] theorem Mach.setCapPort_pmc (m : Mach) (n : Nat) (x : CapPort) : (m.setCapPort n x).pmc = m.pmc := rfl
@[simp] theorem Mach.setCapPort_gate (m : Mach) (n : Nat) (x : CapPort) : (m.setCapPort n x).gate = m.gate := rfl
@[simp] theorem Mach.setCapPort_cfg (m : Mach) (n : Nat) (x : CapPort) : (m.setCapPort n x).cfg = m.cfg := rfl
@[simp] theorem Mach.setCapPort_chk (m : Mach) (n : Nat) (x : CapPort) : (m.setCapPort n x).chk = m.chk := rfl
@[simp] theorem Mach.setCapPort_sys (m : Mach) (n : Nat) (x : CapPort) : (m.setCapPort n x).sys = m.sys := rfl
@[simp] theorem Mach.setCapPort_pwr (m : Mach) (n : Nat) (x : CapPort) : (m.setCapPort n x).pwr = m.pwr := rfl
@[simp] theorem Mach.setCapPort_tst (m : Mach) (n : Nat) (x : CapPort) : (m.setCapPort n x).tst = m.tst := rfl
@[simp] theorem Mach.setCapPort_rd (m : Mach) (n : Nat) (x : CapPort) (r : Reg) (j : Nat) : (m.setCapPort n x).rd r j = m.rd r j := rfl
@[simp] theorem Mach.setCapPort_get (m : Mach) (n : Nat) (x : CapPort) (g : Field) (j : Nat) : (m.setCapPort n x).get g j = m.get g j := rfl
@[simp] theorem Mach.setCapPort_mode (m : Mach) (n : Nat) (x : CapPort) : (m.setCapPort n x).mode = m.mode := rfl

@[simp] theorem Mach.setEthStream_regs (m : Mach) (n : Nat) (x : EthStream) : (m.setEthStream n x).regs = m.regs := rfl
@[simp] theorem Mach.setEthStream_raw (m : Mach) (n : Nat) (x : EthStream) : (m.setEthStream n x).raw = m.raw := rfl
@[simp] theorem Mach.setEthStream_freeIdx (m : Mach) (n : Nat) (x : EthStream) : (m.setEthStream n x).freeIdx = m.freeIdx := rfl
@[simp] theorem Mach.setEthStream_out (m : Mach) (n : Nat) (x : EthStream) : (m.setEthStream n x).out = m.out := rfl
@[simp] theorem Mach.setEthStream_limited (m : Mach) (n : Nat) (x : EthStream) : (m.setEthStream n x).limited = m.limited := rfl
@[simp] theorem Mach.setEthStream_latches (m : Mach) (n : Nat) (x : EthStream) : (m.setEthStream n x).latches = m.latches := rfl
@[simp] theorem Mach.setEthStream_time (m : Mach) (n : Nat) (x : EthStream) : (m.setEthStream n x).time = m.time := rfl
@[simp] theorem Mach.setEthStream_fab (m : Mach) (n : Nat) (x : EthStream) : (m.setEthStream n x).fab = m.fab := rfl
@[simp] theorem Mach.setEthStream_cap (m : Mach) (n : Nat) (x : EthStream) : (m.setEthStream n x).cap = m.cap := rfl
@[simp] theorem Mach.setEthStream_dec (m : Mach) (n : Nat) (x : EthStream) : (m.setEthStream n x).dec = m.dec := rfl
@[simp] theorem Mach.setEthStream_enc (m : Mach) (n : Nat) (x : EthStream) : (m.setEthStream n x).enc = m.enc := rfl
@[simp] theorem Mach.setEthStream_cmp (m : Mach) (n : Nat) (x : EthStream) : (m.setEthStream n x).cmp = m.cmp := rfl
@[simp] theorem Mach.setEthStream_lut (m : Mach) (n : Nat) (x : EthStream) : (m.setEthStream n x).lut = m.lut := rfl
@[simp] theorem Mach.setEthStream_sig (m : Mach) (n : Nat) (x : EthStream) : (m.setEthStream n x).sig = m.sig := rfl
@[simp] theorem Mach.setEthStream_scn (m : Mach) (n : Nat) (x : EthStream) : (m.setEthStream n x).scn = m.scn := rfl
@[simp] theorem Mach.setEthStream_tch (m : Mach) (n : Nat) (x : EthStream) : (m.setEthStream n x).tch = m.tch := rfl
@[simp] theorem Mach.setEthStream_evc (m : Mach) (n : Nat) (x : EthStream) : (m.setEthStream n x).evc = m.evc := rfl
@[simp] theorem Mach.setEthStream_pmc (m : Mach) (n : Nat) (x : EthStream) : (m.setEthStream n x).pmc = m.pmc := rfl
@[simp] theorem Mach.setEthStream_gate (m : Mach) (n : Nat) (x : EthStream) : (m.setEthStream n x).gate = m.gate := rfl
@[simp] theorem Mach.setEthStream_cfg (m : Mach) (n : Nat) (x : EthStream) : (m.setEthStream n x).cfg = m.cfg := rfl
@[simp] theorem Mach.setEthStream_chk (m : Mach) (n : Nat) (x : EthStream) : (m.setEthStream n x).chk = m.chk := rfl
@[simp] theorem Mach.setEthStream_sys (m : Mach) (n : Nat) (x : EthStream) : (m.setEthStream n x).sys = m.sys := rfl
@[simp] theorem Mach.setEthStream_pwr (m : Mach) (n : Nat) (x : EthStream) : (m.setEthStream n x).pwr = m.pwr := rfl
@[simp] theorem Mach.setEthStream_tst (m : Mach) (n : Nat) (x : EthStream) : (m.setEthStream n x).tst = m.tst := rfl
@[simp] theorem Mach.setEthStream_rd (m : Mach) (n : Nat) (x : EthStream) (r : Reg) (j : Nat) : (m.setEthStream n x).rd r j = m.rd r j := rfl
@[simp] theorem Mach.setEthStream_get (m : Mach) (n : Nat) (x : EthStream) (g : Field) (j : Nat) : (m.setEthStream n x).get g j = m.get g j := rfl
@[simp] theorem Mach.setEthStream_mode (m : Mach) (n : Nat) (x : EthStream) : (m.setEthStream n x).mode = m.mode := rfl

@[simp] theorem Mach.setEthPort_regs (m : Mach) (n : Nat) (x : EthPort) : (m.setEthPort n x).regs = m.regs := rfl
@[simp] theorem Mach.setEthPort_raw (m : Mach) (n : Nat) (x : EthPort) : (m.setEthPort n x).raw = m.raw := rfl
@[simp] theorem Mach.setEthPort_freeIdx (m : Mach) (n : Nat) (x : EthPort) : (m.setEthPort n x).freeIdx = m.freeIdx := rfl
@[simp] theorem Mach.setEthPort_out (m : Mach) (n : Nat) (x : EthPort) : (m.setEthPort n x).out = m.out := rfl
@[simp] theorem Mach.setEthPort_limited (m : Mach) (n : Nat) (x : EthPort) : (m.setEthPort n x).limited = m.limited := rfl
@[simp] theorem Mach.setEthPort_latches (m : Mach) (n : Nat) (x : EthPort) : (m.setEthPort n x).latches = m.latches := rfl
@[simp] theorem Mach.setEthPort_time (m : Mach) (n : Nat) (x : EthPort) : (m.setEthPort n x).time = m.time := rfl
@[simp] theorem Mach.setEthPort_fab (m : Mach) (n : Nat) (x : EthPort) : (m.setEthPort n x).fab = m.fab := rfl
@[simp] theorem Mach.setEthPort_cap (m : Mach) (n : Nat) (x : EthPort) : (m.setEthPort n x).cap = m.cap := rfl
@[simp] theorem Mach.setEthPort_dec (m : Mach) (n : Nat) (x : EthPort) : (m.setEthPort n x).dec = m.dec := rfl
@[simp] theorem Mach.setEthPort_enc (m : Mach) (n : Nat) (x : EthPort) : (m.setEthPort n x).enc = m.enc := rfl
@[simp] theorem Mach.setEthPort_cmp (m : Mach) (n : Nat) (x : EthPort) : (m.setEthPort n x).cmp = m.cmp := rfl
@[simp] theorem Mach.setEthPort_lut (m : Mach) (n : Nat) (x : EthPort) : (m.setEthPort n x).lut = m.lut := rfl
@[simp] theorem Mach.setEthPort_sig (m : Mach) (n : Nat) (x : EthPort) : (m.setEthPort n x).sig = m.sig := rfl
@[simp] theorem Mach.setEthPort_scn (m : Mach) (n : Nat) (x : EthPort) : (m.setEthPort n x).scn = m.scn := rfl
@[simp] theorem Mach.setEthPort_tch (m : Mach) (n : Nat) (x : EthPort) : (m.setEthPort n x).tch = m.tch := rfl
@[simp] theorem Mach.setEthPort_evc (m : Mach) (n : Nat) (x : EthPort) : (m.setEthPort n x).evc = m.evc := rfl
@[simp] theorem Mach.setEthPort_pmc (m : Mach) (n : Nat) (x : EthPort) : (m.setEthPort n x).pmc = m.pmc := rfl
@[simp] theorem Mach.setEthPort_gate (m : Mach) (n : Nat) (x : EthPort) : (m.setEthPort n x).gate = m.gate := rfl
@[simp] theorem Mach.setEthPort_cfg (m : Mach) (n : Nat) (x : EthPort) : (m.setEthPort n x).cfg = m.cfg := rfl
@[simp] theorem Mach.setEthPort_chk (m : Mach) (n : Nat) (x : EthPort) : (m.setEthPort n x).chk = m.chk := rfl
@[simp] theorem Mach.setEthPort_sys (m : Mach) (n : Nat) (x : EthPort) : (m.setEthPort n x).sys = m.sys := rfl
@[simp] theorem Mach.setEthPort_pwr (m : Mach) (n : Nat) (x : EthPort) : (m.setEthPort n x).pwr = m.pwr := rfl
@[simp] theorem Mach.setEthPort_tst (m : Mach) (n : Nat) (x : EthPort) : (m.setEthPort n x).tst = m.tst := rfl
@[simp] theorem Mach.setEthPort_rd (m : Mach) (n : Nat) (x : EthPort) (r : Reg) (j : Nat) : (m.setEthPort n x).rd r j = m.rd r j := rfl
@[simp] theorem Mach.setEthPort_get (m : Mach) (n : Nat) (x : EthPort) (g : Field) (j : Nat) : (m.setEthPort n x).get g j = m.get g j := rfl
@[simp] theorem Mach.setEthPort_mode (m : Mach) (n : Nat) (x : EthPort) : (m.setEthPort n x).mode = m.mode := rfl

/-! ### The state -/

@[simp] theorem State.on_mach (s : State) (f : Mach → Mach) : (s.on f).mach = f s.mach := rfl
@[simp] theorem State.on_mem (s : State) (f : Mach → Mach) : (s.on f).mem = s.mem := rfl
@[simp] theorem State.on_flash (s : State) (f : Mach → Mach) : (s.on f).flash = s.flash := rfl
@[simp] theorem State.on_ecc (s : State) (f : Mach → Mach) : (s.on f).ecc = s.ecc := rfl
@[simp] theorem State.on_fuses (s : State) (f : Mach → Mach) : (s.on f).fuses = s.fuses := rfl
@[simp] theorem State.on_pending (s : State) (f : Mach → Mach) : (s.on f).pending = s.pending := rfl

@[simp] theorem State.setByte_mach (s : State) (a : Nat) (b : Byte) : (s.setByte a b).mach = s.mach := rfl
@[simp] theorem State.setByte_mem (s : State) (a : Nat) (b : Byte) : (s.setByte a b).mem = tPut s.mem 0 a b := rfl
@[simp] theorem State.setByte_flash (s : State) (a : Nat) (b : Byte) : (s.setByte a b).flash = s.flash := rfl
@[simp] theorem State.setByte_ecc (s : State) (a : Nat) (b : Byte) : (s.setByte a b).ecc = s.ecc := rfl
@[simp] theorem State.setByte_fuses (s : State) (a : Nat) (b : Byte) : (s.setByte a b).fuses = s.fuses := rfl
@[simp] theorem State.setByte_pending (s : State) (a : Nat) (b : Byte) : (s.setByte a b).pending = s.pending := rfl

@[simp] theorem State.setFbyte_mach (s : State) (a v : Nat) : (s.setFbyte a v).mach = s.mach := rfl
@[simp] theorem State.setFbyte_mem (s : State) (a v : Nat) : (s.setFbyte a v).mem = s.mem := rfl
@[simp] theorem State.setFbyte_flash (s : State) (a v : Nat) : (s.setFbyte a v).flash = tPut s.flash 0xFF a (BitVec.ofNat 8 v) := rfl
@[simp] theorem State.setFbyte_ecc (s : State) (a v : Nat) : (s.setFbyte a v).ecc = s.ecc := rfl
@[simp] theorem State.setFbyte_fuses (s : State) (a v : Nat) : (s.setFbyte a v).fuses = s.fuses := rfl
@[simp] theorem State.setFbyte_pending (s : State) (a v : Nat) : (s.setFbyte a v).pending = s.pending := rfl

@[simp] theorem State.ferase_mach (s : State) (a : Nat) : (s.ferase a).mach = s.mach := rfl
@[simp] theorem State.ferase_mem (s : State) (a : Nat) : (s.ferase a).mem = s.mem := rfl
@[simp] theorem State.ferase_ecc (s : State) (a : Nat) : (s.ferase a).ecc = s.ecc := rfl
@[simp] theorem State.ferase_fuses (s : State) (a : Nat) : (s.ferase a).fuses = s.fuses := rfl
@[simp] theorem State.ferase_pending (s : State) (a : Nat) : (s.ferase a).pending = s.pending := rfl

end Sys2Proof.Machine
end

