-- ==== Sys2Proof/Laws/Flags.lean ====
section
/-! SUPPORT. What raising an event, setting a trouble bit and ending a command leave alone. -/

namespace Sys2Proof.Machine

/-! ### Two machines that agree outside some registers and outside what an arrival reaches -/

/-- Registers outside rs and everything that an arrival does not reach are unchanged. -/
structure Mach.Frame (rs : List Reg) (m n : Mach) : Prop where
  regs : m.regsSame rs n
  rest : m.restSame n

theorem Mach.restSame.refl (m : Mach) : m.restSame m := by constructor <;> rfl

theorem Mach.restSame.trans {a b c : Mach} (h : a.restSame b) (k : b.restSame c) : a.restSame c where
  raw := k.raw.trans h.raw
  latches := k.latches.trans h.latches
  time := k.time.trans h.time
  eth := k.eth.trans h.eth
  cap := k.cap.trans h.cap
  dec := k.dec.trans h.dec
  enc := k.enc.trans h.enc
  cmp := k.cmp.trans h.cmp
  lut := k.lut.trans h.lut
  sig := k.sig.trans h.sig
  scn := k.scn.trans h.scn
  tch := k.tch.trans h.tch
  gate := k.gate.trans h.gate
  cfg := k.cfg.trans h.cfg
  chk := k.chk.trans h.chk
  sys := k.sys.trans h.sys
  pwr := k.pwr.trans h.pwr
  tst := k.tst.trans h.tst

theorem Mach.Frame.refl (rs : List Reg) (m : Mach) : m.Frame rs m := ⟨fun _ _ _ => rfl, .refl m⟩

theorem Mach.Frame.trans {rs : List Reg} {a b c : Mach} (h : a.Frame rs b) (k : b.Frame rs c) : a.Frame rs c :=
  ⟨fun r i hr => (k.regs r i hr).trans (h.regs r i hr), h.rest.trans k.rest⟩

theorem Mach.Frame.mono {rs ss : List Reg} {a b : Mach} (h : a.Frame rs b) (hs : rs ⊆ ss) : a.Frame ss b :=
  ⟨fun r i hr => h.regs r i fun hm => hr (hs hm), h.rest⟩

theorem Mach.Frame.foldl {α : Type} {rs : List Reg} (f : Mach → α → Mach) (h : ∀ (m : Mach) a, m.Frame rs (f m a)) (l : List α)
    (m : Mach) : m.Frame rs (l.foldl f m) := by
  induction l generalizing m with
  | nil => exact .refl rs m
  | cons a l ih => exact (h m a).trans (ih _)

/-! ### The single updates -/

theorem Mach.frame_wr {rs : List Reg} (m : Mach) (r : Reg) (i : Nat) (v : DWord) (h : r ∈ rs) : m.Frame rs (m.wr r i v) :=
  ⟨fun q j hq => m.rd_wr_ne v (.inl fun e => hq (e ▸ h)), by constructor <;> rfl⟩

theorem Mach.frame_put {rs : List Reg} (m : Mach) (f : Field) (v i : Nat) (h : f.reg ∈ rs) : m.Frame rs (m.put f v i) :=
  m.frame_wr _ _ _ h

theorem Mach.frame_bump {rs : List Reg} (m : Mach) (f : Field) (i n : Nat) (h : f.reg ∈ rs) :
    m.Frame rs (m.bump f i n) := m.frame_wr _ _ _ h

theorem Mach.frame_advance {rs : List Reg} (m : Mach) (f : Field) (i n : Nat) (h : f.reg ∈ rs) :
    m.Frame rs (m.advance f i n) := m.frame_wr _ _ _ h

theorem Mach.frame_setBitOf {rs : List Reg} (m : Mach) (r : Reg) (n : Nat) (h : r ∈ rs) : m.Frame rs (m.setBitOf r n) :=
  m.frame_wr _ _ _ h

theorem Mach.frame_clearBitOf {rs : List Reg} (m : Mach) (r : Reg) (n : Nat) (h : r ∈ rs) :
    m.Frame rs (m.clearBitOf r n) := m.frame_wr _ _ _ h

theorem Mach.frame_setRegBit {rs : List Reg} (m : Mach) (r : Reg) (i b : Nat) (h : r ∈ rs) :
    m.Frame rs (m.setRegBit r i b) := m.frame_wr _ _ _ h

/-- An update of what an arrival reaches beyond the registers. -/
theorem Mach.frame_of {rs : List Reg} {m n : Mach} (hr : n.regs = m.regs) (h : m.restSame n) : m.Frame rs n :=
  ⟨fun r i _ => by simp only [Mach.rd, hr], h⟩

theorem Mach.frame_markNow {rs : List Reg} (m : Mach) (s : Nat) : m.Frame rs (m.markNow s) :=
  frame_of rfl (by constructor <;> rfl)

theorem Mach.frame_setFabPort {rs : List Reg} (m : Mach) (p : Nat) (x : FabPort) : m.Frame rs (m.setFabPort p x) :=
  frame_of rfl (by constructor <;> rfl)

theorem Mach.frame_enqueue {rs : List Reg} (m : Mach) (p : Nat) (f : TxFlit) : m.Frame rs (m.enqueue p f) := by
  unfold Mach.enqueue
  split
  · exact .refl _ _
  · exact m.frame_setFabPort _ _

theorem Mach.frame_sendOn {rs : List Reg} (m : Mach) (p type vc dest : Nat) (words : List Nat) (len : Nat) :
    m.Frame rs (m.sendOn p type vc dest words len) := by
  unfold Mach.sendOn
  refine Mach.Frame.trans ?_ (Mach.Frame.foldl _ (fun m f => m.frame_enqueue _ _) _ _)
  exact frame_of rfl (by constructor <;> rfl)

theorem Mach.frame_sendHome {rs : List Reg} (m : Mach) (type : Nat) (words : List Nat) (len : Nat) :
    m.Frame rs (m.sendHome type words len) := frame_of rfl (by constructor <;> rfl)

/-! ### Arrivals and what they lead to -/

theorem Mach.frame_count (m : Mach) (e n : Nat) : m.Frame flagRegs (m.count e n) := by
  unfold Mach.count Mach.addCount
  generalize m.get F.PMC_CNT_COUNT e + (if m.bitOf .PMC_MODE e then min n 1 else n) = c
  dsimp only
  have h := m.frame_put (rs := flagRegs) F.PMC_CNT_COUNT c e (by decide)
  split
  · exact h
  · exact h.trans (Mach.frame_setBitOf _ _ _ (by decide))

theorem Mach.frame_level2 (m : Mach) (s : Nat) : m.Frame flagRegs (m.level2 s) := by
  unfold Mach.level2
  refine Mach.Frame.foldl _ (fun m h => ?_) _ _
  simp only
  split
  · exact (m.frame_wr _ _ _ (by decide)).trans (Mach.frame_count _ _ _)
  · exact .refl _ _

theorem Mach.frame_wakeWaiters (m : Mach) (s : Nat) : m.Frame flagRegs (m.wakeWaiters s) := by
  unfold Mach.wakeWaiters
  refine Mach.Frame.foldl _ (fun m e => ?_) _ _
  simp only
  split
  · refine Mach.Frame.trans ?_ (Mach.frame_put _ _ _ _ (by decide))
    refine Mach.Frame.trans ?_ (Mach.frame_put _ _ _ _ (by decide))
    refine Mach.Frame.trans ?_ (Mach.frame_put _ _ _ _ (by decide))
    exact frame_of rfl (by constructor <;> rfl)
  · exact .refl _ _

theorem Mach.frame_snapshot (m : Mach) : m.Frame flagRegs m.snapshot := by
  unfold Mach.snapshot
  refine Mach.Frame.trans ?_ (Mach.frame_advance _ _ _ _ (by decide))
  refine Mach.Frame.trans ?_ (Mach.frame_put _ _ _ _ (by decide))
  exact Mach.Frame.foldl _ (fun m e => m.frame_put _ _ _ (by decide)) _ _

/-- The registers that the rises an occurrence names set are among rs. -/
def Eff.within (rs : List Reg) : Eff → Prop
  | .sticky r _ _ _ _ => riseRegs r ⊆ rs
  | .quietSticky r _ _ => riseRegs r ⊆ rs
  | _ => True

theorem riseRegs_self (r : Reg) : r ∈ riseRegs r := by
  unfold riseRegs
  split <;> simp

theorem Mach.frame_arrive (m : Mach) (s : Nat) (t : Bool) :
    m.Frame flagRegs (m.arrive s t).1 ∧ ∀ e ∈ (m.arrive s t).2, e.within flagRegs := by
  unfold Mach.arrive
  split
  · exact ⟨.refl _ _, by simp⟩
  · have h0 : m.Frame flagRegs ((m.bump F.PMC_ARRIVALS_ARRIVALS s).wakeWaiters s |>.level2 s) :=
      ((m.frame_bump _ _ _ (by decide)).trans (Mach.frame_wakeWaiters _ _)).trans (Mach.frame_level2 _ _)
    generalize ((m.bump F.PMC_ARRIVALS_ARRIVALS s).wakeWaiters s).level2 s = n at h0 ⊢
    simp only
    have hs : ∀ e ∈ (if m.bellDue s = true then [Eff.bell] else []) ++
        (if (t && n.on F.PMC_SNAP_CTL_SRC_EN && n.get F.PMC_SNAP_CTL_SRC = s) = true then [Eff.snap] else []),
        e.within flagRegs := by
      intro e he
      rcases List.mem_append.1 he with he | he
      all_goals
        split at he
        · simp only [List.mem_singleton] at he; subst he; trivial
        · simp at he
    split
    · split
      · have h1 : n.Frame flagRegs ((n.bump F.EVC_MERGES_COUNT).count 257) :=
          (n.frame_bump _ _ _ (by decide)).trans (Mach.frame_count _ _ _)
        constructor
        · split
          · exact (h0.trans h1).trans (Mach.frame_markNow _ _)
          · exact h0.trans h1
        · intro e he
          rcases List.mem_append.1 he with he | he
          · rcases List.mem_append.1 he with he | he
            · exact hs e he
            · simp only [List.mem_cons, List.not_mem_nil, or_false] at he
              rcases he with he | he <;> subst he
              · exact (by decide : riseRegs .EVC_MERGED ⊆ flagRegs)
              · exact (by decide : riseRegs .EVC_TROUBLE ⊆ flagRegs)
          · split at he
            · simp only [List.mem_singleton] at he; subst he; trivial
            · simp at he
      · exact ⟨h0.trans (Mach.frame_setBitOf _ _ _ (by decide)), hs⟩
    · exact ⟨h0, hs⟩

theorem Mach.frame_summarise (m : Mach) (b : Block) :
    m.Frame flagRegs (m.summarise b).1 ∧ ∀ rs, ∀ e ∈ (m.summarise b).2, e.within rs := by
  unfold Mach.summarise
  split
  · exact ⟨.refl _ _, by simp⟩
  · split
    · exact ⟨.refl _ _, by simp⟩
    · exact ⟨m.frame_put _ _ _ (by decide), by simp [Eff.within]⟩

theorem Mach.frame_queueEntry (m : Mach) (x : TroubleEntry) :
    m.Frame flagRegs (m.queueEntry x).1 ∧ ∀ e ∈ (m.queueEntry x).2, e.within flagRegs := by
  unfold Mach.queueEntry
  split
  · refine ⟨Mach.Frame.trans ?_ (Mach.frame_put _ _ _ _ (by decide)), by simp⟩
    exact frame_of rfl (by constructor <;> rfl)
  · refine ⟨(m.frame_bump _ _ _ (by decide)).trans (Mach.frame_count _ _ _), ?_⟩
    intro e he
    simp only [List.mem_cons, List.not_mem_nil, or_false] at he
    rcases he with he | he <;> subst he
    · exact (by decide : riseRegs .TEL_TROUBLE ⊆ flagRegs)
    · trivial

theorem troubleEvent_within (rs : List Reg) (r : Reg) : ∀ e ∈ troubleEvent r, e.within rs := by
  intro e he
  unfold troubleEvent at he
  split at he <;> simp only [List.mem_singleton, List.not_mem_nil] at he
  all_goals subst he; trivial

/-- What the rise of a bit of a codec's trouble register sets beside it. -/
theorem Mach.frame_troubled {rs : List Reg} (m : Mach) (r : Reg) (hr : riseRegs r ⊆ rs) :
    m.Frame rs (if r = .DEC_TROUBLE then m.decTroubled else if r = .ENC_TROUBLE then m.encTroubled else (m, [])).1 ∧
    ∀ e ∈ (if r = .DEC_TROUBLE then m.decTroubled else if r = .ENC_TROUBLE then m.encTroubled else (m, [])).2,
      e.within rs := by
  split
  · next h =>
    subst h
    refine ⟨m.frame_put _ _ _ (hr (by simp [riseRegs])), fun e he => ?_⟩
    unfold Mach.decTroubled at he
    split at he
    · simp only [List.mem_singleton] at he; subst he; trivial
    · simp at he
  · split
    · next h =>
      subst h
      refine ⟨m.frame_put _ _ _ (hr (by simp [riseRegs])), fun e he => ?_⟩
      unfold Mach.encTroubled at he
      split at he
      · simp only [List.mem_singleton] at he; subst he; trivial
      · simp at he
    · exact ⟨.refl _ _, by simp⟩

theorem Mach.frame_rise {rs : List Reg} (m : Mach) (r : Reg) (i bit code detail : Nat) (log : Bool) (hf : flagRegs ⊆ rs)
    (hr : riseRegs r ⊆ rs) :
    m.Frame rs (m.rise r i bit code detail log).1 ∧ ∀ e ∈ (m.rise r i bit code detail log).2, e.within rs := by
  unfold Mach.rise
  split
  · exact ⟨.refl _ _, by simp⟩
  · have hs := (m.setRegBit r i bit).frame_summarise r.block
    have ht := Mach.frame_troubled ((m.setRegBit r i bit).summarise r.block).1 r hr
    refine ⟨((m.frame_setRegBit r i bit (hr (riseRegs_self r))).trans (hs.1.mono hf)).trans ht.1, ?_⟩
    intro e he
    simp only [List.mem_append] at he
    rcases he with (((he | he) | he) | he) | he
    · exact hs.2 rs e he
    · split at he
      · simp only [List.mem_singleton] at he; subst he; trivial
      · simp at he
    · exact troubleEvent_within rs r e he
    · exact ht.2 e he
    · split at he
      · simp only [List.mem_singleton] at he; subst he; trivial
      · simp at he

theorem Eff.within_mono {rs ss : List Reg} (h : rs ⊆ ss) {e : Eff} (k : e.within rs) : e.within ss := by
  cases e <;> first | exact List.Subset.trans k h | trivial

theorem Mach.frame_countDrop {rs : List Reg} (m : Mach) (p : Nat) :
    m.Frame rs (m.countDrop p).1 ∧ ∀ e ∈ (m.countDrop p).2, e.within rs := by
  refine ⟨m.frame_setFabPort _ _, fun e he => ?_⟩
  unfold Mach.countDrop at he
  dsimp only at he
  split at he
  · simp at he
  · simp only [List.mem_singleton] at he; subst he; trivial

theorem Mach.frame_dispatch {rs : List Reg} (m : Mach) (type vc dest : Nat) (words : List Nat) (len : Nat)
    (hf : flagRegs ⊆ rs) :
    m.Frame rs (m.dispatch type vc dest words len).1 ∧ ∀ e ∈ (m.dispatch type vc dest words len).2, e.within rs := by
  unfold Mach.dispatch
  split
  · exact ⟨m.frame_sendHome _ _ _, by simp⟩
  · split
    · exact ⟨m.frame_sendOn _ _ _ _ _ _, by simp⟩
    · have h := m.frame_countDrop (rs := rs) ((m.routePorts dest).headD 0)
      refine ⟨h.1, fun e he => ?_⟩
      rcases List.mem_cons.1 he with he | he
      · subst he; exact List.Subset.trans (by decide : riseRegs .FAB_PORT_TROUBLE ⊆ flagRegs) hf
      · exact h.2 e he

theorem Mach.frame_effect {rs : List Reg} (m : Mach) (x : Eff) (hf : flagRegs ⊆ rs) (hx : x.within rs) :
    m.Frame rs (m.effect x).1 ∧ ∀ e ∈ (m.effect x).2, e.within rs := by
  cases x with
  | arrive s t =>
    exact ⟨(m.frame_arrive s t).1.mono hf, fun e he => Eff.within_mono hf ((m.frame_arrive s t).2 e he)⟩
  | sticky r i b c d => exact m.frame_rise r i b c d true hf hx
  | quietSticky r i b => exact m.frame_rise r i b 0 0 false hf hx
  | entry x => exact ⟨(m.frame_queueEntry x).1.mono hf, fun e he => Eff.within_mono hf ((m.frame_queueEntry x).2 e he)⟩
  | snap =>
    refine ⟨m.frame_snapshot.mono hf, fun e he => ?_⟩
    simp only [Mach.effect, List.mem_singleton] at he
    subst he; trivial
  | bell => exact m.frame_dispatch _ _ _ _ _ hf

/-- A chain of occurrences reaches only the trouble registers it names and what an arrival reaches. -/
theorem frame_settle {rs : List Reg} (hf : flagRegs ⊆ rs) (n : Nat) (es : List Eff) (m : Mach)
    (he : ∀ e ∈ es, e.within rs) : m.Frame rs (settle n es m) := by
  induction n generalizing es m with
  | zero => exact .refl _ _
  | succ n ih =>
    cases es with
    | nil => exact .refl _ _
    | cons e es =>
      have h := m.frame_effect e hf (he e (by simp))
      refine h.1.trans (ih _ _ ?_)
      intro x hx
      rcases List.mem_append.1 hx with hx | hx
      · exact he x (by simp [hx])
      · exact h.2 x hx

theorem flagRegs_subset (rs : List Reg) : flagRegs ⊆ rs ++ flagRegs := List.subset_append_right _ _

theorem Mach.frame_sendRouted (m : Mach) (type vc dest : Nat) (words : List Nat) (len : Nat) :
    m.Frame flagRegs (m.sendRouted type vc dest words len) :=
  have h := m.frame_dispatch (rs := flagRegs) type vc dest words len (List.Subset.refl _)
  h.1.trans (frame_settle (List.Subset.refl _) _ _ _ h.2)

theorem Mach.frame_raise (m : Mach) (s : Nat) : m.Frame flagRegs (m.raise s) :=
  frame_settle (List.Subset.refl _) _ _ _ (by simp [Eff.within])

theorem Mach.frame_raiseLimited (m : Mach) (s limit : Nat) : m.Frame flagRegs (m.raiseLimited s limit) := by
  unfold Mach.raiseLimited
  split
  · exact (m.frame_markNow s).trans (Mach.frame_raise _ _)
  · exact .refl _ _

theorem Mach.frame_trouble (m : Mach) (f : Field) (i d c : Nat) :
    m.Frame (riseRegs f.reg ++ flagRegs) (m.trouble f i d c) :=
  frame_settle (flagRegs_subset _) _ _ _ (by simp [Eff.within])

theorem Mach.frame_troubleBit (m : Mach) (f : Field) (k i : Nat) :
    m.Frame (riseRegs f.reg ++ flagRegs) (m.troubleBit f k i) :=
  frame_settle (flagRegs_subset _) _ _ _ (by simp [Eff.within])

theorem Mach.frame_troubleNoEntry (m : Mach) (f : Field) (i : Nat) :
    m.Frame (riseRegs f.reg ++ flagRegs) (m.troubleNoEntry f i) :=
  frame_settle (flagRegs_subset _) _ _ _ (by simp [Eff.within])

theorem Mach.frame_log (m : Mach) (b k c d : Nat) : m.Frame flagRegs (m.log b k c d) :=
  frame_settle (List.Subset.refl _) _ _ _ (by simp [Eff.within])

/-! ### The end of a command -/

theorem Mach.frame_noteWraps (old m : Mach) : m.Frame flagRegs (old.noteWraps m) := by
  unfold Mach.noteWraps
  refine Mach.Frame.foldl _ (fun m w => ?_) _ _
  refine Mach.Frame.foldl _ (fun m b => ?_) _ _
  simp only
  split
  · exact .refl _ _
  · refine Mach.Frame.trans (m.frame_clearBitOf .PMC_WRAPPED (32 * w + b) (by decide))
      (Mach.Frame.trans ?_ (Mach.frame_raiseLimited _ _ _))
    refine frame_settle (List.Subset.refl _) _ _ _ fun e he => ?_
    simp only [List.mem_singleton] at he
    subst he
    exact (by decide : riseRegs .PMC_WRAPPED ⊆ flagRegs)

theorem flagRegs_sub_endRegs : flagRegs ⊆ endRegs := fun _ h => List.mem_cons_of_mem _ (List.mem_cons_of_mem _ h)

theorem Mach.frame_setPmc {rs : List Reg} (m : Mach) (x : PmcSt) : m.Frame rs (m.setPmc x) :=
  frame_of rfl (by constructor <;> rfl)

theorem Mach.frame_freeBits {rs : List Reg} (m : Mach) (w : Nat) : m.Frame rs (m.freeBits w).2 :=
  frame_of rfl (by constructor <;> rfl)

theorem Mach.frame_sampLost (m : Mach) : m.Frame endRegs m.sampLost := by
  unfold Mach.sampLost
  refine Mach.Frame.trans ?_ ((Mach.frame_trouble _ _ _ _ _).mono (List.append_subset.2 ⟨by decide, flagRegs_sub_endRegs⟩))
  exact (m.frame_bump _ _ _ (by decide)).trans ((Mach.frame_count _ _ _).mono flagRegs_sub_endRegs)

theorem Mach.frame_pushSample (m : Mach) (r : List Nat) : m.Frame endRegs (m.pushSample r) := by
  have hc (x : Mach) (e : Nat) : x.Frame endRegs (x.count e) := (x.frame_count e 1).mono flagRegs_sub_endRegs
  unfold Mach.pushSample
  simp only
  split
  · exact ((m.frame_setPmc _).trans (Mach.frame_put _ _ _ _ (by decide))).trans (hc _ _)
  · split
    · exact ((m.frame_setPmc _).trans (Mach.frame_sampLost _)).trans
        ((Mach.frame_raise _ _).mono flagRegs_sub_endRegs)
    · exact ((m.frame_setPmc _).trans (hc _ _)).trans (Mach.frame_sampLost _)

theorem Mach.frame_sampleEnd (m : Mach) (k : Nat) (run : Bool) : m.Frame endRegs (m.sampleEnd k run) := by
  unfold Mach.sampleEnd
  refine (m.frame_setPmc _).trans (Mach.Frame.foldl _ (fun m a => ?_) _ _)
  exact (m.frame_freeBits 28).trans (Mach.frame_pushSample _ _)

theorem Mach.frame_sampleEnds (m : Mach) : m.Frame endRegs m.sampleEnds := by
  unfold Mach.sampleEnds
  refine Mach.Frame.foldl _ (fun m e => ?_) _ _
  split
  · split
    · exact m.frame_sampleEnd _ _
    · exact .refl _ _
  · exact .refl _ _

theorem Mach.frame_emit {rs : List Reg} (m : Mach) (o : Out) : m.Frame rs (m.emit o) :=
  frame_of rfl (by constructor <;> rfl)

theorem Mach.frame_emitChange {rs : List Reg} (m : Mach) (p : Pin) (a b : Option Bool) : m.Frame rs (m.emitChange p a b) := by
  unfold Mach.emitChange
  split
  · exact .refl _ _
  · split <;> exact m.frame_emit _

theorem Mach.frame_drivePins {rs : List Reg} (old m : Mach) : m.Frame rs (old.drivePins m) := by
  unfold Mach.drivePins
  simp only
  have h1 (i : List Nat) (a b : Nat → Option Bool) (m : Mach) :
      m.Frame rs (i.foldl (fun (r : Mach) i => r.emitChange (.gpio i) (a i) (b i)) m) :=
    Mach.Frame.foldl _ (fun m i => m.frame_emitChange _ _ _) _ _
  have h2 (i : List Nat) (a b : Nat → Option Bool) (m : Mach) :
      m.Frame rs (i.foldl (fun (r : Mach) p => r.emitChange (.hostIrqN p) (a p) (b p)) m) :=
    Mach.Frame.foldl _ (fun m i => m.frame_emitChange _ _ _) _ _
  have h3 (i : List Nat) (m : Mach) :
      m.Frame rs (i.foldl (fun (r : Mach) k => r.emit (.pin (.pulse k) false)) m) :=
    Mach.Frame.foldl _ (fun m i => m.frame_emit _) _ _
  split
  · exact ((h1 _ _ _ _).trans (h2 _ _ _ _)).trans (h3 _ _)
  · exact (h1 _ _ _ _).trans (h2 _ _ _ _)

/-- What the end of a command leaves alone, when no reset is due. -/
theorem Mach.frame_finish (old m : Mach) (h : m.sys.resetDue = none) : m.Frame endRegs (old.finish m) := by
  have hf := m.frame_sampleEnds.trans ((Mach.frame_noteWraps old m.sampleEnds).mono flagRegs_sub_endRegs)
  have hs : ((old.noteWraps m.sampleEnds)).startReset = old.noteWraps m.sampleEnds := by
    unfold Mach.startReset
    rw [hf.rest.sys, h]
  unfold Mach.finish
  rw [hs]
  exact hf.trans (Mach.frame_drivePins _ _)

@[simp] theorem State.done_mem (s t : State) : (s.done t).mem = t.mem := rfl
@[simp] theorem State.done_flash (s t : State) : (s.done t).flash = t.flash := rfl
@[simp] theorem State.done_ecc (s t : State) : (s.done t).ecc = t.ecc := rfl
@[simp] theorem State.done_pending (s t : State) : (s.done t).pending = t.pending := rfl
@[simp] theorem State.done_vendorKey (s t : State) : (s.done t).fuses.vendorKey = t.fuses.vendorKey := rfl
@[simp] theorem State.done_customerKey (s t : State) : (s.done t).fuses.customerKey = t.fuses.customerKey := rfl
@[simp] theorem State.done_serial (s t : State) : (s.done t).fuses.serial = t.fuses.serial := rfl

theorem State.frame_done (s t : State) (h : t.mach.sys.resetDue = none) : t.mach.Frame endRegs (s.done t).mach :=
  Mach.frame_finish _ _ h

/-- A field of a register that the end of a command does not reach reads as the command left it. -/
theorem State.get_done (s t : State) (f : Field) (i : Nat) (h : t.mach.sys.resetDue = none) (hf : f.reg ∉ endRegs) :
    (s.done t).mach.get f i = t.mach.get f i := by
  simp only [Mach.get, (s.frame_done t h).regs f.reg i hf]

theorem Mach.Frame.get {rs : List Reg} {m n : Mach} (h : m.Frame rs n) (f : Field) (i : Nat) (hf : f.reg ∉ rs) :
    n.get f i = m.get f i := by
  simp only [Mach.get, h.regs f.reg i hf]

end Sys2Proof.Machine
end

