-- ==== Sys2Proof/Laws/Command.lean ====
section
/-! SUPPORT. How a command ends in the modes in which it acts, and what it never touches then. -/

namespace Sys2Proof.Machine

theorem State.always_eq (s : State) (f : Mach → Mach) : s.always f = .next (s.after f) := rfl

theorem State.serving_eq {s : State} (h : s.mach.serves = true) (f : Mach → Mach) : s.serving f = .next (s.after f) := by
  simp [State.serving, State.gated, State.ends, State.after, h]

theorem State.linked_eq {s : State} (h : s.mach.linksRun = true) (f : Mach → Mach) : s.linked f = .next (s.after f) := by
  simp [State.linked, State.gated, State.ends, State.after, h]

theorem State.clocked_eq {s : State} (h : s.mach.clockRuns = true) (f : Mach → Mach) :
    s.clocked f = .next (s.after f) := by
  simp [State.clocked, State.gated, State.ends, State.after, h]

theorem State.awake_eq {s : State} (h : s.mach.mode ≠ .hold) (k : s.mach.mode ≠ .sleep) (f : Mach → Mach) :
    s.awake f = .next (s.after f) := by
  simp [State.awake, State.gated, State.ends, State.after, h, k]

/-- Effects that agree on the machine as it stands lead to the same state. -/
theorem State.after_congr {s : State} {f g : Mach → Mach} (h : f s.mach = g s.mach) : s.after f = s.after g := by
  simp only [State.after, State.on, h]

@[simp] theorem State.after_mem (s : State) (f : Mach → Mach) : (s.after f).mem = s.mem := rfl
@[simp] theorem State.after_flash (s : State) (f : Mach → Mach) : (s.after f).flash = s.flash := rfl
@[simp] theorem State.after_ecc (s : State) (f : Mach → Mach) : (s.after f).ecc = s.ecc := rfl
@[simp] theorem State.after_pending (s : State) (f : Mach → Mach) : (s.after f).pending = s.pending := rfl

theorem State.frame_after {s : State} {f : Mach → Mach} (h : (f s.mach).sys.resetDue = none) :
    (f s.mach).Frame endRegs (s.after f).mach :=
  State.frame_done s (s.on f) h

/-- A field that the end of a command does not reach reads as the command's own effect left it. -/
theorem State.get_after {s : State} {f : Mach → Mach} (g : Field) (i : Nat) (h : (f s.mach).sys.resetDue = none)
    (hg : g.reg ∉ endRegs) : (s.after f).mach.get g i = (f s.mach).get g i :=
  State.get_done s (s.on f) g i h hg

theorem Mach.serves_not_quarantine {m : Mach} (h : m.serves = true) : m.mode ≠ .quarantine := by
  intro e
  simp [Mach.serves, e, Mode.runs] at h

end Sys2Proof.Machine
end

