-- ==== Sys2Proof/Laws/Memory.lean ====
section
/-! SUPPORT. The memories and the flash: a byte read after a write, and the canonical form under every operation. -/

namespace Sys2Proof.Machine

/-! ### Reading after writing -/

@[simp] theorem State.byte_setByte_same (s : State) (a : Nat) (b : Byte) : (s.setByte a b).byte a = b :=
  tGet_tPut_same _ _ _ _

theorem State.byte_setByte_ne (s : State) {a x : Nat} (b : Byte) (h : x ≠ a) : (s.setByte a b).byte x = s.byte x :=
  tGet_tPut_ne _ _ _ _ h

/-- A byte outside those stored reads as before. -/
theorem State.byte_setBytes_out (s : State) (a x : Nat) (l : List Nat) (h : x < a ∨ a + l.length ≤ x) :
    (s.setBytes a l).byte x = s.byte x := by
  induction l generalizing s a with
  | nil => rfl
  | cons b bs ih =>
    simp only [List.length_cons] at h
    rw [State.setBytes, ih _ _ (by omega), byte_setByte_ne _ _ (by omega)]

/-- A byte among those stored reads as the one stored there. -/
theorem State.byte_setBytes_in (s : State) (a i : Nat) (l : List Nat) (h : i < l.length) :
    (s.setBytes a l).byte (a + i) = BitVec.ofNat 8 l[i] := by
  induction l generalizing s a i with
  | nil => simp at h
  | cons b bs ih =>
    cases i with
    | zero =>
      rw [State.setBytes, byte_setBytes_out _ _ _ _ (by omega)]
      simp
    | succ i =>
      have : a + (i + 1) = a + 1 + i := by omega
      rw [State.setBytes, this, ih _ _ _ (by simpa using h)]
      simp

theorem State.setBytes_mach (s : State) (a : Nat) (l : List Nat) : (s.setBytes a l).mach = s.mach := by
  induction l generalizing s a with
  | nil => rfl
  | cons b bs ih => rw [State.setBytes, ih]; rfl

@[simp] theorem State.fbyte_setFbyte_same (s : State) (a v : Nat) : (s.setFbyte a v).fbyte a = v % 256 := by
  simp [State.fbyte, State.setFbyte, BitVec.toNat_ofNat]

theorem State.fbyte_setFbyte_ne (s : State) {a x : Nat} (v : Nat) (h : x ≠ a) : (s.setFbyte a v).fbyte x = s.fbyte x := by
  simp only [State.fbyte, State.setFbyte]
  rw [tGet_tPut_ne _ _ _ _ h]

/-- Programming changes no byte outside the ones programmed. -/
theorem State.fbyte_fprogram_out (s : State) (a x : Nat) (l : List Nat) (h : x < a ∨ a + l.length ≤ x) :
    (s.fprogram a l).fbyte x = s.fbyte x := by
  induction l generalizing s a with
  | nil => rfl
  | cons b bs ih =>
    simp only [List.length_cons] at h
    rw [State.fprogram, ih _ _ (by omega), fbyte_setFbyte_ne _ _ (by omega)]

theorem tGet_filter_key {α : Type} (p : Nat → Bool) (t : List (Nat × α)) (d : α) (k : Nat) :
    tGet (t.filter fun e => p e.1) d k = if p k then tGet t d k else d := by
  induction t with
  | nil => simp
  | cons e t ih =>
    by_cases he : p e.1 = true
    · rw [List.filter_cons_of_pos (by simpa using he)]
      simp only [tGet]
      by_cases hk : k = e.1
      · subst hk; simp [he]
      · simp [hk, ih]
    · rw [List.filter_cons_of_neg (by simpa using he), ih]
      simp only [tGet]
      by_cases hk : k = e.1
      · subst hk; simp [he]
      · simp [hk]

/-- An erase leaves 0xFF in every byte of its sector and every other byte alone. -/
theorem State.fbyte_ferase (s : State) (a x : Nat) :
    (s.ferase a).fbyte x = if x / 65536 = a / 65536 then 0xFF else s.fbyte x := by
  have h : (s.ferase a).flash = s.flash.filter fun e => decide (e.1 / 65536 ≠ a / 65536) := rfl
  simp only [State.fbyte, h]
  rw [tGet_filter_key (fun k => decide (k / 65536 ≠ a / 65536))]
  by_cases hx : x / 65536 = a / 65536 <;> simp [hx]

/-! ### The canonical form -/

theorem State.memoryWf_iff (s : State) :
    s.memoryWf = true ↔ tWf (fun _ => (0 : Byte)) s.mem = true ∧ tWf (fun _ => (0xFF : Byte)) s.flash = true := by
  simp [State.memoryWf, Memory.wf]

theorem State.memoryWf_of_eq {s t : State} (hm : t.mem = s.mem) (hf : t.flash = s.flash) (h : s.memoryWf = true) :
    t.memoryWf = true := by
  simpa [State.memoryWf, hm, hf] using h

theorem State.memoryWf_setByte {s : State} (a : Nat) (b : Byte) (h : s.memoryWf = true) :
    (s.setByte a b).memoryWf = true := by
  rw [memoryWf_iff] at h ⊢
  exact ⟨tWf_tPut (d := fun _ => (0 : Byte)) a b h.1, h.2⟩

theorem State.memoryWf_setBytes {s : State} (a : Nat) (l : List Nat) (h : s.memoryWf = true) :
    (s.setBytes a l).memoryWf = true := by
  induction l generalizing s a with
  | nil => exact h
  | cons b bs ih => exact ih _ (memoryWf_setByte a _ h)

theorem State.memoryWf_setFbyte {s : State} (a v : Nat) (h : s.memoryWf = true) :
    (s.setFbyte a v).memoryWf = true := by
  rw [memoryWf_iff] at h ⊢
  exact ⟨h.1, tWf_tPut (d := fun _ => (0xFF : Byte)) a _ h.2⟩

theorem State.memoryWf_fprogram {s : State} (a : Nat) (l : List Nat) (h : s.memoryWf = true) :
    (s.fprogram a l).memoryWf = true := by
  induction l generalizing s a with
  | nil => exact h
  | cons b bs ih => exact ih _ (memoryWf_setFbyte a _ h)

theorem State.memoryWf_ferase {s : State} (a : Nat) (h : s.memoryWf = true) : (s.ferase a).memoryWf = true := by
  rw [memoryWf_iff] at h ⊢
  exact ⟨h.1, tWf_filter _ h.2⟩

theorem State.memoryWf_clear {s : State} (a n : Nat) (h : s.memoryWf = true) : (s.clear a n).memoryWf = true := by
  rw [memoryWf_iff] at h ⊢
  exact ⟨tWf_filter _ h.1, h.2⟩

theorem State.memoryWf_logErase {s : State} (h : s.memoryWf = true) : s.logErase.memoryWf = true :=
  memoryWf_fprogram _ _ (memoryWf_ferase _ h)

theorem State.memoryWf_logHeader {s : State} (k : Nat) (h : s.memoryWf = true) : (s.logHeader k).memoryWf = true := by
  unfold State.logHeader
  split
  · exact h
  · exact memoryWf_fprogram _ _ (memoryWf_ferase _ h)

theorem State.memoryWf_logWrite {s : State} (pos seq : Nat) (e : TroubleEntry) (h : s.memoryWf = true) :
    (s.logWrite pos seq e).1.memoryWf = true := by
  have w := memoryWf_fprogram (logBase + pos) (e.bytes seq) (memoryWf_logHeader (pos / 65536) h)
  revert w
  unfold State.logWrite
  generalize (s.logHeader (pos / 65536)).fprogram (logBase + pos) (e.bytes seq) = t
  intro w
  simp only
  split
  · exact w
  · split
    · exact memoryWf_logErase w
    · exact w

theorem State.memoryWf_reset : State.reset.memoryWf = true := rfl

theorem State.memoryWf_por {s : State} (h : s.memoryWf = true) : s.por.memoryWf = true := by
  rw [memoryWf_iff] at h ⊢
  exact ⟨rfl, h.2⟩

end Sys2Proof.Machine
end

