-- ==== Sys2Proof/Laws/Modes.lean ====
section
/-! SUPPORT. What leaves the mode as it was. -/

namespace Sys2Proof.Machine

/-- A field of another register leaves the mode as it was. -/
theorem Mach.mode_put (m : Mach) (f : Field) (v i : Nat) (h : f.reg ≠ .SYS_MODE) : (m.put f v i).mode = m.mode := by
  unfold Mach.mode; rw [Mach.get_put_ne m v (Or.inl (Ne.symm h))]

/-- So does another register. -/
theorem Mach.mode_wr (m : Mach) (r : Reg) (i : Nat) (v : DWord) (h : r ≠ .SYS_MODE) : (m.wr r i v).mode = m.mode := by
  unfold Mach.mode Mach.get; rw [Mach.rd_wr_ne m v (Or.inl (Ne.symm h))]

/-- A fold of steps that keep the mode keeps it. -/
theorem Mach.mode_foldl {α : Type} (f : Mach → α → Mach) (h : ∀ (m : Mach) a, (f m a).mode = m.mode) (l : List α) (m : Mach) :
    (l.foldl f m).mode = m.mode := by
  induction l generalizing m with
  | nil => rfl
  | cons a l ih => rw [List.foldl_cons, ih, h]

/-- What a frame without SYS_MODE leaves alone includes the mode. -/
theorem Mach.mode_frame {rs : List Reg} {m n : Mach} (h : m.Frame rs n) (hr : Reg.SYS_MODE ∉ rs) : n.mode = m.mode := by
  unfold Mach.mode; rw [h.get F.SYS_MODE_MODE 0 hr]

/-- Stopping the services keeps the mode. -/
theorem Mach.mode_stopServices (m : Mach) : m.stopServices.mode = m.mode := by
  have a : ∀ m : Mach, m.stopLists.mode = m.mode := by
    intro m
    unfold Mach.stopLists
    dsimp only
    rw [Mach.setEvc_mode, Mach.mode_put _ _ _ _ (by decide), Mach.mode_foldl _ (fun m a => by exact Mach.mode_put _ _ _ _ (by decide)),
      Mach.mode_foldl _ (fun m a => by exact Mach.mode_wr _ _ _ _ (by decide)),
      Mach.mode_foldl _ (fun m a => by split; exact Mach.mode_put _ _ _ _ (by decide); rfl)]
  have b : ∀ m : Mach, m.abortJobs.mode = m.mode := by
    intro m
    unfold Mach.abortJobs
    dsimp only
    rw [Mach.setChk_mode]
    refine Mach.mode_foldl _ (fun m j => ?_) _ _
    rw [Mach.mode_frame (Mach.frame_raise _ _) (by decide), Mach.mode_frame (Mach.frame_count _ _ _) (by decide)]
    refine (Mach.mode_put _ _ _ _ (by decide)).trans ?_
    refine (Mach.mode_put _ _ _ _ (by decide)).trans ?_
    refine (Mach.mode_put _ _ _ _ (by decide)).trans ?_
    exact Mach.mode_put _ _ _ _ (by decide)
  have show_ : ∀ m : Mach, m.showContacts.mode = m.mode := by
    intro m
    unfold Mach.showContacts
    dsimp only
    refine (Mach.mode_put _ _ _ _ (by decide)).trans ?_
    refine Mach.mode_foldl _ (fun m a => ?_) _ _
    split
    · iterate 6 refine (Mach.mode_put _ _ _ _ (by decide)).trans ?_
      rfl
    · iterate 3 refine (Mach.mode_wr _ _ _ _ (by decide)).trans ?_
      rfl
  have rings : ∀ (m : Mach) (n : Nat) (l : List (Nat × Nat × Nat × Bool)), (m.setRings n l).mode = m.mode := by
    intro m n l
    unfold Mach.setRings
    split <;> rfl
  have c : ∀ m : Mach, m.touchStop.mode = m.mode := by
    intro m
    unfold Mach.touchStop Mach.showRegions
    dsimp only
    iterate 5 refine (Mach.mode_put _ _ _ _ (by decide)).trans ?_
    refine (rings _ _ _).trans ((show_ _).trans (Mach.setTch_mode _ _))
  have d : ∀ m : Mach, m.capsOff.mode = m.mode := fun m => Mach.mode_foldl _ (fun m a => Mach.mode_put _ _ _ _ (by decide)) _ _
  unfold Mach.stopServices
  rw [d, c, b, a]

/-- A change of stage outside the operating modes keeps the mode. -/
theorem Mach.mode_setStage_load (m : Mach) (n r : Nat) (h : m.mode.operating = false) : (m.setStage n r).mode = m.mode := by
  unfold Mach.setStage
  dsimp only
  split
  · rfl
  · have e : ∀ x : Mach, x.mode = m.mode → (if x.mode.operating ∧ n < 5 then x.enterMode x.operatingMode else x).mode = m.mode := by
      intro x hx; rw [if_neg (by rw [hx, h]; simp), hx]
    apply e
    have k : ((m.put F.PWR_STATUS_STAGE n).put F.SYS_MODE_STAGE n |>.putB F.TST_STATUS_PAUSED (n ≠ 0)).mode = m.mode := by
      refine (Mach.mode_put _ _ _ _ (by decide)).trans ?_
      have : ((m.put F.PWR_STATUS_STAGE n).put F.SYS_MODE_STAGE n).mode = (m.put F.PWR_STATUS_STAGE n).mode := by
        unfold Mach.mode; rw [Mach.get_put_field (f := F.SYS_MODE_STAGE) (g := F.SYS_MODE_MODE) _ _ _ rfl (by decide) (by decide)]
      rw [this]; exact Mach.mode_put _ _ _ _ (by decide)
    split
    · split
      · rw [Mach.mode_frame (Mach.frame_trouble _ _ _ _ _) (by decide), Mach.mode_frame (Mach.frame_count _ _ _) (by decide), Mach.mode_frame (Mach.frame_raise _ _) (by decide)]
        exact (Mach.mode_put _ _ _ _ (by decide)).trans k
      · rw [Mach.mode_frame (Mach.frame_count _ _ _) (by decide), Mach.mode_frame (Mach.frame_raise _ _) (by decide)]
        exact (Mach.mode_put _ _ _ _ (by decide)).trans k
    · rw [if_neg (by rw [k, h]; simp), Mach.mode_frame (Mach.frame_raise _ _) (by decide)]; exact k

end Sys2Proof.Machine
end

