-- ==== Sys2Proof/Tests/Slice0.lean ====
section
/-! SUPPORT. Tests of the model: small steps whose result the spec states, terms that are not well formed, and for the
statements of `Certificates/Slice0/Obligations.lean` states and operands that meet their hypotheses. -/

namespace Sys2Proof.Tests

open Sys2Proof.Machine

set_option Elab.async false
set_option linter.unusedVariables false

/-! ### Small states -/

theorem pairOf {α β : Type} {p : α × β} {a : α} (h : p.1 = a) : p = (a, p.2) := by cases p; cases h; rfl

/-- Fields put into a machine: field, instance, value. -/
def sets (m : Mach) (l : List (Field × Nat × Nat)) : Mach := l.foldl (fun m x => m.put x.1 x.2.2 x.2.1) m

/-- The machine after reset in a mode, with fields put and more done to it. -/
def mk (mode : Nat) (l : List (Field × Nat × Nat)) (f : Mach → Mach) : State :=
  { State.reset with mach := f (sets State.reset.mach ((F.SYS_MODE_MODE, 0, mode) :: l)) }

def flitT : TimeFlit := ⟨0, 0, 0, 0, 0, 0, false, false, false, false, 0, 0, 0, 0, 1, 0, 0, 0, 0, 0⟩
/-- A flit with a time body, its CRC right for a count of 0. -/
def timed : Flit :=
  let f : Flit := { flit0 with type := 1, bodyLen := 48, body := flitT.words }
  { f with crc := f.crcFor 0 }
def config0 : ConfigBody := ⟨1, false, 0, 0, 0, 0, 0, 0, 0⟩
def remote0 : RemoteReq := ⟨255, ⟨.seq 0, 4⟩, false, 9, 0x10000000, 4, false, 0⟩
def key0 : FlowKey := ⟨9, false, 1, 0⟩
def ctrl0 : CtrlMsg := ⟨key0, 1, 2, 0, 0, 5, 0⟩
def entry0 : FlowEntry := ⟨key0, false, 6, 2, true, none, 1, 5, 0, 1⟩
def member0 : Member := ⟨key0, 5, 1, false, 0⟩
def wit0 : Witness := ⟨7, 1, 2, 3, 2, 0, false, false, false, false, 9, 1⟩
def pic0 : Pic :=
  { id := 1, wit := wit0, lines := 0, rows := [], width := 64, height := 64, cropX := 0, cropY := 0, fmt := 0, last := false,
    concealed := false, clean := true, arrived := 0, usedBy := none }
def slice0 : SliceResult :=
  { covered := 16, crosses := false, samples := 1024, cycles := 100, fault := .none, refs := [], keep := [], hashBad := false,
    contain := false, poc := 0, shown := true, outputs := [], discards := [] }
def encPic0 : EncPic :=
  { frame := pic0, key := true, refresh := false, budget := 0, rem := 0, held := 0,
    rows := [⟨2, some 0, 0, 0, false, 0⟩, ⟨1, some 0, 0, 0, false, 0⟩], fallen := false, starved := 0, lost := 0, emitted := 0,
    out := 0, requested := false, prevRepeats := 0, prevFrozen := false }
def session0 : MgmtSession := ⟨.fabric 9, 5, [], [], [], 0, [], 0, 0, none, [], []⟩
def contact0 : Contact := ⟨9, 1, 0, 0, 0, 0, false, 0, 0, 0, 0, false, false⟩
def slot0 : SlotResult := ⟨5, 7, true, false, false, 0, 0, 0, 0⟩

/-- Action words at the last eight slots of action memory. -/
def placed (s : State) (ws : List Nat) : State := s.setBytes (actionBase + 8 * 131064) (ws.flatMap (natBytes 8))

/-- The command answers a next state. -/
def answers (c : Instr) (s : State) : Bool :=
  match exec c s with
  | .next _ => true
  | _ => false

/-! ### What is not well formed -/

/-- Each command has one operand outside its range. -/
theorem test_ill_formed_1 : ∀ c ∈ [
      Instr.registerWrite ⟨.spi, 64⟩ .w32 0 0, .registerWrite ⟨.spi, 28⟩ .w32 (2 ^ 40) 0,
      .registerWrite ⟨.spi, 28⟩ .w32 0 (2 ^ 32), .lowWordRead ⟨.spi, 64⟩ 0, .lowWordRead ⟨.spi, 28⟩ (2 ^ 40),
      .clockFault 32, .bandSlotStart 256, .bandOverrun 8 [], .bandOverrun 0 ([64]), .timeFlitSend 8,
      .timeFlitReceive 8 timed true, .timeFlitReceive 0 { timed with vc := 4 } true,
      .timeFlitReceive 0 flit0 true,
      .timeParentChange 8, .ptpMessageTimer 8 .sync, .pulseArm 8 true true, .pulseEdge 8, .pulseReturn 8,
      .captureEdge 4 true, .capStampRead ⟨.spi, 64⟩ 0, .capStampRead ⟨.spi, 28⟩ 4, .portTrain 8, .trainFail 8,
      .trainLock 8 0 1, .trainLock 0 5 1, .trainLock 0 0 3, .configSend 8, .config 8 config0,
      .config 0 { config0 with node := 4096 }, .configTimeout 8, .flitReceive 8 flit0,
      .flitReceive 0 { flit0 with vc := 4 }, .nak 8 0, .nak 0 4096, .idleLimit 8, .retrain 8, .portDisable 8,
      .memReq 4096 ⟨false, 1, 0, 4, []⟩, .memReq 0 ⟨false, 256, 0, 4, []⟩, .memRsp 256 0 [], .memRsp 0 16 [],
      .memRsp 0 0 ([256]), .memTimeout 256, .join 8 ctrl0, .join 0 { ctrl0 with resv := 65536 }],
    c.wf = false := by decide +kernel

/-- Each command has one operand outside its range. -/
theorem test_ill_formed_2 : ∀ c ∈ [
      Instr.accept 8 ctrl0, .accept 0 { ctrl0 with resv := 65536 }, .refuse 8 ctrl0,
      .refuse 0 { ctrl0 with resv := 65536 }, .leave 8 ctrl0, .leave 0 { ctrl0 with resv := 65536 },
      .flowDown 8 ctrl0, .flowDown 0 { ctrl0 with resv := 65536 }, .rejoin { key0 with origin := 4096 },
      .resvCheck 8, .state 8 ⟨9, 5, 1, 0⟩, .state 0 ⟨4096, 5, 1, 0⟩, .state 0 ⟨9, 16, 1, 0⟩, .peerUnknown 4096,
      .doorbell 32, .streamSliceReceive { key0 with origin := 4096 } ⟨[], 0, 0, false, false, false, []⟩,
      .streamSliceReceive key0 ⟨[], 0, 0, false, false, false, [256]⟩,
      .spanBandRowReceive { key0 with origin := 4096 } ⟨[], 1, 0, 0, 16, false, false, 3, 64, 2048, 2048, true⟩,
      .spanBandRowReceive key0 ⟨[], 1, 0, 0, 0, false, false, 3, 64, 2048, 2048, true⟩,
      .spanBandRowReceive key0 ⟨[], 1, 0, 0, 17, false, false, 3, 64, 2048, 2048, true⟩,
      .flowSilent { key0 with origin := 4096 }, .ethFrameReceive 8 [] true, .ethFrameReceive 0 ([256]) true,
      .auReleaseTimeout 8 0 0, .auReleaseTimeout 0 64 0, .auReleaseTimeout 0 0 (2 ^ 32), .streamSilent 8 0,
      .streamSilent 0 64, .ethLink 8 true true, .neighbourRequest 8 0, .neighbourRequest 0 (2 ^ 128),
      .neighbourExpire 8 0, .neighbourExpire 0 (2 ^ 128), .membershipReport 8 0, .membershipReport 0 (2 ^ 128),
      .rtcpSrSend (2 ^ 32), .openMgmt (.fabric 4096) 0 [], .openMgmt (.fabric 9) 256 [],
      .openMgmt (.fabric 9) 0 ([256]), .prove (.fabric 4096) (List.replicate 32 0), .prove (.fabric 9) [],
      .prove (.fabric 9) (List.replicate 32 256), .mgmtRead 4 0 true 0 0, .mgmtRead 0 (2 ^ 32) true 0 0,
      .mgmtRead 0 0 true (2 ^ 52) 0],
    c.wf = false := by decide +kernel

/-- Each command has one operand outside its range. -/
theorem test_ill_formed_3 : ∀ c ∈ [
      Instr.mgmtRead 0 0 true 0 4096, .mgmtWrite 4 0 true 0 [], .mgmtWrite 0 (2 ^ 32) true 0 [],
      .mgmtWrite 0 0 true (2 ^ 52) [], .mgmtWrite 0 0 true 0 ([256]), .mgmtFence 4 0 true,
      .mgmtFence 0 (2 ^ 32) true, .mgmtPending 4 0 true none, .mgmtPending 0 (2 ^ 32) true none,
      .mgmtPending 0 0 true (some [256]), .close 4 0 true, .close 0 (2 ^ 32) true, .mgmtIdle 4,
      .mgmtLockoutEnd (.fabric 4096), .csiFrameStart 2 0 0, .csiFrameStart 0 4 0, .csiFrameStart 0 0 65536,
      .csiLine 2 0 0 [] true, .csiLine 0 4 0 [] true, .csiLine 0 0 64 [] true, .csiLine 0 0 0 ([256]) true,
      .csiFrameEnd 2 0, .csiFrameEnd 0 4, .capSilent 2, .capEnWrite 2, .sliceDecoded 24 0 slice0,
      .sliceDecoded 0 64 slice0, .workLimit 64, .contextResetEnd 64, .rowCoded 8 0 0 0, .rowCoded 0 16 0 0,
      .rowLimitReached 16 0, .sliceEmit 16 [], .sliceEmit 0 ([[256]]), .encKeyReq ⟨.spi, 64⟩ 0,
      .encKeyReq ⟨.spi, 28⟩ (2 ^ 32), .encLtrReq ⟨.spi, 64⟩ 0, .encLtrReq ⟨.spi, 28⟩ (2 ^ 32),
      .cmpGroupCommit ⟨.spi, 64⟩ 0 0, .cmpGroupCommit ⟨.spi, 28⟩ 8 0, .cmpGroupCommit ⟨.spi, 28⟩ 0 (2 ^ 32),
      .cmpFence ⟨.spi, 64⟩ 0, .cmpFence ⟨.spi, 28⟩ (2 ^ 64), .cmpFenceClr ⟨.spi, 64⟩ 0,
      .cmpFenceClr ⟨.spi, 28⟩ (2 ^ 64)],
    c.wf = false := by decide +kernel

/-- Each command has one operand outside its range. -/
theorem test_ill_formed_4 : ∀ c ∈ [
      Instr.cmpReadoutIn ⟨.spi, 64⟩ .w32 0, .cmpReadoutIn ⟨.spi, 28⟩ .w32 (2 ^ 32), .readoutTimeout 64,
      .lutSwap ⟨.spi, 64⟩ 0, .lutSwap ⟨.spi, 28⟩ 8, .lutWindowWrite ⟨.spi, 64⟩ .w32 0 0,
      .lutWindowWrite ⟨.spi, 28⟩ .w32 (2 ^ 40) 0, .lutWindowWrite ⟨.spi, 28⟩ .w32 0 (2 ^ 32), .lutEccFatal 3,
      .sigOutComplete 16 [], .auxGo ⟨.spi, 64⟩ 0, .auxGo ⟨.spi, 28⟩ (2 ^ 32), .auxReply 3 [] true,
      .auxReply 0 ([256]) true, .scnBlWrite ⟨.spi, 64⟩ 0, .scnBlWrite ⟨.spi, 28⟩ (2 ^ 32), .stuckContact 10,
      .tchRebase ⟨.spi, 64⟩ 0, .tchRebase ⟨.spi, 28⟩ 1024, .tchRx [], .tchRx ([0, 0, 0, 2 ^ 64]), .tchRxSilent 4096,
      .proxSample 4 0, .proxSample 0 (2 ^ 32), .eventArrival 512, .seqNop 16, .seqWrite32 16, .seqWrite64 16,
      .seqRmw 16, .seqPoll 16, .seqPollTimeout 16, .seqWaitEvent 16, .seqWaitEventTimeout 16, .seqWaitTime 16,
      .seqWaitTimeExpiry 16, .seqIfBits 16, .seqJump 16, .seqFence 16, .seqSignal 16, .seqCommit 16, .seqCopy 16,
      .seqLog 16, .seqYield 16, .seqEnd 16, .seqRunLimit 16],
    c.wf = false := by decide +kernel

/-- Each command has one operand outside its range. -/
theorem test_ill_formed_5 : ∀ c ∈ [
      Instr.holdoffEnd 32, .evcPendWrite ⟨.spi, 64⟩ 0 0, .evcPendWrite ⟨.spi, 28⟩ 16 0,
      .evcPendWrite ⟨.spi, 28⟩ 0 (2 ^ 32), .evcHostPendWrite ⟨.spi, 64⟩ 0 0 0, .evcHostPendWrite ⟨.spi, 28⟩ 4 0 0,
      .evcHostPendWrite ⟨.spi, 28⟩ 0 16 0, .evcHostPendWrite ⟨.spi, 28⟩ 0 0 (2 ^ 32), .evcDoorbell ⟨.spi, 64⟩ 0,
      .evcDoorbell ⟨.spi, 28⟩ (2 ^ 32), .gpioEdge 16 true, .i2cGo ⟨.spi, 64⟩ 0, .i2cGo ⟨.spi, 28⟩ (2 ^ 32),
      .i2cDone 3 [], .i2cDone 0 ([256]), .gateCommit ⟨.spi, 64⟩ 0, .gateCommit ⟨.spi, 28⟩ 256,
      .gateSyncWrite ⟨.spi, 64⟩ 0, .gateSyncWrite ⟨.spi, 28⟩ (2 ^ 32), .cisternFatal (2 ^ 40),
      .spiWrite (2 ^ 64) [] true, .spiWrite 0 ([256]) true, .spiReadReq (2 ^ 64) 0 true, .spiReadReq 0 65536 true,
      .spiUnknownCommand 256, .chkCompute ⟨.spi, 64⟩ 0 0, .chkCompute ⟨.spi, 28⟩ 32 0,
      .chkCompute ⟨.spi, 28⟩ 0 (2 ^ 32), .chkCheck ⟨.spi, 64⟩ 0 0, .chkCheck ⟨.spi, 28⟩ 32 0,
      .chkCheck ⟨.spi, 28⟩ 0 (2 ^ 32), .chkAppend ⟨.spi, 64⟩ 0 0, .chkAppend ⟨.spi, 28⟩ 32 0,
      .chkAppend ⟨.spi, 28⟩ 0 (2 ^ 32), .chkCheckStrip ⟨.spi, 64⟩ 0 0, .chkCheckStrip ⟨.spi, 28⟩ 32 0,
      .chkCheckStrip ⟨.spi, 28⟩ 0 (2 ^ 32), .chkJobDone 32, .flashRead ⟨.spi, 64⟩ 0, .flashRead ⟨.spi, 28⟩ 512,
      .flashProgram ⟨.spi, 64⟩ 0, .flashProgram ⟨.spi, 28⟩ 512, .sysResetReq ⟨.spi, 64⟩ 0,
      .sysResetReq ⟨.spi, 28⟩ (2 ^ 32), .sysWdtKick ⟨.spi, 64⟩ 0],
    c.wf = false := by decide +kernel

/-- Each command has one operand outside its range. -/
theorem test_ill_formed_6 : ∀ c ∈ [
      Instr.sysWdtKick ⟨.spi, 28⟩ (2 ^ 32), .pwrRail 9 0, .pwrRail 0 65536, .pmcWrap 320, .pmcSnap ⟨.spi, 64⟩ 0,
      .pmcSnap ⟨.spi, 28⟩ (2 ^ 32), .pmcSw ⟨.spi, 64⟩ 0, .pmcSw ⟨.spi, 28⟩ (2 ^ 32), .sensorRead [], .bypass 256,
      .fuseProg (2 ^ 384) 0, .fuseProg 0 (2 ^ 32), .dbgFuseDone (2 ^ 384), .dbgRead32 (2 ^ 52),
      .dbgWrite32 (2 ^ 52) 0, .dbgWrite32 0 (2 ^ 32), .dbgRead64 (2 ^ 52), .dbgWrite64 (2 ^ 52) 0,
      .dbgWrite64 0 (2 ^ 64), .cmpReceiptRead ⟨.spi, 64⟩, .cmpReleaseRead ⟨.spi, 64⟩, .tchTestGo ⟨.spi, 64⟩,
      .tchReportRead ⟨.spi, 64⟩, .seqLogRead ⟨.spi, 64⟩, .gateSyncRead ⟨.spi, 64⟩, .gateRecordRead ⟨.spi, 64⟩,
      .sysFenceRead ⟨.spi, 64⟩, .flashErase ⟨.spi, 64⟩, .svcNew ⟨.spi, 64⟩, .svcVerify ⟨.spi, 64⟩,
      .requestLive ⟨.spi, 64⟩, .requestStandby ⟨.spi, 64⟩, .requestSleep ⟨.spi, 64⟩, .requestService ⟨.spi, 64⟩,
      .requestHalt ⟨.spi, 64⟩, .softEth ⟨.spi, 64⟩, .softCap ⟨.spi, 64⟩, .softDec ⟨.spi, 64⟩, .softEnc ⟨.spi, 64⟩,
      .softTch ⟨.spi, 64⟩, .softChk ⟨.spi, 64⟩, .pmcSampRead ⟨.spi, 64⟩, .tstResultRead ⟨.spi, 64⟩, .listenEnd []],
    c.wf = false := by decide +kernel

/-- Masters, flits, flow messages and addresses, each with one field outside its range. -/
theorem test_ill_formed_operands :
    (∀ x ∈ [(⟨.seq 16, 4⟩ : Master), ⟨.mgmt 4, 20⟩, ⟨.remote 4096, 29⟩, ⟨.spi, 64⟩], x.wf = false) ∧
    (∀ f ∈ [{ flit0 with type := 16 }, { flit0 with vc := 4 }, { flit0 with hops := 64 }, { flit0 with dest := 4096 },
      { flit0 with src := 4096 }, { flit0 with label := 1024 }, { flit0 with bodyLen := 64 }, { flit0 with pktSeq := 256 },
      { flit0 with body := List.replicate 7 0 }, { flit0 with body := [2 ^ 64] }, { flit0 with txSeq := 4096 },
      { flit0 with ackSeq := 4096 }, { flit0 with cvc := 4 }, { flit0 with credits := 16 }, { flit0 with crc := 2 ^ 32 }],
      f.wf = false) ∧
    (∀ k ∈ [{ key0 with origin := 4096 }, { key0 with id := 2 ^ 32 }, { key0 with part := 16 }], k.wf = false) ∧
    (∀ c ∈ [{ ctrl0 with key := { key0 with part := 16 } }, { ctrl0 with vc := 4 }, { ctrl0 with label := 1024 },
      { ctrl0 with member := 4096 }, { ctrl0 with refuser := 4096 }, { ctrl0 with resv := 65536 },
      { ctrl0 with status := 16 }], c.wf = false) ∧
    (∀ p ∈ [MgmtPeer.eth 8 0 0 0, .eth 0 (2 ^ 48) 0 0, .eth 0 0 (2 ^ 128) 0, .eth 0 0 0 65536, .fabric 4096],
      p.wf = false) ∧
    (∀ q ∈ [(⟨false, 256, 0, 4, []⟩ : MemReq), ⟨false, 1, 2 ^ 40, 4, []⟩, ⟨false, 1, 0, 8192, []⟩, ⟨true, 1, 0, 4, [256]⟩],
      q.wf = false) := by
  decide +kernel

/-- A command whose operands lie in their ranges is well formed. -/
theorem test_well_formed :
    ∀ c ∈ [Instr.por, .registerWrite ⟨.seq 15, 19⟩ .w32 0x4 5, .flitReceive 7 flit0, .join 7 ctrl0, .memReq 9 ⟨false, 1, 0, 4, []⟩,
      .prove (.fabric 9) (List.replicate 32 255), .tchRx [0, 0, 0, 2 ^ 64 - 1], .dbgWrite64 8 (2 ^ 64 - 1)],
      c.wf = true := by decide +kernel

/-! ### Small steps and values that the spec states -/

/-- The state a command leaves. -/
def after (c : Instr) (s : State) : State :=
  match exec c s with
  | .next t => t
  | _ => s

/-- R358, check column: the four values over the bytes 0x31 to 0x39. -/
theorem test_check_values :
    let l := [0x31, 0x32, 0x33, 0x34, 0x35, 0x36, 0x37, 0x38, 0x39]
    checkValue .crc32c none l = 0xE3069283 ∧ checkValue .crc32 none l = 0xCBF43926 ∧
      checkValue .crc16 none l = 0x29B1 ∧ checkValue .crc64 none l = 0x6C40DF5F0B497347 := by decide +kernel

/-- The example under R333: CMP_LAYER_SRC[8] lies at 0x0060_1204. -/
theorem test_place : (findReg 0x601204).map (fun x => (x.desc.reg, x.i)) = some (.CMP_LAYER_SRC, 8) := by decide +kernel

/-- The worked example under R11: DEFER_LIMIT accepts 0 to 15; a write of 16 is refused, the field keeps its value and
CMP_TROUBLE.BAD_VALUE is set. -/
theorem test_defer_limit_refused :
    let s := mk 5 [] id
    let t := after (.registerWrite ⟨.seq 0, 1⟩ .w32 (0x600104 + 2 * 0x40) 16) s
    t.mach.get F.CMP_GROUP_CFG_DEFER_LIMIT 2 = s.mach.get F.CMP_GROUP_CFG_DEFER_LIMIT 2 ∧
      t.mach.on F.CMP_TROUBLE_BAD_VALUE = true := by decide +kernel

/-- The worked example after R136: a class B picture captured at 237.600 s and scanned out at 237.668 s with 201 µs of
uncertainty has age 68,201 µs; as class C, stamped at 237.645 s, it would read 23,000 µs. -/
theorem test_ages :
    (checkPicture (237668000000 * 65536) 0 1000 80000 120000 0 false ⟨237600000000, 201, 1, false, false, true, 0, 0⟩).age =
      68201 ∧
    (checkPicture (237668000000 * 65536) 0 1000 80000 120000 0 false ⟨237645000000, 0, 0, false, false, true, 0, 0⟩).age =
      23000 := by decide +kernel

/-- The worked example of a framed record: a job of MODE 2 over nine bytes at 0x01_0000_2000 writes 83 92 06 E3 after
them. -/
theorem test_framed_record :
    let s := mk 5 [(F.MEM_STATUS_VISIBLE, 0, 4096)] fun m => m.setChk { m.chk with jobs := [(24,
      ⟨⟨.seq 2, 1⟩, 2, 0, false, false, 0, 0x100002000, 9, 0⟩)] }
    let s := s.setBytes 0x100002000 [0x31, 0x32, 0x33, 0x34, 0x35, 0x36, 0x37, 0x38, 0x39]
    let t := after (.chkJobDone 24) s
    t.bytes 0x100002009 4 = [0x83, 0x92, 0x06, 0xE3] ∧ t.mach.get F.CHK_CH_VALUE_VALUE 24 = 0xE3069283 ∧
      t.mach.get F.PMC_ARRIVALS_ARRIVALS 408 = 1 := by decide +kernel

/-- R60: one tick of the raw counter is 0.64 ns. -/
theorem test_ticks : nsTicks 64 = 100 ∧ usTicks 2 = 3125 := by decide

/-- R321: WRITE32 of a list stores its value, low byte first, and the list goes on after its two words. -/
theorem test_write32 :
    let s := placed (mk 5 [(F.SEQ_STATE_STATE, 15, seqRun), (F.SEQ_STATE_PC, 15, 131064), (F.GATE_MASTER_P_P, 0, 2 ^ 64 - 1)] id)
      [2 ^ 60 + 2 ^ 59 + 0x10000010, 0x11223344]
    let t := after (.seqWrite32 15) s
    t.bytes 0x10000010 4 = [0x44, 0x33, 0x22, 0x11] ∧ t.mach.get F.SEQ_STATE_PC 15 = 131066 ∧
      t.mach.get F.SEQ_ST_ST 15 = 0 := by decide +kernel

/-- R321: JUMP goes to its index. -/
theorem test_jump :
    let s := placed (mk 5 [(F.SEQ_STATE_STATE, 15, seqRun), (F.SEQ_STATE_PC, 15, 131064)] id) [8 * 2 ^ 60 + 8192]
    (after (.seqJump 15) s).mach.get F.SEQ_STATE_PC 15 = 8192 := by decide +kernel

/-- R2: W1C clears the bits written as 1 and leaves the others. -/
theorem test_w1c :
    let s := mk 5 [(F.CMP_TROUBLE_BAD_VALUE, 0, 1)] id
    (after (.registerWrite ⟨.seq 0, 1⟩ .w32 0x600034 0) s).mach.on F.CMP_TROUBLE_BAD_VALUE = true ∧
      (after (.registerWrite ⟨.seq 0, 1⟩ .w32 0x600034 (2 ^ 32 - 1)) s).mach.on F.CMP_TROUBLE_BAD_VALUE = false := by
  decide +kernel

/-- R351: a write to an unmapped address is a gate fault with cause UNMAPPED, and event 336. -/
theorem test_unmapped :
    let t := after (.registerWrite ⟨.seq 0, 1⟩ .w32 0x17000000 5) (mk 5 [] id)
    t.mach.gate.records.length = 1 ∧ t.mach.get F.PMC_ARRIVALS_ARRIVALS 336 = 1 ∧ t.mem = [] := by decide +kernel

/-- R444: the IDCODE is 0x07400C3D. -/
theorem test_idcode : (after .idcode State.reset).mach.out.head? = some (.jtag irIdcode 0x07400C3D) := by decide +kernel

/-- A step takes the command at the front. -/
theorem test_step_front :
    (match step { State.reset with pending := [.idcode, .por] } with
      | .next t => t.pending
      | _ => []) = [.por] := by decide +kernel

/-- R60: reading a memory that nothing has written gives 0, and the flash reads erased (log entry 2). -/
theorem test_unlisted : State.reset.byte 0x10000000 = 0 ∧ State.reset.fbyte 0 = 255 := by decide +kernel

/-! ### The hypotheses of the statements can be met -/

/-- A write that the gate lets pass and every register takes. -/
def grants (s : State) (x : HostAccess) : Bool :=
  let g := s.mach.gateCheck x.by_ ⟨x.addr, x.width.bytes, true⟩ false
  let n := s.sampled x true 0 g.2
  s.mach.clockRuns && decide (x.addr < 0x10000000) && decide (g.1 = none) &&
    decide (∀ c ∈ coversOf x.width x.addr x.value, n.coverOk (n.storedBy x) x.by_ c = true)

theorem grants_spec {s : State} {x : HostAccess} (h : grants s x = true) :
    ∃ m, s.Granted x true m ∧ (s.sampled x true 0 m).Takes x := by
  simp only [grants, Bool.and_eq_true, decide_eq_true_eq] at h
  exact ⟨_, ⟨h.1.1.1, h.1.1.2, pairOf h.1.2⟩, h.2⟩

/-- A write of 32 bits by the sequencers' own lists. -/
def w32 (a v : Nat) : HostAccess := ⟨⟨.seq 0, 1⟩, .w32, a, v⟩

theorem test_hypotheses_TimeFlitCommands :
    (let p : Nat := 7
     let s := mk 5 [(F.FAB_PORT_STATUS_STATE, p, 3), (F.TIME_STATUS_IS_ROOT, 0, 1)] id
     s.mach.serves = true ∧ s.mach.portActive p = true ∧ s.mach.on F.TIME_STATUS_IS_ROOT = true) ∧
    (let p : Nat := 7
     let s := mk 5 [(F.FAB_PORT_STATUS_STATE, p, 3), (F.TIME_STATUS_IS_ROOT, 0, 0), (F.TIME_STATUS_PARENT_VALID, 0,
       1), (F.TIME_STATUS_PARENT, 0, p)] id
     s.mach.serves = true ∧ s.mach.portActive p = true ∧ s.mach.on F.TIME_STATUS_IS_ROOT = false ∧ (s.mach.isParent p
       = true ∨ s.mach.timeFlitFresh p = false)) ∧
    (let p : Nat := 7
     let s := mk 5 [(F.FAB_PORT_STATUS_STATE, p, 3), (F.TIME_STATUS_IS_ROOT, 0, 0)] id
     s.mach.serves = true ∧ s.mach.portActive p = true ∧ s.mach.on F.TIME_STATUS_IS_ROOT = false ∧ (s.mach.isParent p
       = true ∨ s.mach.timeFlitFresh p = false)) ∧
    (let p : Nat := 7
     let f : Flit :=
       { ({ flit0 with type := 1, vc := 0, body := [5], bodyLen := 48 }) with crc := ({ flit0 with type := 1, vc := 0, body := [5], bodyLen := 48 } : Flit).crcFor 0 + 1 }
     let good : Bool := true
     let s := mk 5 [(F.FAB_PORT_STATUS_STATE, p, 3)] id
     s.mach.linksRun = true ∧ s.mach.portActive p = true ∧ f.type = 1 ∧ (good && (s.mach.fabPort p).crcOk f) = false) ∧
    (let p : Nat := 7
     let f : Flit := timed
     let s := mk 5 [(F.FAB_PORT_STATUS_STATE, p, 3)] id
     s.mach.linksRun = true ∧ s.mach.portActive p = true ∧ f.type = 1 ∧ f.vc = 0 ∧ f.bodyLen ≤ 48 ∧ f.nak = false ∧
       s.mach.mode ≠ .quarantine ∧ (s.mach.fabPort p).crcOk f = true) ∧
    (let p : Nat := 7
     let f : TimeFlit := flitT
     let m := (mk 5 [(F.TIME_STATUS_IS_ROOT, 0, 1)] id).mach
     let d := m.linkDelay p f
     let n := (d.setTimePort p
       { d.timePort p with rxSeq := f.seq, rxRaw := d.raw, flit := some f, flitRaw := d.raw }).election p f
     n.on F.TIME_STATUS_IS_ROOT = true) ∧
    (let p : Nat := 7
     let f : TimeFlit := flitT
     let m := (mk 5 [(F.TIME_STATUS_PARENT_VALID, 0, 1), (F.TIME_STATUS_PARENT, 0, 7)] fun m => m.setTimePort 7
       { timePort0 with delays := [5] }).mach
     let d := m.linkDelay p f
     let n := (d.setTimePort p
       { d.timePort p with rxSeq := f.seq, rxRaw := d.raw, flit := some f, flitRaw := d.raw }).election p f
     n.on F.TIME_STATUS_IS_ROOT = false ∧ n.usable p f = true ∧ n.isParent p = true) := by
  decide +kernel

theorem test_hypotheses_TimeServoCommands :
    (let s := mk 5 [(F.TIME_STATUS_STATE, 0, servoAcquire)] fun m =>
       { m with time := { m.time with withinSince := some 0 } }
     s.mach.serves = true ∧ s.mach.servo = servoAcquire ∧ s.mach.time.withinSince.isSome = true) ∧
    (let s := mk 5 [(F.TIME_STATUS_IS_ROOT, 0, 0), (F.TIME_STATUS_STATE, 0, servoHoldover)] id
     s.mach.serves = true ∧ s.mach.on F.TIME_STATUS_IS_ROOT = false ∧ s.mach.servo ≠ servoFree) ∧
    (let s := mk 5 [(F.TIME_STATUS_IS_ROOT, 0, 0), (F.TIME_STATUS_STATE, 0, servoLocked)] id
     s.mach.serves = true ∧ s.mach.on F.TIME_STATUS_IS_ROOT = false ∧ s.mach.servo ≠ servoFree ∧ s.mach.time.rootLost
       = false) ∧
    (let s := mk 5 [(F.TIME_ROOT_CFG_CANDIDATE, 0, 1)] fun m => { m with time := { m.time with claimFrom := some 0 } }
     s.mach.serves = true ∧ s.mach.candidate = true ∧ s.mach.claimDue = true) ∧
    (let s := mk 5 [(F.TIME_ROOT_CFG_PREEMPT, 0, 1), (F.TIME_STATUS_IS_ROOT, 0, 0), (F.TIME_ROOT_CFG_CANDIDATE, 0,
       1), (F.TIME_STATUS_STATE, 0, servoLocked), (F.TIME_ROOT_NODE, 0, 9), (F.TIME_ROOT_PRIO, 0, 9)] fun m =>
       { m with raw := msTicks 10000, time := { m.time with refLockedRaw := some 0, refClass := 3 } }
     s.mach.serves = true ∧ s.mach.candidate = true ∧ s.mach.on F.TIME_ROOT_CFG_PREEMPT = true ∧ s.mach.on
       F.TIME_STATUS_IS_ROOT = false ∧ s.mach.servo ≠ servoFree ∧ s.mach.refSettled = true ∧ s.mach.ownBetter = true) ∧
    (let s := mk 4 [(F.TIME_STATUS_STATE, 0, servoFree), (F.TIME_STATUS_IS_ROOT, 0, 0), (F.TIME_ROOT_CFG_CANDIDATE,
       0, 1)] id
     s.mach.serves = true ∧ s.mach.mode = .join ∧ s.mach.candidate = true ∧ s.mach.servo = servoFree ∧ s.mach.on
       F.TIME_STATUS_IS_ROOT = false ∧ s.mach.time.claimFrom = none) ∧
    (let p : Nat := 7
     let h : Nat := 0
     let s := mk 5 [(F.TIME_STATUS_PARENT_VALID, 0, 1), (F.TIME_STATUS_IS_ROOT, 0, 0), (F.TIME_STATUS_PARENT, 0, 2),
       (F.TIME_STATUS_HOPS, 0, 2), (F.FAB_PORT_STATUS_STATE, 7, 3)] fun m => m.setTimePort 7
       { timePort0 with flit := some flitT, delays := [5] }
     s.mach.serves = true ∧ s.mach.offers p = some h ∧ s.mach.on F.TIME_STATUS_PARENT_VALID = true ∧ s.mach.isParent
       p = false ∧ s.mach.on F.TIME_STATUS_IS_ROOT = false ∧ h + 1 < s.mach.get F.TIME_STATUS_HOPS) := by
  decide +kernel

theorem test_hypotheses_ClaimMakesRoot :
    let s := mk 5 [(F.TIME_ROOT_CFG_CANDIDATE, 0, 1)] fun m => { m with time := { m.time with claimFrom := some 0 } }
    s.mach.serves = true ∧ s.mach.candidate = true ∧ s.mach.claimDue = true ∧ s.mach.sys.resetDue = none := by
  decide +kernel

theorem test_hypotheses_TimePinCommands_1 :
    (let s := mk 5 [(F.TIME_REF_CFG_PPS_EN, 0, 1), (F.TIME_ROOT_CFG_REF_SEL, 0, 2)] id
     s.mach.serves = true ∧ s.mach.on F.TIME_REF_CFG_PPS_EN = true ∧ 2 ≤ s.mach.get F.TIME_ROOT_CFG_REF_SEL ∧
       s.mach.ppsGood = true) ∧
    (let s := mk 5 [(F.TIME_REF_CFG_PPS_EN, 0, 1), (F.TIME_ROOT_CFG_REF_SEL, 0, 3)] fun m =>
       { m with raw := 9, time := { m.time with ppsLast := some 0 } }
     s.mach.serves = true ∧ s.mach.on F.TIME_REF_CFG_PPS_EN = true ∧ 2 ≤ s.mach.get F.TIME_ROOT_CFG_REF_SEL ∧
       s.mach.ppsGood = false) ∧
    (let n : Nat := 10000000
     let s := mk 5 [(F.TIME_REF_CFG_F10M_EN, 0, 1)] id
     s.mach.serves = true ∧ s.mach.on F.TIME_REF_CFG_F10M_EN = true ∧ ((n : Int) - 10000000).natAbs ≤ 10 * s.mach.get
       F.TIME_REF_CFG_F10M_WIN) ∧
    (let n : Nat := 0
     let s := mk 5 [(F.TIME_REF_CFG_F10M_EN, 0, 1)] id
     s.mach.serves = true ∧ s.mach.on F.TIME_REF_CFG_F10M_EN = true ∧ 10 * s.mach.get F.TIME_REF_CFG_F10M_WIN < ((n :
       Int) - 10000000).natAbs) ∧
    (let s := mk 5 [] fun m => { m with time := { m.time with refClass := 3 } }
     s.mach.serves = true ∧ s.mach.time.refClass = 3) ∧
    (let s := mk 5 [] id
     s.mach.serves = true) ∧
    (let p : Nat := 7
     let s := mk 5 [(F.TIME_ETH_CTL_ROLE, p, 2), (F.TIME_ETH_CTL_ROLE, 7, 2)] id
     s.mach.serves = true ∧ s.mach.get F.TIME_ETH_CTL_ROLE p = 2 ∧ (s.mach.ptpPort p).state ≠ .passive) := by
  decide +kernel

theorem test_hypotheses_TimePinCommands_2 :
    (let p : Nat := 7
     let kind : PtpKind := .delayReq
     let s := mk 5 [(F.TIME_ETH_CTL_ROLE, 7, 1)] id
     s.mach.serves = true ∧ (kind = .delayReq ∧ s.mach.get F.TIME_ETH_CTL_ROLE p = 1 ∧ s.mach.peerProfile = false) ∨
       (kind = .pdelayReq ∧ s.mach.get F.TIME_ETH_CTL_ROLE p ≠ 0 ∧ s.mach.peerProfile = true)) ∧
    (let p : Nat := 7
     let kind : PtpKind := .pdelayReq
     let s := mk 5 [(F.TIME_ETH_CTL_ROLE, 7, 2), (F.TIME_PTP_CFG_PROFILE, 0, 1)] id
     s.mach.serves = true ∧ (kind = .delayReq ∧ s.mach.get F.TIME_ETH_CTL_ROLE p = 1 ∧ s.mach.peerProfile = false) ∨
       (kind = .pdelayReq ∧ s.mach.get F.TIME_ETH_CTL_ROLE p ≠ 0 ∧ s.mach.peerProfile = true)) ∧
    (let k : Nat := 3
     let per : Bool := true
     let s := mk 5 [(F.TIME_PULSE_CTL_EN, k, 0), (F.TIME_PULSE_PERIOD_PERIOD, 3, 100 * 65536),
       (F.TIME_PULSE_WIDTH_WIDTH, 3, 92), (F.TIME_PULSE_START_START, 3, 100)] id
     s.mach.clockRuns = true ∧ s.mach.on F.TIME_PULSE_CTL_EN k = false ∧ (per = true → 100 ≤ s.mach.get
       F.TIME_PULSE_PERIOD_PERIOD k / 65536 ∧ s.mach.get F.TIME_PULSE_PERIOD_PERIOD k / 65536 ≤ 4294967295 ∧
       s.mach.get F.TIME_PULSE_WIDTH_WIDTH k + 8 ≤ s.mach.get F.TIME_PULSE_PERIOD_PERIOD k / 65536) ∧ s.mach.wallFx +
       100 * 65536 ≤ s.mach.get F.TIME_PULSE_START_START k * 65536) ∧
    (let k : Nat := 3
     let s := mk 5 [] fun m => m.setPulse 3 { pulse0 with armed := true }
     s.mach.clockRuns = true ∧ (s.mach.pulse k).armed = true) ∧
    (let k : Nat := 3
     let s := mk 5 [] fun m => m.setPulse 3 { pulse0 with active := true }
     s.mach.clockRuns = true ∧ (s.mach.pulse k).active = true) ∧
    (let k : Nat := 3
     let rising : Bool := false
     let s := mk 5 [(F.TIME_CAP_CTL_EN, k, 1), (F.TIME_CAP_CTL_EDGE, 3, 2)] id
     s.mach.clockRuns = true ∧ s.mach.on F.TIME_CAP_CTL_EN k = true ∧ (s.mach.get F.TIME_CAP_CTL_EDGE k = 3 ∨
       s.mach.get F.TIME_CAP_CTL_EDGE k = (if rising then 1 else 2)) ∧ (s.mach.capIn k).last = none ∧ (s.mach.capIn
       k).fifo.length < 16) := by
  decide +kernel

theorem test_hypotheses_PortCommands_1 :
    (let p : Nat := 7
     let s := mk 5 [(F.FAB_PORT_STATUS_STATE, p, portDown), (F.FAB_PORT_CTL_EN, p, 1)] id
     s.mach.linksRun = true ∧ s.mach.portState p = portDown ∧ s.mach.on F.FAB_PORT_CTL_EN p = true) ∧
    (let p : Nat := 7
     let s := mk 5 [(F.FAB_PORT_STATUS_STATE, p, portTrainSt)] id
     s.mach.linksRun = true ∧ s.mach.portState p = portTrainSt) ∧
    (let p : Nat := 7
     let lanes : Nat := 2
     let rate : Nat := 2
     let s := mk 5 [(F.FAB_PORT_STATUS_STATE, p, portTrainSt), (F.FAB_PORT_CTL_RATE_MAX, 7, 2),
       (F.FAB_PORT_CTL_WIDTH_MIN, 7, 2)] id
     s.mach.linksRun = true ∧ s.mach.portState p = portTrainSt ∧ (lanes = 4 ∨ (lanes = 2 ∧ s.mach.get
       F.FAB_PORT_CTL_WIDTH_MIN p = 2)) ∧ 1 ≤ rate ∧ rate ≤ s.mach.get F.FAB_PORT_CTL_RATE_MAX p) ∧
    (let p : Nat := 7
     let s := mk 5 [(F.FAB_PORT_STATUS_STATE, p, portConfig)] id
     s.mach.linksRun = true ∧ s.mach.portState p = portConfig) ∧
    (let p : Nat := 7
     let s := mk 5 [(F.FAB_PORT_STATUS_STATE, p, portConfig)] id
     s.mach.linksRun = true ∧ s.mach.portState p = portConfig) := by
  decide +kernel

theorem test_hypotheses_PortCommands_2 :
    (let p : Nat := 7
     let s := mk 5 [(F.FAB_PORT_STATUS_STATE, 7, portConfig)] id
     s.mach.linksRun = true ∧ (s.mach.portState p = portConfig ∨ s.mach.portState p = portActiveSt)) ∧
    (let p : Nat := 7
     let s := mk 5 [(F.FAB_PORT_STATUS_STATE, p, 3)] id
     s.mach.linksRun = true ∧ s.mach.portActive p = true) ∧
    (let p : Nat := 7
     let s := mk 5 [(F.FAB_PORT_STATUS_STATE, p, 3)] id
     s.mach.linksRun = true ∧ s.mach.portActive p = true) ∧
    (let p : Nat := 7
     let s := mk 5 [(F.FAB_PORT_CTL_EN, p, 1)] id
     s.mach.linksRun = true ∧ s.mach.on F.FAB_PORT_CTL_EN p = true) ∧
    (let p : Nat := 7
     let s := mk 5 [(F.FAB_PORT_STATUS_STATE, p, 3)] id
     s.mach.linksRun = true ∧ s.mach.portActive p = true) := by
  decide +kernel

theorem test_hypotheses_FlitReceiveCommand :
    (let p : Nat := 7
     let f : Flit :=
       { ({ flit0 with type := 13, vc := 1, label := 5, bodyLen := 16, body := [7, 9] }) with crc := ({ flit0 with type := 13, vc := 1, label := 5, bodyLen := 16, body := [7, 9] } : Flit).crcFor 0 }
     let s := mk 5 [(F.FAB_PORT_STATUS_STATE, p, 3)] id
     s.mach.linksRun = true ∧ p < 8 ∧ s.mach.portActive p = true ∧ f.type ≠ 1 ∧ f.nak = false ∧ (s.mach.fabPort
       p).crcOk f = true ∧ (s.mach.fabPort p).countOf f = (s.mach.fabPort p).rxCount) ∧
    (let p : Nat := 7
     let f : Flit :=
       { ({ flit0 with type := 0, bodyLen := 0 }) with crc := ({ flit0 with type := 0, bodyLen := 0 } : Flit).crcFor 0 }
     let s := mk 5 [(F.FAB_PORT_STATUS_STATE, p, 3)] id
     s.mach.linksRun = true ∧ p < 8 ∧ s.mach.portActive p = true ∧ f.type = 0 ∧ f.vc < 4 ∧ f.bodyLen = 0 ∧ f.nak =
       false ∧ (s.mach.fabPort p).crcOk f = true ∧ (s.mach.fabPort p).countOf f = (s.mach.fabPort p).rxCount) ∧
    (let p : Nat := 7
     let f : Flit :=
       { ({ flit0 with type := 13, txSeq := 4095 }) with crc := ({ flit0 with type := 13, txSeq := 4095 } : Flit).crcFor 4095 }
     let s := mk 5 [(F.FAB_PORT_STATUS_STATE, p, 3)] fun m => m.setFabPort 7 { fabPort0 with rxCount := 4096 }
     s.mach.linksRun = true ∧ p < 8 ∧ s.mach.portActive p = true ∧ f.type ≠ 1 ∧ (s.mach.fabPort p).crcOk f = true ∧
       (s.mach.fabPort p).countOf f < (s.mach.fabPort p).rxCount) ∧
    (let p : Nat := 7
     let f : Flit :=
       { ({ flit0 with type := 13, txSeq := 1 }) with crc := ({ flit0 with type := 13, txSeq := 1 } : Flit).crcFor 4097 }
     let s := mk 5 [(F.FAB_PORT_STATUS_STATE, p, 3)] fun m => m.setFabPort 7 { fabPort0 with rxCount := 4096 }
     s.mach.linksRun = true ∧ p < 8 ∧ s.mach.portActive p = true ∧ f.type ≠ 1 ∧ (s.mach.fabPort p).crcOk f = true ∧
       (s.mach.fabPort p).rxCount < (s.mach.fabPort p).countOf f ∧ (s.mach.fabPort p).nakSent = false) ∧
    (let p : Nat := 7
     let f : Flit := { ({ flit0 with type := 13 }) with crc := ({ flit0 with type := 13 } : Flit).crcFor 0 + 1 }
     let s := mk 5 [(F.FAB_PORT_STATUS_STATE, p, 3)] id
     s.mach.linksRun = true ∧ p < 8 ∧ s.mach.portActive p = true ∧ f.type ≠ 1 ∧ (s.mach.fabPort p).crcOk f = false ∧
       (s.mach.fabPort p).nakSent = false) := by
  decide +kernel

theorem test_hypotheses_RemoteAccessCommands :
    (let q : MemReq := ⟨true, 1, 0x10000000, 0, List.replicate 4096 1⟩
     let s := mk 5 [] id
     s.mach.serves = true ∧ q.write = true ∧ 0 < q.data.length ∧ q.data.length ≤ 4096) ∧
    (let q : MemReq := ⟨false, 1, 0x10000000, 4096, []⟩
     let s := mk 5 [] id
     s.mach.serves = true ∧ q.write = false ∧ 0 < q.len ∧ q.len ≤ 4096) ∧
    (let tag : Nat := 255
     let x : RemoteReq := remote0
     let s := mk 5 [] fun m => m.setFab { m.fab with remote := [remote0] }
     s.mach.serves = true ∧ s.mach.remoteReq (tag % 256) = some x ∧ x.write = false) ∧
    (let tag : Nat := 255
     let x : RemoteReq := remote0
     let s := mk 5 [] fun m => m.setFab { m.fab with remote := [remote0] }
     s.mach.serves = true ∧ s.mach.remoteReq (tag % 256) = some x ∧ x.write = false) := by
  decide +kernel

theorem test_hypotheses_FlowCommands_1 :
    (let q : Nat := 7
     let p : Nat := 6
     let l : Nat := 0
     let c : CtrlMsg := ctrl0
     let s := mk 5 [(F.FAB_PORT_STATUS_STATE, q, 3), (F.FAB_ROUTE_VALID, 9, 1), (F.FAB_ROUTE_PORT, 9, 6),
       (F.FAB_PORT_STATUS_STATE, 6, 3), (F.FAB_PORT_RESV_LIMIT, 7, 5)] id
     s.mach.serves = true ∧ s.mach.portActive q = true ∧ c.key.origin ≠ s.mach.nodeId ∧ s.mach.entryOf c.key = none ∧
       s.mach.towards c.key.origin = .inl p ∧ s.mach.freeLabel p = some l ∧ (s.mach.addBranch
       { key := c.key, origin := false, port := p, label := l, local_ := false, group := none, vc := c.vc, resv := c.resv, pktSeq := 0, headVc := c.vc }
       q c false).1 = 0) ∧
    (let q : Nat := 7
     let c : CtrlMsg := ctrl0
     let e : FlowEntry := entry0
     let s := mk 5 [(F.FAB_PORT_STATUS_STATE, q, 3), (F.FAB_PORT_RESV_LIMIT, 7, 5)] fun m => m.setFab
       { m.fab with entries := [entry0], members := [member0] }
     s.mach.serves = true ∧ s.mach.portActive q = true ∧ s.mach.entryOf c.key = some e ∧ (s.mach.addBranch e q c
       true).1 = 0) ∧
    (let p : Nat := 6
     let c : CtrlMsg := ctrl0
     let e : FlowEntry := entry0
     let s := mk 5 [(F.FAB_PORT_STATUS_STATE, p, 3)] fun m => m.setFab
       { m.fab with entries := [entry0], members := [member0] }
     s.mach.serves = true ∧ s.mach.portActive p = true ∧ s.mach.entryAt p c.label = some e ∧ e.key = c.key) ∧
    (let p : Nat := 6
     let c : CtrlMsg := ctrl0
     let e : FlowEntry := entry0
     let s := mk 5 [(F.FAB_PORT_STATUS_STATE, p, 3)] fun m => m.setFab
       { m.fab with entries := [entry0], members := [member0] }
     s.mach.serves = true ∧ s.mach.portActive p = true ∧ s.mach.entryAt p c.label = some e ∧ e.key = c.key) ∧
    (let q : Nat := 7
     let c : CtrlMsg := ctrl0
     let e : FlowEntry := entry0
     let s := mk 5 [(F.FAB_PORT_STATUS_STATE, q, 3)] fun m => m.setFab
       { m.fab with entries := [entry0], members := [member0] }
     s.mach.serves = true ∧ s.mach.portActive q = true ∧ s.mach.entryOf c.key = some e) := by
  decide +kernel

theorem test_hypotheses_FlowCommands_2 :
    (let p : Nat := 6
     let c : CtrlMsg := ctrl0
     let e : FlowEntry := entry0
     let s := mk 5 [(F.FAB_PORT_STATUS_STATE, p, 3)] fun m => m.setFab
       { m.fab with entries := [entry0], members := [member0] }
     s.mach.serves = true ∧ s.mach.portActive p = true ∧ s.mach.entryAt p c.label = some e ∧ e.key = c.key) ∧
    (let key : FlowKey := key0
     let x : Member := { member0 with status := stPathDown }
     let s := mk 5 [] fun m => m.setFab
       { m.fab with entries := [entry0], members := [{ member0 with status := stPathDown }] }
     s.mach.serves = true ∧ s.mach.member key = some x ∧ x.accepted = false ∧ (x.status = 0 ∨ x.status = stPathDown ∨
       x.status = stOriginAbsent)) ∧
    (let p : Nat := 7
     let s := mk 5 [(F.FAB_PORT_STATUS_STATE, p, 3)] id
     s.mach.serves = true ∧ s.mach.portActive p = true) ∧
    (let key : FlowKey := key0
     let x : Member := { member0 with accepted := true }
     let e : FlowEntry := entry0
     let s := mk 5 [] fun m => m.setFab
       { m.fab with entries := [entry0], members := [{ member0 with accepted := true }] }
     s.mach.serves = true ∧ s.mach.member key = some x ∧ s.mach.entryOf key = some e ∧ x.accepted = true ∧ e.local_ =
       true) := by
  decide +kernel

theorem test_hypotheses_StateCommands :
    (let s := mk 5 [(F.FAB_NODE_ID_VALID, 0, 1)] id
     s.mach.linksRun = true ∧ s.mach.on F.FAB_NODE_ID_VALID = true) ∧
    (let p : Nat := 7
     let c : StateMsg := ⟨9, 5, 1, 0⟩
     let s := mk 5 [(F.FAB_PORT_STATUS_STATE, p, 3)] id
     s.mach.serves = true ∧ s.mach.portActive p = true ∧ c.origin ≠ s.mach.nodeId ∧ tFind s.mach.fab.peerSeq c.origin
       = none) ∧
    (let s := mk 5 [] id
     s.mach.serves = true) ∧
    (let s := mk 5 [] id
     s.mach.serves = true) := by
  decide +kernel

theorem test_hypotheses_FlowPacketCommands :
    (let key : FlowKey := key0
     let x : SliceIn := ⟨wit0.words, 4, 0, true, true, false, [1, 2, 3, 4]⟩
     let n : Nat := 63
     let w : Witness := wit0
     let s := mk 5 [(F.DEC_CTX_STATUS_STATE, 63, 1), (F.DEC_CTX_STREAM_ID, 63, 1), (F.DEC_CTX_BS_BS_KIB, 63, 1)] fun
       m => m.setFab { m.fab with entries := [entry0] }
     s.mach.serves = true ∧ s.mach.flowHere key = true ∧ s.mach.ctxOfStream key.id = some n ∧ Witness.ofWords
       x.record = some w ∧ s.mach.decState n ≠ decShed ∧ x.data.length = x.bytes ∧ (s.mach.decCtx n).ofSpoilt x.index
       w.frameNum = false ∧ (s.mach.decCtx n).usedBytes + x.bytes ≤ s.mach.get F.DEC_CTX_BS_BS_KIB n * 1024) ∧
    (let key : FlowKey := { key0 with span := true }
     let r : BandRow := ⟨wit0.words, 1, 0, 255, 16, false, false, 0, 64, rowBytes 0 64 16, rowBytes 0 64 16, true⟩
     let w : Witness := wit0
     let p : Pic := { pic0 with fmt := 0 }
     let s := mk 5 [] fun m =>
       { m.setFab { m.fab with entries := [{ entry0 with key := { key0 with span := true } }] } with cmp := { m.cmp with spans := [{ key := { key0 with span := true }, slots := [{ pic0 with fmt := 0 }] }] } }
     s.mach.serves = true ∧ s.mach.flowHere key = true ∧ Witness.ofWords r.record = some w ∧ r.unbroken = true ∧
       r.received = r.bytes ∧ s.mach.rowFits key r = true ∧ (s.mach.spanPool key).spoilt r.row = false ∧
       (s.mach.spanPool key).slots.find? (fun p => p.wit.frameNum = w.frameNum && p.wit.srcNode = w.srcNode) = some p
       ∧ p.wit = w ∧ p.width = r.width ∧ p.fmt = r.fmt) ∧
    (let key : FlowKey := { key0 with span := true }
     let r : BandRow := ⟨wit0.words, 1, 0, 255, 16, false, false, 0, 64, rowBytes 0 64 16, rowBytes 0 64 16, true⟩
     let w : Witness := wit0
     let s := mk 5 [] fun m => m.setFab { m.fab with entries := [{ entry0 with key := { key0 with span := true } }] }
     s.mach.serves = true ∧ s.mach.flowHere key = true ∧ Witness.ofWords r.record = some w ∧ r.unbroken = true ∧
       r.received = r.bytes ∧ s.mach.rowFits key r = true ∧ (s.mach.spanPool key).spoilt r.row = false ∧
       (s.mach.spanPool key).slots.find? (fun p => p.wit.frameNum = w.frameNum && p.wit.srcNode = w.srcNode) = none ∧
       (s.mach.spanPool key).slots.length < 3) := by
  decide +kernel

theorem test_hypotheses_EthernetCommands_1 :
    (let p : Nat := 7
     let s := mk 5 [(F.ETH_PORT_CTL_EN, 7, 1), (F.ETH_PORT_STATUS_LINK, 7, 1)] id
     s.mach.ethReceives p = true) ∧
    (let p : Nat := 7
     let l : List Nat := [1, 2, 3]
     let s := mk 5 [(F.ETH_PORT_CTL_EN, 7, 1), (F.ETH_PORT_STATUS_LINK, 7, 1)] id
     s.mach.ethReceives p = true ∧ l.length < 4) ∧
    (let p : Nat := 7
     let l : List Nat := List.replicate 60 0 ++ natBytes 4 (checkValue .crc32 none (List.replicate 60 0))
     let s := mk 5 [(F.ETH_PORT_CTL_EN, 7, 1), (F.ETH_PORT_STATUS_LINK, 7, 1)] id
     s.mach.ethReceives p = true ∧ 64 ≤ l.length ∧ checkValue .crc32 none (l.take (l.length - 4)) = ofNatBytes
       (l.drop (l.length - 4)) ∧ l.length ≤ s.mach.get F.ETH_PORT_CTL_MAX_FRAME p) ∧
    (let p : Nat := 7
     let e : Nat := 63
     let ts : Nat := 5
     let a : AuIn := { ts := 5, pkts := [], arrival := 0, lastRaw := 0, map := none }
     let s := mk 5 [] fun m => m.setEthStream 511
       { ethStream0 with aus := [{ ts := 5, pkts := [], arrival := 0, lastRaw := 0, map := none }], released := [6] }
     s.mach.serves = true ∧ (s.mach.ethStream (p * 64 + e)).aus.find? (fun a => a.ts = ts) = some a ∧
       ((s.mach.ethStream (p * 64 + e)).aus.map (·.ts) ++ (s.mach.ethStream (p * 64 + e)).released).any (fun t => 0 <
       tsDiff t ts) = true) ∧
    (let p : Nat := 7
     let e : Nat := 63
     let s := mk 5 [(F.ETH_STREAM_STATUS_STATE, 511, entReceiving)] id
     s.mach.serves = true ∧ (s.mach.entState (p * 64 + e) = entWaiting ∨ s.mach.entState (p * 64 + e) = entReceiving)) := by
  decide +kernel

theorem test_hypotheses_EthernetCommands_2 :
    (let p : Nat := 7
     let s := mk 5 [(F.ETH_PORT_CTL_EN, p, 1), (F.ETH_PORT_STATUS_LINK, p, 0)] id
     s.mach.serves = true ∧ s.mach.on F.ETH_PORT_CTL_EN p = true ∧ s.mach.on F.ETH_PORT_STATUS_LINK p = false) ∧
    (let p : Nat := 7
     let s := mk 5 [(F.ETH_PORT_STATUS_LINK, p, 1)] id
     s.mach.serves = true ∧ s.mach.on F.ETH_PORT_STATUS_LINK p = true) ∧
    (let p : Nat := 7
     let b : Nat × Nat := ((15 * 1562500000, 0) : Nat × Nat)
     let s := mk 5 [] id
     s.mach.serves = true ∧ takeTokens (s.mach.ethPort p).arp s.mach.raw (s.mach.get F.ETH_LIMITS_ARP_RATE p) (16 *
       1562500000) 1562500000 = some b) ∧
    (let s := mk 5 [] id
     s.mach.serves = true) ∧
    (let s := mk 5 [] id
     s.mach.serves = true) := by
  decide +kernel

theorem test_hypotheses_ManagementCommands_1 :
    (let p : MgmtPeer := .fabric 9
     let key : Nat := 5
     let nonce : List Nat := List.replicate 16 0
     let row : List Nat := [5] ++ List.replicate 63 0
     let b : Nat × Nat := ((8 * second - second, 0) : Nat × Nat)
     let s := mk 5 [] fun m => { m with cfg := { m.cfg with keys := [[5] ++ List.replicate 63 0] } }
     s.mach.serves = true ∧ (s.mach.mgmtSource p).locked = none ∧ takeTokens (s.mach.mgmtSource p).bucket s.mach.raw
       8 (8 * second) second = some b ∧ s.mach.mgmtKey key = some row ∧ nonce.length = 16 ∧
       s.mach.eth.sessions.length < 4) ∧
    (let p : MgmtPeer := .fabric 9
     let a : MgmtSession := session0
     let row : List Nat := [5] ++ List.replicate 63 0
     let s := mk 5 [] fun m =>
       { m with cfg := { m.cfg with keys := [[5] ++ List.replicate 63 0] }, eth := { m.eth with attempts := [session0] } }
     s.mach.serves = true ∧ s.mach.eth.attempts.find? (fun (a : MgmtSession) => a.peer.same p) = some a ∧
       s.mach.mgmtKey a.key = some row) ∧
    (let k : Nat := 3
     let q : Nat := 1
     let n : Nat := 1024
     let s := mk 5 [] fun m => m.setSession 3 session0
     (s.mach.mgmtTake k q true (s.mach.sessionPort k)).1 = true ∧ 1 ≤ n ∧ n ≤ 1024) ∧
    (let k : Nat := 3
     let q : Nat := 1
     let d : List Nat := List.replicate 1024 0
     let s := mk 5 [] fun m => m.setSession 3 session0
     (s.mach.mgmtTake k q true (s.mach.sessionPort k)).1 = true ∧ 1 ≤ d.length ∧ d.length ≤ 1024) ∧
    (let k : Nat := 3
     let q : Nat := 1
     let s := mk 5 [] fun m => m.setSession 3 session0
     s.mach.serves = true ∧ (s.mach.mgmtTake k q true (s.mach.sessionPort k)).1 = true) := by
  decide +kernel

theorem test_hypotheses_ManagementCommands_2 :
    (let k : Nat := 3
     let q : Nat := 1
     let s := mk 5 [] fun m => m.setSession 3 session0
     s.mach.serves = true ∧ (s.mach.mgmtTake k q true (s.mach.sessionPort k)).1 = true) ∧
    (let k : Nat := 3
     let q : Nat := 1
     let l : List Nat := List.replicate 64 0
     let s := mk 5 [] fun m => m.setSession 3 session0
     s.mach.serves = true ∧ (s.mach.mgmtTake k q true (s.mach.sessionPort k)).1 = true ∧ 1 ≤ l.length ∧ l.length ≤ 64) ∧
    (let k : Nat := 3
     let q : Nat := 1
     let s := mk 5 [] fun m => m.setSession 3 session0
     s.mach.serves = true ∧ (s.mach.mgmtAccept k q true (s.mach.sessionPort k)).1 = true) ∧
    (let s := mk 5 [] id
     s.mach.serves = true) ∧
    (let p : MgmtPeer := .fabric 9
     let s := mk 5 [] fun m => m.setMgmtSource { mgmtSource0 (.fabric 9) with locked := some 0 }
     s.mach.clockRuns = true ∧ (s.mach.mgmtSource p).locked.isSome = true) := by
  decide +kernel

theorem test_hypotheses_CaptureCommands :
    (let c : Nat := 1
     let s := mk 5 [(F.CAP_STATUS_STATE, 1, 1)] id
     s.mach.serves = true ∧ s.mach.capState c ≠ capOff ∧ (s.mach.capPort c).current = none) ∧
    (let c : Nat := 1
     let d : List Nat := List.replicate 128 0
     let f : Pic := pic0
     let s := mk 5 [(F.CAP_GEOM_WIDTH, 1, 64), (F.CAP_GEOM_HEIGHT, 1, 64)] fun m => m.setCapPort 1
       { capPort0 with current := some pic0 }
     s.mach.serves = true ∧ (s.mach.capPort c).current = some f ∧ (s.mach.capPort c).failed = 0 ∧ d.length = (if
       s.mach.get F.CAP_CTL_DT c = 0x1F then s.mach.get F.CAP_GEOM_WIDTH c * 5 / 2 else 2 * s.mach.get
       F.CAP_GEOM_WIDTH c) ∧ (s.mach.capPort c).lineCount < s.mach.get F.CAP_GEOM_HEIGHT c) ∧
    (let c : Nat := 1
     let f : Pic := pic0
     let s := mk 5 [(F.CAP_GEOM_HEIGHT, 1, 64)] fun m => m.setCapPort 1
       { capPort0 with current := some pic0, lineCount := 64 }
     s.mach.serves = true ∧ (s.mach.capPort c).current = some f ∧ (s.mach.capPort c).failed = 0 ∧ (s.mach.capPort
       c).lineCount = s.mach.get F.CAP_GEOM_HEIGHT c) ∧
    (let c : Nat := 1
     let s := mk 5 [(F.CAP_STATUS_STATE, 1, capReceiving)] id
     s.mach.serves = true ∧ (s.mach.capState c = capWaiting ∨ s.mach.capState c = capReceiving)) ∧
    (let c : Nat := 1
     let s := mk 5 [(F.CAP_CTL_EN, c, 0)] id
     s.mach.clockRuns = true ∧ s.mach.on F.CAP_CTL_EN c = false) := by
  decide +kernel

theorem test_hypotheses_DecoderCommands :
    (let e : Nat := 23
     let n : Nat := 63
     let d : DecPic := { pic := pic0, taken := 1 }
     let s := mk 5 [] fun m =>
       { m.setDecCtx 63 { decCtx0 with cur := some ({ pic := pic0, taken := 1 }) } with dec := { (m.setDecCtx 63 { decCtx0 with cur := some ({ pic := pic0, taken := 1 }) }).dec with engines := [(23, 63)] } }
     s.mach.serves = true ∧ (s.mach.decCtx n).cur = some d ∧ tFind s.mach.dec.engines e = some n ∧ n ≠ orphan) ∧
    (let d : DecPic := { pic := pic0, taken := 1 }
     let r : SliceResult := { slice0 with contain := true }
     let m := (mk 5 [(F.DEC_CTX_WORK_WORK_X, 63, 1)] id).mach
     let x : DecPic := { d with cycles := d.cycles + r.cycles, slices := d.slices + 1 }
     r.contain = true) ∧
    (let n : Nat := 63
     let d : DecPic := { pic := pic0, taken := 1 }
     let r : SliceResult := { slice0 with cycles := 10 ^ 9 }
     let m := (mk 5 [(F.DEC_CTX_WORK_WORK_X, 63, 1)] id).mach
     let x : DecPic := { d with cycles := d.cycles + r.cycles, slices := d.slices + 1 }
     r.contain = false ∧ m.workBound n x < d.cycles + r.cycles) ∧
    (let n : Nat := 63
     let d : DecPic := { pic := pic0, taken := 1 }
     let r : SliceResult := { slice0 with cycles := 0, fault := .header }
     let m := (mk 5 [(F.DEC_CTX_WORK_WORK_X, 63, 1)] id).mach
     let x : DecPic := { d with cycles := d.cycles + r.cycles, slices := d.slices + 1 }
     r.contain = false ∧ d.cycles + r.cycles ≤ m.workBound n x ∧ r.fault = .header) ∧
    (let n : Nat := 63
     let d : DecPic := { pic := pic0, taken := 1 }
     let r : SliceResult := { slice0 with cycles := 0 }
     let m := (mk 5 [(F.DEC_CTX_WORK_WORK_X, 63, 1)] id).mach
     let x : DecPic := { d with cycles := d.cycles + r.cycles, slices := d.slices + 1 }
     r.contain = false ∧ d.cycles + r.cycles ≤ m.workBound n x ∧ r.fault ≠ .header) ∧
    (let n : Nat := 63
     let s := mk 5 [] fun m =>
       { m.setDecCtx 63 { decCtx0 with cur := some ({ pic := pic0, taken := 1 }) } with dec := { (m.setDecCtx 63 { decCtx0 with cur := some ({ pic := pic0, taken := 1 }) }).dec with engines := [(23, 63)] } }
     s.mach.serves = true ∧ (s.mach.decCtx n).busy = true) ∧
    (let n : Nat := 63
     let s := mk 5 [(F.DEC_CTX_STATUS_STATE, 63, decReset)] id
     s.mach.serves = true ∧ s.mach.decState n = decReset) := by
  decide +kernel

theorem test_hypotheses_EncoderCommands :
    (let e : Nat := 7
     let n : Nat := 15
     let r : Nat := 1
     let p : EncPic := encPic0
     let s := mk 5 [] fun m =>
       { m.setEncCtx 15 { encCtx0 with cur := some (encPic0) } with enc := { (m.setEncCtx 15 { encCtx0 with cur := some (encPic0) }).enc with engines := [(7, 15 * 64 + 1)] } }
     s.mach.serves = true ∧ (s.mach.encCtx n).cur = some p ∧ tFind s.mach.enc.engines e = some (n * 64 + r)) ∧
    (let n : Nat := 15
     let r : Nat := 1
     let p : EncPic := encPic0
     let s := mk 5 [] fun m =>
       { m.setEncCtx 15 { encCtx0 with cur := some (encPic0) } with enc := { (m.setEncCtx 15 { encCtx0 with cur := some (encPic0) }).enc with engines := [(7, 15 * 64 + 1)] } }
     s.mach.serves = true ∧ (s.mach.encCtx n).cur = some p ∧ (p.rows.getD r encRow0).st = 1) ∧
    (let n : Nat := 15
     let p : EncPic := encPic0
     let s := mk 5 [(F.ENC_CTX_GEOM_HEIGHT, 15, 128), (F.ENC_CTX_CFG_ROWS, 15, 1)] fun m =>
       { m.setEncCtx 15 { encCtx0 with cur := some (encPic0) } with enc := { (m.setEncCtx 15 { encCtx0 with cur := some (encPic0) }).enc with engines := [(7, 15 * 64 + 1)] } }
     s.mach.serves = true ∧ (s.mach.encCtx n).cur = some p ∧ (s.mach.sliceRows n p.emitted).isEmpty = false ∧
       (s.mach.sliceRows n p.emitted).any (fun r => (p.rows.getD r encRow0).st ≠ 2) = false) := by
  decide +kernel

theorem test_hypotheses_ComposeCommands_1 :
    (let b : Nat := 67
     let s := mk 5 [(F.SCN_V_VACTIVE, 0, 1080)] id
     s.mach.mode.composes = true ∧ s.mach.cmp.skip = false ∧ b < s.mach.bands) ∧
    (let k : Nat := 7
     let s := mk 5 [] fun m => { m with cmp := { m.cmp with composing := true } }
     s.mach.cmp.composing = true ∧ k < 8) ∧
    (let m := (mk 5 [] fun m => { m with cmp := { m.cmp with composing := true } }).mach
     m.cmp.composing = true) ∧
    (let s := mk 5 [] fun m => { m with cmp := { m.cmp with composing := true } }
     s.mach.cmp.composing = true) ∧
    (let m := (mk 5 [] fun m => { m with cmp := { m.cmp with composing := true } }).mach
     m.cmp.composing = true) := by
  decide +kernel

theorem test_hypotheses_ComposeCommands_2 :
    (let s := mk 5 [] id
     s.mach.serves = true) ∧
    (let s := mk 5 [] id
     s.mach.serves = true ∧ s.mach.mode.composes = true ∧ (s.mach.dec.stage < 3 ∨ s.mach.cmp.repeatNext = false)) ∧
    (let s := mk 5 [] fun m => { m with dec := { m.dec with stage := 3 }, cmp := { m.cmp with repeatNext := true } }
     s.mach.serves = true ∧ s.mach.mode.composes = true ∧ 3 ≤ s.mach.dec.stage ∧ s.mach.cmp.repeatNext = true) ∧
    (let k : Nat := 4
     let w : List Nat × Nat := (([1], 0) : List Nat × Nat)
     let s := mk 5 [] fun m => m.setReadoutIn [(4, [1], 0)]
     s.mach.serves = true ∧ tFind s.mach.cmp.readoutIn k = some w) := by
  decide +kernel

theorem test_hypotheses_TableCommands :
    (let s := mk 5 [] fun m => { m with lut := { m.lut with checking := 8 } }
     s.mach.serves = true ∧ s.mach.lut.checking ≠ 0) ∧
    (let s := mk 5 [] id
     s.mach.mode ≠ .hold ∧ s.mach.mode ≠ .sleep) ∧
    (let r : Nat := 15
     let s := mk 5 [(F.SIG_CTL_EN, 0, 1)] fun m =>
       { m with cmp := { m.cmp with active := [(regKey .SIG_REGION_CTL 15, 2 ^ 64 - 1)] } }
     s.mach.mode.scans = true ∧ s.mach.sigOn r = true) := by
  decide +kernel

theorem test_hypotheses_ScanCommands_1 :
    (let s := mk 5 [] id
     s.mach.mode ≠ .hold ∧ s.mach.mode ≠ .sleep ∧ s.mach.timingRuns = true) ∧
    (let s := mk 5 [] id
     s.mach.mode ≠ .hold ∧ s.mach.mode ≠ .sleep ∧ s.mach.timingRuns = true) ∧
    (let s := mk 5 [] id
     s.mach.mode ≠ .hold ∧ s.mach.mode ≠ .sleep) ∧
    (let s := mk 5 [] id
     s.mach.mode ≠ .hold ∧ s.mach.mode ≠ .sleep) ∧
    (let s := mk 5 [] id
     s.mach.mode ≠ .hold ∧ s.mach.mode ≠ .sleep) ∧
    (let s := mk 5 [] id
     s.mach.mode ≠ .hold ∧ s.mach.mode ≠ .sleep) ∧
    (let s := mk 5 [(F.SCN_STATUS_HPD, 0, 1)] fun m => m.setScn { m.scn with step := 1 }
     s.mach.mode ≠ .hold ∧ s.mach.mode ≠ .sleep ∧ s.mach.linkWaits = true ∧ s.mach.on F.SCN_STATUS_HPD = true ∧
       s.mach.scn.linkUp = false) := by
  decide +kernel

theorem test_hypotheses_ScanCommands_2 :
    (let k : Sink := ⟨1, 4, false, 0, false, none⟩
     let m := (mk 5 [] fun m => m.setScn { m.scn with sink := some ⟨1, 4, false, 0, false, none⟩ }).mach
     m.scn.sink = some k) ∧
    (let q : AuxReq := ⟨9, 16, 0, 0, 0⟩
     let s := mk 5 [] fun m => m.setScn { m.scn with aux := some ⟨9, 16, 0, 0, 0⟩ }
     s.mach.mode ≠ .hold ∧ s.mach.mode ≠ .sleep ∧ s.mach.scn.aux = some q) ∧
    (let q : AuxReq := ⟨9, 16, 0, 0, 0⟩
     let s := mk 5 [] fun m => m.setScn { m.scn with aux := some ⟨9, 16, 0, 0, 0⟩ }
     s.mach.mode ≠ .hold ∧ s.mach.mode ≠ .sleep ∧ s.mach.scn.aux = some q ∧ q.op % 2 = 1) ∧
    (let q : AuxReq := ⟨8, 16, 0, 0, 0⟩
     let s := mk 5 [] fun m => m.setScn { m.scn with aux := some ⟨8, 16, 0, 0, 0⟩ }
     s.mach.mode ≠ .hold ∧ s.mach.mode ≠ .sleep ∧ s.mach.scn.aux = some q ∧ q.op % 2 = 0) ∧
    (let s := mk 5 [(F.SCN_STATUS_HPD, 0, 1)] fun m => m.setScn { m.scn with step := 7 }
     s.mach.linkWaits = true ∧ s.mach.on F.SCN_STATUS_HPD = true) ∧
    (let s := mk 5 [] fun m => m.setScn { m.scn with step := 3 }
     s.mach.scn.step = 3) ∧
    (let s := mk 5 [] fun m => m.setScn { m.scn with step := 4 }
     s.mach.scn.step = 4) := by
  decide +kernel

theorem test_hypotheses_ScanCommands_3 :
    (let s := mk 5 [] fun m => m.setScn { m.scn with step := 5 }
     s.mach.scn.step = 5) ∧
    (let s := mk 5 [] fun m => m.setScn { m.scn with step := 6 }
     s.mach.scn.step = 6) ∧
    (let s := mk 5 [] fun m => m.setScn { m.scn with step := 9 }
     s.mach.scn.step = 9) ∧
    (let s := mk 5 [(F.SCN_STATUS_HPD, 0, 0)] fun m => m.setScn { m.scn with step := 1 }
     s.mach.mode ≠ .hold ∧ s.mach.mode ≠ .sleep ∧ s.mach.scn.step = 1 ∧ s.mach.on F.SCN_STATUS_HPD = false) ∧
    (let s := mk 11 [] id
     s.mach.mode = .halt) := by
  decide +kernel

theorem test_hypotheses_TouchCommands_1 :
    (let s := mk 5 [(F.TCH_CTL_EN, 0, 1)] id
     s.mach.serves = true ∧ s.mach.mode.touches = true ∧ s.mach.on F.TCH_CTL_EN = true) ∧
    (let s := mk 5 [] fun m => m.setTch { m.tch with phase := 1 }
     s.mach.serves = true ∧ s.mach.tch.phase = 1) ∧
    (let s := mk 5 [] fun m => m.setTch { m.tch with phase := 2 }
     s.mach.serves = true ∧ s.mach.tch.phase = 2) ∧
    (let s := mk 5 [] fun m => m.setTch { m.tch with phase := 2 }
     s.mach.serves = true ∧ s.mach.tch.phase = 2) ∧
    (let n : Nat := 4095
     let g : TouchRegion := ⟨[4095], [], 0⟩
     let s := mk 5 [] fun m => m.setTch { m.tch with regions := [⟨[4095], [], 0⟩] }
     s.mach.serves = true ∧ s.mach.tch.regions.find? (fun g => g.nodes.contains n) = some g) := by
  decide +kernel

theorem test_hypotheses_TouchCommands_2 :
    (let n : Nat := 4095
     let t : Nat := 7
     let s := mk 5 [] fun m => m.setTch { m.tch with unconf := [(4095, 7)] }
     s.mach.serves = true ∧ tFind s.mach.tch.unconf n = some t) ∧
    (let k : Nat := 9
     let c : Contact := contact0
     let s := mk 5 [(F.TCH_HOLD_MINUTES, 0, 1)] fun m => m.setTch { m.tch with contacts := [contact0] }
     s.mach.serves = true ∧ s.mach.tch.contacts.find? (fun c => c.slot = k) = some c ∧ c.stuck = false ∧ c.stuckDue =
       false ∧ s.mach.get F.TCH_HOLD_MINUTES ≠ 0) ∧
    (let s := mk 5 [] fun m => m.setTch { m.tch with testWanted := true }
     s.mach.serves = true ∧ s.mach.tch.testWanted = true) ∧
    (let g : Nat := 1
     let s := mk 9 [(F.TCH_PROX_CFG_GROUP_EN, 0, 2), (F.TCH_PIN_PROX_EN, 127, 1), (F.TCH_PIN_PROX_GROUP, 127, 1)] id
     s.mach.mode = .sleep ∧ (s.mach.get F.TCH_PROX_CFG_GROUP_EN).testBit g = true ∧ (List.range 128).any (fun k =>
       s.mach.on F.TCH_PIN_PROX_EN k && s.mach.get F.TCH_PIN_PROX_GROUP k = g) = true ∧ (tGet s.mach.tch.prox
       { base := none, run := 0 } g).base = none) ∧
    (let g : Nat := 1
     let b : Nat := 64
     let s := mk 9 [(F.TCH_PROX_CFG_GROUP_EN, 0, 2), (F.TCH_PIN_PROX_EN, 127, 1), (F.TCH_PIN_PROX_GROUP, 127, 1)] fun
       m => m.setTch { m.tch with prox := [(1, { base := some 64, run := 0 })] }
     s.mach.mode = .sleep ∧ (s.mach.get F.TCH_PROX_CFG_GROUP_EN).testBit g = true ∧ (List.range 128).any (fun k =>
       s.mach.on F.TCH_PIN_PROX_EN k && s.mach.get F.TCH_PIN_PROX_GROUP k = g) = true ∧ (tGet s.mach.tch.prox
       { base := none, run := 0 } g).base = some b) := by
  decide +kernel

theorem test_hypotheses_RemoteTouchCommands :
    (let w0 : Nat := 1
     let w1 : Nat := 0
     let w2 : Nat := 0
     let w3 : Nat := 0
     let s := mk 5 [] id
     s.mach.serves = true ∧ reportCrc w0 w1 w2 (w3 % 2 ^ 32) ≠ bits w3 32 32) ∧
    (let w0 : Nat := 1
     let w1 : Nat := 0
     let w2 : Nat := 0
     let w3 : Nat := reportCrc 1 0 0 0 * 2 ^ 32
     let s := mk 5 [] id
     s.mach.serves = true ∧ reportCrc w0 w1 w2 (w3 % 2 ^ 32) = bits w3 32 32) ∧
    (let k : Nat := 9
     let o : Nat := 7
     let s := mk 5 [(F.TCH_RX_0_VALID, 7, 1), (F.TCH_RX_0_ORIGIN, 7, 9)] id
     s.mach.serves = true ∧ (List.range 8).find? (fun o => s.mach.on F.TCH_RX_0_VALID o && s.mach.get
       F.TCH_RX_0_ORIGIN o = k) = some o) := by
  decide +kernel

theorem test_hypotheses_EventCommands :
    (let n : Nat := 511
     let s := mk 5 [] id
     s.mach.mode ≠ .hold ∧ s.mach.mode ≠ .sleep ∧ n < 512) ∧
    (let n : Nat := 511
     let k : Nat := 15
     let s := mk 5 [(F.EVC_CTL_EN, 0, 1), (F.EVC_SRC_0_EN, 511, 1), (F.EVC_SRC_0_TARGET, 511, 2 ^ 15), (F.SEQ_CTL_EN,
       15, 1)] fun m => (m.setBitOf .EVC_PEND 511).put F.SEQ_STATE_STATE seqIdle 15
     s.mach.pickDelivery none = some (n, k)) ∧
    (let s := mk 5 [] id
     s.mach.serves = true) ∧
    (let i : Nat := 15
     let level : Bool := true
     let s := mk 5 [] id
     s.mach.mode.runs = true ∧ i < 16 ∧ (s.mach.get F.SEQ_GPIO_IN_IN).testBit i ≠ level) ∧
    (let s := mk 5 [] fun m => m.setEvc { m.evc with i2cBusy := true }
     s.mach.clockRuns = true ∧ s.mach.evc.i2cBusy = true) ∧
    (let s := mk 5 [] fun m => m.setEvc { m.evc with i2cBusy := true }
     s.mach.clockRuns = true ∧ s.mach.evc.i2cBusy = true) := by
  decide +kernel

theorem test_hypotheses_SequencerAccessActions_1 :
    (let k : Nat := 15
     let ws : List Nat := [0]
     let s := placed (mk 5 [(F.SEQ_STATE_STATE, 15, seqRun), (F.SEQ_STATE_PC, 15, 131064), (F.FAB_NODE_ID_VALID, 0,
       1), (F.GATE_MASTER_P_P, 0, 2 ^ 64 - 1)] id) ws
     s.standsAt k 0 ws) ∧
    (let k : Nat := 15
     let ws : List Nat := [2 ^ 60 + 2 ^ 59 + 0x10000000, 5]
     let s := placed (mk 5 [(F.SEQ_STATE_STATE, 15, seqRun), (F.SEQ_STATE_PC, 15, 131064), (F.FAB_NODE_ID_VALID, 0,
       1), (F.GATE_MASTER_P_P, 0, 2 ^ 64 - 1)] id) ws
     s.standsAt k 1 ws ∧
     let i := s.issued k 1 ws
     (i.mach.target (ws.getD 0 0)).addr % 4 = 0) ∧
    (let k : Nat := 15
     let ws : List Nat := [2 * 2 ^ 60 + 2 ^ 59 + 0x10000000, 5]
     let s := placed (mk 5 [(F.SEQ_STATE_STATE, 15, seqRun), (F.SEQ_STATE_PC, 15, 131064), (F.FAB_NODE_ID_VALID, 0,
       1), (F.GATE_MASTER_P_P, 0, 2 ^ 64 - 1)] id) ws
     s.standsAt k 2 ws ∧
     let i := s.issued k 2 ws
     (i.mach.target (ws.getD 0 0)).addr % 8 = 0) ∧
    (let k : Nat := 15
     let a : Nat := 0x10000000
     let ws : List Nat := [3 * 2 ^ 60 + 2 ^ 59 + 0x10000000, 5]
     let s := placed (mk 5 [(F.SEQ_STATE_STATE, 15, seqRun), (F.SEQ_STATE_PC, 15, 131064), (F.FAB_NODE_ID_VALID, 0,
       1), (F.GATE_MASTER_P_P, 0, 2 ^ 64 - 1)] id) ws
     s.standsAt k 3 ws ∧
     let i := s.issued k 3 ws
     i.mach.target (ws.getD 0 0) = .own a ∧ a % 4 = 0 ∧
     let x := i.localRead (i.mach.seqBy k) a 4
     x.1.cause = none) ∧
    (let k : Nat := 15
     let ws : List Nat := [4 * 2 ^ 60 + 2 ^ 59 + 0x10000000, 5, 10]
     let s := placed (mk 5 [(F.SEQ_STATE_STATE, 15, seqRun), (F.SEQ_STATE_PC, 15, 131064), (F.FAB_NODE_ID_VALID, 0,
       1), (F.GATE_MASTER_P_P, 0, 2 ^ 64 - 1)] id) ws
     s.standsAt k 4 ws ∧
     let i := s.issued k 4 ws
     (i.mach.target (ws.getD 0 0)).addr % 4 = 0 ∧ ((i.on fun m => m.setSeqCore k
       { m.seqCore k with waitRaw := m.raw }).seqRead k (i.mach.target (ws.getD 0 0)) 4).1.isRight = true) := by
  unfold State.standsAt
  decide +kernel

theorem test_hypotheses_SequencerAccessActions_2 :
    (let k : Nat := 15
     let ws : List Nat := [4 * 2 ^ 60 + 2 ^ 59 + 0x10000000, 5, 10]
     let s := placed (mk 5 [(F.SEQ_STATE_STATE, 15, seqWait), (F.SEQ_STATE_PC, 15, 131064), (F.FAB_NODE_ID_VALID, 0,
       1), (F.GATE_MASTER_P_P, 0, 2 ^ 64 - 1)] fun m => m.setSeqCore 15 { seqCore0 with wait := .poll }) ws
     s.waitingAction k = some ws ∧ (s.mach.seqCore k).wait = .poll) ∧
    (let k : Nat := 15
     let n : Nat := 3
     let ws : List Nat := [4 * 2 ^ 60 + 2 ^ 59 + 0x10000000, 5, 10]
     let s := placed (mk 5 [(F.SEQ_STATE_STATE, 15, seqWait), (F.SEQ_STATE_PC, 15, 131064), (F.FAB_NODE_ID_VALID, 0,
       1), (F.GATE_MASTER_P_P, 0, 2 ^ 64 - 1)] fun m => m.setSeqCore 15 { seqCore0 with wait := .remote 3 }) ws
     s.waitingAction k = some ws ∧ (s.mach.seqCore k).wait = .remote n ∧ ws.getD 0 0 / 2 ^ 60 = 4) ∧
    (let k : Nat := 15
     let ws : List Nat := [12 * 2 ^ 60 + 2 ^ 59 + 0x10000000, 2 ^ 59 + 0x10000000 + 4096, 4096]
     let s := placed (mk 5 [(F.SEQ_STATE_STATE, 15, seqRun), (F.SEQ_STATE_PC, 15, 131064), (F.FAB_NODE_ID_VALID, 0,
       1), (F.GATE_MASTER_P_P, 0, 2 ^ 64 - 1)] id) ws
     s.standsAt k 12 ws ∧
     let i := s.issued k 12 ws
     let len := bits (ws.getD 2 0) 0 13
     let src := (i.mach.target (ws.getD 0 0)).addr
     let dst := (i.mach.target (ws.getD 1 0)).addr
     len ≠ 0 ∧ len ≤ 4096 ∧ len % 4 = 0 ∧ src % copyBeat src dst len = 0 ∧ dst % copyBeat src dst len = 0) ∧
    (let k : Nat := 15
     let ws : List Nat := [13 * 2 ^ 60 + 7]
     let s := placed (mk 5 [(F.SEQ_STATE_STATE, 15, seqRun), (F.SEQ_STATE_PC, 15, 131064), (F.FAB_NODE_ID_VALID, 0,
       1), (F.GATE_MASTER_P_P, 0, 2 ^ 64 - 1)] id) ws
     s.standsAt k 13 ws) := by
  unfold State.standsAt
  decide +kernel

theorem test_hypotheses_SequencerControlActions_1 :
    (let k : Nat := 15
     let ws : List Nat := [5 * 2 ^ 60 + 2 ^ 59 + 511 * 2 ^ 32]
     let s := placed (mk 5 [(F.SEQ_STATE_STATE, 15, seqRun), (F.SEQ_STATE_PC, 15, 131064), (F.FAB_NODE_ID_VALID, 0,
       1), (F.GATE_MASTER_P_P, 0, 2 ^ 64 - 1)] id) ws
     s.standsAt k 5 ws ∧ ((ws.getD 0 0).testBit 59 = true ∨ ws.getD 0 0 % 2 ^ 32 ≠ 0)) ∧
    (let k : Nat := 15
     let n : Nat := 511
     let ws : List Nat := [5 * 2 ^ 60 + 511 * 2 ^ 32]
     let s := placed (mk 5 [(F.SEQ_STATE_STATE, 15, seqWait), (F.SEQ_STATE_PC, 15, 131064), (F.FAB_NODE_ID_VALID, 0,
       1), (F.GATE_MASTER_P_P, 0, 2 ^ 64 - 1)] fun m => m.setSeqCore 15 { seqCore0 with wait := .event 511 }) ws
     s.waitingAction k = some ws ∧ (s.mach.seqCore k).wait = .event n ∧ (ws.getD 0 0).testBit 59 = false) ∧
    (let k : Nat := 15
     let ws : List Nat := [6 * 2 ^ 60 + 1]
     let s := placed (mk 5 [(F.SEQ_STATE_STATE, 15, seqRun), (F.SEQ_STATE_PC, 15, 131064), (F.FAB_NODE_ID_VALID, 0,
       1), (F.GATE_MASTER_P_P, 0, 2 ^ 64 - 1)] id) ws
     s.standsAt k 6 ws ∧ (if (ws.getD 0 0).testBit 59 then 0 < stampDiff (ws.getD 0 0 % 2 ^ 32) ((s.issued k 6
       ws).mach.now % 2 ^ 32) else ws.getD 0 0 % 2 ^ 32 ≠ 0)) ∧
    (let k : Nat := 15
     let s := mk 5 [(F.SEQ_STATE_STATE, 15, seqWait)] fun m => m.setSeqCore 15 { seqCore0 with wait := .time }
     s.mach.seqMay k seqWait = true ∧ (s.mach.seqCore k).wait = .time) ∧
    (let k : Nat := 15
     let ws : List Nat := [7 * 2 ^ 60 + 2 ^ 58, 0]
     let s := placed (mk 5 [(F.SEQ_STATE_STATE, 15, seqRun), (F.SEQ_STATE_PC, 15, 131064), (F.FAB_NODE_ID_VALID, 0,
       1), (F.GATE_MASTER_P_P, 0, 2 ^ 64 - 1)] id) ws
     s.standsAt k 7 ws ∧ (ws.getD 0 0).testBit 58 = true) ∧
    (let k : Nat := 15
     let a : Nat := 0x10000000
     let ws : List Nat := [7 * 2 ^ 60 + 2 ^ 59 + 0x10000000, 0]
     let s := placed (mk 5 [(F.SEQ_STATE_STATE, 15, seqRun), (F.SEQ_STATE_PC, 15, 131064), (F.FAB_NODE_ID_VALID, 0,
       1), (F.GATE_MASTER_P_P, 0, 2 ^ 64 - 1)] id) ws
     s.standsAt k 7 ws ∧ (ws.getD 0 0).testBit 58 = false ∧ (s.issued k 7 ws).mach.target (ws.getD 0 0) = .own a ∧ a
       % 4 = 0) ∧
    (let k : Nat := 15
     let ws : List Nat := [8 * 2 ^ 60 + 131071]
     let s := placed (mk 5 [(F.SEQ_STATE_STATE, 15, seqRun), (F.SEQ_STATE_PC, 15, 131064), (F.FAB_NODE_ID_VALID, 0,
       1), (F.GATE_MASTER_P_P, 0, 2 ^ 64 - 1)] id) ws
     s.standsAt k 8 ws) := by
  unfold State.standsAt
  decide +kernel

theorem test_hypotheses_SequencerControlActions_2 :
    (let k : Nat := 15
     let ws : List Nat := [9 * 2 ^ 60]
     let s := placed (mk 5 [(F.SEQ_STATE_STATE, 15, seqRun), (F.SEQ_STATE_PC, 15, 131064), (F.FAB_NODE_ID_VALID, 0,
       1), (F.GATE_MASTER_P_P, 0, 2 ^ 64 - 1)] id) ws
     s.standsAt k 9 ws ∧ (s.issued k 9 ws).mach.writesOpen (.seq k) = false) ∧
    (let k : Nat := 15
     let ws : List Nat := [10 * 2 ^ 60 + 31]
     let s := placed (mk 5 [(F.SEQ_STATE_STATE, 15, seqRun), (F.SEQ_STATE_PC, 15, 131064), (F.FAB_NODE_ID_VALID, 0,
       1), (F.GATE_MASTER_P_P, 0, 2 ^ 64 - 1)] id) ws
     s.standsAt k 10 ws ∧ (s.issued k 10 ws).mach.writesOpen (.seq k) = false ∧ ((s.issued k 10 ws).mach.fence (.seq
       k)).1 = false) ∧
    (let k : Nat := 15
     let ws : List Nat := [11 * 2 ^ 60 + 7 * 2 ^ 32 + 1]
     let s := placed (mk 5 [(F.SEQ_STATE_STATE, 15, seqRun), (F.SEQ_STATE_PC, 15, 131064), (F.FAB_NODE_ID_VALID, 0,
       1), (F.GATE_MASTER_P_P, 0, 2 ^ 64 - 1)] id) ws
     s.standsAt k 11 ws ∧ (s.issued k 11 ws).mach.writesOpen (.seq k) = false ∧ ((s.issued k 11 ws).mach.fence (.seq
       k)).1 = false) ∧
    (let k : Nat := 15
     let ws : List Nat := [14 * 2 ^ 60]
     let s := placed (mk 5 [(F.SEQ_STATE_STATE, 15, seqRun), (F.SEQ_STATE_PC, 15, 131064), (F.FAB_NODE_ID_VALID, 0,
       1), (F.GATE_MASTER_P_P, 0, 2 ^ 64 - 1)] id) ws
     s.standsAt k 14 ws) ∧
    (let k : Nat := 15
     let ws : List Nat := [15 * 2 ^ 60]
     let s := placed (mk 5 [(F.SEQ_STATE_STATE, 15, seqRun), (F.SEQ_STATE_PC, 15, 131064), (F.FAB_NODE_ID_VALID, 0,
       1), (F.GATE_MASTER_P_P, 0, 2 ^ 64 - 1)] id) ws
     s.standsAt k 15 ws) ∧
    (let k : Nat := 15
     let s := mk 5 [(F.SEQ_STATE_STATE, 15, seqRun)] id
     (s.mach.seqMay k seqRun = true ∨ s.mach.seqMay k seqWait = true)) := by
  unfold State.standsAt
  decide +kernel

theorem test_hypotheses_SpiAndCheckCommands_1 :
    (let d : List Nat := List.replicate 256 1
     let s := mk 3 [] id
     s.mach.spiOn = true ∧ d.length % 4 = 0 ∧ 0 < d.length ∧ d.length ≤ 256) ∧
    (let n : Nat := 256
     let s := mk 3 [] id
     s.mach.spiOn = true ∧ n % 4 = 0 ∧ 0 < n ∧ n ≤ 256 ∧ (s.mach.count 12).gate.spiBusy = none) ∧
    (let s := mk 3 [] id
     s.mach.spiOn = true) ∧
    (let s := mk 3 [] id
     s.mach.spiOn = true) := by
  decide +kernel

theorem test_hypotheses_SpiAndCheckCommands_2 :
    (let s := mk 3 [] id
     s.mach.spiOn = true) ∧
    (let c : Nat := 255
     let s := mk 3 [] id
     s.mach.spiOn = true ∧ spiCommands.contains (c % 256) = false) ∧
    (let c : Nat := 31
     let j : ChkJob := ⟨⟨.seq 0, 1⟩, 0, 0, false, false, 0, 0x10000000, 8, 0⟩
     let s := mk 5 [] fun m => m.setChk
       { m.chk with jobs := [(31, ⟨⟨.seq 0, 1⟩, 0, 0, false, false, 0, 0x10000000, 8, 0⟩)] }
     tFind s.mach.chk.jobs c = some j) ∧
    (let s := mk 5 [] id
     s.mach.mode ≠ .hold ∧ s.mach.mode ≠ .sleep) := by
  decide +kernel

theorem test_hypotheses_ImageCommands :
    (let s := mk 1 [] id
     s.mach.mode = .load ∧ s.mach.checksImage = false) ∧
    (let s := mk 1 [] fun m => m.setSys { m.sys with cls := clsWdt }
     s.mach.mode = .load ∧ s.mach.checksImage = true) ∧
    (let x : FlashOp := ⟨1, 0x10000, 16, [], 0⟩
     let s := mk 5 [] fun m => m.setCfg { m.cfg with flashOp := some ⟨1, 0x10000, 16, [], 0⟩ }
     s.mach.cfg.flashOp = some x) ∧
    (let x : FlashOp := ⟨2, 0x10000, 16, [], 0⟩
     let s := mk 5 [] fun m => m.setCfg { m.cfg with flashOp := some ⟨2, 0x10000, 16, [], 0⟩ }
     s.mach.clockRuns = true ∧ s.mach.cfg.flashOp = some x ∧ x.op = 2) ∧
    (let s := mk 5 [] id
     s.mach.clockRuns = true) := by
  decide +kernel

theorem test_hypotheses_ModeCommands_1 :
    (let i : Nat := 0
     let s := mk 5 [] id
     s.mach.mode ≠ .halt ∧ s.mach.mode ≠ .hold ∧ s.mach.mode ≠ .sleep ∧ refIsland i = true) ∧
    (let s := mk 9 [] id
     s.mach.mode = .sleep) ∧
    (let s := mk 0 [(F.DBG_STATUS_SCAN_HOLD, 0, 0)] id
     s.mach.mode = .hold ∧ s.mach.on F.DBG_STATUS_SCAN_HOLD = false) ∧
    (let s := mk 4 [(F.FAB_NODE_ID_VALID, 0, 1), (F.TIME_STATUS_STATE, 0, servoLocked), (F.SCN_STATUS_ALIGNED, 0, 1)]
       id
     s.mach.mode = .join ∧ s.mach.mayLeaveJoin = true) ∧
    (let s := mk 4 [] id
     s.mach.mode = .join) ∧
    (let s := mk 8 [(F.SYS_WAKE_CFG_TIMER, 0, 1)] id
     s.mach.mode = .standby ∧ s.mach.timerDue = true) ∧
    (let s := mk 9 [(F.SYS_WAKE_CFG_TIMER, 0, 1)] id
     s.mach.mode = .sleep ∧ s.mach.timerDue = true ∧ s.mach.sys.entering = false) := by
  decide +kernel

theorem test_hypotheses_ModeCommands_2 :
    (let s := mk 9 [(F.SCN_STATUS_PANEL, 0, panelOff)] fun m => m.setSys { m.sys with entering := true }
     s.mach.mode = .sleep ∧ s.mach.sys.entering = true ∧ s.mach.panel = panelOff) ∧
    (let w : SleepSource := .gpio 3
     let s := mk 9 [(F.SYS_WAKE_CFG_GPIO, 0, 8)] id
     s.mach.mode = .sleep ∧ s.mach.sleepSourceOn w = true) ∧
    (let w : SleepSource := .proximity 3
     let s := mk 9 [(F.TCH_PROX_CFG_GROUP_EN, 0, 8)] id
     s.mach.mode = .sleep ∧ s.mach.sleepSourceOn w = true) ∧
    (let w : SleepSource := .timer
     let s := mk 9 [(F.SYS_WAKE_CFG_TIMER, 0, 1)] id
     s.mach.mode = .sleep ∧ s.mach.sleepSourceOn w = true) ∧
    (let s := mk 5 [(F.SYS_WDT_CFG_EN, 0, 1)] id
     s.mach.wdtCounts = true ∧ s.mach.sys.wdtWarned = false) ∧
    (let s := mk 5 [(F.SYS_WDT_CFG_EN, 0, 1)] id
     s.mach.wdtCounts = true) := by
  decide +kernel

theorem test_hypotheses_PowerCommands_1 :
    (let r : Nat := 8
     let s := mk 5 [] id
     s.mach.railWatched r = true) ∧
    (let r : Nat := 8
     let s := mk 5 [(F.PWR_RAIL_STATUS_STATE, 8, 1)] id
     s.mach.railIn 1 = some r ∧ s.mach.railIn 2 = none ∧ s.mach.stage < 4) ∧
    (let s := mk 5 [(F.PWR_STATUS_STAGE, 0, 3)] id
     s.mach.railIn 1 = none ∧ s.mach.stageWant < s.mach.stage ∧ s.mach.stage < 5) ∧
    (let r : Nat := 8
     let s := mk 5 [(F.PWR_RAIL_STATUS_STATE, 8, 2)] id
     s.mach.railIn 2 = some r ∧ s.mach.mode ≠ .halt ∧ s.mach.mode ≠ .hold ∧ s.mach.stage ≠ 5) := by
  decide +kernel

theorem test_hypotheses_PowerCommands_2 :
    (let s := mk 11 [(F.SYS_HALT_CAUSE, 0, 2)] id
     s.mach.mode = .halt ∧ s.mach.get F.SYS_HALT_CAUSE = 2 ∧ s.mach.railIn 1 = none) ∧
    (let s := mk 5 [(F.TEL_TEMP_FAILED, 15, 1)] fun m =>
       { m with regs := tIns m.regs (regKey .PWR_THERMAL 0) (90 * 2 ^ 24 + 100 * 2 ^ 16) }
     s.mach.clockRuns = true ∧ (s.mach.get F.PWR_THERMAL_WARN : Int) ≤ s.mach.hottest ∧ s.mach.pwr.thermal = 0) ∧
    (let s := mk 5 [] fun m => { m with regs := tIns m.regs (regKey .PWR_THERMAL 0) (90 * 2 ^ 24 + 100 * 2 ^ 16) }
     s.mach.clockRuns = true ∧ s.mach.hottest < (s.mach.get F.PWR_THERMAL_WARN : Int) - 5) ∧
    (let s := mk 5 [(F.TEL_TEMP_FAILED, 15, 1)] fun m =>
       { m with regs := tIns m.regs (regKey .PWR_THERMAL 0) (95 * 2 ^ 24 + 90 * 2 ^ 16) }
     s.mach.clockRuns = true ∧ (s.mach.get F.PWR_THERMAL_CRIT : Int) ≤ s.mach.hottest) := by
  decide +kernel

theorem test_hypotheses_ObserveCommands :
    (let e : Nat := 319
     let s := mk 5 [(F.PMC_CNT_COUNT, 319, 2 ^ 48 - 1)] id
     s.mach.clockRuns = true ∧ e < 320 ∧ s.mach.get F.PMC_CNT_COUNT e = 2 ^ 48 - 1) ∧
    (let s := mk 5 [] id
     s.mach.clockRuns = true) ∧
    (let s := mk 5 [(F.TEL_CFG_EN, 0, 1)] id
     s.mach.clockRuns = true ∧ s.mach.on F.TEL_CFG_EN = true ∧ s.mach.mode.runs = true ∧ s.mach.stage ≠ 5) ∧
    (let e : TroubleEntry := ⟨0, false, 0, 0, 0, 0, 0, 0, 0⟩
     let l : List TroubleEntry := []
     let s := mk 5 [] fun m => m.setPmc { m.pmc with logQueue := [⟨0, false, 0, 0, 0, 0, 0, 0, 0⟩] }
     s.mach.pmc.logQueue = e :: l ∧ s.mach.mayLog = true) := by
  decide +kernel

theorem test_hypotheses_TestCommands_1 :
    (let r : SlotResult := slot0
     let s := mk 5 [(F.TST_CFG_EN, 0, 1), (F.TST_CLASS_EN_CLASS, 0, 16)] id
     s.mach.slotTaken r = true ∧ r.yielded = true) ∧
    (let r : SlotResult := { slot0 with yielded := false }
     let s := mk 5 [(F.TST_CFG_EN, 0, 1), (F.TST_CLASS_EN_CLASS, 0, 16)] id
     s.mach.slotTaken r = true ∧ r.yielded = false) ∧
    (let s := mk 5 [(F.TST_CFG_EN, 0, 1)] id
     s.mach.badgerRuns = true) ∧
    (let s := mk 2 [] id
     s.mach.mode = .prove) ∧
    (let c : Instr := .highz
     let ir : Nat := 7
     let s := mk 5 [] fun m => m.setSys { m.sys with resetLow := true }
     s.mach.sys.resetLow = true ∧ (c, ir) ∈ [(Instr.extest, 3), (Instr.extestPulse, 4), (Instr.extestTrain, 5),
       (Instr.clamp, 6), (Instr.highz, 7)]) := by
  decide +kernel

theorem test_hypotheses_TestCommands_2 :
    (let c : Instr := .highz
     let s := mk 5 [] id
     s.mach.sys.resetLow = false ∧ c ∈ [Instr.extest, Instr.extestPulse, Instr.extestTrain, Instr.clamp, Instr.highz]) ∧
    (let code : Nat := 255
     let s := mk 5 [] id
     code % 256 ∉ [0x01, 0x02, 0x03, 0x04, 0x05, 0x06, 0x07, 0x20, 0x21, 0x22]) ∧
    (let d : Nat := 0
     let c : Nat := crc32c (natBytes 48 0)
     let s := mk 3 [(F.CFG_SVN_CUSTOMER_SET, 0, 0), (F.CFG_STATUS_CAUSE, 0, 6)] id
     s.mach.mode = .quarantine ∧ s.mach.get F.CFG_STATUS_CAUSE = 6 ∧ s.mach.on F.CFG_SVN_CUSTOMER_SET = false ∧
       s.mach.tst.burning = none ∧ crc32c (natBytes 48 d) = c % 2 ^ 32) ∧
    (let d : Nat := 2 ^ 384 - 1
     let s := mk 5 [] fun m => m.setTst { m.tst with burning := some (2 ^ 384 - 1) }
     s.mach.tst.burning = some d) := by
  decide +kernel

theorem test_hypotheses_DebugCommands :
    (let c : Instr := .dbgWrite64 8 1
     let op : Nat := 4
     let a : Nat := 8
     let d : Nat := 1
     let s := mk 5 [] id
     (c, op, d) ∈ [(Instr.dbgRead32 a, 1, 0), (Instr.dbgWrite32 a d, 2, d), (Instr.dbgRead64 a, 3, 0),
       (Instr.dbgWrite64 a d, 4, d)]) ∧
    (let op : Nat := 2
     let w : Nat := 0x10000000
     let d : Nat := 1
     let s := mk 10 [] fun m => m.setTst { m.tst with dbgRun := some (2, 0x10000000, 1) }
     s.mach.mode = .service ∧ s.mach.tst.dbgRun = some (op, w, d) ∧ op ≠ 5) ∧
    (let w : Nat := 0
     let d : Nat := 0
     let s := mk 10 [] fun m => m.setTst { m.tst with dbgRun := some (5, 0, 0) }
     s.mach.mode = .service ∧ s.mach.tst.dbgRun = some (5, w, d)) := by
  decide +kernel

theorem test_hypotheses_RegisterWriteTaken :
    let x : HostAccess := ⟨⟨.seq 0, 1⟩, .w32, 0x70A80, 0⟩
    let c : Instr := .registerWrite x.by_ x.width x.addr x.value
    let s := mk 5 [] id
    let m : Mach := (s.mach.gateCheck x.by_ ⟨x.addr, x.width.bytes, true⟩ false).2
    (c, x) ∈ [(Instr.registerWrite x.by_ x.width x.addr x.value, x), (.lutWindowWrite x.by_ x.width x.addr x.value,
      x)] ∧ s.mach.clockRuns = true ∧ x.addr < 0x10000000 ∧ (s.mach.gateCheck x.by_ ⟨x.addr, x.width.bytes, true⟩
      false).1 = none ∧
    let n := s.sampled x true 0 m
    (∀ c ∈ coversOf x.width x.addr x.value, n.coverOk (n.storedBy x) x.by_ c = true) := by
  decide +kernel

theorem test_hypotheses_AccessesRefused :
    (let x : HostAccess := ⟨⟨.seq 0, 1⟩, .w32, 0x4, 0xFF⟩
     let s := mk 5 [] id
     let m : Mach := (s.mach.gateCheck x.by_ ⟨x.addr, x.width.bytes, true⟩ false).2
     s.mach.clockRuns = true ∧ x.addr < 0x10000000 ∧ (s.mach.gateCheck x.by_ ⟨x.addr, x.width.bytes, true⟩ false).1 =
       none ∧
     let n := s.sampled x true 0 m
     ((coversOf x.width x.addr x.value).find? (fun c => !n.coverOk (n.storedBy x) x.by_ c)).isSome = true) ∧
    (let x : HostAccess := ⟨⟨.seq 0, 1⟩, .w32, 0x17000000, 0⟩
     let g : GateCause := .unmapped
     let s := mk 5 [] id
     s.mach.clockRuns = true ∧ (s.mach.gateCheck x.by_ ⟨x.addr, x.width.bytes, true⟩ false).1 = some g) ∧
    (let b : Master := ⟨.seq 0, 1⟩
     let a : Nat := 0x17000000
     let g : GateCause := .unmapped
     let s := mk 5 [] id
     s.mach.clockRuns = true ∧ (s.mach.gateCheck b ⟨a, 4, false⟩ false).1 = some g) := by
  decide +kernel

theorem test_hypotheses_MemoryAccesses :
    (let b : Master := ⟨.seq 0, 1⟩
     let w : Width := .w64
     let a : Nat := 0x14FFFFF8
     let r : Region := .cistern
     let s := mk 5 [] id
     let m : Mach := (s.mach.gateCheck b ⟨a, w.bytes, true⟩ false).2
     s.mach.clockRuns = true ∧ (s.mach.gateCheck b ⟨a, w.bytes, true⟩ false).1 = none ∧ m.region a = some r ∧ r ≠
       .regs) ∧
    (let b : Master := ⟨.seq 0, 1⟩
     let a : Nat := 0x14FFFFFC
     let r : Region := .cistern
     let s := mk 5 [] id
     let m : Mach := (s.mach.gateCheck b ⟨a, 4, false⟩ false).2
     s.mach.clockRuns = true ∧ (s.mach.gateCheck b ⟨a, 4, false⟩ false).1 = none ∧ m.region a = some r ∧ r ≠ .regs ∧
       s.eccIn a 4 = []) := by
  decide +kernel

theorem test_hypotheses_RegisterReads :
    (let b : Master := ⟨.seq 0, 1⟩
     let a : Nat := addrCmpReceipt + 4
     let v : Nat := 7
     let s := mk 5 [] fun m => m.setLatch (.seq 0) [(addrCmpReceipt + 4, 7)]
     let m : Mach := (s.mach.gateCheck b ⟨a, 4, false⟩ false).2
     s.mach.clockRuns = true ∧ a < 0x10000000 ∧ (s.mach.gateCheck b ⟨a, 4, false⟩ false).1 = none ∧ tFind (m.latch
       b.who) a = some v ∧ v < 2 ^ 32) ∧
    (let b : Master := ⟨.seq 0, 1⟩
     let a : Nat := 0x4
     let x : RegAt := (findReg 0x4).get (by decide +kernel)
     let s := mk 5 [] id
     let m : Mach := (s.mach.gateCheck b ⟨a, 4, false⟩ false).2
     s.mach.clockRuns = true ∧ a < 0x10000000 ∧ (s.mach.gateCheck b ⟨a, 4, false⟩ false).1 = none ∧ tFind (m.latch
       b.who) a = none ∧ findReg a = some x ∧ m.readOwn b.who x.desc.reg = none ∧ m.live32 a < 2 ^ 32) ∧
    (let b : Master := ⟨.seq 0, 1⟩
     let s := mk 5 [] id
     let m : Mach := (s.mach.gateCheck b ⟨addrGateSync, 4, false⟩ false).2
     s.mach.clockRuns = true ∧ addrGateSync < 0x10000000 ∧ (s.mach.gateCheck b ⟨addrGateSync, 4, false⟩ false).1 =
       none ∧ tFind (m.latch b.who) addrGateSync = none) ∧
    (let b : Master := ⟨.seq 0, 1⟩
     let s := mk 5 [] id
     let m : Mach := (s.mach.gateCheck b ⟨addrSysFence, 4, false⟩ false).2
     s.mach.writesOpen b.who = false ∧ s.mach.clockRuns = true ∧ addrSysFence < 0x10000000 ∧ (s.mach.gateCheck b
       ⟨addrSysFence, 4, false⟩ false).1 = none ∧ tFind (m.latch b.who) addrSysFence = none) := by
  decide +kernel

theorem test_hypotheses_FifoReads :
    (let b : Master := ⟨.seq 0, 1⟩
     let c : Instr := .cmpReceiptRead b
     let r : Reg := .CMP_RECEIPT
     let a : Nat := addrCmpReceipt
     let k : Nat := 8
     let ws : List Nat := []
     let s := mk 5 [] id
     let m : Mach := (s.mach.gateCheck b ⟨a, 4, false⟩ false).2
     (c, r, a, k) ∈ [(Instr.cmpReceiptRead b, Reg.CMP_RECEIPT, addrCmpReceipt, 8), (.cmpReleaseRead b, .CMP_RELEASE,
       addrCmpRelease, 4), (.tchReportRead b, .TCH_REPORT, addrTchReport, 8), (.seqLogRead b, .SEQ_LOG, addrSeqLog,
       8), (.gateRecordRead b, .GATE_RECORD, addrGateRecord, 8), (.pmcSampRead b, .PMC_SAMP, addrPmcSamp, 8),
       (.tstResultRead b, .TST_RESULT, addrTstResult, 8)] ∧ s.mach.clockRuns = true ∧ a < 0x10000000 ∧
       (s.mach.gateCheck b ⟨a, 4, false⟩ false).1 = none ∧ tFind (m.latch b.who) a = none ∧ (m.fifoHead r).isSome =
       true) ∧
    (let b : Master := ⟨.seq 0, 1⟩
     let k : Nat := 3
     let s := mk 5 [] id
     let m : Mach := (s.mach.gateCheck b ⟨addrCapStamp 3, 4, false⟩ false).2
     k < 4 ∧
     let a := addrCapStamp k
     s.mach.clockRuns = true ∧ a < 0x10000000 ∧ (s.mach.gateCheck b ⟨a, 4, false⟩ false).1 = none ∧ tFind (m.latch
       b.who) a = none) := by
  decide +kernel

theorem test_hypotheses_TimeAndFabricFrames : ∀ c ∈ [Instr.timeSettled, .ptpMessageTimer 7 .sync, .timeFlitReceive 7
      timed false, .portTrain 7, .config 7 config0, .join 7 ctrl0, .configSend 7, .spanBandRowReceive key0 ⟨[], 1, 0,
      0, 16, false, false, 3, 64, 2048, 2048, true⟩, .streamSliceReceive key0 ⟨[], 0, 0, false, false, false, []⟩,
      .stateFlood],
    State.reset.mach.sys.resetDue = none ∧ answers c (mk 5 [] id) = true := by decide +kernel

theorem test_hypotheses_InputFrames : ∀ c ∈ [Instr.neighbourExpire 7 7, .neighbourRequest 7 7, .mgmtFence 7 7 false,
      .auReleaseTimeout 7 7 7, .streamSilent 7 7, .capEnWrite 7, .csiFrameEnd 7 7, .capSilent 7, .csiFrameStart 7 7
      7, .rtcpSrSend 7],
    State.reset.mach.sys.resetDue = none ∧ answers c (mk 5 [] id) = true := by decide +kernel

theorem test_hypotheses_PictureFrames : ∀ c ∈ [Instr.readoutTimeout 7, .applyPoint, .lutSwapChecked, .lutEccFatal 7,
      .rowCoded 7 7 7 7, .sliceEmit 7 [], .contextResetEnd 7, .vblank],
    State.reset.mach.sys.resetDue = none ∧ answers c (mk 5 [] id) = true := by decide +kernel

theorem test_hypotheses_PanelAndTouchFrames : ∀ c ∈ [Instr.hpdPlug ⟨1, 4, false, 0, false, none⟩ [], .tchCycleStart,
      .scanEnd ⟨[], [], []⟩],
    State.reset.mach.sys.resetDue = none ∧ answers c (mk 5 [] id) = true := by decide +kernel

theorem test_hypotheses_SystemFrames : ∀ c ∈ [Instr.flashEraseTimeout, .tapReset, .fuseProg 7 7, .dbgFuseDone 7,
      .dbgRead32 7, .badgerSlot slot0, .tstPeriod, .holdoffEnd 7, .delivery, .i2cDone 7 [], .spiStatus, .spiCsLimit,
      .cisternFatal 7, .thermalClear, .sensorRead [], .sysWdtWarn, .telRecord, .spiReadData],
    State.reset.mach.sys.resetDue = none ∧ answers c (mk 5 [] id) = true := by decide +kernel

/-- The destination of a stream is the model's free constant, so the neighbour table is given that very address. -/
theorem test_hypotheses_EthernetCommands_report :
    ∃ (s : State) (id mac : Nat) (e : List Nat), s.mach.serves = true ∧ s.mach.encodeEntry id = some e ∧
      (b1 e 13).testBit 3 = true ∧ (s.mach.encCtxOf id).isSome = true ∧
      s.mach.linkMac (b1 e 14) (Config.rtpDest id) = some mac := by
  let row : List Nat := natBytes 4 3 ++ [1] ++ List.replicate 8 0 ++ [8, 7] ++ List.replicate 49 0
  let s : State := mk 5 [(F.ENC_CTX_CFG_STATE, 15, 1), (F.ENC_CTX_STREAM_ID, 15, 3)] fun m =>
    let m := { m with cfg := { m.cfg with streams := [row] } }
    m.setEthPort 7 { ethPort0 with neigh := [⟨Config.rtpDest 3, 9, 0, false⟩] }
  have known : (s.mach.ethPort 7).neigh = [⟨Config.rtpDest 3, 9, 0, false⟩] := rfl
  have found : ∃ mac, s.mach.linkMac 7 (Config.rtpDest 3) = some mac := by
    by_cases h : isGroup (Config.rtpDest 3) = true
    · exact ⟨_, if_pos h⟩
    · exact ⟨9, by simp [Mach.linkMac, h, known]⟩
  have rest : s.mach.serves = true ∧ s.mach.encodeEntry 3 = some row ∧ (b1 row 13).testBit 3 = true ∧
      (s.mach.encCtxOf 3).isSome = true := by decide +kernel
  obtain ⟨mac, h⟩ := found
  exact ⟨s, 3, mac, row, rest.1, rest.2.1, rest.2.2.1, rest.2.2.2, h⟩

/-- The swap of R238 whose CRC is wrong: of two values of LUT_CRC_PRE one is not the CRC of the window. -/
theorem test_hypotheses_TableCommands_refused :
    ∃ s : State, s.mach.serves = true ∧ s.mach.lut.checking ≠ 0 ∧ s.mach.swapCrcOk s.mach.lut.checking = false := by
  let s (v : Nat) : State := mk 5 [] (fun m => { m.wr .LUT_CRC_PRE 0 (BitVec.ofNat 64 v) with lut := { m.lut with checking := 1 } })
  have h0 : ((s 0).mach.get F.LUT_CRC_PRE_CRC) = 0 := by decide +kernel
  have h1 : ((s 1).mach.get F.LUT_CRC_PRE_CRC) = 1 := by decide +kernel
  have hw : (s 1).mach.windowBytes .LUT_PRE_WINDOW 3072 4 = (s 0).mach.windowBytes .LUT_PRE_WINDOW 3072 4 := by
    unfold Mach.windowBytes
    congr 1
  have runs : ∀ v ∈ [0, 1], (s v).mach.serves = true ∧ (s v).mach.lut.checking ≠ 0 := by decide +kernel
  by_cases h : crc32c ((s 0).mach.windowBytes .LUT_PRE_WINDOW 3072 4) = 0
  · refine ⟨s 1, (runs 1 (by simp)).1, (runs 1 (by simp)).2, ?_⟩
    have e : (s 1).mach.lut.checking = 1 := rfl
    simp [Mach.swapCrcOk, e, hw, h, h1]
  · refine ⟨s 0, (runs 0 (by simp)).1, (runs 0 (by simp)).2, ?_⟩
    have e : (s 0).mach.lut.checking = 1 := rfl
    simp [Mach.swapCrcOk, e, h, h0]

/-- An image header for slot 0 by R373: two parts of no bytes each, with its CRC. -/
def header0 : List Nat :=
  let h := natBytes 4 0x46434D44 ++ [1, 0, 0, 0] ++ natBytes 4 7 ++ [0, 0, 0, 0] ++ natBytes 4 1024 ++ natBytes 4 256 ++
    natBytes 4 0 ++ natBytes 4 256 ++ natBytes 4 0 ++ [2, 0, 0, 0] ++ natBytes 8 0 ++ List.replicate 204 0
  h ++ natBytes 4 (crc32c h)

/-- A node that a watchdog reset brings to LOAD with an image that still stands, its action memory's CRC stored as c. -/
def standing (c : Nat) : State :=
  let s : State := { mk 1 [(F.CFG_SLOT_SEQ_SEQ, 0, 7), (F.CFG_LOADED_CRC_CRC, 0, ofNatBytes (header0.drop 252))]
      (fun m => m.setSys { m.sys with cls := clsWdt }) with
    flash := (List.range 256).zip (header0.map (BitVec.ofNat 8)) }
  { s with mach := s.mach.setCfg { s.mach.cfg with slot := some 0, actionCrc := c } }

theorem standing_bytes (c : Nat) : ∀ n a, (standing c).bytes a n = (standing 0).bytes a n
  | 0, _ => rfl
  | n + 1, a => by simp only [State.bytes, standing_bytes c n]; rfl

theorem standing_actionCrc (c : Nat) : (standing c).actionCrc = (standing 0).actionCrc := by
  unfold State.actionCrc; rw [standing_bytes]

theorem standing_regs (c : Nat) : (standing c).mach.regs = (standing 0).mach.regs := rfl

theorem standing_get (c : Nat) (f : Field) (i : Nat) : (standing c).mach.get f i = (standing 0).mach.get f i := by
  unfold Mach.get Mach.rd; rw [standing_regs c]

theorem standing_fbytes (c : Nat) : ∀ n a, (standing c).fbytes a n = (standing 0).fbytes a n
  | 0, _ => rfl
  | n + 1, a => by simp only [State.fbytes, standing_fbytes c n]; rfl

theorem standing_kept (c : Nat) (h : (standing c).actionCrc = c) (f : FlashIn) (hf : f.answers = true)
    (ht : f.inTime.getD 0 false = true) : (standing c).imageKept f = true := by
  have b : (standing c).mach.cfg.slot = some 0 := rfl
  have k : (standing c).mach.cfg.actionCrc = c := rfl
  have e : (standing c).imgHeader 0 = (standing 0).imgHeader 0 := by unfold State.imgHeader; rw [standing_fbytes]
  have x : ((match (standing 0).imgHeader 0 with
      | some x => decide (x.crc = (standing 0).mach.get F.CFG_LOADED_CRC_CRC) &&
          decide (x.seq = (standing 0).mach.get F.CFG_SLOT_SEQ_SEQ 0)
      | none => false) : Bool) = true := by decide +kernel
  unfold State.imageKept
  rw [b]
  dsimp only
  rw [h, k, e, standing_get c, standing_get c, hf, ht]
  revert x
  generalize (standing 0).imgHeader 0 = y
  generalize (standing 0).mach.get F.CFG_LOADED_CRC_CRC = u
  generalize (standing 0).mach.get F.CFG_SLOT_SEQ_SEQ 0 = v
  intro x
  cases y with
  | none => simp at x
  | some y => simpa using x

theorem test_hypotheses_ImageCommands_kept :
    ∃ (s : State) (f : FlashIn), s.mach.mode = .load ∧ s.mach.checksImage = true ∧ s.imageKept f = true := by
  obtain ⟨c, hc⟩ : ∃ c, (standing 0).actionCrc = c := ⟨_, rfl⟩
  have m : (standing c).mach.mode = .load ∧ (standing c).mach.checksImage = true := by
    have x : (standing 0).mach.mode = .load ∧ (standing 0).mach.checksImage = true := by decide +kernel
    refine ⟨?_, x.2⟩
    unfold Mach.mode
    rw [standing_get c]
    exact x.1
  exact ⟨standing c, ⟨true, true, 26, 200, [true, true], true, 5⟩, m.1, m.2,
    standing_kept c ((standing_actionCrc c).trans hc) _ rfl rfl⟩

/-- What software asks the system for is taken: a mode in the mode that leads there, a reset under its key, and so on. -/
theorem test_hypotheses_SystemWrites :
    ∀ e ∈ [(mk 8 [] id, w32 addrModeReq 5), (mk 5 [] id, w32 addrModeReq 8),
        (mk 8 [(F.SYS_WAKE_CFG_TIMER, 0, 1)] id, w32 addrModeReq 9),
        (mk 5 [(F.CFG_SVC_STATUS_RESULT, 0, 1)] id, w32 addrModeReq 10), (mk 5 [] id, w32 addrModeReq 11),
        (mk 5 [] id, w32 addrSoftReset 1), (mk 5 [] id, w32 addrSoftReset 2), (mk 5 [] id, w32 addrSoftReset 4),
        (mk 5 [] id, w32 addrSoftReset 8), (mk 5 [] id, w32 addrSoftReset 16), (mk 5 [] id, w32 addrSoftReset 32),
        (mk 5 [] id, w32 addrFlashCtl (flashGoWord 2 0)), (mk 5 [] id, w32 addrSvcCtl (2 ^ 31)),
        (mk 5 [] id, w32 addrSvcCtl (2 ^ 30)), (mk 5 [] id, w32 addrWdtKick 0x5A5A), (mk 5 [] id, w32 addrPmcSw 65535),
        (mk 5 [] id, w32 addrSnapCtl (setBit 0 31)), (mk 5 [] id, w32 addrFlashCtl (flashGoWord 0 256)),
        (mk 5 [] id, w32 addrFlashCtl (flashGoWord 1 256)), (mk 5 [] id, w32 addrResetReq (0x0D1E * 65536 + 1))],
      ∃ m, e.1.Granted e.2 true m ∧ (e.1.sampled e.2 true 0 m).Takes e.2 := by
  intro e he; apply grants_spec; revert e he; decide +kernel

theorem test_hypotheses_ControlWrites :
    ∀ x ∈ [w32 (addrEvcPend 15) (2 ^ 32 - 1), w32 (addrHostPend 3 15) (2 ^ 32 - 1), w32 addrDoorbell (2 ^ 31),
        w32 addrI2cCtl (setBit 0 31), w32 addrGateCommit 255, w32 addrGateSync 1, w32 (addrChkCtl 31) (chkGo 0 0),
        w32 (addrChkCtl 31) (chkGo 0 1), w32 (addrChkCtl 31) (chkGo 0 2), w32 (addrChkCtl 31) (chkGo 0 3)],
      ∃ m, (mk 5 [] id).Granted x true m ∧ ((mk 5 [] id).sampled x true 0 m).Takes x := by
  intro e he; apply grants_spec; revert e he; decide +kernel

theorem test_hypotheses_PictureWrites :
    ∀ x ∈ [w32 addrEncKeyReq 5, w32 addrEncLtrReq 5, w32 (addrGroupCommit 7) 1, ⟨⟨.seq 0, 1⟩, .w64, addrCmpFence, 5⟩,
        ⟨⟨.seq 0, 1⟩, .w64, addrCmpFenceClr, 5⟩, ⟨⟨.seq 0, 1⟩, .w64, addrReadoutIn, 5⟩, w32 addrLutSwap 7,
        w32 addrScnBl (2048 * 65536 + 1000), w32 addrAuxCtl (setBit 0 31), w32 addrTchRebase 1, w32 addrTchTest (2 ^ 31)],
      ∃ m, (mk 5 [] id).Granted x true m ∧ ((mk 5 [] id).sampled x true 0 m).Takes x := by
  intro e he; apply grants_spec; revert e he; decide +kernel

/-- Every FIFO of R4 has an entry, with the state of the machine free for any of them. -/
theorem test_hypotheses_FifoReads_all :
    ∀ e ∈ [(Reg.CMP_RECEIPT, addrCmpReceipt), (.CMP_RELEASE, addrCmpRelease), (.TCH_REPORT, addrTchReport),
        (.SEQ_LOG, addrSeqLog), (.GATE_RECORD, addrGateRecord), (.PMC_SAMP, addrPmcSamp), (.TST_RESULT, addrTstResult)],
      (mk 5 [] id).mach.clockRuns = true ∧ e.2 < 0x10000000 ∧
        ((mk 5 [] id).mach.gateCheck ⟨.seq 0, 1⟩ ⟨e.2, 4, false⟩ false).1 = none ∧
        tFind ((mk 5 [] id).mach.latch (.seq 0)) e.2 = none ∧ ((mk 5 [] id).mach.fifoHead e.1).isSome = true := by
  decide +kernel

theorem test_hypotheses_StepRunsFront :
    (∃ (s : State) (c : Instr) (q : List Instr), s.pending = c :: q) ∧ (∃ s : State, s.pending = []) :=
  ⟨⟨{ State.reset with pending := [.por, .idcode] }, .por, [.idcode], rfl⟩, ⟨State.reset, rfl⟩⟩

theorem test_hypotheses_StepKeepsMemoryForm : ∃ s t : State, s.memoryWf = true ∧ step s = .next t :=
  ⟨{ State.reset with pending := [.idcode] }, _, by decide +kernel, rfl⟩

theorem test_hypotheses_EveryRunIsSafe : ∃ (k : Nat) (s : State), s.memoryWf = true ∧ k = 5 :=
  ⟨5, State.reset, by decide +kernel, rfl⟩

theorem test_hypotheses_RawCounter :
    (∃ (c : Instr) (s t : State), c ≠ .por ∧ exec c s = .next t) ∧ (∃ s t : State, exec .por s = .next t) ∧
    (∃ s t : State, s.pending = [] ∧ step s = .next t) :=
  ⟨⟨.idcode, State.reset, _, by decide, rfl⟩, ⟨State.reset, _, rfl⟩, ⟨State.reset, _, rfl, rfl⟩⟩

theorem test_hypotheses_BytesKept : ∃ (c : Instr) (s t : State), storesBytes c = false ∧ exec c s = .next t :=
  ⟨.idcode, State.reset, _, by decide, rfl⟩

theorem test_hypotheses_FlashEraseClears :
    ∃ (s : State) (x : FlashOp), s.mach.cfg.flashOp = some x ∧ x.op = 2 :=
  ⟨mk 5 [] fun m => m.setCfg { m.cfg with flashOp := some ⟨2, 0x20000, 0, [], 0⟩ }, _, rfl, rfl⟩

theorem test_hypotheses_FusesOnlyGrow : ∃ (c : Instr) (s t : State), exec c s = .next t ∧ s.mach.tst.burning = none :=
  ⟨.idcode, State.reset, _, rfl, rfl⟩

theorem test_hypotheses_ArrivalsCounted :
    let m := (mk 5 [(F.PMC_ARRIVALS_ARRIVALS, 511, 2 ^ 32 - 1)] id).mach
    m.mode ≠ .hold ∧ m.mode ≠ .sleep ∧ m.get F.PMC_ARRIVALS_ARRIVALS 511 = 2 ^ 32 - 1 := by decide +kernel

theorem test_hypotheses_RaiseSetsPending :
    let m := (mk 5 [(F.EVC_SRC_0_EN, 511, 1)] id).mach
    m.mode ≠ .hold ∧ m.mode ≠ .sleep ∧ m.on F.EVC_SRC_0_EN 511 = true := by decide +kernel

/-- Each type of field has a field, and a register has bits outside its fields. -/
theorem test_hypotheses_WriteByType :
    (∃ d ∈ allRegs, ∃ f ∈ d.fields, f.ty = .rw ∧ 0 < f.field.width) ∧
    (∃ d ∈ allRegs, ∃ f ∈ d.fields, f.ty = .ro) ∧ (∃ d ∈ allRegs, ∃ f ∈ d.fields, f.ty = .wo) ∧
    (∃ d ∈ allRegs, ∃ f ∈ d.fields, f.ty = .sc) ∧ (∃ d ∈ allRegs, ∃ f ∈ d.fields, f.ty = .w1c) ∧
    (∃ d ∈ allRegs, ∃ f ∈ d.fields, f.ty = .w1s) ∧
    (∃ d ∈ allRegs, ∀ f ∈ d.fields, 63 < f.field.lo ∨ f.field.lo + f.field.width ≤ 63) := by
  decide +kernel

/-- A locked page, a leased one, and an address of register space without a rule, for each clause at a page's last word. -/
theorem test_hypotheses_GateBars :
    (let m := (mk 5 [(F.GATE_RULE_BASE_BASE, 255, 0x10000), (F.GATE_RULE_PAGES_PAGES, 255, 1),
        (F.GATE_RULE_ATTR_LOCK, 255, 1)] id).mach
     m.lockedAt 0x10000FFC = true) ∧
    (let m := (mk 5 [(F.GATE_LEASE_STATUS_VALID, 63, 1), (F.GATE_LEASE_BASE_BASE, 63, 0x10000),
        (F.GATE_LEASE_STATUS_PAGES, 63, 1)] id).mach
     m.mode ≠ .quarantine ∧ m.leasedAt (0x10000FFC + 4 - 1) = true) ∧
    (let m := (mk 5 [] id).mach
     let x : Access := ⟨4, 4, true⟩
     m.mode ≠ .quarantine ∧ m.region x.addr = some .regs ∧ m.region (x.addr + x.len - 1) = some .regs ∧
       alignedReg x = true ∧ (∀ a ∈ [x.addr, x.addr + x.len - 1], m.leasedAt a = false ∧ m.ruleAt false 1 a = none) ∧
       m.privileged 1 = true) := by
  decide +kernel

/-- One offer for each case of R28, each at the edge of its range: a stamp at the scan-out, a stamp later by the bound,
and one later still. -/
theorem test_hypotheses_FreshnessAge :
    let offer (cap : Nat) : Offer := ⟨cap, 0, 0, false, false, true, 0, 0⟩
    (offer 1).cap * 65536 ≤ 65536 ∧
    (65536 < (offer 1001).cap * 65536 ∧ (offer 1001).cap * 65536 ≤ 65536 + 1 * 65536000) ∧
    65536 + 1 * 65536000 < (offer 1002).cap * 65536 := by decide

theorem test_hypotheses_FreshnessStates :
    let offer : Offer := ⟨0, 1, 0, false, false, true, 0, 0⟩
    10 * 1 < 10 + offer.u ∧ 3 ≤ 3 := by decide

theorem test_hypotheses_LutChain :
    ∀ e ∈ [(0 : Nat), 1], ∃ (m : Mach) (t : Tables) (c : Rgb), t.bypass = false ∧ m.on F.LUT_CTL_CUBE_EN = false ∧
      m.on F.LUT_CTL_POST_EN = false ∧ m.on F.LUT_CTL_PRE_EN = (e = 1) ∧ c.r < 1024 ∧ c.g < 1024 ∧ c.b < 1024 := by
  intro e he
  refine ⟨(mk 5 [(F.LUT_CTL_PRE_EN, 0, e)] id).mach, ⟨false, [], [], []⟩, ⟨1023, 0, 1023⟩, ?_⟩
  revert e he
  decide +kernel

/-- The list of reset values of `ResetValues` is not empty, and a run begins where it says. -/
theorem test_reset_holds : State.reset.mach.mode = .hold ∧ State.reset.pending = [] := by decide +kernel

end Sys2Proof.Tests
end

section
/-! SUPPORT. Register writes of commands that are taken, refused or rejected, and accesses to the memories. -/

namespace Sys2Proof.Machine

/-- Settles O31: the two commands are one host write, and a write that is taken ends in what its registers do. -/
theorem registerWriteTaken : Obligations.RegisterWriteTaken := by
  unfold Obligations.RegisterWriteTaken
  intro s m c x hc hg n ht
  have he : exec c s = s.ends (s.hostWrite x.by_ x.addr x.width.bytes x.value) := by
    simp only [List.mem_cons, Prod.mk.injEq, List.not_mem_nil, or_false, and_true] at hc
    rcases hc with rfl | rfl
    · rfl
    · rfl
  rw [he, State.hostWrite_granted hg, Mach.regWrite_taken ht]
  rfl

/-- A write that a covered register refuses. -/
theorem Mach.regWrite_refused {n : Mach} {x : HostAccess} {c : Cover}
    (h : (coversOf x.width x.addr x.value).find? (fun c => !n.coverOk (n.storedBy x) x.by_ c) = some c) :
    n.regWrite x.by_ x.width x.addr x.value = (false, n.refuseWrite c) := by
  unfold Mach.storedBy at h
  simp only [Mach.regWrite, h]

/-- What a write of a command comes to that the gate rejects. -/
theorem State.hostWrite_rejected {s : State} {m : Mach} {x : HostAccess} {g : GateCause} (hc : s.mach.clockRuns = true)
    (hg : s.mach.gateCheck x.by_ ⟨x.addr, x.width.bytes, true⟩ false = (some g, m)) :
    s.hostWrite x.by_ x.addr x.width.bytes x.value =
      s.on fun _ => (s.sampled x true g.code m).emit (.data x.by_ false 0) := by
  simp only [State.hostWrite, hc, State.localWrite, natBytes_length, hg, State.sampled, State.on]
  rfl

/-- What a 32-bit read of a command comes to that the gate rejects. -/
theorem State.hostRead_rejected {s : State} {m : Mach} {b : Master} {a : Nat} {g : GateCause}
    (hc : s.mach.clockRuns = true) (hg : s.mach.gateCheck b ⟨a, 4, false⟩ false = (some g, m)) :
    s.hostRead b a 4 = s.on fun _ => (s.sampled ⟨b, .w32, a, 0⟩ false g.code m).emit (.data b false 0) := by
  simp only [State.hostRead, hc, State.localRead, hg, State.sampled, State.on]
  rfl

/-- Settles O32: the first register that refuses is what the write finds, and a rejection is all that is left of an access
that the gate rejects. -/
theorem accessesRefused : Obligations.AccessesRefused := by
  unfold Obligations.AccessesRefused
  refine ⟨?_, ?_, ?_⟩
  · intro s m x c hg n hc
    change s.ends (s.hostWrite x.by_ x.addr x.width.bytes x.value) = _
    rw [State.hostWrite_granted hg, Mach.regWrite_refused hc]
    rfl
  · intro s m x g hc hg
    change s.ends (s.hostWrite x.by_ x.addr x.width.bytes x.value) = _
    rw [State.hostWrite_rejected hc hg]
    rfl
  · intro s m b a g hc hg
    change s.ends (s.hostRead b a 4) = _
    rw [State.hostRead_rejected hc hg]
    rfl

/-! ### Memories (R332, R335, R338) -/

/-- Byte i of a number. -/
theorem getElem_natBytes {n v i : Nat} (h : i < (natBytes n v).length) : (natBytes n v)[i] = v / 256 ^ i % 256 := by
  induction n generalizing v i with
  | zero => simp [natBytes] at h
  | succ n ih =>
    cases i with
    | zero => simp [natBytes]
    | succ i =>
      simp only [natBytes, List.getElem_cons_succ, ih, Nat.div_div_eq_div_mul, Nat.pow_succ']

/-- What a granted write of a command to a memory comes to. -/
theorem State.hostWrite_memory {s : State} {m : Mach} {x : HostAccess} {r : Region} (hc : s.mach.clockRuns = true)
    (hg : s.mach.gateCheck x.by_ ⟨x.addr, x.width.bytes, true⟩ false = (none, m)) (hr : m.region x.addr = some r)
    (hn : r ≠ .regs) :
    s.hostWrite x.by_ x.addr x.width.bytes x.value =
      ((s.on fun _ => s.sampled x true 0 m).memWrite r x.addr (natBytes x.width.bytes x.value)).on
        fun m => m.emit (.data x.by_ true 0) := by
  cases r with
  | regs => exact absurd rfl hn
  | _ =>
    simp only [State.hostWrite, hc, State.localWrite, natBytes_length, hg, hr, State.sampled, State.on]
    rfl

@[simp] theorem State.setBytes_flash (s : State) (a : Nat) (l : List Nat) : (s.setBytes a l).flash = s.flash := by
  induction l generalizing s a with
  | nil => rfl
  | cons b bs ih => rw [State.setBytes, ih]; rfl

@[simp] theorem State.memWrite_flash (s : State) (r : Region) (a : Nat) (l : List Nat) :
    (s.memWrite r a l).flash = s.flash := by
  simp only [State.memWrite, State.setBytes_flash]

/-- A byte outside those a memory write stores reads as before. -/
theorem State.byte_memWrite_out (s : State) (r : Region) (a x : Nat) (l : List Nat)
    (h : x < a ∨ a + l.length ≤ x) : (s.memWrite r a l).byte x = s.byte x := by
  simp only [State.memWrite, State.byte_setBytes_out _ _ _ _ h]
  rfl

/-- A byte that a memory write stores reads as stored. -/
theorem State.byte_memWrite_in (s : State) (r : Region) (a i : Nat) (l : List Nat) (h : i < l.length) :
    (s.memWrite r a l).byte (a + i) = BitVec.ofNat 8 l[i] := by
  simp only [State.memWrite, State.byte_setBytes_in _ _ _ _ h]

@[simp] theorem Mach.readErrors_nil (m : Mach) (r : Region) : m.readErrors r [] = m := by
  cases r <;> rfl

/-- Where only engines write is told by registers that a counter does not reach. -/
theorem Mach.engineBytes_count (m : Mach) (e k a n : Nat) : (m.count e k).engineBytes a n = m.engineBytes a n := by
  have h := m.frame_count e k
  simp only [Mach.engineBytes, h.get F.DEC_POOL_BASE_BASE 0 (by decide), h.get F.DEC_POOL_SIZE_SIZE 0 (by decide),
    h.get F.MEM_DEV_POOL_BASE_BASE 0 (by decide), h.get F.MEM_DEV_POOL_SIZE_SIZE 0 (by decide),
    h.get F.ENC_POOL_BASE_BASE 0 (by decide), h.get F.ENC_POOL_SIZE_SIZE 0 (by decide),
    h.get F.ENC_PRIV_RING_BASE_BASE 0 (by decide), h.get F.ENC_PRIV_RING_CTL_SIZE 0 (by decide)]

/-- A read of a memory changes the block alone. -/
theorem State.memRead_state (s : State) (b : Master) (r : Region) (a n : Nat) :
    (s.memRead b r a n).2 = s.on fun _ => (s.memRead b r a n).2.mach := by
  unfold State.memRead
  dsimp only
  split_ifs <;> rfl

/-- A read of a memory without bit errors counts its beats and answers the bytes, or free ones where engines write. -/
theorem State.memRead_sound (s : State) (b : Master) (r : Region) (a n : Nat) (h : s.eccIn a n = []) :
    ∃ m : Mach, s.memRead b r a n =
      if s.mach.engineBytes a n then
        (⟨none, false, natBytes n (m.freeBits (8 * n)).1⟩, { s with mach := (m.freeBits (8 * n)).2 })
      else (⟨none, false, s.bytes a n⟩, { s with mach := m }) := by
  have hc (e k : Nat) := s.mach.engineBytes_count e k a n
  cases r
  case cistern => exact ⟨s.mach.count 5, by simp [State.memRead, h, hc]⟩
  case dram => exact ⟨s.mach.count 1 (beats64 a n), by simp [State.memRead, h, hc]⟩
  all_goals exact ⟨s.mach, by simp [State.memRead, h]⟩

/-- A read of a memory without bit errors ends with no cause. -/
theorem State.memRead_cause {s : State} {b : Master} {r : Region} {a n : Nat} (h : s.eccIn a n = []) :
    (s.memRead b r a n).1.cause = none := by
  obtain ⟨m, hm⟩ := s.memRead_sound b r a n h
  rw [hm]
  split <;> rfl

/-- It gives the bytes, where no engine writes. -/
theorem State.memRead_data {s : State} {b : Master} {r : Region} {a n : Nat} (h : s.eccIn a n = [])
    (he : s.mach.engineBytes a n = false) : (s.memRead b r a n).1.data = s.bytes a n := by
  obtain ⟨m, hm⟩ := s.memRead_sound b r a n h
  rw [hm, if_neg (by simp [he])]

/-- What a granted 32-bit read of a command comes to, from words of a memory without bit errors. -/
theorem State.hostRead_memory {s : State} {m : Mach} {b : Master} {a : Nat} {r : Region} (hc : s.mach.clockRuns = true)
    (hg : s.mach.gateCheck b ⟨a, 4, false⟩ false = (none, m)) (hr : m.region a = some r) (hn : r ≠ .regs)
    (he : s.eccIn a 4 = []) :
    let x := { s with mach := m }.memRead b r a 4
    s.hostRead b a 4 = s.on fun _ =>
      (x.2.mach.sampleMem b.id false (s.mach.wallAddr a) (m.originOf b) 4 0).emit (.data b true (ofNatBytes x.1.data)) := by
  intro x
  have hx : { s with mach := m }.memRead b r a 4 = x := rfl
  have hs : x.2 = s.on fun _ => x.2.mach := State.memRead_state _ b r a 4
  have hcause : x.1.cause = none := State.memRead_cause he
  clear_value x
  cases r with
  | regs => exact absurd rfl hn
  | _ =>
    simp only [State.hostRead, hc, State.localRead, hg, hr, hx, hcause]
    rw [hs]
    rfl

/-- Settles O33: a granted write is one write of the memory, and a granted read without bit errors one sound read of it. -/
theorem memoryAccesses : Obligations.MemoryAccesses := by
  unfold Obligations.MemoryAccesses
  refine ⟨?_, ?_⟩
  · intro s m b w a v r hc hg hr hn
    have hl := natBytes_length w.bytes v
    refine ⟨_, congrArg s.ends (State.hostWrite_memory (x := ⟨b, w, a, v⟩) hc hg hr hn), ?_, ?_, ?_⟩
    · intro i hi
      have hi' : i < (natBytes w.bytes v).length := hl.symm ▸ hi
      change (State.byte (State.memWrite _ r a (natBytes w.bytes v)) (a + i)).toNat = _
      rw [State.byte_memWrite_in _ _ _ _ _ hi', getElem_natBytes, BitVec.toNat_ofNat, Nat.mod_mod]
    · intro y hy
      rw [← hl] at hy
      exact State.byte_memWrite_out _ r a y _ hy
    · exact State.memWrite_flash _ r a _
  · intro s m b a r hc hg hr hn he x
    refine ⟨congrArg s.ends (State.hostRead_memory hc hg hr hn he), fun hf => ?_⟩
    rw [show x.1.data = s.bytes a 4 from State.memRead_data he hf]
    rfl

end Sys2Proof.Machine
end

section
/-! SUPPORT. 32-bit register reads of commands: the latch, words that reading ends, FIFOs and capture stamps. -/

namespace Sys2Proof.Machine

/-- A granted 32-bit read of a command answers what the registers give. -/
theorem exec_read {s : State} {m n : Mach} {b : Master} {a v : Nat} {c : Instr}
    (he : exec c s = s.ends (s.hostRead b a 4)) (hg : s.Granted ⟨b, .w32, a, 0⟩ false m)
    (hr : m.read32 b.who a = (v, n)) :
    exec c s = .next (s.answered (n.sampleMem b.id false (s.mach.wallAddr a) (m.originOf b) 4 0) ⟨b, .w32, a, 0⟩ true
      (v % 2 ^ 32)) := by
  rw [he, State.hostRead_granted hg, hr]
  rfl

/-- A 32-bit read of a word that the latch holds. -/
theorem Mach.read32_latched {m : Mach} {q : Requester} {a v : Nat} (h : tFind (m.latch q) a = some v) :
    m.read32 q a = (v, m.setLatch q ((m.latch q).filter fun e => e.1 ≠ a)) := by
  simp only [Mach.read32, h]

/-- A 32-bit read of a word that reading does not end or clear. -/
theorem Mach.read32_plain {m : Mach} {q : Requester} {a : Nat} {x : RegAt} (h : tFind (m.latch q) a = none)
    (hx : findReg a = some x) (ho : m.readOwn q x.desc.reg = none) :
    m.read32 q a = (m.live32 a,
      if (m.readEffect x a).1.isEmpty then (m.readEffect x a).2 else (m.readEffect x a).2.setLatch q (m.readEffect x a).1) := by
  simp only [Mach.read32, h, Mach.readWord, hx, ho]

/-- A 32-bit read of a word that reading ends or clears. -/
theorem Mach.read32_own {m n : Mach} {q : Requester} {a v : Nat} {x : RegAt} (h : tFind (m.latch q) a = none)
    (hx : findReg a = some x) (ho : m.readOwn q x.desc.reg = some (v, n)) : m.read32 q a = (v, n) := by
  simp only [Mach.read32, h, Mach.readWord, hx, ho]
  rfl

/-- GATE_SYNC lies at its address. -/
theorem findReg_gateSync : (findReg addrGateSync).map (fun x => x.desc.reg) = some .GATE_SYNC := by decide +kernel

/-- SYS_FENCE lies at its address. -/
theorem findReg_sysFence : (findReg addrSysFence).map (fun x => x.desc.reg) = some .SYS_FENCE := by decide +kernel

/-- Settles O34: a 32-bit read takes one of three ways, from the latch, as the word stands, or as one that reading ends. -/
theorem registerReads : Obligations.RegisterReads := by
  unfold Obligations.RegisterReads
  refine ⟨?_, ?_, ?_, ?_⟩
  · intro s m b a v hg hl hv n
    have h := exec_read (c := .lowWordRead b a) rfl hg (Mach.read32_latched hl)
    rwa [Nat.mod_eq_of_lt hv] at h
  · intro s m b a x hg hl hx ho hv e n
    have h := exec_read (c := .lowWordRead b a) rfl hg (Mach.read32_plain hl hx ho)
    rwa [Nat.mod_eq_of_lt hv] at h
  · intro s m b hg hl
    obtain ⟨x, hx, hr⟩ := Option.map_eq_some_iff.1 findReg_gateSync
    exact exec_read rfl hg (Mach.read32_own hl hx (by rw [hr]; rfl))
  · intro s m b hw hg hl
    obtain ⟨x, hx, hr⟩ := Option.map_eq_some_iff.1 findReg_sysFence
    have he : exec (.sysFenceRead b) s = s.ends (s.hostRead b addrSysFence 4) := by
      change s.ends (if s.mach.writesOpen b.who then s else s.hostRead b addrSysFence 4) = _
      rw [hw]
      rfl
    have ho : m.readOwn b.who x.desc.reg = some (if (m.fence b.who).1 then 1 else 0, (m.fence b.who).2) := by
      rw [hr]
      rfl
    have hv : (if (m.fence b.who).1 then 1 else 0) % 2 ^ 32 = if (m.fence b.who).1 then 1 else 0 := by split <;> rfl
    have h := exec_read he hg (Mach.read32_own hl hx ho)
    rwa [hv] at h

/-! ### FIFOs and capture stamps (R4) -/

theorem word32_lt (ws : List Nat) (i : Nat) : word32 ws i < 2 ^ 32 := Nat.mod_lt _ (Nat.two_pow_pos 32)

/-- A FIFO register is none of those that reading ends or clears. -/
theorem Mach.readOwn_of_fifoHead {m : Mach} {r : Reg} {ws : List Nat} (q : Requester) (h : m.fifoHead r = some ws) :
    m.readOwn q r = none := by
  unfold Mach.readOwn
  split
  · exact absurd h (by simp [Mach.fifoHead])
  · exact absurd h (by simp [Mach.fifoHead])
  · rfl

/-- A granted read of the low word of a FIFO register, known by the register's name, its place and its count of words:
the word is answered, the entry's other words are latched, and the entry is popped (R4). -/
theorem exec_read_fifo {s : State} {m : Mach} {b : Master} {c : Instr} {r : Reg} {a k : Nat} {ws : List Nat}
    (he : exec c s = s.ends (s.hostRead b a 4))
    (hr : (findReg a).map (fun x => (x.desc.reg, x.desc.count, x.i, x.high)) = some (r, k + 2, 0, false))
    (hg : s.Granted ⟨b, .w32, a, 0⟩ false m) (hl : tFind (m.latch b.who) a = none) (hh : m.fifoHead r = some ws) :
    let n := (m.fifoPop r).setLatch b.who ((List.range (k + 1)).map fun j => (a + 4 * (j + 1), word32 ws (j + 1)))
    exec c s = .next (s.answered (n.sampleMem b.id false (s.mach.wallAddr a) (m.originOf b) 4 0) ⟨b, .w32, a, 0⟩ true
      (word32 ws 0)) := by
  intro n
  obtain ⟨x, hx, hp⟩ := Option.map_eq_some_iff.1 hr
  simp only [Prod.mk.injEq] at hp
  obtain ⟨hreg, hcount, hi, hhigh⟩ := hp
  have hv : m.live32 a = word32 ws 0 := by
    simp only [Mach.live32, hx, hhigh, Mach.view, hreg, hh, hi]
    exact Nat.mod_eq_of_lt (word32_lt ws 0)
  have heff : m.readEffect x a =
      ((List.range (k + 1)).map fun j => (a + 4 * (j + 1), word32 ws (j + 1)), m.fifoPop r) := by
    simp only [Mach.readEffect, hreg, hh, hi, hcount, if_true]
    rfl
  have hread : m.read32 b.who a = (word32 ws 0, n) := by
    rw [Mach.read32_plain hl hx (hreg ▸ Mach.readOwn_of_fifoHead _ hh), hv, heff]
    simp [n]
  have h := exec_read he hg hread
  rwa [Nat.mod_eq_of_lt (word32_lt ws 0)] at h

/-- The place of a capture stamp in the register map: a pair without write-only fields. -/
theorem findReg_capStamp {k : Nat} (hk : k < 4) : (findReg (addrCapStamp k)).map
    (fun x => (x.desc.reg, x.desc.pair, x.desc.maskOf (·.ty = .wo), x.i, x.high)) =
      some (.TIME_CAP_STAMP, true, 0, k, false) := by
  interval_cases k <;> decide +kernel

/-- Settles O38: the seven FIFO registers read alike, and a capture stamp reads as a pair that pops. -/
theorem fifoReads : Obligations.FifoReads := by
  unfold Obligations.FifoReads
  refine ⟨?_, ?_⟩
  · intro s m b c r a k ws hc hg hl hh
    simp only [List.mem_cons, Prod.mk.injEq, List.not_mem_nil, or_false] at hc
    rcases hc with ⟨rfl, rfl, rfl, rfl⟩ | ⟨rfl, rfl, rfl, rfl⟩ | ⟨rfl, rfl, rfl, rfl⟩ | ⟨rfl, rfl, rfl, rfl⟩ |
      ⟨rfl, rfl, rfl, rfl⟩ | ⟨rfl, rfl, rfl, rfl⟩ | ⟨rfl, rfl, rfl, rfl⟩
    all_goals exact exec_read_fifo rfl (by decide +kernel) hg hl hh
  · intro s m b k hk a hg hl v n
    obtain ⟨x, hx, hp⟩ := Option.map_eq_some_iff.1 (findReg_capStamp hk)
    simp only [Prod.mk.injEq] at hp
    obtain ⟨hreg, hpair, hwo, hi, hhigh⟩ := hp
    have hview : m.view x.desc x.i = v := by
      simp only [Mach.view, hreg, hi, Mach.fifoHead, Mach.viewTime, hwo, Nat.and_zero, Nat.sub_zero]
      rfl
    have hlive : m.live32 a = v % 2 ^ 32 := by
      simp only [Mach.live32, show findReg a = some x from hx, hhigh, hview]
      rfl
    have heff : m.readEffect x a = ([(a + 4, v / 2 ^ 32)], (m.popCapture k).2) := by
      simp only [Mach.readEffect, Mach.latchedBeside, hreg, Mach.fifoHead, hpair, hhigh, hview]
      simp [hi]
    have hread : m.read32 b.who a = (v % 2 ^ 32, n) := by
      rw [Mach.read32_plain hl hx (by rw [hreg]; rfl), hlive, heff]
      rfl
    have h := exec_read (c := .capStampRead b k) rfl hg hread
    rwa [Nat.mod_mod] at h

end Sys2Proof.Machine
end

section
/-! SUPPORT. Writes that ask the system for an action: each is one 32-bit write of one register of SYS, CFG or PMC. -/

namespace Sys2Proof.Machine

/-- The low field of a written word. -/
theorem bits_mod_two_pow_zero (v : Nat) {n w : Nat} (h : w ≤ n) : bits (v % 2 ^ n) 0 w = v % 2 ^ w := by
  simp only [bits, Nat.shiftRight_zero]
  exact Nat.mod_mod_of_dvd v (Nat.pow_dvd_pow 2 h)

/-- The command c, as the write x, ends in the effect f once the gate grants it and every register it covers takes it. -/
def State.WriteEnds (s : State) (m : Mach) (c : Instr) (x : HostAccess) (f : Mach → Mach) : Prop :=
  s.Granted x true m → (s.sampled x true 0 m).Takes x →
    exec c s = .next (s.answered (f ((s.sampled x true 0 m).storedBy x)) x true 0)

section
variable {s : State} {m : Mach} {c : Instr} {b : Master} {v : Nat}

/-- A 32-bit write of a register of the system's blocks, known by its name and its place and without W1C bits, ends in
what the write of that register does. -/
theorem writeEnds_system {a : Nat} (r : Reg) (k : Block) {f : Mach → Mach}
    (he : exec c s = s.ends (s.hostWrite b a 4 v))
    (hr : (findReg a).map (fun y => (y.desc.reg, y.desc.block, y.desc.maskOf (·.ty = .w1c), y.i, y.high)) =
      some (r, k, 0, 0, false))
    (hk : k ∈ [Block.sys, .pwr, .cfg, .pmc])
    (hf : ∀ (n y : Mach) (d : RegDesc), d.reg = r → y.wroteSystem n b ⟨d, 0, 2 ^ 32 - 1, v % 2 ^ 32⟩ = f y) :
    s.WriteEnds m c ⟨b, .w32, a, v⟩ f := by
  intro hg ht
  refine exec_write_one f he hg ht rfl hr fun n y d hd hb => ?_
  rw [← hf n y d hd]
  simp only [List.mem_cons, List.not_mem_nil, or_false] at hk
  rcases hk with rfl | rfl | rfl | rfl <;> simp [Mach.wrote, hb]

/-- A write of SYS_MODE_REQ asks for the mode of its TARGET (R390). -/
theorem writeEnds_modeReq (he : exec c s = s.ends (s.hostWrite b addrModeReq 4 v)) :
    s.WriteEnds m c ⟨b, .w32, addrModeReq, v⟩ fun y => y.modeRequest b.id (v % 2 ^ 4) :=
  writeEnds_system .SYS_MODE_REQ .sys he (by decide +kernel) (by decide) fun n y d hd => by
    simp only [Mach.wroteSystem, hd, Cover.field, bits_mod_two_pow_zero v (by decide : 4 ≤ 32)]

/-- A write of SYS_SOFT_RESET restarts the domains of its bits (R403). -/
theorem writeEnds_softReset (he : exec c s = s.ends (s.hostWrite b addrSoftReset 4 v)) :
    s.WriteEnds m c ⟨b, .w32, addrSoftReset, v⟩ fun y => y.softReset (v % 2 ^ 6) :=
  writeEnds_system .SYS_SOFT_RESET .sys he (by decide +kernel) (by decide) fun n y d hd => by
    simp only [Mach.wroteSystem, hd, Cover.field, bits_mod_two_pow_zero v (by decide : 6 ≤ 32)]

/-- A write of SYS_WDT_KICK kicks the watchdog with its VALUE (R404). -/
theorem writeEnds_wdtKick (he : exec c s = s.ends (s.hostWrite b addrWdtKick 4 v)) :
    s.WriteEnds m c ⟨b, .w32, addrWdtKick, v⟩ fun y => y.wdtKick (v % 2 ^ 16) :=
  writeEnds_system .SYS_WDT_KICK .sys he (by decide +kernel) (by decide) fun n y d hd => by
    simp only [Mach.wroteSystem, hd, Cover.field, bits_mod_two_pow_zero v (by decide : 16 ≤ 32)]

/-- A write of PMC_SW pulses the software events of its bits (R420). -/
theorem writeEnds_pmcSw (he : exec c s = s.ends (s.hostWrite b addrPmcSw 4 v)) :
    s.WriteEnds m c ⟨b, .w32, addrPmcSw, v⟩ fun y => y.pmcSw (v % 2 ^ 16) :=
  writeEnds_system .PMC_SW .pmc he (by decide +kernel) (by decide) fun n y d hd => by
    simp only [Mach.wroteSystem, hd, Cover.field, bits_mod_two_pow_zero v (by decide : 16 ≤ 32)]

/-- A write of PMC_SNAP_CTL with GO takes a snapshot (R422). -/
theorem writeEnds_snapCtl (he : exec c s = s.ends (s.hostWrite b addrSnapCtl 4 (setBit v 31))) :
    s.WriteEnds m c ⟨b, .w32, addrSnapCtl, setBit v 31⟩ fun y => y.snapNow :=
  writeEnds_system .PMC_SNAP_CTL .pmc he (by decide +kernel) (by decide) fun n y d hd => by
    simp only [Mach.wroteSystem, hd, Cover.field, bits_setBit_31, if_true]

/-- A write of CFG_FLASH_CTL with GO starts the operation that it names (R384). -/
theorem writeEnds_flashCtl {op len : Nat} (he : exec c s = s.ends (s.hostWrite b addrFlashCtl 4 (flashGoWord op len)))
    (hop : op < 8) :
    s.WriteEnds m c ⟨b, .w32, addrFlashCtl, flashGoWord op len⟩ fun y => y.flashGo := by
  have hgo : bits (flashGoWord op len % 2 ^ 32) 31 1 = 1 := by
    simp only [bits, flashGoWord, Nat.shiftRight_eq_div_pow]
    omega
  exact writeEnds_system .CFG_FLASH_CTL .cfg he (by decide +kernel) (by decide) fun n y d hd => by
    simp only [Mach.wroteSystem, hd, Cover.field, hgo, if_true]

/-- What SYS_RESET_REQ does once it is written, with the writer's node named by `Mach.originOf`. -/
theorem Mach.wroteSystem_resetReq {y old : Mach} {d : Cover} (hd : d.desc.reg = .SYS_RESET_REQ) :
    y.wroteSystem old b d =
      if (y.mode ≠ .hold && y.mode ≠ .load && y.mode ≠ .prove && y.mode ≠ .halt : Bool) ∧
          d.field F.SYS_RESET_REQ_NODE = 1 then
        y.setSys { y.sys with resetDue := some (clsFab, y.originOf b) }
      else y := by
  simp only [Mach.wroteSystem, hd]
  rfl

/-- A write of SYS_RESET_REQ with NODE makes a reset due, in the modes that take it (R401). -/
theorem writeEnds_resetReq (he : exec c s = s.ends (s.hostWrite b addrResetReq 4 v)) :
    s.WriteEnds m c ⟨b, .w32, addrResetReq, v⟩ fun y =>
      if y.mode ≠ .hold ∧ y.mode ≠ .load ∧ y.mode ≠ .prove ∧ y.mode ≠ .halt ∧ v % 2 = 1 then
        y.setSys { y.sys with resetDue := some (clsFab, y.originOf b) }
      else y :=
  writeEnds_system .SYS_RESET_REQ .sys he (by decide +kernel) (by decide) fun n y d hd => by
    simp only [Mach.wroteSystem_resetReq, hd, Cover.field, bits_mod_two_pow_zero v (by decide : 1 ≤ 32)]
    simp [and_assoc]

end

/-- Settles O35: each command is a write of one register of SYS, CFG or PMC, and so ends in what that write does. -/
theorem systemWrites : Obligations.SystemWrites := by
  unfold Obligations.SystemWrites
  intro s m b v c x f hc
  change s.WriteEnds m c x f
  simp only [List.mem_cons, Prod.mk.injEq, List.not_mem_nil, or_false] at hc
  rcases hc with ⟨rfl, rfl, rfl⟩ | ⟨rfl, rfl, rfl⟩ | ⟨rfl, rfl, rfl⟩ | ⟨rfl, rfl, rfl⟩ | ⟨rfl, rfl, rfl⟩ |
    ⟨rfl, rfl, rfl⟩ | ⟨rfl, rfl, rfl⟩ | ⟨rfl, rfl, rfl⟩ | ⟨rfl, rfl, rfl⟩ | ⟨rfl, rfl, rfl⟩ | ⟨rfl, rfl, rfl⟩ |
    ⟨rfl, rfl, rfl⟩ | ⟨rfl, rfl, rfl⟩ | ⟨rfl, rfl, rfl⟩ | ⟨rfl, rfl, rfl⟩ | ⟨rfl, rfl, rfl⟩ | ⟨rfl, rfl, rfl⟩ |
    ⟨rfl, rfl, rfl⟩ | ⟨rfl, rfl, rfl⟩ | ⟨rfl, rfl, rfl⟩
  iterate 5 exact writeEnds_modeReq rfl
  iterate 6 exact writeEnds_softReset rfl
  · exact writeEnds_flashCtl rfl (by decide)
  · exact writeEnds_system .CFG_SVC_CTL .cfg rfl (by decide +kernel) (by decide) fun n y d hd => by
      simp [Mach.wroteSystem, hd, Cover.field, bits]
  · exact writeEnds_system .CFG_SVC_CTL .cfg rfl (by decide +kernel) (by decide) fun n y d hd => by
      simp [Mach.wroteSystem, hd, Cover.field, bits]
  · exact writeEnds_wdtKick rfl
  · exact writeEnds_pmcSw rfl
  · exact writeEnds_snapCtl rfl
  · exact writeEnds_flashCtl rfl (by decide)
  · exact writeEnds_flashCtl rfl (by decide)
  · exact writeEnds_resetReq rfl

end Sys2Proof.Machine
end

section
/-! SUPPORT. What a write makes of a register, bit by bit, by the types of the fields. -/

namespace Sys2Proof.Machine

/-- Taking away the bits that b names clears them. -/
theorem testBit_sub_and (a b i : Nat) : (a - (a &&& b)).testBit i = (a.testBit i && !b.testBit i) := by
  induction i generalizing a b with
  | zero =>
    have hle : a &&& b ≤ a := Nat.and_le_left
    have h1 : (a &&& b) % 2 = a % 2 &&& b % 2 := Nat.and_mod_two_pow (n := 1)
    have h2 : (a &&& b) % 2 ≤ a % 2 := h1 ▸ Nat.and_le_left
    have h3 : (a - (a &&& b)) % 2 = a % 2 - (a % 2 &&& b % 2) := by omega
    simp only [Nat.testBit_zero, h3]
    rcases Nat.mod_two_eq_zero_or_one a with ha | ha <;> rcases Nat.mod_two_eq_zero_or_one b with hb | hb <;>
      rw [ha, hb] <;> rfl
  | succ i ih =>
    have h1 : (a &&& b) / 2 = a / 2 &&& b / 2 := Nat.and_div_two
    have h2 : (a &&& b) % 2 = a % 2 &&& b % 2 := Nat.and_mod_two_pow (n := 1)
    have h4 : a % 2 &&& b % 2 ≤ a % 2 := Nat.and_le_left
    have h3 : (a - (a &&& b)) / 2 = a / 2 - (a / 2 &&& b / 2) := by omega
    rw [Nat.testBit_succ, h3, ih, Nat.testBit_succ, Nat.testBit_succ]

/-- The bits that k names are those of v, and the others stay. -/
theorem testBit_mergeBits (old k v i : Nat) :
    (mergeBits old k v).testBit i = if k.testBit i then v.testBit i else old.testBit i := by
  simp only [mergeBits, Nat.testBit_or, testBit_sub_and, Nat.testBit_and]
  cases k.testBit i <;> simp

theorem testBit_fieldMask (f : Field) (j : Nat) : f.mask.testBit j = decide (f.lo ≤ j ∧ j < f.lo + f.width) := by
  simp only [Field.mask, Nat.testBit_shiftLeft, Nat.testBit_two_pow_sub_one]
  by_cases h : f.lo ≤ j
  · simp only [h, decide_true, Bool.true_and, true_and]
    exact decide_eq_decide.2 (by omega)
  · simp [h]

theorem testBit_foldl_masks (fs : List FieldDesc) (a j : Nat) :
    (fs.foldl (fun a f => a ||| f.field.mask) a).testBit j = (a.testBit j || fs.any fun f => f.field.mask.testBit j) := by
  induction fs generalizing a with
  | nil => simp
  | cons f fs ih => simp [ih, Bool.or_assoc]

/-- A bit of a full write's mask for a type is a bit of a field of that type. -/
theorem testBit_bitsOf (d : RegDesc) (i v j : Nat) (t : FType) :
    ((⟨d, i, 2 ^ 64 - 1, v⟩ : Cover).bitsOf t).testBit j = true ↔
      j < 64 ∧ ∃ f ∈ d.fields, f.ty = t ∧ f.field.lo ≤ j ∧ j < f.field.lo + f.field.width := by
  simp only [Cover.bitsOf, RegDesc.maskOf, Nat.testBit_and, testBit_foldl_masks, testBit_fieldMask,
    Nat.testBit_two_pow_sub_one]
  simp [and_comm, and_assoc]

/-- In every row of the register map each field lies in the register, and fields that share a bit have one type. -/
theorem allRegs_fields : ∀ d ∈ allRegs, ∀ f ∈ d.fields, f.field.lo + f.field.width ≤ 64 ∧ ∀ g ∈ d.fields,
    f.ty = g.ty ∨ f.field.lo + f.field.width ≤ g.field.lo ∨ g.field.lo + g.field.width ≤ f.field.lo := by
  decide +kernel

/-- What a write makes of bit j of a register, by the masks of the types. -/
theorem Cover.testBit_stored (c : Cover) (old j : Nat) : (c.stored old).testBit j =
    (((if (c.bitsOf .rw).testBit j then c.val.testBit j else old.testBit j) || c.val.testBit j && (c.bitsOf .w1s).testBit j) &&
      !(c.val.testBit j && (c.bitsOf .w1c).testBit j)) := by
  simp only [Cover.stored, Nat.and_assoc, testBit_sub_and, Nat.testBit_or, testBit_mergeBits, Nat.testBit_and]

/-- Settles O50: the masks of the types that a write acts on hold the bits of the fields of those types, and no bit lies in
fields of two types. -/
theorem writeByType : Obligations.WriteByType := by
  unfold Obligations.WriteByType
  intro d i old v hd _ _ c
  have hv : c.val = v := rfl
  refine ⟨?_, fun k hk => ?_⟩
  · intro f k hf hk j
    obtain ⟨hle, hdis⟩ := allRegs_fields d hd f hf
    have hin (t : FType) : (c.bitsOf t).testBit j = decide (f.ty = t) := by
      rw [Bool.eq_iff_iff, testBit_bitsOf, decide_eq_true_iff]
      constructor
      · rintro ⟨-, g, hg, rfl, hlo, hhi⟩
        rcases hdis g hg with h | h | h
        · exact h
        · omega
        · omega
      · rintro rfl
        exact ⟨by omega, f, hf, rfl, by omega, by omega⟩
    rw [c.testBit_stored, hin, hin, hin, hv]
    refine ⟨fun h => ?_, fun h => ?_, fun h => ?_, fun h => ?_⟩
    · simp [h]
    · rcases h with h | h | h <;> simp [h]
    · simp [h]
    · simp [h]
  · have hout (t : FType) : (c.bitsOf t).testBit k = false := by
      rw [Bool.eq_false_iff, Ne, testBit_bitsOf]
      rintro ⟨-, g, hg, -, hlo, hhi⟩
      have := hk g hg
      omega
    simp [c.testBit_stored, hout]

end Sys2Proof.Machine
end

section
/-! SUPPORT. What every command is made of: elementary changes of the state, of which none touches the queue, and its end. -/

namespace Sys2Proof.Machine

/-- s leads to t by the elementary changes that commands are made of: to the block, to a byte of the memories or of the
flash, to the record of bit errors, to the customer key in the fuses, and a power-on. None of them touches the queue. -/
inductive State.Leads : State → State → Prop
  | refl (s : State) : Leads s s
  | trans {s t u : State} : Leads s t → Leads t u → Leads s u
  | mach (s : State) (m : Mach) : Leads s { s with mach := m }
  | byte (s : State) (a : Nat) (b : Byte) : Leads s (s.setByte a b)
  | flash (s : State) (a v : Nat) : Leads s (s.setFbyte a v)
  | erase (s : State) (a : Nat) : Leads s (s.ferase a)
  | clear (s : State) (a n : Nat) : Leads s (s.clear a n)
  | ecc (s : State) (l : List (Nat × Bool)) : Leads s { s with ecc := l }
  | customerKey (s : State) (k : Option Nat) : Leads s { s with fuses := { s.fuses with customerKey := k } }
  | por (s : State) : Leads s s.por

namespace State.Leads

variable {s t : State}

theorem pending (h : s.Leads t) : t.pending = s.pending := by
  induction h with
  | trans _ _ ih1 ih2 => exact ih2.trans ih1
  | _ => rfl

theorem on (h : s.Leads t) (f : Mach → Mach) : s.Leads (t.on f) := h.trans (.mach t _)

theorem set (h : s.Leads t) (m : Mach) : s.Leads { t with mach := m } := h.trans (.mach t m)

theorem ite {c : Prop} [Decidable c] {a b : State} (ha : s.Leads a) (hb : s.Leads b) : s.Leads (if c then a else b) := by
  split
  · exact ha
  · exact hb

theorem ite_snd {α : Type} {c : Prop} [Decidable c] {a b : α × State} (ha : s.Leads a.2) (hb : s.Leads b.2) :
    s.Leads (if c then a else b).2 := by
  split
  · exact ha
  · exact hb

theorem foldl {α : Type} {f : State → α → State} (h : ∀ (t : State) a, t.Leads (f t a)) (l : List α) (hs : s.Leads t) :
    s.Leads (l.foldl f t) := by
  induction l generalizing t with
  | nil => exact hs
  | cons a l ih => exact ih (hs.trans (h t a))

end State.Leads

namespace State

/-! ### Bytes -/

theorem leads_setBytes (s : State) (a : Nat) (l : List Nat) : s.Leads (s.setBytes a l) := by
  induction l generalizing s a with
  | nil => exact .refl s
  | cons b l ih => exact (Leads.byte s a _).trans (ih _ _)

theorem leads_fprogram (s : State) (a : Nat) (l : List Nat) : s.Leads (s.fprogram a l) := by
  induction l generalizing s a with
  | nil => exact .refl s
  | cons b l ih => exact (Leads.flash s a _).trans (ih _ _)

/-! ### The flash, the image and PROVE -/

theorem leads_logErase (s : State) : s.Leads s.logErase := (Leads.erase s _).trans (leads_fprogram _ _ _)

theorem leads_logHeader (s : State) (k : Nat) : s.Leads (s.logHeader k) := by
  unfold logHeader
  exact .ite (.refl s) ((Leads.erase s _).trans (leads_fprogram _ _ _))

theorem leads_logWrite (s : State) (pos seq : Nat) (e : TroubleEntry) : s.Leads (s.logWrite pos seq e).1 := by
  have h : s.Leads ((s.logHeader (pos / 65536)).fprogram (logBase + pos) (e.bytes seq)) :=
    (leads_logHeader s _).trans (leads_fprogram _ _ _)
  unfold logWrite
  dsimp only
  split
  · exact h
  · split
    · exact h.trans (leads_logErase _)
    · exact h

theorem leads_troubleLogWrite (s : State) : s.Leads s.troubleLogWrite := by
  unfold troubleLogWrite
  split
  · exact .refl s
  · exact .ite (.refl s) ((leads_logWrite s _ _ _).set _)

theorem leads_loadMemory (s : State) (x : ImgHeader) (vendor : List Nat) (ts : List ImgTable) :
    s.Leads (s.loadMemory x vendor ts) := by
  have h := ((Leads.clear s actionBase actionSize).trans (leads_setBytes _ actionBase
    ((vendor.drop 128).take (x.vendorLen - 224)))).trans (leads_setBytes _ (actionBase + 65536) (tableData ts 7))
  unfold loadMemory
  exact .ite ((h.trans (.clear _ _ _)).trans (leads_setBytes _ _ _)) h

theorem leads_applyImage (s : State) (c : Mach) (x : ImgHeader) (vendor : List Nat) (ts : List ImgTable) :
    s.Leads (s.applyImage c x vendor ts) :=
  ((Leads.mach s c).trans (leads_loadMemory _ x vendor ts)).set _

theorem leads_trySlot {s : State} {slot : Nat} {f : FlashIn} {x : Option LoadFail × State}
    (h : s.trySlot slot f = x) : s.Leads x.2 := by
  subst h
  unfold trySlot
  cases s.imgHeader slot with
  | none => exact .refl s
  | some x =>
    refine .ite_snd (.refl s) (.ite_snd (.refl s) (.ite_snd (.refl s) (.ite_snd (.mach s _) ?_)))
    split
    · exact .mach s _
    · exact .ite_snd ((Leads.mach s _).trans (leads_applyImage _ _ _ _ _)) (.mach s _)

theorem leads_flashUp (s : State) (f : FlashIn) : s.Leads (s.flashUp f) := .mach s _

theorem leads_slotSeqs (s : State) : s.Leads s.slotSeqs := .mach s _

/-- The start of a slot's load. -/
theorem leads_unload (s : State) : s.Leads { s with mach := s.mach.unload }.slotSeqs :=
  (Leads.mach s _).trans (leads_slotSeqs _)

theorem leads_loadSlots (s : State) (f : FlashIn) : s.Leads (s.loadSlots f) := by
  unfold loadSlots
  dsimp only
  have h := leads_unload s
  split
  · next t ht => exact (h.trans (leads_trySlot ht)).set _
  · next ea t ht =>
    have hc := (h.trans (leads_trySlot ht)).trans (leads_unload t)
    split
    · next u hu => exact ((Leads.ite (hc.set _) hc).trans (leads_trySlot hu)).set _
    · next eb u hu =>
      have hf := ((Leads.ite (hc.set _) hc).trans (leads_trySlot hu)).trans (leads_unload u)
      exact (hf.trans (.clear _ actionBase actionSize)).set _

theorem leads_load (s : State) (f : FlashIn) : s.Leads (s.load f) := by
  have h := (leads_flashUp s f).trans (.clear _ dramBase (2 ^ 40))
  refine Leads.set (.ite ?_ ?_) _
  · exact (h.trans (.mach _ _)).trans (leads_loadSlots _ f)
  · exact (h.trans (.clear _ actionBase actionSize)).set _

theorem leads_imageCheck (s : State) (f : FlashIn) : s.Leads (s.imageCheck f) :=
  .ite (.mach s _) ((Leads.mach s _).trans (leads_load _ f))

theorem leads_loadCommand (s : State) (f : FlashIn) : s.Leads (s.loadCommand f) :=
  .ite (leads_load s f) (.ite ((Leads.mach s _).trans (leads_load _ f)) (.refl s))

theorem leads_imageCheckCommand (s : State) (f : FlashIn) : s.Leads (s.imageCheckCommand f) :=
  .ite (leads_imageCheck s f) (.refl s)

theorem leads_flashDone (s : State) (v : Bool) : s.Leads (s.flashDone v) := by
  unfold flashDone
  split
  · exact .refl s
  · exact .ite (.mach s _) ((Leads.ite (leads_fprogram s _ _) (.erase s _)).set _)

theorem leads_scrubbed (s : State) (r : SlotResult) : s.Leads (s.scrubbed r) :=
  .ite (.refl s) (.ite (.ecc s _) (.ite (.ecc s _) (.refl s)))

theorem leads_proveMemory (s : State) : s.Leads s.proveMemory :=
  have h := Leads.clear s cisternBase cisternSize
  .ite h (h.trans (leads_setBytes _ _ _))

theorem leads_proveTests (s : State) (r : ProveIn) : s.Leads (s.proveTests r) :=
  .ite (.refl s) ((leads_proveMemory s).set _)

theorem leads_dbgFuseDone (s : State) (v : Nat) : s.Leads (s.dbgFuseDone v) := by
  unfold dbgFuseDone
  split
  · exact .refl s
  · exact (Leads.mach s _).trans (.customerKey _ _)

theorem leads_powerOn (s : State) : s.Leads s.powerOn :=
  .ite (.por s) (((Leads.por s).trans (.customerKey _ (some (deadKey (Config.freeWord s.por.mach.freeIdx))))).set _)

/-! ### Pictures, signatures and statistics -/

theorem leads_renderColumns (s : State) (b x y : Nat) : s.Leads (s.renderColumns b x y) :=
  (Leads.foldl (fun t _ => Leads.foldl (fun u _ => leads_setBytes u _ _) _ (.refl t)) _ (.refl s)).set _

theorem leads_cmpSignature (s : State) (r : Nat) : s.Leads (s.cmpSignature r) := .ite (.mach s _) (.refl s)

theorem leads_cmpSignatures (s : State) (p : Nat → Bool) : s.Leads (s.cmpSignatures p) :=
  .ite (.refl s) (.foldl (fun t r => .ite (leads_cmpSignature t r) (.refl t)) _ (.refl s))

theorem leads_outSignature (s : State) (r : Nat) (e : List (Nat × Nat)) : s.Leads (s.outSignature r e) :=
  .ite (.mach s _) (.refl s)

theorem leads_bandSlotStart (s : State) (b : Nat) : s.Leads (s.bandSlotStart b) :=
  .ite (.refl s) (((leads_cmpSignatures s _).on _).trans (leads_renderColumns _ b 0 4096))

theorem leads_bandOverrunAt (s : State) (k : Nat) (l : List Nat) : s.Leads (s.bandOverrunAt k l) :=
  .ite (.refl s) ((Leads.mach s _).trans (leads_renderColumns _ _ _ _))

theorem leads_frameDoneAt (s : State) : s.Leads s.frameDoneAt := (leads_cmpSignatures s _).on _

theorem leads_sliceEmitAt (s : State) (n : Nat) (l : List (List Nat)) : s.Leads (s.sliceEmitAt n l) :=
  .foldl (fun (t : State) (x : Nat × Nat) => .byte t x.1 _) _ (.mach s _)

/-! ### Accesses -/

theorem leads_memRead (s : State) (b : Master) (r : Region) (a n : Nat) : s.Leads (s.memRead b r a n).2 := by
  rw [memRead_state]
  exact .mach s _

theorem leads_memWrite (s : State) (r : Region) (a : Nat) (l : List Nat) : s.Leads (s.memWrite r a l) :=
  ((Leads.mach s _).trans (.ecc _ _)).trans (leads_setBytes _ a l)

theorem leads_localRead {s : State} {b : Master} {a n : Nat} {x : Reply × State} (h : s.localRead b a n = x) :
    s.Leads x.2 := by
  subst h
  unfold localRead
  dsimp only
  split
  · exact .mach s _
  · split
    · exact .mach s _
    · exact ((Leads.mach s _).trans (leads_memRead _ _ _ _ _)).set _
    · exact .mach s _

theorem leads_localWrite {s : State} {b : Master} {a : Nat} {l : List Nat} {p : Bool} {x : Reply × State}
    (h : s.localWrite b a l p = x) : s.Leads x.2 := by
  subst h
  unfold localWrite
  dsimp only
  split
  · exact .mach s _
  · split
    · exact .mach s _
    · exact (Leads.mach s _).trans (leads_memWrite _ _ _ _)
    · exact .mach s _

theorem leads_hostWrite (s : State) (b : Master) (a n v : Nat) : s.Leads (s.hostWrite b a n v) :=
  .ite (.refl s) ((leads_localWrite rfl).on _)

theorem leads_hostRead (s : State) (b : Master) (a n : Nat) : s.Leads (s.hostRead b a n) :=
  .ite (.refl s) ((leads_localRead rfl).on _)

theorem leads_memReq (s : State) (o : Nat) (q : MemReq) : s.Leads (s.memReq o q) :=
  have h := Leads.mach s (s.mach.count 11)
  .ite (h.set _) (.ite ((h.trans (leads_localWrite rfl)).set _) ((h.trans (leads_localRead rfl)).set _))

/-! ### Sequencers -/

theorem leads_fetchCorrected (s : State) (i n : Nat) : s.Leads (s.fetchCorrected i n) := .ite (.refl s) (.mach s _)

theorem leads_postWrite {s : State} {b : Master} {t : Target} {l : List Nat} {x : Nat × State}
    (h : s.postWrite b t l = x) : s.Leads x.2 := by
  subst h
  cases t with
  | own a => exact leads_localWrite (x := s.localWrite b a l true) rfl
  | far node a => exact .mach s _

theorem leads_seqRead {s : State} {k n : Nat} {t : Target} {x : Sum Nat Reply × State} (h : s.seqRead k t n = x) :
    s.Leads x.2 := by
  subst h
  cases t with
  | own a => exact leads_localRead (x := s.localRead (s.mach.seqBy k) a n) rfl
  | far node a => exact .ite_snd (.mach s _) (.mach s _)

theorem leads_seqWrite {s : State} {k : Nat} {t : Target} {l : List Nat} {x : Sum Nat Reply × State}
    (h : s.seqWrite k t l = x) : s.Leads x.2 := by
  subst h
  cases t with
  | own a => exact leads_localWrite (x := s.localWrite (s.mach.seqBy k) a l false) rfl
  | far node a => exact .ite_snd (.mach s _) (.mach s _)

theorem leads_actWrite (s : State) (k n : Nat) (ws : List Nat) : s.Leads (s.actWrite k n ws) :=
  .ite (.mach s _) ((leads_postWrite rfl).on _)

theorem leads_actRmw (s : State) (k : Nat) (ws : List Nat) : s.Leads (s.actRmw k ws) := by
  unfold actRmw
  split
  · exact .mach s _
  · exact .ite (.mach s _) (.ite (((leads_localRead rfl).on _).on _)
      ((((leads_localRead rfl).on _).trans (leads_localWrite rfl)).on _))

theorem leads_actPoll (s : State) (k : Nat) (ws : List Nat) (first : Bool) : s.Leads (s.actPoll k ws first) := by
  unfold actPoll
  refine .ite (.mach s _) ?_
  have h : s.Leads (if first then s.on fun m => m.setSeqCore k { m.seqCore k with waitRaw := m.raw } else s) :=
    .ite (.mach s _) (.refl s)
  generalize (if first then s.on fun m => m.setSeqCore k { m.seqCore k with waitRaw := m.raw } else s) = u at h ⊢
  dsimp only
  split
  · next r t ht => exact (h.trans (leads_seqRead ht)).on _
  · next r t ht => exact (h.trans (leads_seqRead ht)).on _

theorem leads_ifBits (s : State) (k : Nat) (ws : List Nat) (v : Nat) : s.Leads (s.ifBits k ws v) := .mach s _

theorem leads_ifBitsReply (s : State) (k : Nat) (ws : List Nat) (r : Reply) : s.Leads (s.ifBitsReply k ws r) :=
  have h := Leads.mach s (s.mach.put F.SEQ_LAST_LAST (ofNatBytes r.data) k)
  (Leads.ite (h.on _) h).trans (leads_ifBits _ _ _ _)

theorem leads_actIfBits (s : State) (k : Nat) (ws : List Nat) : s.Leads (s.actIfBits k ws) := by
  unfold actIfBits
  refine .ite (leads_ifBits s _ _ _) (.ite ((Leads.mach s _).trans (leads_ifBits _ _ _ _)) ?_)
  split
  · next r t ht => exact (leads_seqRead ht).trans (leads_ifBitsReply _ _ _ _)
  · next r t ht => exact (leads_seqRead ht).on _

theorem leads_actSignal (s : State) (k : Nat) (ws : List Nat) : s.Leads (s.actSignal k ws) :=
  have h := Leads.mach s (s.mach.fence (.seq k)).2
  .ite (h.on _) (.ite (h.on _) ((h.trans (leads_localWrite rfl)).on _))

theorem leads_actCommit (s : State) (k : Nat) (ws : List Nat) : s.Leads (s.actCommit k ws) :=
  have h := Leads.mach s (s.mach.fence (.seq k)).2
  .ite (h.on _) (.ite (((Leads.ite (h.on _) h).trans (leads_localWrite rfl)).on _)
    ((Leads.ite (h.on _) h).trans (leads_localWrite rfl)))

theorem leads_copyStore {s : State} {k i : Nat} {p : CopyPlan} {l : List Nat} {x : Bool × State}
    (h : s.copyStore k i p l = x) : s.Leads x.2 := by
  subst h
  unfold copyStore
  split
  · next ref t ht => exact (leads_seqWrite ht).trans (.mach t _)
  · next r t ht => exact (leads_seqWrite ht).set _

theorem leads_copyOne {s : State} {k i : Nat} {p : CopyPlan} {x : Bool × State} (h : s.copyOne k i p = x) :
    s.Leads x.2 := by
  subst h
  unfold copyOne
  split
  · next ref t ht => exact (leads_seqRead ht).trans (.mach t _)
  · next r t ht =>
    have h := leads_seqRead ht
    exact .ite_snd (h.trans (.mach t _)) (h.trans (leads_copyStore rfl))

theorem leads_copyFrom (s : State) (k : Nat) (p : CopyPlan) (n i : Nat) : s.Leads (s.copyFrom k p n i) := by
  induction n generalizing s i with
  | zero => exact .refl s
  | succ n ih =>
    have h := leads_copyOne (s := s) (k := k) (i := i) (p := p) rfl
    exact .ite (.mach s _) (.ite (h.trans (ih _ _)) h)

theorem leads_actCopy (s : State) (k : Nat) (ws : List Nat) : s.Leads (s.actCopy k ws) :=
  .ite (.mach s _) (.ite (.mach s _) (leads_copyFrom s _ _ _ _))

theorem leads_copyReply (s : State) (k i : Nat) (w : Bool) (ws : List Nat) (r : Reply) :
    s.Leads (s.copyReply k i w ws r) := by
  have h : s.Leads (if w then ((s.mach.copyWrote k i (s.mach.copyPlan ws) r).1,
        { s with mach := (s.mach.copyWrote k i (s.mach.copyPlan ws) r).2 })
      else if r.status ≠ sOk then
        (false, s.on fun m => m.copyEnd k r.status (i * (s.mach.copyPlan ws).beat))
      else s.copyStore k i (s.mach.copyPlan ws) r.data).2 :=
    .ite_snd (.mach s _) (.ite_snd (.mach s _) (leads_copyStore rfl))
  exact .ite (h.trans (leads_copyFrom _ _ _ _ _)) h

theorem leads_actOrdered (s : State) (k op : Nat) (ws : List Nat) : s.Leads (s.actOrdered k op ws) := by
  unfold actOrdered
  refine .ite (.mach s _) ?_
  split
  · exact .mach s _
  · exact leads_actSignal s k ws
  · exact leads_actCommit s k ws

theorem leads_act (s : State) (k op : Nat) (ws : List Nat) : s.Leads (s.act k op ws) := by
  unfold act
  split
  · exact .mach s _
  · exact leads_actWrite s _ _ _
  · exact leads_actWrite s _ _ _
  · exact leads_actRmw s _ _
  · exact leads_actPoll s _ _ _
  · exact .mach s _
  · exact .mach s _
  · exact leads_actIfBits s _ _
  · exact .mach s _
  · exact leads_actOrdered s _ _ _
  · exact leads_actOrdered s _ _ _
  · exact leads_actOrdered s _ _ _
  · exact leads_actCopy s _ _
  · exact .mach s _
  · exact .mach s _
  · exact .mach s _

theorem leads_seqIssue (s : State) (k op : Nat) : s.Leads (s.seqIssue k op) := by
  unfold seqIssue
  refine .ite (.refl s) ?_
  split
  · exact .mach s _
  · next ws _ =>
    have h := leads_fetchCorrected s (s.mach.seqPc k) ws.length
    exact .ite (.refl s) (.ite (h.on _) ((h.on _).trans (leads_act _ _ _ _)))

theorem leads_seqPoll (s : State) (k : Nat) : s.Leads (s.seqPoll k) := by
  unfold seqPoll
  split
  · exact .ite (leads_actPoll s _ _ _) (.refl s)
  · exact leads_seqIssue s k 4

theorem leads_seqPollTimeout (s : State) (k : Nat) : s.Leads (s.seqPollTimeout k) := by
  unfold seqPollTimeout
  split
  · exact .ite (.mach s _) (.refl s)
  · exact .refl s

theorem leads_seqWaitEventTimeout (s : State) (k : Nat) : s.Leads (s.seqWaitEventTimeout k) := by
  unfold seqWaitEventTimeout
  split
  · exact .ite (.refl s) (.mach s _)
  · exact .refl s

theorem leads_seqReply (s : State) (k ref : Nat) (r : Reply) : s.Leads (s.seqReply k ref r) := by
  unfold seqReply
  split
  · exact .ite (.refl s) (.ite (.mach s _) (leads_ifBitsReply s _ _ _))
  · exact .ite (leads_copyReply s _ _ _ _ _) (.refl s)
  · exact .refl s

theorem leads_seqRetry (s : State) (k : Nat) : s.Leads (s.seqRetry k) := by
  unfold seqRetry
  split
  · exact leads_actOrdered s _ _ _
  · exact .refl s

/-! ### The SPI target and the debug master -/

theorem leads_spiWrite (s : State) (a : Nat) (l : List Nat) (w : Bool) : s.Leads (s.spiWrite a l w) :=
  have h := Leads.mach s (s.mach.count 12)
  .ite (.refl s) (.ite (h.on _) (.ite (h.on _) ((h.trans (leads_postWrite rfl)).on _)))

theorem leads_spiRetry (s : State) : s.Leads s.spiRetry := by
  unfold spiRetry
  split
  · split
    · exact .ite (.refl s) ((leads_localRead rfl).on _)
    · exact .refl s
  · exact .refl s

theorem leads_spiReadReq (s : State) (a n : Nat) (w : Bool) : s.Leads (s.spiReadReq a n w) := by
  have h := Leads.mach s (s.mach.count 12)
  refine .ite (.refl s) (.ite (h.on _) (.ite (h.on _) (.ite (h.on _) ?_)))
  dsimp only
  split
  · exact .ite ((h.on _).on _) (((h.on _).trans (leads_localRead rfl)).on _)
  · exact .ite ((h.on _).on _) ((h.on _).on _)

theorem leads_dbgAccessDone (s : State) : s.Leads s.dbgAccessDone := by
  unfold dbgAccessDone
  split
  · exact .refl s
  · refine .ite (.refl s) (.ite ((leads_localRead rfl).on _) ?_)
    split
    · exact .ite ((leads_localWrite rfl).on _) ((leads_localRead rfl).on _)
    · exact .mach s _
    · exact .refl s

/-! ### The management protocol and Ethernet -/

theorem leads_mgmtReadNow (s : State) (k seq a n : Nat) : s.Leads (s.mgmtReadNow k seq a n) := by
  refine .ite (.mach s _) (.ite (.mach s _) ?_)
  split
  · exact .ite (.mach s _) ((leads_localRead rfl).on _)
  · exact .mach s _

theorem leads_mgmtReadFrom (s : State) (p k seq : Nat) (g : Bool) (a n : Nat) :
    s.Leads (s.mgmtReadFrom p k seq g a n) := by
  unfold mgmtReadFrom
  split
  · exact (Leads.mach s _).trans (leads_mgmtReadNow _ _ _ _ _)
  · exact .mach s _

theorem leads_mgmtWriteNow (s : State) (k seq a : Nat) (l : List Nat) : s.Leads (s.mgmtWriteNow k seq a l) := by
  refine .ite (.mach s _) (.ite (.mach s _) ?_)
  split
  · exact (leads_localWrite rfl).on _
  · exact .mach s _

theorem leads_mgmtWriteFrom (s : State) (p k seq : Nat) (g : Bool) (a : Nat) (l : List Nat) :
    s.Leads (s.mgmtWriteFrom p k seq g a l) := by
  unfold mgmtWriteFrom
  split
  · exact (Leads.mach s _).trans (leads_mgmtWriteNow _ _ _ _ _)
  · exact .mach s _

theorem leads_mgmtRetry1 (s : State) (k seq : Nat) (a : MgmtAnswer) : s.Leads (s.mgmtRetry1 k seq a) := by
  refine .ite (.refl s) ?_
  split
  · exact .mach s _
  · exact (leads_localRead rfl).on _
  · exact .refl s

theorem leads_mgmtRetry (s : State) : s.Leads s.mgmtRetry := by
  refine .foldl (fun t k => ?_) _ (.refl s)
  split
  · exact .foldl (fun t w => leads_mgmtRetry1 t k _ _) _ (.refl t)
  · exact .refl t

theorem leads_mgmtRequest (s : State) (p k seq : Nat) (g : Bool) (l : List Nat) :
    s.Leads (s.mgmtRequest p k seq g l) :=
  .ite (leads_mgmtReadFrom s _ _ _ _ _ _) (.ite (leads_mgmtWriteFrom s _ _ _ _ _ _)
    (.ite (.mach s _) (.ite (.mach s _) (.ite (.mach s _) (.mach s _)))))

theorem leads_mgmtDatagram (s : State) (p : MgmtPeer) (l : List Nat) : s.Leads (s.mgmtDatagram p l) := by
  refine .ite (.refl s) (.ite (.mach s _) ?_)
  cases s.mach.session (bits (ofNatBytes (l.take 8)) 0 32)
  all_goals
    dsimp only
    split
    · exact .ite (.mach s _) (.mach s _)
    · exact .ite (.mach s _) (.mach s _)
    · exact .ite (.mach s _) ((Leads.mach s _).trans (leads_mgmtRequest _ _ _ _ _ _))
    · exact .ite (.mach s _) (.mach s _)
    · exact .mach s _

theorem leads_udpClass (s : State) (e : EthIn) (src dst : Nat) (l : List Nat) : s.Leads (s.udpClass e src dst l) := by
  refine .ite (.mach s _) (.ite (.mach s _) ?_)
  split
  · exact .ite (.mach s _) (.mach s _)
  · exact .mach s _
  · exact .ite (leads_mgmtDatagram s _ _) (.mach s _)

theorem leads_ipv4In (s : State) (e : EthIn) : s.Leads (s.ipv4In e) := by
  refine .ite (.mach s _) ?_
  split
  · exact leads_udpClass s _ _ _ _
  · exact .mach s _
  · exact .mach s _
  · exact .mach s _

theorem leads_ipv6In (s : State) (e : EthIn) : s.Leads (s.ipv6In e) := by
  refine .ite (.mach s _) ?_
  split
  · exact leads_udpClass s _ _ _ _
  · exact .mach s _
  · exact .mach s _

theorem leads_etherType (s : State) (e : EthIn) (type : Nat) : s.Leads (s.etherType e type) := by
  refine .ite (.mach s _) ?_
  split
  · exact .mach s _
  · exact leads_ipv4In s e
  · exact leads_ipv6In s e
  · exact .mach s _
  · exact .mach s _

theorem leads_ethTag (s : State) (p : Nat) (l : List Nat) : s.Leads (s.ethTag p l) :=
  .ite (.ite (leads_etherType s _ _) (.mach s _)) (.ite (.mach s _) (.ite (.mach s _) (leads_etherType s _ _)))

theorem leads_ethFrameReceive (s : State) (p : Nat) (l : List Nat) (full : Bool) :
    s.Leads (s.ethFrameReceive p l full) :=
  have h := Leads.mach s (s.mach.count (96 + 4 * p))
  .ite (.refl s) (.ite (h.on _) (.ite ((h.on _).on _) (.ite ((h.on _).on _) ((h.on _).trans (leads_ethTag _ p l)))))

/-! ### Check jobs -/

theorem leads_jobFold {β : Type} {f : β → List Nat → β} {b : Master} {fuel a n : Nat} {y : β} {s : State}
    {x : Option β × State} (h : s.jobFold f b fuel a n y = x) : s.Leads x.2 := by
  subst h
  induction fuel generalizing s a n y with
  | zero => exact .refl s
  | succ fuel ih =>
    have h := leads_localRead (s := s) (b := b) (a := a) (n := pieceAt a n) rfl
    exact .ite_snd (.refl s) (.ite_snd h (h.trans ih))

theorem leads_jobWrite {b : Master} {fuel a : Nat} {l : List Nat} {s : State} {x : Bool × State}
    (h : State.jobWrite b fuel a l s = x) : s.Leads x.2 := by
  subst h
  induction fuel generalizing s a l with
  | zero => exact .refl s
  | succ fuel ih =>
    have h := leads_localWrite (s := s) (b := b) (a := a) (l := l.take (pieceAt a l.length)) (p := false) rfl
    exact .ite_snd (.refl s) (.ite_snd h (h.trans ih))

theorem leads_jobEnd (s : State) (c : Nat) (j : ChkJob) (v : Nat) : s.Leads (s.jobEnd c j v) := by
  unfold jobEnd
  split
  · exact .mach s _
  · exact .mach s _
  · dsimp only
    exact (leads_jobWrite (s := s) rfl).set _
  · dsimp only
    split
    · next t ht => exact (leads_jobFold ht).set _
    · next l t ht => exact (leads_jobFold ht).set _

theorem leads_chkJobDone (s : State) (c : Nat) : s.Leads (s.chkJobDone c) := by
  unfold chkJobDone
  split
  · exact .refl s
  · dsimp only
    split
    · next t ht => exact (leads_jobFold ht).set _
    · next x t ht => exact (leads_jobFold ht).trans (leads_jobEnd t _ _ _)

/-! ### Packets and flits of the fabric -/

theorem leads_deliverReply (s : State) (x : RemoteReq) (st : Nat) (r : Reply) (o : Bool) :
    s.Leads (s.deliverReply x st r o) := by
  unfold deliverReply
  split
  · exact .ite (.refl s) (leads_seqReply s _ _ _)
  · exact .ite (.refl s) (.mach s _)
  · exact .ite (.refl s) (.mach s _)
  · exact .mach s _
  · exact .refl s

theorem leads_afterReply (s : State) : s.Leads s.afterReply :=
  ((Leads.foldl (fun t k => leads_seqRetry t k) _ (.mach s _)).trans (leads_spiRetry _)).trans (leads_mgmtRetry _)

theorem leads_endRequest (s : State) (x : RemoteReq) (st : Nat) (l : List Nat) (o : Bool) :
    s.Leads (s.endRequest x st l o) :=
  have h := Leads.mach s
    (s.mach.setFab { s.mach.fab with remote := s.mach.fab.remote.filter fun (y : RemoteReq) => y.tag ≠ x.tag })
  ((Leads.ite (h.on _) h).trans (leads_deliverReply _ _ _ _ _)).trans (leads_afterReply _)

theorem leads_memRsp (s : State) (tag st : Nat) (l : List Nat) : s.Leads (s.memRsp tag st l) := by
  unfold memRsp
  split
  · exact leads_endRequest s _ _ _ _
  · exact .refl s

theorem leads_memTimeout (s : State) (tag : Nat) : s.Leads (s.memTimeout tag) := by
  unfold memTimeout
  split
  · exact leads_endRequest s _ _ _ _
  · exact .refl s

theorem leads_memReqPacket (s : State) (p src : Nat) (l : List Nat) : s.Leads (s.memReqPacket p src l) :=
  .ite (.mach s _) (.ite (.mach s _) (leads_memReq s _ _))

theorem leads_routedPacket (s : State) (p type src : Nat) (l : List Nat) : s.Leads (s.routedPacket p type src l) := by
  unfold routedPacket
  split
  · exact .mach s _
  · exact leads_memReqPacket s _ _ _
  · exact .ite (.mach s _) (leads_memRsp s _ _ _)
  · exact leads_mgmtDatagram s _ _
  · exact .mach s _
  · exact .mach s _

theorem leads_routedFlit (s : State) (p : Nat) (f : Flit) : s.Leads (s.routedFlit p f) := by
  refine .ite (.mach s _) ?_
  split
  · exact (Leads.mach s _).trans (leads_routedPacket _ _ _ _ _)
  · exact .mach s _

theorem leads_flitContent (s : State) (p : Nat) (f : Flit) : s.Leads (s.flitContent p f) := by
  refine .ite (.mach s _) (.ite (.refl s) ?_)
  split
  · exact .refl s
  · exact .refl s
  · exact .mach s _
  · exact .mach s _
  · exact .mach s _
  · exact .mach s _
  · exact .mach s _
  · exact .mach s _
  · exact leads_routedFlit s p f

theorem leads_flitReceive (s : State) (p : Nat) (f : Flit) : s.Leads (s.flitReceive p f) := by
  refine .ite (.refl s) (.ite (.ite (.refl s) (.ite (.mach s _) (.mach s _))) ?_)
  split
  · exact .mach s _
  · exact .ite ((Leads.mach s _).trans (leads_flitContent _ p f)) (.mach s _)

end State

/-! ### How every command ends -/

/-- The command's own effect is made of elementary changes, and what ends every command follows. -/
def State.Completes (s : State) (r : Result) : Prop := ∃ t, s.Leads t ∧ r = .next (s.done t)

theorem State.Leads.completes {s t : State} (h : s.Leads t) : s.Completes (s.ends t) := ⟨t, h, rfl⟩

theorem State.completes_gated (s : State) (b : Bool) (f : Mach → Mach) : s.Completes (s.gated b f) :=
  (State.Leads.ite (.mach s _) (.refl s)).completes

/-- Every command, in every state, ends so. -/
theorem exec_completes (c : Instr) (s : State) : s.Completes (exec c s) := by
  cases c
  case registerWrite | encKeyReq | encLtrReq | cmpGroupCommit | cmpFence | cmpFenceClr | cmpReadoutIn | lutSwap |
    lutWindowWrite | auxGo | scnBlWrite | tchRebase | tchTestGo | evcPendWrite | evcHostPendWrite | evcDoorbell | i2cGo
    | gateCommit | gateSyncWrite | chkCompute | chkCheck | chkAppend | chkCheckStrip | flashRead | flashProgram |
    flashErase | svcNew | svcVerify | requestLive | requestStandby | requestSleep | requestService | requestHalt |
    sysResetReq | softEth | softCap | softDec | softEnc | softTch | softChk | sysWdtKick | pmcSnap | pmcSw =>
    exact (State.leads_hostWrite s _ _ _ _).completes
  case lowWordRead | capStampRead | cmpReceiptRead | cmpReleaseRead | tchReportRead | seqLogRead | gateSyncRead |
    gateRecordRead | pmcSampRead | tstResultRead =>
    exact (State.leads_hostRead s _ _ _).completes
  case seqNop | seqWrite32 | seqWrite64 | seqRmw | seqWaitEvent | seqWaitTime | seqIfBits | seqJump | seqFence |
    seqSignal | seqCommit | seqCopy | seqLog | seqYield | seqEnd =>
    exact (State.leads_seqIssue s _ _).completes
  case clockFault | panelStep | proxSample | delivery | seqWaitTimeExpiry | seqRunLimit | gpioEdge | spiStatus |
    spiReadData | spiCsLimit | spiUnknownCommand | resetN | holdEnd | leaveJoin | joinLimit | wakeTimer | sleepEntryDone
    | sleepWake | sysWdtWarn | wdtExpiry | wdtCountDrop | pwrRail | pwrStageUp | pwrStageDown | s5Dwell | sagRestart |
    tstPeriod | tapReset | idcode | samplePreload | extest | extestPulse | extestTrain | clamp | highz | bypass |
    fuseProg | dbgNop | dbgRead32 | dbgWrite32 | dbgRead64 | dbgWrite64 | dbgFence =>
    exact (State.Leads.mach s _).completes
  case timeFlitSend | timeSettled | timeHoldover | rootLost | claim | timeParentChange | preemptClaim | refPpsEdge |
    refF10mGate | timeRefLost | ptpMessageTimer | join | accept | refuse | leave | flowDown | rejoin | resvCheck |
    state | peerUnknown | doorbell | streamSliceReceive | spanBandRowReceive | auReleaseTimeout | streamSilent |
    ethLink | neighbourRequest | neighbourExpire | membershipReport | rtcpSrSend | openMgmt | prove | mgmtFence |
    mgmtPending | close | mgmtIdle | csiFrameStart | csiLine | csiFrameEnd | capSilent | sliceDecoded | workLimit |
    contextResetEnd | rowCoded | rowLimitReached | latchLine | applyPoint | readoutTimeout | lutSwapChecked |
    tchCycleStart | listenEnd | scanEnd | scanLate | baselineAdopted | unconfAdopt | stuckContact | tchTestDone |
    tchRx | tchRxSilent | holdoffEnd | noRootSeen | ptpReferenceLost | flowSilent | timeFlitReceive | portTrain |
    trainFail | configSend | config | configTimeout | nak | idleLimit | retrain | portDisable | stateFlood | trainLock
    | pulseArm | pulseEdge | captureEdge | mgmtLockoutEnd | capEnWrite | i2cDone | i2cTimeout | flashEraseTimeout |
    svcChallengeExpiry | pwrThermal | thermalClear | thermalCrit | pmcWrap | sensorRead | telRecord | pulseReturn |
    frameStart | vblank | lutEccFatal | hpdPlug | hpdUnplug | irqHpd | dpRetry | auxReplyTimeout | auxReply | noHpd |
    faultHoldEnd | hpdShortPulse | eventArrival | cisternFatal =>
    exact s.completes_gated _ _
  case bandSlotStart => exact (State.leads_bandSlotStart s _).completes
  case bandOverrun => exact (State.leads_bandOverrunAt s _ _).completes
  case cmpFrameDone => exact (State.leads_frameDoneAt s).completes
  case flitReceive => exact (State.leads_flitReceive s _ _).completes
  case memReq => exact (State.Leads.ite (State.leads_memReq s _ _) (.refl s)).completes
  case memRsp => exact (State.Leads.ite (State.leads_memRsp s _ _ _) (.refl s)).completes
  case memTimeout => exact (State.Leads.ite (State.leads_memTimeout s _) (.refl s)).completes
  case ethFrameReceive => exact (State.leads_ethFrameReceive s _ _ _).completes
  case mgmtRead => exact (State.leads_mgmtReadFrom s _ _ _ _ _ _).completes
  case mgmtWrite => exact (State.leads_mgmtWriteFrom s _ _ _ _ _ _).completes
  case sliceEmit => exact (State.Leads.ite (State.leads_sliceEmitAt s _ _) (.refl s)).completes
  case sigOutComplete => exact (State.Leads.ite (State.leads_outSignature s _ _) (.refl s)).completes
  case seqPoll => exact (State.leads_seqPoll s _).completes
  case seqPollTimeout => exact (State.leads_seqPollTimeout s _).completes
  case seqWaitEventTimeout => exact (State.leads_seqWaitEventTimeout s _).completes
  case sysFenceRead => exact (State.Leads.ite (.refl s) (State.leads_hostRead s _ _ _)).completes
  case spiWrite => exact (State.leads_spiWrite s _ _ _).completes
  case spiReadReq => exact (State.leads_spiReadReq s _ _ _).completes
  case chkJobDone => exact (State.leads_chkJobDone s _).completes
  case load => exact (State.leads_loadCommand s _).completes
  case imageCheck => exact (State.leads_imageCheckCommand s _).completes
  case flashDone => exact (State.leads_flashDone s _).completes
  case por => exact (State.leads_powerOn s).completes
  case troubleLogWrite => exact (State.leads_troubleLogWrite s).completes
  case badgerSlot => exact ((State.Leads.mach s _).trans (State.leads_scrubbed _ _)).completes
  case proveTests => exact (State.leads_proveTests s _).completes
  case fuseRead => exact (State.Leads.mach s _).completes
  case dbgFuseDone => exact (State.leads_dbgFuseDone s _).completes
  case dbgAccessDone => exact (State.leads_dbgAccessDone s).completes

theorem Mach.restSame.foldl {α : Type} {f : Mach → α → Mach} (h : ∀ (m : Mach) a, m.restSame (f m a)) (l : List α)
    (m : Mach) : m.restSame (l.foldl f m) := by
  induction l generalizing m with
  | nil => exact .refl m
  | cons a l ih => exact (h m a).trans (ih _)

/-- Fields that return to their POR values are registers' alone. -/
theorem Mach.restSame_returnFields (m : Mach) (p : RegDesc → Nat → FieldDesc → Bool) : m.restSame (m.returnFields p) := by
  refine Mach.restSame.foldl (fun n e => ?_) _ m
  dsimp only
  split
  · exact .refl n
  · split
    · exact .refl n
    · constructor <;> rfl

/-- A reset leaves none due. -/
theorem Mach.resetNode_resetDue (m : Mach) (cls node : Nat) : (m.resetNode cls node).sys.resetDue = none := by
  have h (n : Mach) (p : RegDesc → Nat → FieldDesc → Bool) :
      (((n.afterReset cls).returnFields p)).sys.resetDue = none := by
    rw [(Mach.restSame_returnFields _ p).sys]
    rfl
  unfold Mach.resetNode
  dsimp only
  split <;> simp only [Mach.put_sys, h]

/-- A reset that is due starts, and none stays due. -/
theorem Mach.startReset_resetDue (m : Mach) : m.startReset.sys.resetDue = none := by
  unfold Mach.startReset
  split
  · assumption
  · exact Mach.resetNode_resetDue _ _ _

/-- No reset stays due at the end of a command. -/
theorem State.done_resetDue (s t : State) : (s.done t).mach.sys.resetDue = none := by
  change (s.mach.drivePins _).sys.resetDue = none
  rw [(Mach.frame_drivePins (rs := []) _ _).rest.sys]
  exact Mach.startReset_resetDue _

/-- Settles O42: elementary changes leave the queue alone, and the end of a command starts a reset that is due. That a
command whose conditions fail answers an unchanged state is the model's choice (log entry 5). -/
theorem commandsAnswer : Obligations.CommandsAnswer := by
  unfold Obligations.CommandsAnswer
  intro c s
  obtain ⟨t, ht, he⟩ := exec_completes c s
  exact ⟨s.done t, he, ht.pending, s.done_resetDue t⟩

end Sys2Proof.Machine
end

section
/-! SUPPORT. Commands of the modes, the resets and the watchdog: what each does when its conditions hold. -/

namespace Sys2Proof.Machine

/-- A command that acts in every mode ends in any effect that agrees with its own on the machine as it stands. -/
theorem exec_always {c : Instr} {s : State} {f g : Mach → Mach} (he : exec c s = s.always f)
    (h : f s.mach = g s.mach) : exec c s = .next (s.after g) := by
  rw [he, State.always_eq, State.after_congr h]

section
variable {m : Mach}

/-- Outside HALT, HOLD and SLEEP the loss of a derived clock halts the node (R14). -/
theorem Mach.clockFaultCommand_running {i : Nat} (ht : m.mode ≠ .halt) (hh : m.mode ≠ .hold) (hs : m.mode ≠ .sleep)
    (hi : refIsland i = true) :
    m.clockFaultCommand i = ((m.trouble F.SYS_TROUBLE_CLOCK 0 i).halt 1 i).blank i := by
  simp [Mach.clockFaultCommand, Mach.clockFault, ht, hh, hs, hi]

/-- In SLEEP the loss of the one clock that runs resets the node (R462). -/
theorem Mach.clockFaultCommand_asleep (h : m.mode = .sleep) : m.clockFaultCommand 0 = m.resetNode clsPin 0 :=
  if_pos ⟨h, rfl⟩

/-- HOLD ends, unless a scan of the debug port holds it (R400, R445). -/
theorem Mach.holdEnd_unscanned (h : m.mode = .hold) (hs : m.on F.DBG_STATUS_SCAN_HOLD = false) :
    m.holdEnd =
      let n := (m.setSys { m.sys with resetLow := false }).put F.SYS_RESET_CAUSE_CLASS m.sys.cls
      let n := if m.sys.cls = clsSlp then
          [0, 1, 3, 4, 5, 6].foldl (fun (n : Mach) r => n.put F.PWR_RAIL_STATUS_STATE 0 r) n
        else n
      ((n.enterMode .load).stageRestart).showWatched :=
  if_neg (by simp [h, hs])

/-- JOIN ends once its conditions hold (R391). -/
theorem Mach.leaveJoin_ready (h : m.mode = .join) (hl : m.mayLeaveJoin = true) :
    m.leaveJoin = m.enterMode m.operatingMode :=
  if_pos ⟨h, hl⟩

/-- At its limit JOIN quarantines a node that has no ID, and any other leaves it late (R392). -/
theorem Mach.joinLimit_joining (h : m.mode = .join) :
    m.joinLimit =
      let n := (m.trouble F.SYS_TROUBLE_JOIN_LIMIT).raise 9
      if n.on F.FAB_NODE_ID_VALID = false then n.quarantine 19
      else (n.setSys { n.sys with joinLate := true }).leaveJoin := by
  simp [Mach.joinLimit, h]

/-- An enabled source wakes a node that sleeps, or is kept until its entry to SLEEP ends (R395). -/
theorem Mach.sleepWake_on {w : SleepSource} (h : m.mode = .sleep) (hw : m.sleepSourceOn w = true) :
    m.sleepWake w =
      if m.sys.entering then
        (if m.sys.wake.isSome then m else m.setSys { m.sys with wake := some (w.code, w.index) })
      else m.wakeNow w.code w.index :=
  if_neg (by simp [h, hw])

/-- The wake timer ends STANDBY (R393). -/
theorem Mach.wakeTimer_standby (h : m.mode = .standby) (ht : m.timerDue = true) : m.wakeTimer = m.wakeUp 4 0 := by
  simp [Mach.wakeTimer, Mach.timerWake, h, ht]

/-- The wake timer is a source of SLEEP (R395). -/
theorem Mach.wakeTimer_asleep (h : m.mode = .sleep) (ht : m.timerDue = true) (he : m.sys.entering = false) :
    m.wakeTimer = m.wakeNow 4 0 := by
  have hw : m.wakeTimer = m.sleepWake .timer := if_pos h
  rw [hw, Mach.sleepWake_on (w := .timer) h ht, he]
  rfl

/-- The entry to SLEEP ends with the panel off: a wake kept from the entry comes before the timer's, and without either
the rails fall (R394, R395). -/
theorem Mach.sleepEntryDone_entering (h : m.mode = .sleep) (he : m.sys.entering = true) (hp : m.panel = panelOff) :
    m.sleepEntryDone =
      let n := (List.range 8).foldl (fun (n : Mach) p => n.ethDown p) m.portsFall
      match n.sys.wake with
      | some (source, i) => n.wakeNow source i
      | none =>
        if n.timerDue then n.wakeNow 4 0
        else
          ((n.setSys { n.sys with entering := false, mainPwr := false }).showWatched).emit (.pin .mainPwrEn false) := by
  simp only [Mach.sleepEntryDone, h, he, hp]
  generalize (List.range 8).foldl (fun (n : Mach) p => n.ethDown p) m.portsFall = n
  rcases n.sys.wake with _ | ⟨source, i⟩
  · cases n.timerDue <;> simp
  · simp

/-- The watchdog warns once while it counts (R404). -/
theorem Mach.wdtWarn_counting (h : m.wdtCounts = true) (hw : m.sys.wdtWarned = false) :
    m.wdtWarn = (m.setSys { m.sys with wdtWarned := true }).raise 5 :=
  if_pos (by simp [h, hw])

/-- The watchdog's expiry halts the node at MAX and resets it before (R405). -/
theorem Mach.wdtExpiry_counting (h : m.wdtCounts = true) :
    m.wdtExpiry =
      let n := m.trouble F.SYS_TROUBLE_WDT
      let k := n.get F.SYS_WDT_STATUS_COUNT
      if n.get F.SYS_WDT_CFG_MAX ≤ k + 1 then n.halt 6 k
      else
        let n := n.put F.SYS_WDT_STATUS_COUNT (k + 1)
        n.setSys { n.sys with resetDue := some (clsWdt, 0) } := by
  by_cases hmax : (m.trouble F.SYS_TROUBLE_WDT).get F.SYS_WDT_CFG_MAX ≤
      (m.trouble F.SYS_TROUBLE_WDT).get F.SYS_WDT_STATUS_COUNT + 1
  · simp [Mach.wdtExpiry, Mach.wdtExpire, h, hmax]
  · simp [Mach.wdtExpiry, Mach.wdtExpire, h, hmax]

end

/-- Settles O26: each command acts in every mode, and under its clause's conditions its effect is the clause's. The
model's choices, and not the spec's words, are MAIN_PWR_EN at the power-on (log entry 77), the detail COUNT of the
watchdog's halt (log entry 98), and the bit and the event of JOIN's limit at a node without an ID (log entry 100). -/
theorem modeCommands : Obligations.ModeCommands := by
  unfold Obligations.ModeCommands
  refine ⟨?clockFault, ?clockFaultAsleep, ?por, ?resetN, ?holdEnd, ?leaveJoin, ?joinLimit, ?wakeStandby, ?wakeAsleep,
    ?sleepEntryDone, ?sleepWake, ?wakeNow, ?wdtWarn, ?wdtExpiry, ?wdtCountDrop⟩
  case clockFault => exact fun s i ht hh hs hi => exec_always rfl (Mach.clockFaultCommand_running ht hh hs hi)
  case clockFaultAsleep => exact fun s h => exec_always rfl (Mach.clockFaultCommand_asleep h)
  case por => exact fun _ => rfl
  case resetN => exact fun _ => exec_always rfl rfl
  case holdEnd => exact fun s h hs => exec_always rfl (Mach.holdEnd_unscanned h hs)
  case leaveJoin => exact fun s h hl => exec_always rfl (Mach.leaveJoin_ready h hl)
  case joinLimit => exact fun s h => exec_always rfl (Mach.joinLimit_joining h)
  case wakeStandby => exact fun s h ht => exec_always rfl (Mach.wakeTimer_standby h ht)
  case wakeAsleep => exact fun s h ht he => exec_always rfl (Mach.wakeTimer_asleep h ht he)
  case sleepEntryDone => exact fun s h he hp => exec_always rfl (Mach.sleepEntryDone_entering h he hp)
  case sleepWake => exact fun s w h hw => exec_always rfl (Mach.sleepWake_on h hw)
  case wakeNow => exact fun _ _ _ => rfl
  case wdtWarn => exact fun s h hw => exec_always rfl (Mach.wdtWarn_counting h hw)
  case wdtExpiry => exact fun s h => exec_always rfl (Mach.wdtExpiry_counting h)
  case wdtCountDrop => exact fun _ => exec_always rfl rfl

end Sys2Proof.Machine
end

section
/-! SUPPORT. The check of a picture (R31) as three judgements of its state, of its stamp, of its class and of the
uncertainty, over the state that its age gives. -/

namespace Sys2Proof.Machine

/-- The state that the age and a frozen source give (R30). -/
def agedState (b s : Nat) (frozen : Bool) (age : Nat) : Nat :=
  let st := if age ≤ b then stLive else if age ≤ s then stLate else stStale
  if frozen then max st stFrozen else st

/-- The state st of a picture that is no local class A capture, under the uncertainty u (R47). -/
def unsureState (bound u st : Nat) : Nat :=
  if 10 * bound < u then stLost else if bound < u then max st stLate else st

/-- A picture whose stamp lies beyond the bound after the scan-out is lost (R31). -/
theorem checkPicture_future {tScan bound : Nat} {o : Offer} (h : tScan + bound * 65536000 < o.cap * 65536)
    (uNode b s minClass : Nat) (localA : Bool) :
    checkPicture tScan uNode bound b s minClass localA o =
      { st := stLost, reason := reasonTimeUnsure, age := 0, u := uNode + o.u, forcedU := false, future := true,
        belowMin := false } :=
  if_pos h

section
variable {tScan bound : Nat} {o : Offer} (h : o.cap * 65536 ≤ tScan + bound * 65536000)
include h

theorem checkPicture_age (uNode b s minClass : Nat) (localA : Bool) :
    (checkPicture tScan uNode bound b s minClass localA o).age = sat32 (ageUs tScan o.cap + (uNode + o.u)) := by
  simp only [checkPicture, if_neg (Nat.not_lt.2 h)]

theorem checkPicture_not_future (uNode b s minClass : Nat) (localA : Bool) :
    (checkPicture tScan uNode bound b s minClass localA o).future = false := by
  simp only [checkPicture, if_neg (Nat.not_lt.2 h)]

/-- A picture with a plausible stamp is lost below MIN_CLASS; else its age gives its state, which the uncertainty raises
unless it is a local class A capture (R31, R45, R47). -/
theorem checkPicture_st (uNode b s minClass : Nat) (localA : Bool) :
    (checkPicture tScan uNode bound b s minClass localA o).st =
      if o.cls < minClass then stLost
      else
        let st := agedState b s o.frozen (sat32 (ageUs tScan o.cap + (uNode + o.u)))
        if localA then st else unsureState bound (uNode + o.u) st := by
  cases localA
  · simp only [checkPicture, if_neg (Nat.not_lt.2 h), decide_eq_true_eq, agedState, unsureState, apply_ite Prod.fst,
      Bool.false_eq_true, if_false]
  · simp only [checkPicture, if_neg (Nat.not_lt.2 h), decide_eq_true_eq, agedState, if_true]

end

/-! ### Ages (R28) -/

theorem sat32_eq_min (x : Nat) : sat32 x = min 0xFFFFFFFF x := Nat.min_comm ..

/-- A stamp that is not before the scan-out has age 0. -/
theorem ageUs_of_le {tScan cap : Nat} (h : tScan ≤ cap * 65536) : ageUs tScan cap = 0 := by
  simp [ageUs, sat32, ceilDiv, Nat.sub_eq_zero_of_le h]

/-- Settles O52: a stamp before the scan-out has the rounded age, one up to the bound after it has age 0, and both add
the uncertainty; one later still is not plausible, which loses the picture as TIME UNSURE (R31, R57). -/
theorem freshnessAge : Obligations.FreshnessAge := by
  unfold Obligations.FreshnessAge
  intro tScan uNode bound b s minClass localA o
  refine ⟨fun h => ?past, fun hlo hhi => ?slightlyAhead, fun h => ?implausible⟩
  case past =>
    have hp : o.cap * 65536 ≤ tScan + bound * 65536000 := Nat.le_add_right_of_le h
    refine ⟨checkPicture_not_future hp .., ?_⟩
    simp only [checkPicture_age hp, ageUs, sat32_eq_min]
  case slightlyAhead =>
    refine ⟨checkPicture_not_future hhi .., ?_⟩
    rw [checkPicture_age hhi, ageUs_of_le hlo.le, Nat.zero_add, sat32_eq_min]
  case implausible =>
    rw [checkPicture_future h]
    exact ⟨rfl, rfl, rfl⟩

/-! ### States (R30, R45, R47) -/

/-- The reported age rises with the uncertainty of the node. -/
theorem sat32_age_mono {u1 u2 : Nat} (h : u1 ≤ u2) (a u : Nat) : sat32 (a + (u1 + u)) ≤ sat32 (a + (u2 + u)) := by
  simp only [sat32]
  omega

theorem agedState_eq_live (b s : Nat) (frozen : Bool) (age : Nat) :
    agedState b s frozen age = stLive ↔ age ≤ b ∧ frozen = false := by
  simp only [agedState, stLive, stLate, stStale, stFrozen]
  cases frozen
  · simp only [Bool.false_eq_true, if_false, and_true]
    split_ifs <;> simp [*]
  · simp

theorem agedState_mono {age1 age2 : Nat} (h : age1 ≤ age2) (b s : Nat) (frozen : Bool) :
    agedState b s frozen age1 ≤ agedState b s frozen age2 := by
  simp only [agedState, stLive, stLate, stStale, stFrozen]
  split_ifs <;> omega

theorem agedState_le_lost (b s : Nat) (frozen : Bool) (age : Nat) : agedState b s frozen age ≤ stLost := by
  simp only [agedState, stLive, stLate, stStale, stFrozen, stLost]
  split_ifs <;> omega

theorem unsureState_eq_live (bound u st : Nat) : unsureState bound u st = stLive ↔ u ≤ bound ∧ st = stLive := by
  unfold unsureState
  split_ifs with hfar hover
  · exact iff_of_false (by decide) fun h => by omega
  · exact iff_of_false (by simp only [stLive, stLate]; omega) fun h => by omega
  · exact (and_iff_right (Nat.not_lt.1 hover)).symm

theorem unsureState_mono {u1 u2 st1 st2 : Nat} (hu : u1 ≤ u2) (hs : st1 ≤ st2) (hl : st1 ≤ stLost) (bound : Nat) :
    unsureState bound u1 st1 ≤ unsureState bound u2 st2 := by
  simp only [unsureState, stLate, stLost] at hl ⊢
  split_ifs <;> omega

theorem checkPicture_eq_live (tScan uNode bound b s minClass : Nat) (localA : Bool) (o : Offer) :
    (checkPicture tScan uNode bound b s minClass localA o).st = stLive ↔
      o.cap * 65536 ≤ tScan + bound * 65536000 ∧ sat32 (ageUs tScan o.cap + (uNode + o.u)) ≤ b ∧ o.frozen = false ∧
      (localA = true ∨ uNode + o.u ≤ bound) ∧ minClass ≤ o.cls := by
  have lost : stLost ≠ stLive := by decide
  rcases Nat.lt_or_ge (tScan + bound * 65536000) (o.cap * 65536) with h | h
  · simp [checkPicture_future h, lost, Nat.not_le.2 h]
  · rw [checkPicture_st h]
    by_cases hc : o.cls < minClass
    · simp [hc, lost, Nat.not_le.2 hc]
    · have hcls := Nat.le_of_not_lt hc
      cases localA
      case false =>
        simp only [hc, h, hcls, if_false, Bool.false_eq_true, unsureState_eq_live, agedState_eq_live]
        tauto
      case true => simp [hc, h, hcls, agedState_eq_live]

/-- Ten times the bound loses any picture but a local class A capture (R47), whatever else the check finds. -/
theorem checkPicture_unsure_lost {uNode bound : Nat} {o : Offer} (hu : 10 * bound < uNode + o.u)
    (tScan b s minClass : Nat) : (checkPicture tScan uNode bound b s minClass false o).st = stLost := by
  rcases Nat.lt_or_ge (tScan + bound * 65536000) (o.cap * 65536) with h | h
  · rw [checkPicture_future h]
  · simp [checkPicture_st h, unsureState, hu]

/-- The states rise from LIVE to LOST with the uncertainty of the node: with the age, and with what R47 makes of it. -/
theorem checkPicture_st_mono {u1 u2 : Nat} (hu : u1 ≤ u2) (tScan bound b s minClass : Nat) (localA : Bool) (o : Offer) :
    (checkPicture tScan u1 bound b s minClass localA o).st ≤ (checkPicture tScan u2 bound b s minClass localA o).st := by
  rcases Nat.lt_or_ge (tScan + bound * 65536000) (o.cap * 65536) with h | h
  · rw [checkPicture_future h, checkPicture_future h]
  · have hst := agedState_mono (sat32_age_mono hu (ageUs tScan o.cap) o.u) b s o.frozen
    rw [checkPicture_st h, checkPicture_st h]
    by_cases hc : o.cls < minClass
    · rw [if_pos hc, if_pos hc]
    · rw [if_neg hc, if_neg hc]
      cases localA
      case false =>
        simp only [Bool.false_eq_true, if_false]
        exact unsureState_mono (Nat.add_le_add_right hu _) hst (agedState_le_lost ..) bound
      case true => simpa only [if_true] using hst

/-- Settles O53: the three judgements of the check all leave LIVE as it is exactly under the statement's conditions, and
each rises with the uncertainty. -/
theorem freshnessStates : Obligations.FreshnessStates :=
  ⟨checkPicture_eq_live, fun tScan _ _ b s minClass _ hu => checkPicture_unsure_lost hu tScan b s minClass,
    fun tScan _ _ bound b s minClass localA o hu => checkPicture_st_mono hu tScan bound b s minClass localA o⟩

end Sys2Proof.Machine
end

section
/-! SUPPORT. Slices and band-rows that a flow brings whole, with a good record. -/

namespace Sys2Proof.Machine

/-- A command that serves ends, while the node serves, in any effect that agrees with its own on the machine as it
stands. -/
theorem exec_serving {c : Instr} {s : State} {f g : Mach → Mach} (hs : s.mach.serves = true) (he : exec c s = s.serving f)
    (h : f s.mach = g s.mach) : exec c s = .next (s.after g) := by
  rw [he, State.serving_eq hs, State.after_congr h]

/-- A good unit of a check-value channel is counted, and no more (R362). -/
theorem Mach.frame_chkUnit_good (m : Mach) (ch : Nat) : m.Frame (.CHK_CH_UNITS :: flagRegs) (m.chkUnit ch true) :=
  (m.frame_bump F.CHK_CH_UNITS_UNITS ch 1 (by decide)).trans
    ((Mach.frame_count _ 280 1).mono (List.subset_cons_self _ _))

section
variable {m : Mach} {key : FlowKey} {w : Witness}

/-- A whole slice of a picture that was not dropped joins its unit where the buffer has room (R156). -/
theorem Mach.sliceReceive_whole {x : SliceIn} {n : Nat} (hn : m.ctxOfStream key.id = some n)
    (hw : Witness.ofWords x.record = some w) (hs : m.decState n ≠ decShed) (hl : x.data.length = x.bytes)
    (hp : (m.decCtx n).ofSpoilt x.index w.frameNum = false)
    (hr : (m.decCtx n).usedBytes + x.bytes ≤ m.get F.DEC_CTX_BS_BS_KIB n * 1024) :
    m.sliceReceive key x = (m.chkUnit 10 true).joinSlice n w x := by
  have hroom : ¬ (m.chkUnit 10 true).get F.DEC_CTX_BS_BS_KIB n * 1024 < (m.decCtx n).usedBytes + x.bytes := by
    rw [(m.frame_chkUnit_good 10).get F.DEC_CTX_BS_BS_KIB n (by decide)]
    exact Nat.not_lt.2 hr
  simp [Mach.sliceReceive, hn, hs, hl, hw, hp, hroom]

theorem Mach.rowFits_chkUnit_good (ch : Nat) (r : BandRow) :
    (m.chkUnit ch true).rowFits key r = m.rowFits key r := by
  simp only [Mach.rowFits, Mach.spanEntry, (m.frame_chkUnit_good ch).rest.cfg]

/-! ### Whole band-rows with a good record (R119) -/

section
variable {r : BandRow} (hw : Witness.ofWords r.record = some w) (hu : r.unbroken = true) (hb : r.received = r.bytes)
  (hf : m.rowFits key r = true) (hp : (m.spanPool key).spoilt r.row = false)
include hw hu hb hf hp

/-- One of a picture that the pool holds with the same record joins it. -/
theorem Mach.spanBandRow_held {p : Pic} (hfind : (m.spanPool key).slots.find?
      (fun p => p.wit.frameNum = w.frameNum && p.wit.srcNode = w.srcNode) = some p)
    (hwit : p.wit = w) (hwidth : p.width = r.width) (hfmt : p.fmt = r.fmt) :
    m.spanBandRow key r = (m.chkUnit 10 true).setSpanPool ((m.spanPool key).addRow p r) := by
  simp [Mach.spanBandRow, hw, hu, hb, Mach.rowFits_chkUnit_good, hf, hp, hfind, hwit, hwidth, hfmt]

/-- One of a picture that the pool does not hold starts it in a free slot. -/
theorem Mach.spanBandRow_first (hfind : (m.spanPool key).slots.find?
      (fun p => p.wit.frameNum = w.frameNum && p.wit.srcNode = w.srcNode) = none)
    (hfree : (m.spanPool key).slots.length < 3) :
    m.spanBandRow key r = (m.chkUnit 10 true).setSpanPool { m.spanPool key with bad := none, slots :=
      { id := ((m.spanPool key).slots.map (·.id)).foldl max 0 + 1, wit := w, lines := 0, rows := [r.row],
        width := r.width, height := 0, cropX := 0, cropY := 0, fmt := r.fmt, last := r.lastRow, concealed := r.degraded,
        clean := true, arrived := m.raw, usedBy := none } :: (m.spanPool key).slots } := by
  simp [Mach.spanBandRow, hw, hu, hb, Mach.rowFits_chkUnit_good, hf, hp, hfind, Mach.newSpanPic, hfree,
    (m.frame_chkUnit_good 10).rest.raw]

end

end

/-- Settles O10: each command serves its flow, and its packet, whole and with a good record, takes the one way that joins
it. That a packet of a picture dropped for a bad record does not join is the model's choice (log entry 80). -/
theorem flowPacketCommands : Obligations.FlowPacketCommands := by
  unfold Obligations.FlowPacketCommands
  refine ⟨?slice, ?rowHeld, ?rowFirst⟩
  case slice =>
    intro s key x n w hserves hhere hn hw hs hl hp hr
    refine exec_serving hserves rfl ?_
    rw [if_pos hhere, Mach.sliceReceive_whole hn hw hs hl hp hr]
  case rowHeld =>
    intro s key r w p hserves hhere hw hu hb hf hp hfind hwit hwidth hfmt
    refine exec_serving hserves rfl ?_
    rw [if_pos hhere, Mach.spanBandRow_held hw hu hb hf hp hfind hwit hwidth hfmt]
  case rowFirst =>
    intro s key r w hserves hhere hw hu hb hf hp hfind hfree
    refine exec_serving hserves rfl ?_
    rw [if_pos hhere, Mach.spanBandRow_first hw hu hb hf hp hfind hfree]

end Sys2Proof.Machine
end

section
/-! SUPPORT. Time flits, the servo and the election: what each command does when its conditions hold. -/

namespace Sys2Proof.Machine

/-- A command of a fabric port ends, while the links run, in any effect that agrees with its own on the machine as it
stands. -/
theorem exec_linked {c : Instr} {s : State} {f g : Mach → Mach} (hs : s.mach.linksRun = true)
    (he : exec c s = s.linked f) (h : f s.mach = g s.mach) : exec c s = .next (s.after g) := by
  rw [he, State.linked_eq hs, State.after_congr h]

section
variable {m : Mach} {p : Nat}

theorem Mach.timeFlitSend_root (hp : m.portActive p = true) (hr : m.on F.TIME_STATUS_IS_ROOT = true) :
    m.timeFlitSend p = m.enqueue p .origin := by
  simp [Mach.timeFlitSend, hp, hr]

theorem Mach.timeFlitSend_reverse (hp : m.portActive p = true) (hr : m.on F.TIME_STATUS_IS_ROOT = false)
    (h : m.isParent p = true ∨ m.timeFlitFresh p = false) : m.timeFlitSend p = m.enqueue p .reverse := by
  have h' : (m.isParent p || !m.timeFlitFresh p) = true := by simpa using h
  simp [Mach.timeFlitSend, hp, hr, h']

theorem Mach.portActive_frame {rs : List Reg} {n : Mach} (h : m.Frame rs n) (hr : Reg.FAB_PORT_STATUS ∉ rs) (p : Nat) :
    n.portActive p = m.portActive p := by
  simp only [Mach.portActive, h.get F.FAB_PORT_STATUS_STATE p hr]

/-- The acknowledgement that a flit without NAK carries changes the port's replay buffer alone. -/
theorem Mach.frame_takeAck {rs : List Reg} {f : Flit} (h : f.nak = false) : m.Frame rs (m.takeAck p f) := by
  simp only [Mach.takeAck, h, Bool.false_eq_true, if_false]
  exact m.frame_setFabPort p _

/-- A time flit on its channel and within its length is well formed: it has no label (R99). -/
theorem Mach.isMalformed_timeFlit {f : Flit} (ht : f.type = 1) (hv : f.vc = 0) (hl : f.bodyLen ≤ 48) :
    m.isMalformed p f = false := by
  simp [Mach.isMalformed, flitRow, Flit.labelled, ht, hv, hl]

/-- A time flit with a wrong CRC is counted and dropped (R74, R101). -/
theorem Mach.timeFlitReceive_bad {f : Flit} {good : Bool} (hp : m.portActive p = true) (ht : f.type = 1)
    (hc : (good && (m.fabPort p).crcOk f) = false) :
    m.timeFlitReceive p f good = ((m.count (34 + 8 * p)).chkUnit p false).fabDrop p := by
  simp only [Mach.timeFlitReceive, hp, ht, hc]
  rfl

/-- A time flit with the right CRC acknowledges, and its content is taken: neither its count nor its acknowledgement
brings the port down or stops the node (R74, R101). -/
theorem Mach.timeFlitReceive_good {f : Flit} (hp : m.portActive p = true) (ht : f.type = 1) (hv : f.vc = 0)
    (hl : f.bodyLen ≤ 48) (hn : f.nak = false) (hq : m.mode ≠ .quarantine) (hc : (m.fabPort p).crcOk f = true) :
    m.timeFlitReceive p f true =
      ((((m.setFabPort p ((m.fabPort p).owes f.creditKey)).count (33 + 8 * p)).chkUnit p true).takeAck p f).timeFlitTaken p
        (TimeFlit.ofWords f.body) := by
  have hframe : m.Frame (.CHK_CH_UNITS :: flagRegs)
      ((((m.setFabPort p ((m.fabPort p).owes f.creditKey)).count (33 + 8 * p)).chkUnit p true).takeAck p f) :=
    (((m.frame_setFabPort p _).trans ((Mach.frame_count _ _ _).mono (List.subset_cons_self _ _))).trans
      (Mach.frame_chkUnit_good _ _)).trans (Mach.frame_takeAck hn)
  have hactive := (Mach.portActive_frame hframe (by decide) p).trans hp
  have hmode := Mach.mode_frame hframe (by decide)
  simp [Mach.timeFlitReceive, hp, ht, hc, hactive, hmode, hq, Mach.isMalformed_timeFlit ht hv hl]

/-- A good time flit has given its link delay, is the port's newest, and has decided the election (R72, R76). -/
def Mach.flitElected (m : Mach) (p : Nat) (f : TimeFlit) : Mach :=
  let d := m.linkDelay p f
  (d.setTimePort p { d.timePort p with rxSeq := f.seq, rxRaw := d.raw, flit := some f, flitRaw := d.raw }).election p f

/-- Time is taken from a usable flit alone, by a node that is not the root, on its parent port or where it has none. -/
theorem Mach.timeFlitTaken_eq (f : TimeFlit) : m.timeFlitTaken p f =
    let n := m.flitElected p f
    if n.on F.TIME_STATUS_IS_ROOT || !n.usable p f then n
    else if n.isParent p || (!n.on F.TIME_STATUS_PARENT_VALID && !n.peerOut p) then n.parentFlit p f
    else n := rfl

theorem Mach.timeFlitTaken_root {f : TimeFlit} (hr : (m.flitElected p f).on F.TIME_STATUS_IS_ROOT = true) :
    m.timeFlitTaken p f = m.flitElected p f := by
  simp [Mach.timeFlitTaken_eq, hr]

theorem Mach.timeFlitTaken_parent {f : TimeFlit} (hr : (m.flitElected p f).on F.TIME_STATUS_IS_ROOT = false)
    (hu : (m.flitElected p f).usable p f = true) (hp : (m.flitElected p f).isParent p = true) :
    m.timeFlitTaken p f = (m.flitElected p f).parentFlit p f := by
  simp [Mach.timeFlitTaken_eq, hr, hu, hp]

end

/-- Settles O1: the two commands act while the node serves and while the links run, and each clause is the branch of the
flit's sending, receipt or taking that its conditions choose. That a port other than the parent's sends a reverse flit
once none has left for 1 µs is the model's choice (log entry 69). -/
theorem timeFlitCommands : Obligations.TimeFlitCommands := by
  unfold Obligations.TimeFlitCommands
  refine ⟨?originated, ?returned, ?badCrc, ?taken, ?timeTaken⟩
  case originated => exact fun s p hs hp hr => exec_serving hs rfl (Mach.timeFlitSend_root hp hr)
  case returned => exact fun s p hs hp hr h => exec_serving hs rfl (Mach.timeFlitSend_reverse hp hr h)
  case badCrc => exact fun s p f good hl hp ht hc => exec_linked hl rfl (Mach.timeFlitReceive_bad hp ht hc)
  case taken =>
    exact fun s p f hl hp ht hv hb hn hq hc => exec_linked hl rfl (Mach.timeFlitReceive_good hp ht hv hb hn hq hc)
  case timeTaken => exact fun m p f => ⟨Mach.timeFlitTaken_root, Mach.timeFlitTaken_parent⟩

section
variable {m : Mach}

/-- ACQUIRE ends in LOCKED once the offset has settled (R66). -/
theorem Mach.timeSettled_acquire (h : m.servo = servoAcquire) (hw : m.time.withinSince.isSome = true) :
    m.timeSettled = (({ m with time := { m.time with overCount := 0, holdRate := m.getS F.TIME_RATE_RATE } } : Mach).put
      F.TIME_STATUS_STATE servoLocked).raise 16 := by
  have hl : m.servo ≠ servoLocked := by rw [h]; decide
  rw [Mach.timeSettled, if_pos ⟨h, hw⟩, Mach.enterLocked, if_neg hl]
  rfl

/-- A node that is not the root, with a parent lost, holds over and takes the best other port (R77). -/
theorem Mach.timeHoldover_synchronised (hr : m.on F.TIME_STATUS_IS_ROOT = false) (hf : m.servo ≠ servoFree) :
    m.timeHoldover =
      let old := if m.on F.TIME_STATUS_PARENT_VALID then some (m.get F.TIME_STATUS_PARENT) else none
      let n := if m.servo = servoHoldover then m else m.enterHoldover
      match n.bestParent old with
      | some q => n.setParent q ((n.offers q).getD 0)
      | none => n.putB F.TIME_STATUS_PARENT_VALID false :=
  if_neg (by simp [hr, hf])

/-- A candidate's wait for its claim is its rank's: rank 0 claims at once (R78). -/
theorem Mach.claimWait_eq (m : Mach) : m.claimWait =
    if m.candidate = false then m
    else if m.get F.TIME_ROOT_CFG_RANK = 0 then m.becomeRoot false
    else { m with time := { m.time with claimFrom := some m.raw } } := by
  simp only [Mach.claimWait, Bool.not_eq_true']

theorem Mach.timeRootLost_synchronised (hr : m.on F.TIME_STATUS_IS_ROOT = false) (hf : m.servo ≠ servoFree)
    (hl : m.time.rootLost = false) :
    m.timeRootLost = (({ m with time := { m.time with
      rootLost := true, lostEpoch := m.get F.TIME_EPOCH_EPOCH } } : Mach).trouble F.TIME_TROUBLE_ROOT_LOST).claimWait :=
  if_neg (by simp [hr, hf, hl])

theorem Mach.claim_due (hc : m.candidate = true) (hd : m.claimDue = true) : m.claim = m.becomeRoot false :=
  if_pos ⟨hd, hc⟩

theorem Mach.preemptClaim_better (hc : m.candidate = true) (hp : m.on F.TIME_ROOT_CFG_PREEMPT = true)
    (hr : m.on F.TIME_STATUS_IS_ROOT = false) (hf : m.servo ≠ servoFree) (hs : m.refSettled = true)
    (hb : m.ownBetter = true) : m.preemptClaim = m.becomeRoot true :=
  if_pos ⟨hc, hp, by simp [hr], hf, hs, hb⟩

theorem Mach.noRootSeen_joining (hm : m.mode = .join) (hf : m.servo = servoFree)
    (hr : m.on F.TIME_STATUS_IS_ROOT = false) (hn : m.time.claimFrom = none) : m.noRootSeen = m.claimWait :=
  if_pos ⟨hm, hf, by simp [hr], by simp [hn]⟩

/-- A port that offers time with fewer HOPS becomes the parent (R75). -/
theorem Mach.timeParentChange_nearer {p h : Nat} (ho : m.offers p = some h)
    (hv : m.on F.TIME_STATUS_PARENT_VALID = true) (hp : m.isParent p = false) (hr : m.on F.TIME_STATUS_IS_ROOT = false)
    (hh : h + 1 < m.get F.TIME_STATUS_HOPS) : m.timeParentChange p = m.setParent p h := by
  simp [Mach.timeParentChange, ho, hv, hp, hr, hh]

end

/-- Settles O2: each command acts while the node serves, and under its clause's conditions its effect is the clause's.
That HOLDOVER keeps the rate of the entry to LOCKED (log entry 67), and that a new parent's port sends no forward flit
that still waits there (log entry 13), are the model's choices. -/
theorem timeServoCommands : Obligations.TimeServoCommands := by
  unfold Obligations.TimeServoCommands
  refine ⟨?settled, ?holdover, ?rootLost, ?claim, ?preempt, ?noRoot, ?parentChange⟩
  case settled => exact fun s hs h hw => exec_serving hs rfl (Mach.timeSettled_acquire h hw)
  case holdover => exact fun s hs hr hf => exec_serving hs rfl (Mach.timeHoldover_synchronised hr hf)
  case rootLost =>
    exact fun s hs hr hf hl => exec_serving hs rfl ((Mach.timeRootLost_synchronised hr hf hl).trans (Mach.claimWait_eq _))
  case claim => exact fun s hs hc hd => exec_serving hs rfl (Mach.claim_due hc hd)
  case preempt => exact fun s hs hc hp hr hf hd hb => exec_serving hs rfl (Mach.preemptClaim_better hc hp hr hf hd hb)
  case noRoot =>
    intro s hs hm hc hf hr hn
    refine exec_serving hs rfl ?_
    rw [Mach.noRootSeen_joining hm hf hr hn, Mach.claimWait_eq, if_neg (by simp [hc])]
  case parentChange =>
    exact fun s p h hs ho hv hp hr hh => exec_serving hs rfl (Mach.timeParentChange_nearer ho hv hp hr hh)

end Sys2Proof.Machine
end

section
/-! SUPPORT. References, PTP messages, pulse outputs and capture inputs: what each command does when its conditions
hold. -/

namespace Sys2Proof.Machine

/-- A command on the interconnect clock ends, while the clock runs, in any effect that agrees with its own on the machine
as it stands. -/
theorem exec_clocked {c : Instr} {s : State} {f g : Mach → Mach} (hs : s.mach.clockRuns = true)
    (he : exec c s = s.clocked f) (h : f s.mach = g s.mach) : exec c s = .next (s.after g) := by
  rw [he, State.clocked_eq hs, State.after_congr h]

section
variable {m : Mach}

/-! ### The references of a root (R69, R83, R84) -/

/-- What an accepted edge is, once it is counted: the phase of the second, where a time of day is known. -/
theorem Mach.refPpsEdge_good (he : m.on F.TIME_REF_CFG_PPS_EN = true) (hs : 2 ≤ m.get F.TIME_ROOT_CFG_REF_SEL)
    (hg : m.ppsGood = true) :
    m.refPpsEdge =
      let n := ({ m with time := { m.time with ppsMisses := 0, ppsLast := some m.raw } } : Mach).count 30
      match n.time.todFrom with
      | none => n
      | some t => n.ppsPhase t := by
  have hoff : ¬ (!m.on F.TIME_REF_CFG_PPS_EN || decide (m.get F.TIME_ROOT_CFG_REF_SEL < 2)) = true := by
    simp only [he, Bool.not_true, Bool.false_or, decide_eq_true_eq]
    exact Nat.not_lt.2 hs
  rw [Mach.refPpsEdge, if_neg hoff, if_neg (by simp [hg])]
  generalize ({ m with time := { m.time with ppsMisses := 0, ppsLast := some m.raw } } : Mach).count 30 = n
  dsimp only
  cases n.time.todFrom <;> rfl

theorem Mach.refPpsEdge_bad (he : m.on F.TIME_REF_CFG_PPS_EN = true) (hs : 2 ≤ m.get F.TIME_ROOT_CFG_REF_SEL)
    (hg : m.ppsGood = false) :
    m.refPpsEdge =
      let n := ({ m with time := { m.time with ppsMisses := m.time.ppsMisses + 1 } } : Mach).count 31
      if m.time.ppsMisses + 1 = n.get F.TIME_REF_CFG_MISS_LIMIT && n.time.refClass = 3 then n.refLost else n := by
  have hoff : ¬ (!m.on F.TIME_REF_CFG_PPS_EN || decide (m.get F.TIME_ROOT_CFG_REF_SEL < 2)) = true := by
    simp only [he, Bool.not_true, Bool.false_or, decide_eq_true_eq]
    exact Nat.not_lt.2 hs
  rw [Mach.refPpsEdge, if_neg hoff, if_pos (by simp [hg])]

theorem Mach.refF10mGate_within {n : Nat} (he : m.on F.TIME_REF_CFG_F10M_EN = true)
    (hn : ((n : Int) - 10000000).natAbs ≤ 10 * m.get F.TIME_REF_CFG_F10M_WIN) :
    m.refF10mGate n = { m with time := { m.time with
      f10mGood := true
      holdRate := if m.on F.TIME_STATUS_IS_ROOT && 2 ≤ m.get F.TIME_ROOT_CFG_REF_SEL
        then ((n : Int) - 10000000) * 2 ^ 40 / 10000000 else m.time.holdRate } } := by
  rw [Mach.refF10mGate, if_neg (by simp [he]), if_neg (Nat.not_lt.2 hn)]
  change (if (m.on F.TIME_STATUS_IS_ROOT && decide (2 ≤ m.get F.TIME_ROOT_CFG_REF_SEL)) = true then _ else _) = _
  split_ifs <;> rfl

theorem Mach.refF10mGate_outside {n : Nat} (he : m.on F.TIME_REF_CFG_F10M_EN = true)
    (hn : 10 * m.get F.TIME_REF_CFG_F10M_WIN < ((n : Int) - 10000000).natAbs) : m.refF10mGate n = m.count 31 := by
  simp only [Mach.refF10mGate, he, hn, Bool.not_true, Bool.false_eq_true, if_false, if_true]

theorem Mach.timeRefLost_pps (h : m.time.refClass = 3) :
    m.timeRefLost = ((({ m with time := { m.time with refLostU := m.ownRootU, refLostRaw := m.raw, refLockedRaw := none,
                                                      refSlew := false, ppsLast := none, ppsMisses := 0 } } : Mach).setRefClass
        (if m.get F.TIME_ROOT_CFG_REF_SEL = 3 && m.time.ptpLocked then 2 else 1)).trouble
          F.TIME_TROUBLE_REF_LOST).raise 21 := by
  simp only [Mach.timeRefLost, Mach.refLost, h, if_true, decide_true, Bool.and_true]
  rfl

/-! ### PTP messages (R85) -/

theorem Mach.ptpMessageTimer_sync {p : Nat} (hr : m.get F.TIME_ETH_CTL_ROLE p = 2) (hp : (m.ptpPort p).state ≠ .passive) :
    m.ptpMessageTimer p .sync =
      let n := m.setPtpState p .master
      (n.setPtpPort p { n.ptpPort p with seqId := ((n.ptpPort p).seqId + 1) % 65536 }).sendPtp p
        { n.ownAnnounce p with kind := .sync, correction := n.wallFrac } := by
  simp [Mach.ptpMessageTimer, Mach.ptpSends, hr, hp]

theorem Mach.ptpMessageTimer_announce {p : Nat} (hr : m.get F.TIME_ETH_CTL_ROLE p = 2)
    (hp : (m.ptpPort p).state ≠ .passive) :
    m.ptpMessageTimer p .announce =
      let n := m.setPtpState p .master
      (n.setPtpPort p { n.ptpPort p with seqId := ((n.ptpPort p).seqId + 1) % 65536 }).sendPtp p (n.ownAnnounce p) := by
  have hq : m.ptpQuiet p = m := if_pos hp
  simp [Mach.ptpMessageTimer, Mach.ptpSends, hq, hr, hp, Mach.ownAnnounce]

theorem Mach.ptpMessageTimer_request {p : Nat} {kind : PtpKind}
    (h : (kind = .delayReq ∧ m.get F.TIME_ETH_CTL_ROLE p = 1 ∧ m.peerProfile = false) ∨
      (kind = .pdelayReq ∧ m.get F.TIME_ETH_CTL_ROLE p ≠ 0 ∧ m.peerProfile = true)) :
    m.ptpMessageTimer p kind =
      (m.setPtpPort p { m.ptpPort p with seqId := ((m.ptpPort p).seqId + 1) % 65536,
                                         delayReq := some ((m.ptpPort p).seqId, m.wallFx), response := none }).sendPtp p
        { m.ownAnnounce p with kind := kind, correction := m.wallFrac - m.ptpAsym p } := by
  rcases h with ⟨rfl, hr, hp⟩ | ⟨rfl, hr, hp⟩
  · simp [Mach.ptpMessageTimer, Mach.ptpSends, hr, hp, Mach.ownAnnounce]
  · simp [Mach.ptpMessageTimer, Mach.ptpSends, hr, hp, Mach.ownAnnounce]

/-! ### Pulse outputs and capture inputs (R89, R90) -/

/-- A flag reads as it was put. -/
theorem Mach.on_putB_same (m : Mach) (f : Field) (b : Bool) (i : Nat) (hl : f.lo + f.width ≤ 64) (hw : f.width = 1) :
    (m.putB f b i).on f i = b := by
  simp only [Mach.on, Mach.putB, m.get_put_same f _ i hl, hw]
  cases b <;> rfl

/-- A flag of the same register beside the one put reads as before. -/
theorem Mach.on_putB_field (m : Mach) {f g : Field} (b : Bool) (i : Nat) (hr : g.reg = f.reg)
    (hl : f.lo + f.width ≤ 64) (hd : g.lo + g.width ≤ f.lo ∨ f.lo + f.width ≤ g.lo) :
    (m.putB f b i).on g i = m.on g i := by
  simp only [Mach.on, Mach.putB, m.get_put_field i _ hr hl hd]

/-- Wall time runs on the raw counter, the servo's base and its rate. -/
theorem Mach.wallFx_frame {rs : List Reg} {n : Mach} (h : m.Frame rs n) (hr : Reg.TIME_RATE ∉ rs) :
    n.wallFx = m.wallFx := by
  simp only [Mach.wallFx, Mach.getS, h.get F.TIME_RATE_RATE 0 hr, h.rest.raw, h.rest.time]

/-- An output whose START lies at least 100 ns ahead is armed as its registers say. -/
theorem Mach.pulseArm_ahead {k : Nat} (ha : m.wallFx + 100 * 65536 ≤ m.get F.TIME_PULSE_START_START k * 65536) :
    m.pulseArm k = (m.putB F.TIME_PULSE_CTL_EN true k).setPulse k
      { armed := true, periodic := m.on F.TIME_PULSE_CTL_PERIODIC k, activeLow := m.on F.TIME_PULSE_CTL_POLARITY k,
        start := m.get F.TIME_PULSE_START_START k, period := m.get F.TIME_PULSE_PERIOD_PERIOD k,
        width := m.get F.TIME_PULSE_WIDTH_WIDTH k, nextEdge := 0, active := (m.pulse k).active,
        rest := (m.pulse k).rest } :=
  if_pos ha

/-- PULSE_ARM stores its two flags, and arms the output. -/
theorem Mach.pulseArmCmd_valid {k : Nat} {per pol : Bool} (he : m.on F.TIME_PULSE_CTL_EN k = false)
    (hper : per = true → 100 ≤ m.get F.TIME_PULSE_PERIOD_PERIOD k / 65536 ∧
      m.get F.TIME_PULSE_PERIOD_PERIOD k / 65536 ≤ 4294967295 ∧
      m.get F.TIME_PULSE_WIDTH_WIDTH k + 8 ≤ m.get F.TIME_PULSE_PERIOD_PERIOD k / 65536) :
    m.pulseArmCmd k per pol =
      ((m.putB F.TIME_PULSE_CTL_PERIODIC per k).putB F.TIME_PULSE_CTL_POLARITY pol k).pulseArm k := by
  refine (if_neg (by simp [he])).trans (if_neg ?_)
  cases per
  case false => simp
  case true => simpa [and_assoc] using hper rfl

theorem Mach.pulseArmCmd_ahead {k : Nat} {per pol : Bool} (he : m.on F.TIME_PULSE_CTL_EN k = false)
    (hper : per = true → 100 ≤ m.get F.TIME_PULSE_PERIOD_PERIOD k / 65536 ∧
      m.get F.TIME_PULSE_PERIOD_PERIOD k / 65536 ≤ 4294967295 ∧
      m.get F.TIME_PULSE_WIDTH_WIDTH k + 8 ≤ m.get F.TIME_PULSE_PERIOD_PERIOD k / 65536)
    (ha : m.wallFx + 100 * 65536 ≤ m.get F.TIME_PULSE_START_START k * 65536) :
    m.pulseArmCmd k per pol =
      (((m.putB F.TIME_PULSE_CTL_PERIODIC per k).putB F.TIME_PULSE_CTL_POLARITY pol k).putB F.TIME_PULSE_CTL_EN true k).setPulse
        k { armed := true, periodic := per, activeLow := pol, start := m.get F.TIME_PULSE_START_START k,
            period := m.get F.TIME_PULSE_PERIOD_PERIOD k, width := m.get F.TIME_PULSE_WIDTH_WIDTH k, nextEdge := 0,
            active := (m.pulse k).active, rest := (m.pulse k).rest } := by
  have hframe : m.Frame [.TIME_PULSE_CTL]
      ((m.putB F.TIME_PULSE_CTL_PERIODIC per k).putB F.TIME_PULSE_CTL_POLARITY pol k) :=
    (m.frame_put F.TIME_PULSE_CTL_PERIODIC _ k (by decide)).trans (Mach.frame_put _ _ _ k (by decide))
  have hstart := hframe.get F.TIME_PULSE_START_START k (by decide)
  have hperiod := hframe.get F.TIME_PULSE_PERIOD_PERIOD k (by decide)
  have hwidth := hframe.get F.TIME_PULSE_WIDTH_WIDTH k (by decide)
  have hpulse : ((m.putB F.TIME_PULSE_CTL_PERIODIC per k).putB F.TIME_PULSE_CTL_POLARITY pol k).pulse k = m.pulse k := by
    simp only [Mach.pulse, hframe.rest.time]
  have hperOn : ((m.putB F.TIME_PULSE_CTL_PERIODIC per k).putB F.TIME_PULSE_CTL_POLARITY pol k).on
      F.TIME_PULSE_CTL_PERIODIC k = per := by
    rw [Mach.on_putB_field (f := F.TIME_PULSE_CTL_POLARITY) (g := F.TIME_PULSE_CTL_PERIODIC) _ pol k rfl (by decide)
      (by decide), m.on_putB_same F.TIME_PULSE_CTL_PERIODIC per k (by decide) rfl]
  have hpolOn := (m.putB F.TIME_PULSE_CTL_PERIODIC per k).on_putB_same F.TIME_PULSE_CTL_POLARITY pol k (by decide) rfl
  rw [Mach.pulseArmCmd_valid he hper, Mach.pulseArm_ahead (by rwa [Mach.wallFx_frame hframe (by decide), hstart]),
    hperOn, hpolOn, hstart, hperiod, hwidth, hpulse]

theorem Mach.pulseEdge_armed {k : Nat} (h : (m.pulse k).armed = true) :
    m.pulseEdge k =
      let x := m.pulse k
      let n := ((m.emit (.pin (.pulse k) (!x.activeLow))).count 29).setPulse k
        { x with active := true, rest := x.activeLow, nextEdge := x.nextEdge + 1, armed := x.periodic }
      if x.periodic then n else n.putB F.TIME_PULSE_CTL_EN false k :=
  if_neg (by simp [h])

theorem Mach.pulseReturn_active {k : Nat} (h : (m.pulse k).active = true) :
    m.pulseReturn k = (m.setPulse k { m.pulse k with active := false }).emit (.pin (.pulse k) (m.pulse k).rest) :=
  if_pos h

theorem Mach.captureEdge_kept {k : Nat} {rising : Bool} (he : m.on F.TIME_CAP_CTL_EN k = true)
    (hsel : m.get F.TIME_CAP_CTL_EDGE k = 3 ∨ m.get F.TIME_CAP_CTL_EDGE k = (if rising then 1 else 2))
    (hdead : ∀ t, (m.capIn k).last = some t →
      (m.get F.TIME_CAP_CTL_DEAD k : Int) ≤ ((m.now - m.get F.TIME_CAP_CTL_FILTER k : Nat) : Int) - t)
    (hroom : (m.capIn k).fifo.length < 16) :
    m.captureEdge k rising =
      let stamp := m.now - m.get F.TIME_CAP_CTL_FILTER k
      ((m.setCapIn k { fifo := (m.capIn k).fifo ++ [(stamp, rising)], last := some stamp }).count (24 + k)).raise (24 + k) := by
  have hwanted : ((if rising then decide (m.get F.TIME_CAP_CTL_EDGE k = 1) || decide (m.get F.TIME_CAP_CTL_EDGE k = 3)
      else decide (m.get F.TIME_CAP_CTL_EDGE k = 2) || decide (m.get F.TIME_CAP_CTL_EDGE k = 3)) : Bool) = true := by
    rcases hsel with h | h <;> cases rising <;> simp [h]
  refine (if_neg (by simp [he, hwanted])).trans ((if_neg ?_).trans (if_neg (Nat.not_le.2 hroom)))
  cases hlast : (m.capIn k).last with
  | none => simp
  | some t => simpa [hlast] using hdead t hlast
end

/-- Settles O4: the commands of the references and of PTP act while the node serves, those of the pins while the clock
runs, and under its clause's conditions each has the clause's effect. That the 1PPS alone gives class 3, that the gate gives
the root its rate and that a first edge is accepted (log entry 70), and what an own Announce says (log entry 17), are the
model's choices. -/
theorem timePinCommands : Obligations.TimePinCommands := by
  unfold Obligations.TimePinCommands
  refine ⟨?ppsGood, ?ppsBad, ?gateWithin, ?gateOutside, ?refLost, ?ptpLost, ?ptpMaster, ?ptpRequest, ?pulseArm,
    ?pulseEdge, ?pulseReturn, ?captureEdge⟩
  case ppsGood => exact fun s hs he hr hg => exec_serving hs rfl (Mach.refPpsEdge_good he hr hg)
  case ppsBad => exact fun s hs he hr hg => exec_serving hs rfl (Mach.refPpsEdge_bad he hr hg)
  case gateWithin => exact fun s n hs he hn => exec_serving hs rfl (Mach.refF10mGate_within he hn)
  case gateOutside => exact fun s n hs he hn => exec_serving hs rfl (Mach.refF10mGate_outside he hn)
  case refLost => exact fun s hs h => exec_serving hs rfl (Mach.timeRefLost_pps h)
  case ptpLost => exact fun s hs => exec_serving hs rfl rfl
  case ptpMaster =>
    exact fun s p hs hr hp => ⟨exec_serving hs rfl (Mach.ptpMessageTimer_sync hr hp),
      exec_serving hs rfl (Mach.ptpMessageTimer_announce hr hp)⟩
  case ptpRequest => exact fun s p kind hs h => exec_serving hs rfl (Mach.ptpMessageTimer_request h)
  case pulseArm => exact fun s k per pol hc he hper ha => exec_clocked hc rfl (Mach.pulseArmCmd_ahead he hper ha)
  case pulseEdge => exact fun s k hc h => exec_clocked hc rfl (Mach.pulseEdge_armed h)
  case pulseReturn => exact fun s k hc h => exec_clocked hc rfl (Mach.pulseReturn_active h)
  case captureEdge =>
    exact fun s k rising hc he hsel hdead hroom => exec_clocked hc rfl (Mach.captureEdge_kept he hsel hdead hroom)

end Sys2Proof.Machine
end

section
/-! SUPPORT. The raw counter of a state that is built by cases, by a fold or by the accessors (R60). The counter of two
states that are equal by computation is never compared by computation, which would run both: a lemma here rewrites it
step by step. -/

namespace Sys2Proof.Machine

theorem Mach.raw_ite (c : Prop) [Decidable c] (a b : Mach) :
    (if c then a else b).raw = if c then a.raw else b.raw := apply_ite ..

theorem Mach.raw_ite_fst {α : Type} (c : Prop) [Decidable c] (a b : Mach × α) :
    (if c then a else b).1.raw = if c then a.1.raw else b.1.raw := apply_ite (fun x : Mach × α => x.1.raw) ..

theorem Mach.raw_ite_snd {α : Type} (c : Prop) [Decidable c] (a b : α × Mach) :
    (if c then a else b).2.raw = if c then a.2.raw else b.2.raw := apply_ite (fun x : α × Mach => x.2.raw) ..

theorem State.raw_ite (c : Prop) [Decidable c] (a b : State) :
    (if c then a else b).mach.raw = if c then a.mach.raw else b.mach.raw := apply_ite (fun x : State => x.mach.raw) ..

theorem State.raw_ite_snd {α : Type} (c : Prop) [Decidable c] (a b : α × State) :
    (if c then a else b).2.mach.raw = if c then a.2.mach.raw else b.2.mach.raw :=
  apply_ite (fun x : α × State => x.2.mach.raw) ..

/-- Two branches with one counter. -/
theorem Mach.raw_ite_eq {c : Prop} [Decidable c] {a b : Mach} {x : Nat} (ha : a.raw = x) (hb : b.raw = x) :
    (if c then a else b).raw = x := by
  rw [Mach.raw_ite, ha, hb, ite_self]

/-- The block that a step answers beside a value. -/
theorem Mach.raw_of_snd {α : Type} {x : α × Mach} {a : α} {m : Mach} (h : x = (a, m)) : m.raw = x.2.raw := by
  rw [h]

/-- The state that a step answers beside a value. -/
theorem State.raw_of_snd {α : Type} {x : α × State} {a : α} {s : State} (h : x = (a, s)) :
    s.mach.raw = x.2.mach.raw := by
  rw [h]

/-- What a step answers may be taken apart as an equation between blocks. -/
theorem Mach.raw_of_eq {x m : Mach} (h : ∀ n, x = n → n.raw = m.raw) : x.raw = m.raw := h x rfl

theorem eq_or_eq_of_ite_eq {α : Type} {c : Prop} [Decidable c] {a b n : α} (h : (if c then a else b) = n) :
    a = n ∨ b = n := by
  split at h
  · exact .inl h
  · exact .inr h

/-! ### Folds of steps that keep the counter -/

theorem State.raw_foldl {α : Type} {f : State → α → State} (h : ∀ s a, (f s a).mach.raw = s.mach.raw) (l : List α)
    (s : State) : (l.foldl f s).mach.raw = s.mach.raw := by
  induction l generalizing s with
  | nil => rfl
  | cons a l ih => exact (ih _).trans (h s a)

theorem Mach.raw_foldl {α : Type} {f : Mach → α → Mach} (h : ∀ m a, (f m a).raw = m.raw) (l : List α) (m : Mach) :
    (l.foldl f m).raw = m.raw := by
  induction l generalizing m with
  | nil => rfl
  | cons a l ih => exact (ih _).trans (h m a)

/-- The same, of a step that is given by what it answers. -/
theorem Mach.raw_foldl_of_eq {α : Type} {f : Mach → α → Mach} (h : ∀ m a n, f m a = n → n.raw = m.raw) (l : List α)
    (m : Mach) : (l.foldl f m).raw = m.raw := Mach.raw_foldl (fun m a => h m a _ rfl) l m

/-- The same, of steps that may fail. -/
theorem Mach.raw_foldl_option {α : Type} {f : Option Mach → α → Option Mach}
    (hf : ∀ acc a n, f acc a = some n → ∃ m, acc = some m ∧ n.raw = m.raw) {l : List α} {acc : Option Mach} {n : Mach}
    (h : l.foldl f acc = some n) : ∃ m, acc = some m ∧ n.raw = m.raw := by
  induction l generalizing acc with
  | nil => exact ⟨n, h, rfl⟩
  | cons a l ih =>
    obtain ⟨k, hk, hn⟩ := ih h
    obtain ⟨m, hm, hkm⟩ := hf _ _ _ hk
    exact ⟨m, hm, hn.trans hkm⟩

/-! ### Accessors

The lemmas of `Laws/State.lean` hold by `rfl`, so that `simp` uses them as computations; these are the same as
rewriting rules. -/

theorem Mach.raw_wr (m : Mach) (r : Reg) (i : Nat) (v : DWord) : (m.wr r i v).raw = m.raw :=
  (m.wr_raw r i v).trans rfl

theorem Mach.raw_put (m : Mach) (f : Field) (v i : Nat) : (m.put f v i).raw = m.raw :=
  (m.put_raw f v i).trans rfl

theorem Mach.raw_putB (m : Mach) (f : Field) (b : Bool) (i : Nat) : (m.putB f b i).raw = m.raw :=
  (m.putB_raw f b i).trans rfl

theorem Mach.raw_bump (m : Mach) (f : Field) (i n : Nat) : (m.bump f i n).raw = m.raw :=
  (m.bump_raw f i n).trans rfl

theorem Mach.raw_advance (m : Mach) (f : Field) (i n : Nat) : (m.advance f i n).raw = m.raw :=
  (m.advance_raw f i n).trans rfl

theorem Mach.raw_setBitOf (m : Mach) (r : Reg) (n : Nat) : (m.setBitOf r n).raw = m.raw :=
  (m.setBitOf_raw r n).trans rfl

theorem Mach.raw_clearBitOf (m : Mach) (r : Reg) (n : Nat) : (m.clearBitOf r n).raw = m.raw :=
  (m.clearBitOf_raw r n).trans rfl

theorem Mach.raw_setRegBit (m : Mach) (r : Reg) (i b : Nat) : (m.setRegBit r i b).raw = m.raw :=
  (m.setRegBit_raw r i b).trans rfl

theorem Mach.raw_setFabPort (m : Mach) (i : Nat) (x : FabPort) : (m.setFabPort i x).raw = m.raw :=
  (m.setFabPort_raw i x).trans rfl

theorem Mach.raw_setLayer (m : Mach) (i : Nat) (x : Layer) : (m.setLayer i x).raw = m.raw :=
  (m.setLayer_raw i x).trans rfl

theorem Mach.raw_setTimePort (m : Mach) (i : Nat) (x : TimePort) : (m.setTimePort i x).raw = m.raw :=
  (m.setTimePort_raw i x).trans rfl

theorem Mach.raw_setDecCtx (m : Mach) (i : Nat) (x : DecCtx) : (m.setDecCtx i x).raw = m.raw :=
  (m.setDecCtx_raw i x).trans rfl

theorem Mach.raw_setEncCtx (m : Mach) (i : Nat) (x : EncCtx) : (m.setEncCtx i x).raw = m.raw :=
  (m.setEncCtx_raw i x).trans rfl

theorem Mach.raw_setCapPort (m : Mach) (i : Nat) (x : CapPort) : (m.setCapPort i x).raw = m.raw :=
  (m.setCapPort_raw i x).trans rfl

theorem Mach.raw_setEthStream (m : Mach) (i : Nat) (x : EthStream) : (m.setEthStream i x).raw = m.raw :=
  (m.setEthStream_raw i x).trans rfl

theorem Mach.raw_setEthPort (m : Mach) (i : Nat) (x : EthPort) : (m.setEthPort i x).raw = m.raw :=
  (m.setEthPort_raw i x).trans rfl

end Sys2Proof.Machine
end

section
/-! SUPPORT. The raw counter under the flags, the troubles and what an arrival sets off (R60). -/

namespace Sys2Proof.Machine

@[simp] theorem Mach.enqueue_raw (m : Mach) (p : Nat) (f : TxFlit) : (m.enqueue p f).raw = m.raw := by
  simp only [Mach.enqueue, Mach.raw_ite, ite_self, Mach.raw_setFabPort]

@[simp] theorem Mach.sendOn_raw (m : Mach) (p type vc dest : Nat) (words : List Nat) (len : Nat) :
    (m.sendOn p type vc dest words len).raw = m.raw := by
  simp only [Mach.sendOn, Mach.raw_foldl, implies_true, Mach.enqueue_raw]

@[simp] theorem Mach.sendHome_raw (m : Mach) (type : Nat) (words : List Nat) (len : Nat) :
    (m.sendHome type words len).raw = m.raw := by rfl

@[simp] theorem Mach.fresh_raw (m : Mach) : m.fresh.2.raw = m.raw := by rfl

@[simp] theorem Mach.freeBits_raw (m : Mach) (w : Nat) : (m.freeBits w).2.raw = m.raw := by
  simp only [Mach.freeBits, Mach.fresh_raw]

@[simp] theorem Mach.addCount_raw (m : Mach) (e n : Nat) : (m.addCount e n).raw = m.raw := by
  simp only [Mach.addCount, Mach.raw_put, Mach.raw_ite, ite_self, Mach.raw_setBitOf]

@[simp] theorem Mach.count_raw (m : Mach) (e n : Nat) : (m.count e n).raw = m.raw := by
  simp only [Mach.count, Mach.addCount_raw]

@[simp] theorem Mach.level2_raw (m : Mach) (s : Nat) : (m.level2 s).raw = m.raw := by
  simp only [Mach.level2, Mach.raw_foldl, implies_true, Mach.raw_ite, ite_self, Mach.count_raw, Mach.raw_wr]

@[simp] theorem Mach.wakeWaiters_raw (m : Mach) (s : Nat) : (m.wakeWaiters s).raw = m.raw := by
  simp only [Mach.wakeWaiters, Mach.raw_foldl, implies_true, Mach.raw_ite, ite_self, Mach.raw_put]

@[simp] theorem Mach.snapshot_raw (m : Mach) : m.snapshot.raw = m.raw := by
  simp only [Mach.snapshot, Mach.raw_foldl, implies_true, Mach.raw_put, Mach.raw_advance]

@[simp] theorem Mach.arrive_raw (m : Mach) (s : Nat) (trigger : Bool) : (m.arrive s trigger).1.raw = m.raw := by
  simp only [Mach.arrive, Mach.raw_ite, ite_self, Mach.level2_raw, Mach.wakeWaiters_raw, Mach.raw_bump,
    Mach.count_raw, Mach.markNow_raw, Mach.raw_setBitOf, apply_ite Prod.fst]

@[simp] theorem Mach.summarise_raw (m : Mach) (b : Block) : (m.summarise b).1.raw = m.raw := by
  unfold Mach.summarise
  split <;> simp only [Mach.raw_ite_fst, ite_self, Mach.raw_put]

@[simp] theorem Mach.queueEntry_raw (m : Mach) (e : TroubleEntry) : (m.queueEntry e).1.raw = m.raw := by
  unfold Mach.queueEntry
  split <;> simp only [Mach.raw_put, Mach.count_raw, Mach.raw_bump]

@[simp] theorem Mach.decTroubled_raw (m : Mach) : m.decTroubled.1.raw = m.raw := by
  simp only [Mach.decTroubled, Mach.raw_putB]

@[simp] theorem Mach.encTroubled_raw (m : Mach) : m.encTroubled.1.raw = m.raw := by
  simp only [Mach.encTroubled, Mach.raw_putB]

@[simp] theorem Mach.rise_raw (m : Mach) (r : Reg) (i bit code detail : Nat) (log : Bool) :
    (m.rise r i bit code detail log).1.raw = m.raw := by
  simp only [Mach.rise, Mach.raw_ite, ite_self, Mach.raw_setRegBit, Mach.summarise_raw, Mach.decTroubled_raw,
    Mach.encTroubled_raw, apply_ite Prod.fst]

@[simp] theorem Mach.countDrop_raw (m : Mach) (p : Nat) : (m.countDrop p).1.raw = m.raw := by
  simp only [Mach.countDrop, Mach.raw_setFabPort]

@[simp] theorem Mach.dispatch_raw (m : Mach) (type vc dest : Nat) (words : List Nat) (len : Nat) :
    (m.dispatch type vc dest words len).1.raw = m.raw := by
  simp only [Mach.dispatch]
  (repeat' split) <;> simp only [Mach.sendHome_raw, Mach.sendOn_raw, Mach.countDrop_raw]

@[simp] theorem Mach.effect_raw (m : Mach) (e : Eff) : (m.effect e).1.raw = m.raw := by
  unfold Mach.effect
  split <;> simp only [Mach.arrive_raw, Mach.rise_raw, Mach.queueEntry_raw, Mach.snapshot_raw, Mach.dispatch_raw]

@[simp] theorem settle_raw (n : Nat) (es : List Eff) (m : Mach) : (settle n es m).raw = m.raw := by
  induction n generalizing es m with
  | zero => rfl
  | succ n ih =>
    cases es with
    | nil => rfl
    | cons e es => exact (ih _ _).trans (Mach.effect_raw m e)

@[simp] theorem Mach.raise_raw (m : Mach) (s : Nat) : (m.raise s).raw = m.raw := by
  simp only [Mach.raise, settle_raw]

@[simp] theorem Mach.raiseLimited_raw (m : Mach) (s limit : Nat) : (m.raiseLimited s limit).raw = m.raw := by
  simp only [Mach.raiseLimited, Mach.raw_ite, ite_self, Mach.raise_raw, Mach.markNow_raw]

@[simp] theorem Mach.trouble_raw (m : Mach) (f : Field) (i detail code : Nat) :
    (m.trouble f i detail code).raw = m.raw := by
  simp only [Mach.trouble, settle_raw]

@[simp] theorem Mach.troubleBit_raw (m : Mach) (f : Field) (k i : Nat) : (m.troubleBit f k i).raw = m.raw := by
  simp only [Mach.troubleBit, settle_raw]

@[simp] theorem Mach.troubleNoEntry_raw (m : Mach) (f : Field) (i : Nat) : (m.troubleNoEntry f i).raw = m.raw := by
  simp only [Mach.troubleNoEntry, settle_raw]

@[simp] theorem Mach.log_raw (m : Mach) (block bit code detail : Nat) :
    (m.log block bit code detail).raw = m.raw := by
  simp only [Mach.log, settle_raw]

@[simp] theorem Mach.ladder_raw (m : Mach) (kept broken : Nat) (b : Block) :
    (m.ladder kept broken b).raw = m.raw := by
  simp only [Mach.ladder, Mach.log_raw]

@[simp] theorem Mach.sendRouted_raw (m : Mach) (type vc dest : Nat) (words : List Nat) (len : Nat) :
    (m.sendRouted type vc dest words len).raw = m.raw := by
  simp only [Mach.sendRouted, Mach.dispatch_raw, settle_raw]

@[simp] theorem Mach.resummarise_raw (m : Mach) : m.resummarise.raw = m.raw := by
  simp only [Mach.resummarise, Mach.raw_put]

@[simp] theorem Mach.refuse_raw (m : Mach) (r : Reg) (i : Nat) : (m.refuse r i).raw = m.raw := by
  simp only [Mach.refuse, Mach.trouble_raw]

@[simp] theorem Mach.returnFields_raw (m : Mach) (p : RegDesc → Nat → FieldDesc → Bool) :
    (m.returnFields p).raw = m.raw :=
  (m.restSame_returnFields p).raw

@[simp] theorem Mach.stopFeeds_raw (m : Mach) (p : Feed → Bool) (cause : Nat) :
    (m.stopFeeds p cause).raw = m.raw := by
  simp only [Mach.stopFeeds, Mach.raw_foldl, implies_true, Mach.raw_ite, ite_self, Mach.raw_setLayer]

@[simp] theorem Mach.witnessBad_raw (m : Mach) : m.witnessBad.raw = m.raw := by
  simp only [Mach.witnessBad, Mach.raise_raw, Mach.trouble_raw]

@[simp] theorem Mach.chkUnit_raw (m : Mach) (ch : Nat) (good : Bool) : (m.chkUnit ch good).raw = m.raw := by
  simp only [Mach.chkUnit, Mach.count_raw, Mach.raw_bump, Mach.raw_ite, ite_self, Mach.raiseLimited_raw,
    Mach.trouble_raw, Mach.troubleBit_raw]

@[simp] theorem Mach.flitSent_raw (m : Mach) (p : Nat) : (m.flitSent p).raw = m.raw := by
  simp only [Mach.flitSent, Mach.chkUnit_raw, Mach.count_raw]

@[simp] theorem Mach.frameSent_raw (m : Mach) (p : Nat) : (m.frameSent p).raw = m.raw := by
  simp only [Mach.frameSent, Mach.chkUnit_raw, Mach.count_raw]

end Sys2Proof.Machine
end

section
/-! SUPPORT. The raw counter under the time service (R60). -/

namespace Sys2Proof.Machine

@[simp] theorem Mach.setRate_raw (m : Mach) (rate : Int) : (m.setRate rate).raw = m.raw := by
  simp only [Mach.setRate, Mach.raw_put]

@[simp] theorem Mach.steer_raw (m : Mach) : m.steer.raw = m.raw := by
  simp only [Mach.steer, Mach.setRate_raw, Mach.fresh_raw]

@[simp] theorem Mach.slewRate_raw (m : Mach) (e : Int) : (m.slewRate e).raw = m.raw := by
  simp only [Mach.slewRate, Mach.setRate_raw]

@[simp] theorem Mach.setServo_raw (m : Mach) (st : Nat) : (m.setServo st).raw = m.raw := by
  simp only [Mach.setServo, Mach.raw_put]

@[simp] theorem Mach.enterAcquire_raw (m : Mach) : m.enterAcquire.raw = m.raw := by
  simp only [Mach.enterAcquire, Mach.setServo_raw]

@[simp] theorem Mach.enterLocked_raw (m : Mach) : m.enterLocked.raw = m.raw := by
  simp only [Mach.enterLocked, Mach.raw_ite, ite_self, Mach.raise_raw, Mach.setServo_raw]

@[simp] theorem Mach.enterHoldover_raw (m : Mach) : m.enterHoldover.raw = m.raw := by
  simp only [Mach.enterHoldover, Mach.raise_raw, Mach.trouble_raw, Mach.setServo_raw, Mach.setRate_raw]

@[simp] theorem Mach.showOffset_raw (m : Mach) : m.showOffset.raw = m.raw := by
  simp only [Mach.showOffset, Mach.raw_put]

@[simp] theorem Mach.stepTime_raw (m : Mach) (e : Int) : (m.stepTime e).raw = m.raw := by rfl

@[simp] theorem Mach.refuseJump_raw (m : Mach) (e : Int) : (m.refuseJump e).raw = m.raw := by
  simp only [Mach.refuseJump, Mach.slewRate_raw, Mach.raise_raw, Mach.trouble_raw, Mach.setServo_raw]

@[simp] theorem Mach.servoOffset_raw (m : Mach) (e : Int) : (m.servoOffset e).raw = m.raw := by
  simp only [Mach.servoOffset, Mach.raw_ite, ite_self, Mach.enterAcquire_raw, Mach.stepTime_raw, Mach.slewRate_raw,
    Mach.refuseJump_raw, Mach.steer_raw, Mach.raise_raw, Mach.showOffset_raw]

@[simp] theorem Mach.linkDelay_raw (m : Mach) (p : Nat) (f : TimeFlit) : (m.linkDelay p f).raw = m.raw := by
  unfold Mach.linkDelay
  dsimp only
  split <;> simp only [Mach.raw_ite, ite_self, Mach.raw_put, Mach.raw_setTimePort, Mach.count_raw, Mach.raise_raw,
    Mach.trouble_raw]

@[simp] theorem Mach.setParent_raw (m : Mach) (p hops : Nat) : (m.setParent p hops).raw = m.raw := by
  simp only [Mach.setParent, Mach.raw_ite, ite_self, Mach.raw_setFabPort, Mach.raw_put, Mach.raw_putB, Mach.raise_raw]

@[simp] theorem Mach.adoptRoot_raw (m : Mach) (p : Nat) (f : TimeFlit) : (m.adoptRoot p f).raw = m.raw := by
  simp only [Mach.adoptRoot, Mach.raw_putB, Mach.raw_put, Mach.raw_ite, ite_self, Mach.raise_raw, Mach.setParent_raw,
    Mach.enterAcquire_raw]

@[simp] theorem Mach.domainClash_raw (m : Mach) : m.domainClash.raw = m.raw := by
  simp only [Mach.domainClash, Mach.raise_raw, Mach.trouble_raw]

@[simp] theorem Mach.rootSeen_raw (m : Mach) : m.rootSeen.raw = m.raw := by
  simp only [Mach.rootSeen, Mach.raw_ite, ite_self]

@[simp] theorem Mach.election_raw (m : Mach) (p : Nat) (f : TimeFlit) : (m.election p f).raw = m.raw := by
  simp only [Mach.election, Mach.raw_ite, ite_self, Mach.rootSeen_raw, Mach.adoptRoot_raw, Mach.domainClash_raw]

@[simp] theorem Mach.stampTimeFlit_raw (m : Mach) (p : Nat) (f : TimeFlit) : (m.stampTimeFlit p f).2.raw = m.raw := by
  simp only [Mach.stampTimeFlit, Mach.raw_setTimePort]

@[simp] theorem Mach.timeFlitSend_raw (m : Mach) (p : Nat) : (m.timeFlitSend p).raw = m.raw := by
  simp only [Mach.timeFlitSend, Mach.raw_ite, ite_self, Mach.enqueue_raw]

@[simp] theorem Mach.forwardTime_raw (m : Mach) (p : Nat) (f : TimeFlit) : (m.forwardTime p f).raw = m.raw := by
  simp only [Mach.forwardTime, Mach.raw_foldl, implies_true, Mach.raw_ite, ite_self, Mach.enqueue_raw]

@[simp] theorem Mach.parentFlit_raw (m : Mach) (p : Nat) (f : TimeFlit) : (m.parentFlit p f).raw = m.raw := by
  simp only [Mach.parentFlit, Mach.count_raw, Mach.setParent_raw, Mach.raw_put, Mach.raw_putB, Mach.forwardTime_raw,
    Mach.servoOffset_raw]

@[simp] theorem Mach.timeFlitTaken_raw (m : Mach) (p : Nat) (f : TimeFlit) : (m.timeFlitTaken p f).raw = m.raw := by
  simp only [Mach.timeFlitTaken, Mach.linkDelay_raw, Mach.raw_setTimePort, Mach.election_raw, Mach.raw_ite, ite_self,
    Mach.parentFlit_raw]

@[simp] theorem Mach.timeSettled_raw (m : Mach) : m.timeSettled.raw = m.raw := by
  simp only [Mach.timeSettled, Mach.raw_ite, ite_self, Mach.enterLocked_raw]

@[simp] theorem Mach.timeHoldover_raw (m : Mach) : m.timeHoldover.raw = m.raw := by
  simp only [Mach.timeHoldover]
  (repeat' split) <;> simp only [Mach.enterHoldover_raw, Mach.setParent_raw, Mach.raw_putB]

@[simp] theorem Mach.becomeRoot_raw (m : Mach) (preempt : Bool) : (m.becomeRoot preempt).raw = m.raw := by
  simp only [Mach.becomeRoot, Mach.raw_put, Mach.raw_putB, Mach.enterLocked_raw, Mach.raise_raw]

@[simp] theorem Mach.claimWait_raw (m : Mach) : m.claimWait.raw = m.raw := by
  simp only [Mach.claimWait, Mach.raw_ite, ite_self, Mach.becomeRoot_raw]

@[simp] theorem Mach.timeRootLost_raw (m : Mach) : m.timeRootLost.raw = m.raw := by
  simp only [Mach.timeRootLost, Mach.raw_ite, ite_self, Mach.claimWait_raw, Mach.trouble_raw]

@[simp] theorem Mach.noRootSeen_raw (m : Mach) : m.noRootSeen.raw = m.raw := by
  simp only [Mach.noRootSeen, Mach.raw_ite, ite_self, Mach.claimWait_raw]

@[simp] theorem Mach.claim_raw (m : Mach) : m.claim.raw = m.raw := by
  simp only [Mach.claim, Mach.raw_ite, ite_self, Mach.becomeRoot_raw]

@[simp] theorem Mach.preemptClaim_raw (m : Mach) : m.preemptClaim.raw = m.raw := by
  simp only [Mach.preemptClaim, Mach.raw_ite, ite_self, Mach.becomeRoot_raw]

@[simp] theorem Mach.timeParentChange_raw (m : Mach) (p : Nat) : (m.timeParentChange p).raw = m.raw := by
  unfold Mach.timeParentChange
  split <;> simp only [Mach.raw_ite, ite_self, Mach.setParent_raw]

@[simp] theorem Mach.setRefClass_raw (m : Mach) (c : Nat) : (m.setRefClass c).raw = m.raw := by
  simp only [Mach.setRefClass, Mach.raw_ite, ite_self, Mach.raw_put]

@[simp] theorem Mach.refLost_raw (m : Mach) : m.refLost.raw = m.raw := by
  simp only [Mach.refLost, Mach.raise_raw, Mach.trouble_raw, Mach.setRefClass_raw]

@[simp] theorem Mach.refSelected_raw (m : Mach) : m.refSelected.raw = m.raw := by
  simp only [Mach.refSelected, Mach.setRefClass_raw]

@[simp] theorem Mach.refOk_raw (m : Mach) (c : Nat) : (m.refOk c).raw = m.raw := by
  simp only [Mach.refOk, Mach.raw_ite, ite_self, Mach.setRefClass_raw, Mach.raise_raw]

@[simp] theorem Mach.rootOffset_raw (m : Mach) (e : Int) : (m.rootOffset e).raw = m.raw := by
  simp only [Mach.rootOffset, Mach.raw_ite, ite_self, Mach.stepTime_raw, Mach.raise_raw, Mach.trouble_raw,
    Mach.slewRate_raw, Mach.steer_raw]

@[simp] theorem Mach.ppsPhase_raw (m : Mach) (from_ : Nat) : (m.ppsPhase from_).raw = m.raw := by
  simp only [Mach.ppsPhase, Mach.raw_put, Mach.raw_ite, ite_self, Mach.rootOffset_raw, Mach.refOk_raw]

@[simp] theorem Mach.refPpsEdge_raw (m : Mach) : m.refPpsEdge.raw = m.raw := by
  simp only [Mach.refPpsEdge]
  (repeat' split) <;> simp only [Mach.count_raw, Mach.refLost_raw, Mach.ppsPhase_raw]

@[simp] theorem Mach.refF10mGate_raw (m : Mach) (count : Nat) : (m.refF10mGate count).raw = m.raw := by
  simp only [Mach.refF10mGate, Mach.raw_ite, ite_self, Mach.count_raw]

@[simp] theorem Mach.timeRefLost_raw (m : Mach) : m.timeRefLost.raw = m.raw := by
  simp only [Mach.timeRefLost, Mach.raw_ite, ite_self, Mach.refLost_raw]

@[simp] theorem Mach.setPtpPort_raw (m : Mach) (p : Nat) (t : PtpPort) : (m.setPtpPort p t).raw = m.raw := by rfl

@[simp] theorem Mach.setPtpState_raw (m : Mach) (p : Nat) (st : PtpState) : (m.setPtpState p st).raw = m.raw := by
  simp only [Mach.setPtpState, Mach.raw_ite, ite_self, Mach.raise_raw, Mach.setPtpPort_raw]

@[simp] theorem Mach.loseGrandmaster_raw (m : Mach) : m.loseGrandmaster.raw = m.raw := by
  simp only [Mach.loseGrandmaster, Mach.raw_foldl, implies_true, Mach.raw_ite, ite_self, Mach.setPtpState_raw,
    Mach.setPtpPort_raw]

@[simp] theorem Mach.ptpReferenceLost_raw (m : Mach) : m.ptpReferenceLost.raw = m.raw := by
  simp only [Mach.ptpReferenceLost, Mach.raw_ite, ite_self, Mach.refLost_raw, Mach.loseGrandmaster_raw]

@[simp] theorem Mach.sendPtp_raw (m : Mach) (p : Nat) (msg : PtpMsg) : (m.sendPtp p msg).raw = m.raw := by
  simp only [Mach.sendPtp, Mach.frameSent_raw, Mach.emit_raw, Mach.raw_ite, ite_self, Mach.count_raw]

@[simp] theorem Mach.ptpQuiet_raw (m : Mach) (p : Nat) : (m.ptpQuiet p).raw = m.raw := by
  simp only [Mach.ptpQuiet, Mach.raw_ite, ite_self, Mach.setPtpPort_raw, Mach.setPtpState_raw]

@[simp] theorem Mach.ptpMessageTimer_raw (m : Mach) (p : Nat) (kind : PtpKind) :
    (m.ptpMessageTimer p kind).raw = m.raw := by
  simp only [Mach.ptpMessageTimer, Mach.raw_ite, ite_self, Mach.ptpQuiet_raw, Mach.setPtpState_raw, Mach.sendPtp_raw,
    Mach.setPtpPort_raw]

@[simp] theorem Mach.ptpSample_raw (m : Mach) (p : Nat) (offset : Int) : (m.ptpSample p offset).raw = m.raw := by
  simp only [Mach.ptpSample, Mach.raw_ite, ite_self, Mach.rootOffset_raw, Mach.refOk_raw]

@[simp] theorem Mach.ptpPass_raw (m : Mach) (p : Nat) (msg : PtpMsg) (bytes : List Nat) :
    (m.ptpPass p msg bytes).raw = m.raw := by
  simp only [Mach.ptpPass, Mach.raw_ite, ite_self, Mach.fresh_raw, Mach.setPtpPort_raw, Mach.raw_foldl, implies_true,
    Mach.frameSent_raw, Mach.emit_raw, Mach.count_raw]

@[simp] theorem Mach.ptpPeer_raw (m : Mach) (p : Nat) (msg : PtpMsg) : (m.ptpPeer p msg).raw = m.raw := by
  simp only [Mach.ptpPeer]
  (repeat' split) <;> simp only [Mach.fresh_raw, Mach.sendPtp_raw, Mach.setPtpPort_raw]

@[simp] theorem Mach.ptpMaster_raw (m : Mach) (p : Nat) (msg : PtpMsg) : (m.ptpMaster p msg).raw = m.raw := by
  unfold Mach.ptpMaster
  split <;> simp only [Mach.raw_ite, ite_self, Mach.setPtpState_raw, Mach.setPtpPort_raw, Mach.sendPtp_raw]

@[simp] theorem Mach.ptpSlave_raw (m : Mach) (p : Nat) (msg : PtpMsg) : (m.ptpSlave p msg).raw = m.raw := by
  simp only [Mach.ptpSlave]
  (repeat' split) <;> simp only [Mach.setPtpState_raw, Mach.setPtpPort_raw, Mach.ptpSample_raw]

@[simp] theorem Mach.ptpMessage_raw (m : Mach) (p : Nat) (msg : PtpMsg) (bytes : List Nat) :
    (m.ptpMessage p msg bytes).raw = m.raw := by
  simp only [Mach.ptpMessage, Mach.raw_ite, ite_self, Mach.count_raw, Mach.ptpPass_raw, Mach.ptpPeer_raw,
    Mach.ptpMaster_raw, Mach.ptpSlave_raw]

@[simp] theorem Mach.setPulse_raw (m : Mach) (k : Nat) (x : Pulse) : (m.setPulse k x).raw = m.raw := by rfl

@[simp] theorem Mach.pulseArm_raw (m : Mach) (k : Nat) : (m.pulseArm k).raw = m.raw := by
  simp only [Mach.pulseArm, Mach.raw_putB, Mach.raw_ite, ite_self, Mach.setPulse_raw, Mach.raise_raw,
    Mach.trouble_raw]

@[simp] theorem Mach.pulseArmCmd_raw (m : Mach) (k : Nat) (periodic polarity : Bool) :
    (m.pulseArmCmd k periodic polarity).raw = m.raw := by
  simp only [Mach.pulseArmCmd, Mach.raw_ite, ite_self, Mach.refuse_raw, Mach.pulseArm_raw, Mach.raw_putB]

@[simp] theorem Mach.pulseEdge_raw (m : Mach) (k : Nat) : (m.pulseEdge k).raw = m.raw := by
  simp only [Mach.pulseEdge, Mach.raw_ite, ite_self, Mach.count_raw, Mach.emit_raw, Mach.setPulse_raw, Mach.raw_putB]

@[simp] theorem Mach.pulseReturn_raw (m : Mach) (k : Nat) : (m.pulseReturn k).raw = m.raw := by
  simp only [Mach.pulseReturn, Mach.raw_ite, ite_self, Mach.emit_raw, Mach.setPulse_raw]

@[simp] theorem Mach.setCapIn_raw (m : Mach) (k : Nat) (x : CapIn) : (m.setCapIn k x).raw = m.raw := by
  simp only [Mach.setCapIn, Mach.raw_put, Mach.raw_putB]

@[simp] theorem Mach.captureEdge_raw (m : Mach) (k : Nat) (rising : Bool) : (m.captureEdge k rising).raw = m.raw := by
  simp only [Mach.captureEdge, Mach.raw_ite, ite_self, Mach.count_raw, Mach.raw_bump, Mach.trouble_raw,
    Mach.setCapIn_raw, Mach.raise_raw]

@[simp] theorem Mach.popCapture_raw (m : Mach) (k : Nat) : (m.popCapture k).2.raw = m.raw := by
  unfold Mach.popCapture
  dsimp only
  split <;> simp only [Mach.setCapIn_raw]

end Sys2Proof.Machine
end

section
/-! SUPPORT. The raw counter under the fabric (R60). -/

namespace Sys2Proof.Machine

@[simp] theorem Mach.fabDrop_raw (m : Mach) (p : Nat) : (m.fabDrop p).raw = m.raw := by
  simp only [Mach.fabDrop, Mach.countDrop_raw, settle_raw]

@[simp] theorem Mach.malformed_raw (m : Mach) (p : Nat) : (m.malformed p).raw = m.raw := by
  simp only [Mach.malformed, Mach.fabDrop_raw, Mach.trouble_raw]

@[simp] theorem Mach.noRoute_raw (m : Mach) (p : Nat) : (m.noRoute p).raw = m.raw := by
  simp only [Mach.noRoute, Mach.fabDrop_raw, Mach.trouble_raw]

@[simp] theorem Mach.sendCtrlWords_raw (m : Mach) (p : Nat) (ws : List Nat) : (m.sendCtrlWords p ws).raw = m.raw := by
  simp only [Mach.sendCtrlWords, Mach.enqueue_raw]

@[simp] theorem Mach.sendCtrl_raw (m : Mach) (p cmd : Nat) (c : CtrlMsg) : (m.sendCtrl p cmd c).raw = m.raw := by
  simp only [Mach.sendCtrl, Mach.sendCtrlWords_raw]

@[simp] theorem Mach.portToDown_raw (m : Mach) (p st : Nat) : (m.portToDown p st).raw = m.raw := by
  simp only [Mach.portToDown, Mach.raw_setFabPort, Mach.raw_put]

@[simp] theorem Mach.portTrain_raw (m : Mach) (p : Nat) : (m.portTrain p).raw = m.raw := by
  simp only [Mach.portTrain, Mach.raw_ite, ite_self, Mach.raw_put]

@[simp] theorem Mach.trainFail_raw (m : Mach) (p : Nat) : (m.trainFail p).raw = m.raw := by
  simp only [Mach.trainFail, Mach.raw_ite, ite_self, Mach.portToDown_raw, Mach.raise_raw, Mach.trouble_raw,
    Mach.raw_setFabPort]

@[simp] theorem Mach.trainLock_raw (m : Mach) (p lanes rate : Nat) : (m.trainLock p lanes rate).raw = m.raw := by
  simp only [Mach.trainLock, Mach.raw_ite, ite_self, Mach.raw_put, Mach.trainFail_raw]

@[simp] theorem Mach.configTimeout_raw (m : Mach) (p : Nat) : (m.configTimeout p).raw = m.raw := by
  simp only [Mach.configTimeout, Mach.raw_ite, ite_self, Mach.portToDown_raw, Mach.raise_raw, Mach.raw_setFabPort]

@[simp] theorem Mach.configSend_raw (m : Mach) (p : Nat) : (m.configSend p).raw = m.raw := by
  simp only [Mach.configSend, Mach.raw_ite, ite_self, Mach.flitSent_raw, Mach.emit_raw]

@[simp] theorem Mach.walkId_raw (m : Mach) : m.walkId.raw = m.raw := by
  simp only [Mach.walkId]
  (repeat' split) <;> simp only [Mach.raise_raw, Mach.raw_putB, Mach.raw_put]

@[simp] theorem Mach.onWire_raw (m : Mach) (p : Nat) (f : Flit) : (m.onWire p f).raw = m.raw := by
  simp only [Mach.onWire, Mach.flitSent_raw, Mach.emit_raw, Mach.raw_ite, ite_self, Mach.count_raw]

@[simp] theorem Mach.transmit_raw (m : Mach) (p : Nat) (f : Flit) : (m.transmit p f).raw = m.raw := by
  simp only [Mach.transmit, Mach.onWire_raw, Mach.raw_setFabPort]

@[simp] theorem Mach.retransmit_raw (m : Mach) (p count : Nat) (f : Flit) : (m.retransmit p count f).raw = m.raw := by
  simp only [Mach.retransmit, Mach.count_raw, Mach.onWire_raw, Mach.raw_setFabPort]

@[simp] theorem Mach.holdSlot_raw (m : Mach) (p : Nat) : (m.holdSlot p).raw = m.raw := by
  simp only [Mach.holdSlot, Mach.onWire_raw, Mach.raw_setFabPort]

@[simp] theorem Mach.transmitTime_raw (m : Mach) (p : Nat) (f : TimeFlit) : (m.transmitTime p f).raw = m.raw := by
  simp only [Mach.transmitTime, Mach.stampTimeFlit_raw, Mach.onWire_raw, Mach.raw_setFabPort]

@[simp] theorem Mach.noteGaps_raw (m : Mach) (p : Nat) : (m.noteGaps p).raw = m.raw := by
  simp only [Mach.noteGaps, Mach.raw_ite, ite_self, Mach.raw_setFabPort]

@[simp] theorem Mach.slot_raw (m : Mach) (p : Nat) : (m.slot p).raw = m.raw := by
  simp only [Mach.slot]
  (repeat' split) <;> simp only [Mach.noteGaps_raw, Mach.transmitTime_raw, Mach.raw_setFabPort, Mach.count_raw,
    Mach.retransmit_raw, Mach.holdSlot_raw, Mach.transmit_raw]

@[simp] theorem Mach.slotDue_raw (m : Mach) (p : Nat) : (m.slotDue p).raw = m.raw := by
  simp only [Mach.slotDue, Mach.raw_ite, ite_self, Mach.slot_raw, Mach.raw_setFabPort]

@[simp] theorem Mach.slots_raw (m : Mach) : m.slots.raw = m.raw := by
  simp only [Mach.slots, Mach.raw_foldl, implies_true, Mach.slotDue_raw]

@[simp] theorem Mach.noteHead_raw (m : Mach) (e : FlowEntry) (f : Flit) : (m.noteHead e f).raw = m.raw := by
  simp only [Mach.noteHead, Mach.raw_ite, ite_self]

@[simp] theorem Mach.forwardLabel_raw (m : Mach) (e : FlowEntry) (f : Flit) : (m.forwardLabel e f).raw = m.raw := by
  simp only [Mach.forwardLabel, Mach.raw_foldl, implies_true, Mach.enqueue_raw]

@[simp] theorem Mach.forwardRouted_raw (m : Mach) (p : Nat) (f : Flit) : (m.forwardRouted p f).raw = m.raw := by
  simp only [Mach.forwardRouted]
  (repeat' split) <;> simp only [Mach.noRoute_raw, Mach.enqueue_raw]

@[simp] theorem Mach.assemble_raw (m : Mach) (p key : Nat) (f : Flit) : (m.assemble p key f).2.raw = m.raw := by
  simp only [Mach.assemble, Mach.raw_ite, ite_self, Mach.raw_setFabPort, Mach.fabDrop_raw]

@[simp] theorem Mach.showEntry_raw (m : Mach) (e : FlowEntry) : (m.showEntry e).raw = m.raw := by
  unfold Mach.showEntry
  split <;> simp only [Mach.raw_put, Mach.raw_putB, Mach.raw_ite, ite_self]

@[simp] theorem Mach.showCounts_raw (m : Mach) : m.showCounts.raw = m.raw := by
  simp only [Mach.showCounts, Mach.raw_foldl, implies_true, Mach.raw_put]

@[simp] theorem Mach.setEntry_raw (m : Mach) (e : FlowEntry) : (m.setEntry e).raw = m.raw := by
  simp only [Mach.setEntry, Mach.showCounts_raw, Mach.showEntry_raw]

@[simp] theorem Mach.freeEntry_raw (m : Mach) (e : FlowEntry) : (m.freeEntry e).raw = m.raw := by
  unfold Mach.freeEntry
  split <;> simp only [Mach.raw_wr, Mach.raw_ite, ite_self, Mach.showCounts_raw]

@[simp] theorem Mach.setBranches_raw (m : Mach) (bs : List Branch) : (m.setBranches bs).raw = m.raw := by rfl

@[simp] theorem Mach.noteRefusal_raw (m : Mach) (q status refuser : Nat) (own : Bool) :
    (m.noteRefusal q status refuser own).raw = m.raw := by
  simp only [Mach.noteRefusal, Mach.raw_ite, ite_self, Mach.trouble_raw, Mach.raise_raw, Mach.raw_put, Mach.raw_bump]

@[simp] theorem Mach.refuseJoin_raw (m : Mach) (q : Nat) (c : CtrlMsg) (status : Nat) :
    (m.refuseJoin q c status).raw = m.raw := by
  simp only [Mach.refuseJoin, Mach.sendCtrl_raw, Mach.noteRefusal_raw]

@[simp] theorem Mach.addBranch_raw (m : Mach) (e : FlowEntry) (q : Nat) (c : CtrlMsg) (accepted : Bool) :
    (m.addBranch e q c accepted).2.raw = m.raw := by
  simp only [Mach.addBranch, Mach.raw_ite, ite_self, Mach.setEntry_raw, apply_ite Prod.snd]

@[simp] theorem Mach.originAccept_raw (m : Mach) (q : Nat) (c : CtrlMsg) : (m.originAccept q c).raw = m.raw := by
  unfold Mach.originAccept
  dsimp only
  split
  · next n h => rw [Mach.sendCtrl_raw, Mach.raw_of_snd h, Mach.addBranch_raw]
  · next n h => rw [Mach.refuseJoin_raw, Mach.raw_of_snd h, Mach.addBranch_raw]

@[simp] theorem Mach.joinMsg_raw (m : Mach) (q : Nat) (c : CtrlMsg) (ans : OriginAns) :
    (m.joinMsg q c ans).raw = m.raw := by
  unfold Mach.joinMsg
  split
  · next e _ =>
    split
    · next n h => rw [Mach.sendCtrl_raw, Mach.raw_of_snd h, Mach.addBranch_raw]
    · next n h => rw [Mach.refuseJoin_raw, Mach.raw_of_snd h, Mach.addBranch_raw]
  · split
    · split <;> simp only [Mach.originAccept_raw, Mach.refuseJoin_raw]
    · split
      · exact Mach.refuseJoin_raw ..
      · split
        · exact Mach.refuseJoin_raw ..
        · dsimp only
          split
          · next n h => rw [Mach.sendCtrl_raw, Mach.raw_of_snd h, Mach.addBranch_raw]
          · next n h => rw [Mach.refuseJoin_raw, Mach.raw_of_snd h, Mach.addBranch_raw]

@[simp] theorem Mach.setMember_raw (m : Mach) (x : Member) : (m.setMember x).raw = m.raw := by rfl

@[simp] theorem Mach.joinOwn_raw (m : Mach) (key : FlowKey) (vc : Nat) : (m.joinOwn key vc).raw = m.raw := by
  simp only [Mach.joinOwn]
  (repeat' split) <;> simp only [Mach.setMember_raw, Mach.noteRefusal_raw, Mach.trouble_raw, Mach.setEntry_raw,
    Mach.sendCtrl_raw]

@[simp] theorem Mach.reapEntry_raw (m : Mach) (key : FlowKey) : (m.reapEntry key).raw = m.raw := by
  unfold Mach.reapEntry
  split <;> simp only [Mach.raw_ite, ite_self, Mach.showCounts_raw, Mach.showEntry_raw, Mach.freeEntry_raw,
    Mach.sendCtrl_raw]

@[simp] theorem Mach.leaveOwn_raw (m : Mach) (key : FlowKey) : (m.leaveOwn key).raw = m.raw := by
  unfold Mach.leaveOwn
  dsimp only
  split <;> simp only [Mach.reapEntry_raw, Mach.setEntry_raw]

@[simp] theorem Mach.acceptMsg_raw (m : Mach) (p : Nat) (c : CtrlMsg) : (m.acceptMsg p c).raw = m.raw := by
  simp only [Mach.acceptMsg]
  (repeat' split) <;> simp only [Mach.raw_ite, ite_self, Mach.raw_foldl, implies_true, Mach.sendCtrl_raw,
    Mach.setBranches_raw, Mach.setMember_raw]

@[simp] theorem Mach.refuseMsg_raw (m : Mach) (p : Nat) (c : CtrlMsg) : (m.refuseMsg p c).raw = m.raw := by
  simp only [Mach.refuseMsg]
  (repeat' split) <;> simp only [Mach.noteRefusal_raw, Mach.raw_bump, Mach.raw_foldl, implies_true, Mach.sendCtrl_raw,
    Mach.freeEntry_raw, Mach.setMember_raw]

@[simp] theorem Mach.leaveMsg_raw (m : Mach) (q : Nat) (c : CtrlMsg) : (m.leaveMsg q c).raw = m.raw := by
  unfold Mach.leaveMsg
  split <;> simp only [Mach.setBranches_raw, Mach.reapEntry_raw, Mach.showEntry_raw]

@[simp] theorem Mach.cutEntry_raw (m : Mach) (e : FlowEntry) : (m.cutEntry e).raw = m.raw := by
  simp only [Mach.cutEntry, Mach.raw_foldl, implies_true, Mach.sendCtrl_raw, Mach.raise_raw, Mach.freeEntry_raw,
    Mach.raw_ite, ite_self, Mach.joinOwn_raw, Mach.stopFeeds_raw]

@[simp] theorem Mach.flowDownMsg_raw (m : Mach) (p : Nat) (c : CtrlMsg) : (m.flowDownMsg p c).raw = m.raw := by
  unfold Mach.flowDownMsg
  split <;> simp only [Mach.raw_ite, ite_self, Mach.cutEntry_raw]

@[simp] theorem Mach.rejoin_raw (m : Mach) (key : FlowKey) : (m.rejoin key).raw = m.raw := by
  simp only [Mach.rejoin]
  (repeat' split) <;> simp only [Mach.sendCtrl_raw, Mach.joinOwn_raw]

@[simp] theorem Mach.flowSilent_raw (m : Mach) (key : FlowKey) : (m.flowSilent key).raw = m.raw := by
  unfold Mach.flowSilent
  split <;> simp only [Mach.raw_ite, ite_self, Mach.stopFeeds_raw]

@[simp] theorem Mach.portFell_raw (m : Mach) (p st : Nat) : (m.portFell p st).raw = m.raw := by
  simp only [Mach.portFell, Mach.raw_foldl, implies_true, Mach.fabDrop_raw, Mach.portToDown_raw, Mach.cutEntry_raw,
    Mach.setBranches_raw, Mach.reapEntry_raw]

@[simp] theorem Mach.portActivate_raw (m : Mach) (p : Nat) : (m.portActivate p).raw = m.raw := by
  simp only [Mach.portActivate, Mach.raw_setFabPort, Mach.raise_raw, Mach.raw_put]

@[simp] theorem Mach.config_raw (m : Mach) (p : Nat) (c : ConfigBody) : (m.config p c).raw = m.raw := by
  simp only [Mach.config, Mach.raw_ite, ite_self, Mach.raw_put, Mach.raw_putB, Mach.raise_raw, Mach.trouble_raw,
    Mach.portFell_raw, Mach.walkId_raw, Mach.portActivate_raw]

@[simp] theorem Mach.linkDown_raw (m : Mach) (p st : Nat) (cause : Option Field) :
    (m.linkDown p st cause).raw = m.raw := by
  unfold Mach.linkDown
  split <;> simp only [Mach.trouble_raw, Mach.portFell_raw, Mach.raise_raw]

@[simp] theorem Mach.portsFall_raw (m : Mach) : m.portsFall.raw = m.raw := by
  simp only [Mach.portsFall, Mach.raw_foldl, implies_true, Mach.portFell_raw]

@[simp] theorem Mach.idleLimit_raw (m : Mach) (p : Nat) : (m.idleLimit p).raw = m.raw := by
  simp only [Mach.idleLimit, Mach.raw_ite, ite_self, Mach.linkDown_raw]

@[simp] theorem Mach.portDisable_raw (m : Mach) (p : Nat) : (m.portDisable p).raw = m.raw := by
  simp only [Mach.portDisable, Mach.raw_ite, ite_self, Mach.linkDown_raw, Mach.raw_putB]

@[simp] theorem Mach.portEnable_raw (m : Mach) (p : Nat) : (m.portEnable p).raw = m.raw := by
  simp only [Mach.portEnable, Mach.raw_putB, Mach.raw_ite, ite_self, Mach.raw_put]

@[simp] theorem Mach.retrain_raw (m : Mach) (p : Nat) : (m.retrain p).raw = m.raw := by
  simp only [Mach.retrain, Mach.raise_raw, Mach.raw_ite, ite_self, Mach.raw_put, Mach.linkDown_raw]

@[simp] theorem Mach.nakMsg_raw (m : Mach) (p ackSeq : Nat) : (m.nakMsg p ackSeq).raw = m.raw := by
  simp only [Mach.nakMsg, Mach.raw_ite, ite_self, Mach.raw_setFabPort, Mach.linkDown_raw]

@[simp] theorem Mach.resvCheck_raw (m : Mach) (p : Nat) : (m.resvCheck p).raw = m.raw := by
  simp only [Mach.resvCheck, Mach.raw_ite, ite_self, Mach.raw_setFabPort, Mach.raise_raw, Mach.troubleNoEntry_raw,
    Mach.ladder_raw]

@[simp] theorem Mach.sendState_raw (m : Mach) (except : Option Nat) (c : StateMsg) :
    (m.sendState except c).raw = m.raw := by
  simp only [Mach.sendState, Mach.raw_foldl, implies_true, Mach.raw_ite, ite_self, Mach.enqueue_raw]

@[simp] theorem Mach.stateFlood_raw (m : Mach) : m.stateFlood.raw = m.raw := by
  simp only [Mach.stateFlood, Mach.raw_ite, ite_self, Mach.sendState_raw]

@[simp] theorem Mach.setPeerMode_raw (m : Mach) (node mode : Nat) : (m.setPeerMode node mode).raw = m.raw := by
  simp only [Mach.setPeerMode, Mach.raw_wr]

@[simp] theorem Mach.clash_raw (m : Mach) (c : StateMsg) : (m.clash c).2.raw = m.raw := by
  unfold Mach.clash
  split <;> simp only [Mach.raise_raw, Mach.trouble_raw]

@[simp] theorem Mach.stateMsg_raw (m : Mach) (p : Nat) (c : StateMsg) : (m.stateMsg p c).2.raw = m.raw := by
  simp only [Mach.stateMsg, Mach.clash_raw, Mach.raw_ite, ite_self, Mach.sendState_raw, Mach.setPeerMode_raw,
    apply_ite Prod.snd]

@[simp] theorem Mach.peerUnknown_raw (m : Mach) (origin : Nat) : (m.peerUnknown origin).raw = m.raw := by
  simp only [Mach.peerUnknown, Mach.setPeerMode_raw]

@[simp] theorem Mach.sendFlow_raw (m : Mach) (key : FlowKey) (headType vc : Nat) (head data : List Nat) (len : Nat) :
    (m.sendFlow key headType vc head data len).raw = m.raw := by
  unfold Mach.sendFlow
  split <;> simp only [Mach.raw_ite, ite_self, Mach.setEntry_raw, Mach.raw_foldl, implies_true, Mach.enqueue_raw]

@[simp] theorem Mach.takeAck_raw (m : Mach) (p : Nat) (f : Flit) : (m.takeAck p f).raw = m.raw := by
  simp only [Mach.takeAck, Mach.raw_ite, ite_self, Mach.nakMsg_raw, Mach.raw_setFabPort]

@[simp] theorem Mach.linkAccept_raw (m : Mach) (p : Nat) (f : Flit) : (m.linkAccept p f).2.raw = m.raw := by
  simp only [Mach.linkAccept, Mach.chkUnit_raw, Mach.raw_ite, ite_self, Mach.count_raw, Mach.raw_setFabPort,
    Mach.takeAck_raw, apply_ite Prod.snd]

@[simp] theorem Mach.timeFlitReceive_raw (m : Mach) (p : Nat) (f : Flit) (crcGood : Bool) :
    (m.timeFlitReceive p f crcGood).raw = m.raw := by
  simp only [Mach.timeFlitReceive, Mach.raw_ite, ite_self, Mach.fabDrop_raw, Mach.chkUnit_raw, Mach.count_raw,
    Mach.takeAck_raw, Mach.raw_setFabPort, Mach.malformed_raw, Mach.timeFlitTaken_raw]

end Sys2Proof.Machine
end

section
/-! SUPPORT. The raw counter under the decoder (R60). -/

namespace Sys2Proof.Machine

@[simp] theorem Mach.decCause_raw (m : Mach) (n : Nat) (f : Field) : (m.decCause n f).raw = m.raw := by
  simp only [Mach.decCause, Mach.raw_putB, Mach.raw_ite, ite_self, Mach.raise_raw]

@[simp] theorem Mach.decNodeCause_raw (m : Mach) (f : Field) : (m.decNodeCause f).raw = m.raw := by
  simp only [Mach.decNodeCause, Mach.raw_putB, Mach.raw_ite, ite_self, Mach.raise_raw]

@[simp] theorem Mach.decTrouble_raw (m : Mach) (f : Field) (i : Nat) : (m.decTrouble f i).raw = m.raw := by
  simp only [Mach.decTrouble, Mach.trouble_raw]

@[simp] theorem Mach.decDrop_raw (m : Mach) (n code k : Nat) : (m.decDrop n code k).raw = m.raw := by
  simp only [Mach.decDrop, Mach.raw_bump, Mach.raw_ite, ite_self, Mach.raw_put]

@[simp] theorem Mach.setDecState_raw (m : Mach) (n st : Nat) : (m.setDecState n st).raw = m.raw := by
  simp only [Mach.setDecState, Mach.raw_ite, ite_self, Mach.decCause_raw, Mach.raw_put]

@[simp] theorem Mach.showQueue_raw (m : Mach) (n : Nat) : (m.showQueue n).raw = m.raw := by
  simp only [Mach.showQueue, Mach.raw_put]

@[simp] theorem Mach.showContexts_raw (m : Mach) : m.showContexts.raw = m.raw := by
  simp only [Mach.showContexts, Mach.raw_put]

@[simp] theorem Mach.decRefuse_raw (m : Mach) (id status : Nat) : (m.decRefuse id status).raw = m.raw := by
  simp only [Mach.decRefuse, Mach.decNodeCause_raw, Mach.decTrouble_raw, Mach.count_raw, Mach.raw_bump, Mach.raw_put]

@[simp] theorem Mach.restartCounters_raw (m : Mach) (n : Nat) : (m.restartCounters n).raw = m.raw := by
  simp only [Mach.restartCounters, Mach.raw_putB, Mach.raw_put]

@[simp] theorem Mach.decRequest_raw (m : Mach) (id : Nat) (fromEth : Option Nat) (flow : Option FlowKey) :
    (m.decRequest id fromEth flow).2.raw = m.raw := by
  simp only [Mach.decRequest]
  (repeat' split) <;> simp only [Mach.decRefuse_raw, Mach.count_raw, Mach.raw_put, Mach.raw_wr, Mach.raw_putB,
    Mach.raw_setDecCtx, Mach.showContexts_raw, Mach.setDecState_raw, Mach.restartCounters_raw]

@[simp] theorem Mach.orphanEngines_raw (m : Mach) (n : Nat) : (m.orphanEngines n).raw = m.raw := by
  simp only [Mach.orphanEngines]

@[simp] theorem Mach.decRelease_raw (m : Mach) (n : Nat) : (m.decRelease n).raw = m.raw := by
  simp only [Mach.decRelease, Mach.raw_ite, ite_self, Mach.orphanEngines_raw, Mach.setDecState_raw,
    Mach.raw_setDecCtx, Mach.raw_put, Mach.raw_putB, Mach.showContexts_raw, Mach.showQueue_raw]

@[simp] theorem Mach.measureDec_raw (m : Mach) (n samples : Nat) : (m.measureDec n samples).raw = m.raw := by
  simp only [Mach.measureDec, Mach.raw_setDecCtx]

@[simp] theorem Mach.skipUnit_raw (m : Mach) (n : Nat) (a : Au) (cause : Option Field) :
    (m.skipUnit n a cause).raw = m.raw := by
  unfold Mach.skipUnit
  split <;> simp only [Mach.raw_setDecCtx, Mach.count_raw, Mach.raw_bump, Mach.decCause_raw]

@[simp] theorem Mach.backlog_raw (m : Mach) (n k : Nat) : (m.backlog n k).raw = m.raw := by
  induction k generalizing m with
  | zero => rfl
  | succ k ih =>
    unfold Mach.backlog
    dsimp only
    (repeat' split) <;> simp only [ih, Mach.skipUnit_raw]

@[simp] theorem Mach.startPoint_raw (m : Mach) (n k : Nat) : (m.startPoint n k).raw = m.raw := by
  induction k generalizing m with
  | zero => rfl
  | succ k ih =>
    unfold Mach.startPoint
    dsimp only
    (repeat' split) <;> simp only [ih, Mach.skipUnit_raw, Mach.setDecState_raw, Mach.raw_setDecCtx]

@[simp] theorem Mach.raslDrop_raw (m : Mach) (n k : Nat) : (m.raslDrop n k).raw = m.raw := by
  induction k generalizing m with
  | zero => rfl
  | succ k ih =>
    unfold Mach.raslDrop
    dsimp only
    (repeat' split) <;> simp only [ih, Mach.skipUnit_raw]

@[simp] theorem Mach.takeSet_raw (m : Mach) (n : Nat) (nal : List Nat) : (m.takeSet n nal).raw = m.raw := by
  simp only [Mach.takeSet, Mach.raw_ite, ite_self, Mach.raw_setDecCtx, Mach.decDrop_raw]

@[simp] theorem Mach.takeSets_raw (m : Mach) (n : Nat) : (m.takeSets n).raw = m.raw := by
  unfold Mach.takeSets
  dsimp only
  split <;> simp only [Mach.raw_setDecCtx, Mach.raw_foldl, implies_true, Mach.takeSet_raw]

@[simp] theorem Mach.openUnit_raw (m : Mach) (n : Nat) : (m.openUnit n).raw = m.raw := by
  unfold Mach.openUnit
  dsimp only
  split <;> simp only [Mach.raw_ite, ite_self, Mach.takeSets_raw, Mach.raw_setDecCtx]

@[simp] theorem Mach.skim_raw (m : Mach) (n k : Nat) : (m.skim n k).raw = m.raw := by
  induction k generalizing m with
  | zero => rfl
  | succ k ih =>
    unfold Mach.skim
    (repeat' split) <;> simp only [ih, Mach.decDrop_raw, Mach.raw_setDecCtx]

@[simp] theorem Mach.showEngines_raw (m : Mach) : m.showEngines.raw = m.raw := by
  simp only [Mach.showEngines, Mach.raw_put]

@[simp] theorem Mach.takeSlice_raw (m : Mach) (e n : Nat) (r : ReadySlice) : (m.takeSlice e n r).raw = m.raw := by
  unfold Mach.takeSlice
  dsimp only
  split <;> simp only [Mach.raw_setDecCtx]

@[simp] theorem Mach.skimMore_raw (m : Mach) (n : Nat) : (m.skimMore n).raw = m.raw := by
  unfold Mach.skimMore
  split <;> simp only [Mach.skim_raw]

@[simp] theorem Mach.dispatchEngines_raw (m : Mach) : m.dispatchEngines.raw = m.raw := by
  rw [Mach.dispatchEngines, Mach.showEngines_raw]
  refine Mach.raw_foldl (fun m e => ?_) _ _
  (repeat' split) <;> simp only [Mach.showQueue_raw, Mach.skimMore_raw, Mach.takeSlice_raw]

@[simp] theorem Mach.offer_raw (m : Mach) (n : Nat) (p : Pic) : (m.offer n p).raw = m.raw := by
  unfold Mach.offer
  dsimp only
  split <;> simp only [Mach.raw_ite, ite_self, Mach.raw_setDecCtx]

@[simp] theorem Mach.spanSend_raw (m : Mach) (n : Nat) (p : Pic) (degraded : Bool) (fromRow : Nat) :
    (m.spanSend n p degraded fromRow).raw = m.raw := by
  simp only [Mach.spanSend, Mach.raw_foldl, implies_true, Mach.raw_ite, ite_self, Mach.sendFlow_raw]

@[simp] theorem Mach.sliceReady_raw (m : Mach) (n : Nat) (p : Pic) : (m.sliceReady n p).raw = m.raw := by
  simp only [Mach.sliceReady, Mach.count_raw, Mach.offer_raw, Mach.emit_raw, Mach.spanSend_raw, Mach.raw_setDecCtx,
    Mach.raw_ite, ite_self, Mach.decCause_raw]

@[simp] theorem Mach.issueRecord_raw (m : Mach) (n : Nat) (d : DecPic) : (m.issueRecord n d).raw = m.raw := by
  simp only [Mach.issueRecord, Mach.raw_ite, ite_self, Mach.raw_setDecCtx, Mach.sliceReady_raw]

@[simp] theorem Mach.outputPictures_raw (m : Mach) (n : Nat) (pocs : List Int) :
    (m.outputPictures n pocs).raw = m.raw := by
  refine Mach.raw_foldl (fun m poc => ?_) _ _
  dsimp only
  split
  · rfl
  · simp only [Mach.sliceReady_raw, Mach.raw_setDecCtx]

@[simp] theorem Mach.freeEngines_raw (m : Mach) (n : Nat) : (m.freeEngines n).raw = m.raw := by
  simp only [Mach.freeEngines, Mach.showEngines_raw]

@[simp] theorem Mach.decodeFault_raw (m : Mach) (n code : Nat) : (m.decodeFault n code).raw = m.raw := by
  simp only [Mach.decodeFault, Mach.freeEngines_raw, Mach.raw_setDecCtx, Mach.decCause_raw, Mach.count_raw,
    Mach.raw_bump, Mach.raw_put, Mach.raw_ite, ite_self, Mach.decTrouble_raw, Mach.setDecState_raw,
    Mach.showQueue_raw, Mach.stopFeeds_raw]

@[simp] theorem Mach.pictureDone_raw (m : Mach) (n : Nat) (p : Pic) (poc : Int) :
    (m.pictureDone n p poc).raw = m.raw := by
  simp only [Mach.pictureDone, Mach.count_raw, Mach.raw_putB, Mach.raw_put, Mach.raw_advance, Mach.raw_ite, ite_self,
    Mach.decCause_raw, Mach.raw_bump]

@[simp] theorem Mach.finishPicture_raw (m : Mach) (n : Nat) (a : Au) (d : DecPic) :
    (m.finishPicture n a d).raw = m.raw := by
  simp only [Mach.finishPicture, Mach.issueRecord_raw, Mach.outputPictures_raw, Mach.pictureDone_raw,
    Mach.raw_setDecCtx]

@[simp] theorem Mach.endUnit_raw (m : Mach) (n : Nat) : (m.endUnit n).2.raw = m.raw := by
  simp only [Mach.endUnit]
  (repeat' split) <;> simp only [Mach.decodeFault_raw, Mach.raw_setDecCtx, Mach.finishPicture_raw]

@[simp] theorem Mach.decSettle_raw (m : Mach) (n k : Nat) : (m.decSettle n k).raw = m.raw := by
  induction k generalizing m with
  | zero => rfl
  | succ k ih =>
    simp only [Mach.decSettle, Mach.raw_ite, ih, Mach.endUnit_raw, Mach.skimMore_raw, Mach.openUnit_raw,
      Mach.backlog_raw, Mach.raslDrop_raw, Mach.startPoint_raw, ite_self]

@[simp] theorem Mach.decAdvance_raw (m : Mach) (n : Nat) : (m.decAdvance n).raw = m.raw := by
  simp only [Mach.decAdvance, Mach.dispatchEngines_raw, Mach.showQueue_raw, Mach.decSettle_raw]

@[simp] theorem Mach.useRefs_raw (m : Mach) (n : Nat) (d : DecPic) (r : SliceResult) :
    (m.useRefs n d r).2.raw = m.raw := by
  simp only [Mach.useRefs, Mach.raw_ite, ite_self, Mach.raw_put]

@[simp] theorem Mach.useData_raw (m : Mach) (n : Nat) (d : DecPic) (r : SliceResult) :
    (m.useData n d r).2.raw = m.raw := by
  simp only [Mach.useData, Mach.raw_ite, ite_self, Mach.raw_put]

@[simp] theorem Mach.sliceDone_raw (m : Mach) (n : Nat) (d : DecPic) (r : SliceResult) :
    (m.sliceDone n d r).raw = m.raw := by
  simp only [Mach.sliceDone, Mach.raw_ite, ite_self, Mach.decodeFault_raw, Mach.decDrop_raw, Mach.raw_setDecCtx,
    Mach.useRefs_raw, Mach.useData_raw, Mach.issueRecord_raw]

@[simp] theorem Mach.sliceDecoded_raw (m : Mach) (e n : Nat) (r : SliceResult) :
    (m.sliceDecoded e n r).raw = m.raw := by
  simp only [Mach.sliceDecoded]
  (repeat' split) <;> simp only [Mach.count_raw, Mach.showEngines_raw, Mach.dispatchEngines_raw, Mach.decAdvance_raw,
    Mach.sliceDone_raw, Mach.measureDec_raw]

@[simp] theorem Mach.workLimit_raw (m : Mach) (n : Nat) : (m.workLimit n).raw = m.raw := by
  simp only [Mach.workLimit, Mach.raw_ite, ite_self, Mach.decAdvance_raw, Mach.decodeFault_raw]

@[simp] theorem Mach.contextResetEnd_raw (m : Mach) (n : Nat) : (m.contextResetEnd n).raw = m.raw := by
  simp only [Mach.contextResetEnd, Mach.raw_ite, ite_self, Mach.decAdvance_raw, Mach.setDecState_raw]

@[simp] theorem Mach.cleanUnit_raw (m : Mach) (n : Nat) (nals : List (List Nat)) :
    (m.cleanUnit n nals).2.raw = m.raw := by
  simp only [Mach.cleanUnit, Mach.raw_ite, ite_self, Mach.decDrop_raw]

@[simp] theorem Mach.auEnqueue_raw (m : Mach) (n : Nat) (a : Au) : (m.auEnqueue n a).2.raw = m.raw := by
  simp only [Mach.auEnqueue, Mach.raw_ite, ite_self, Mach.cleanUnit_raw, Mach.raw_setDecCtx, Mach.decAdvance_raw,
    apply_ite Prod.snd]

@[simp] theorem Mach.spoilPicture_raw (m : Mach) (n : Nat) (s : SliceIn) : (m.spoilPicture n s).raw = m.raw := by
  unfold Mach.spoilPicture
  dsimp only
  split <;> simp only [Mach.decDrop_raw, Mach.raw_setDecCtx, Mach.raw_ite, ite_self, Mach.decAdvance_raw,
    Mach.orphanEngines_raw]

@[simp] theorem Mach.joinSlice_raw (m : Mach) (n : Nat) (w : Witness) (s : SliceIn) :
    (m.joinSlice n w s).raw = m.raw := by
  simp only [Mach.joinSlice, Mach.cleanUnit_raw, Mach.decAdvance_raw, Mach.raw_setDecCtx]

@[simp] theorem Mach.sliceReceive_raw (m : Mach) (key : FlowKey) (s : SliceIn) :
    (m.sliceReceive key s).raw = m.raw := by
  simp only [Mach.sliceReceive]
  (repeat' split) <;> simp only [Mach.decDrop_raw, Mach.spoilPicture_raw, Mach.witnessBad_raw, Mach.chkUnit_raw,
    Mach.raw_setDecCtx, Mach.joinSlice_raw]

@[simp] theorem Mach.shedCtx_raw (m : Mach) (n : Nat) : (m.shedCtx n).raw = m.raw := by
  simp only [Mach.shedCtx, Mach.orphanEngines_raw, Mach.raw_setDecCtx, Mach.showQueue_raw, Mach.setDecState_raw]

@[simp] theorem Mach.decShedNow_raw (m : Mach) : m.decShedNow.raw = m.raw := by
  simp only [Mach.decShedNow, Mach.raw_foldl, implies_true, Mach.raw_ite, ite_self, Mach.shedCtx_raw,
    Mach.setDecState_raw]

@[simp] theorem Mach.decStage_raw (m : Mach) : m.decStage.raw = m.raw := by
  simp only [Mach.decStage, Mach.decShedNow_raw, Mach.dispatchEngines_raw]

@[simp] theorem Mach.setSpanPool_raw (m : Mach) (s : SpanPool) : (m.setSpanPool s).raw = m.raw := by rfl

@[simp] theorem Mach.rowDrop_raw (m : Mach) (key : FlowKey) : (m.rowDrop key).raw = m.raw := by
  unfold Mach.rowDrop
  split <;> simp only [Mach.fabDrop_raw]

@[simp] theorem Mach.spanBandRow_raw (m : Mach) (key : FlowKey) (r : BandRow) :
    (m.spanBandRow key r).raw = m.raw := by
  simp only [Mach.spanBandRow]
  (repeat' split) <;> simp only [Mach.rowDrop_raw, Mach.setSpanPool_raw, Mach.witnessBad_raw, Mach.chkUnit_raw]

end Sys2Proof.Machine
end

section
/-! SUPPORT. The raw counter under the encoder (R60). -/

namespace Sys2Proof.Machine

@[simp] theorem Mach.encCause_raw (m : Mach) (n : Nat) (f : Field) : (m.encCause n f).raw = m.raw := by
  simp only [Mach.encCause, Mach.raw_putB, Mach.raw_ite, ite_self, Mach.raise_raw]

@[simp] theorem Mach.encNodeCause_raw (m : Mach) (f : Field) : (m.encNodeCause f).raw = m.raw := by
  simp only [Mach.encNodeCause, Mach.raw_putB, Mach.raw_ite, ite_self, Mach.raise_raw]

@[simp] theorem Mach.setEncState_raw (m : Mach) (n st : Nat) : (m.setEncState n st).raw = m.raw := by
  simp only [Mach.setEncState, Mach.raw_ite, ite_self, Mach.encCause_raw, Mach.raw_put]

@[simp] theorem Mach.showEncContexts_raw (m : Mach) : m.showEncContexts.raw = m.raw := by
  simp only [Mach.showEncContexts, Mach.raw_put]

@[simp] theorem Mach.encRequest_raw (m : Mach) (e : List Nat) : (m.encRequest e).2.raw = m.raw := by
  unfold Mach.encRequest
  dsimp only
  (repeat' split) <;> simp only [Mach.raw_put, Mach.raw_wr, Mach.raw_putB, Mach.showEncContexts_raw,
    Mach.setEncState_raw, Mach.raw_setEncCtx, Mach.encNodeCause_raw, Mach.trouble_raw, Mach.count_raw, Mach.raw_bump]

@[simp] theorem Mach.encStart_raw (m : Mach) (all : Bool) : (m.encStart all).raw = m.raw := by
  simp only [Mach.encStart, Mach.raw_foldl, implies_true, Mach.raw_ite, ite_self, Mach.encRequest_raw]

@[simp] theorem Mach.originAnswer_raw (m : Mach) (key : FlowKey) : (m.originAnswer key).2.raw = m.raw := by
  unfold Mach.originAnswer
  simp only [Mach.raw_ite_snd]
  split
  · simp only [ite_self]
  · split
    · rfl
    · split
      · rfl
      · split
        · rfl
        · split
          · rfl
          · split
            · next n h => rw [Mach.raw_of_snd h, Mach.encRequest_raw]
            · next n h => rw [Mach.raw_of_snd h, Mach.encRequest_raw]

@[simp] theorem Mach.joinCommand_raw (m : Mach) (q : Nat) (c : CtrlMsg) : (m.joinCommand q c).raw = m.raw := by
  simp only [Mach.joinCommand, Mach.raw_ite, ite_self, Mach.originAnswer_raw, Mach.joinMsg_raw]

@[simp] theorem Mach.rateControl_raw (m : Mach) (n bytes budget : Nat) (capHit : Bool) :
    (m.rateControl n bytes budget capHit).raw = m.raw := by
  simp only [Mach.rateControl, Mach.raw_put]

@[simp] theorem Mach.encLines_raw (m : Mach) (c num lines : Nat) : (m.encLines c num lines).raw = m.raw := by
  simp only [Mach.encLines, Mach.raw_foldl, implies_true, Mach.raw_ite, ite_self, Mach.raw_setEncCtx]

@[simp] theorem Mach.showEncEngines_raw (m : Mach) : m.showEncEngines.raw = m.raw := by
  simp only [Mach.showEncEngines, Mach.raw_put]

@[simp] theorem Mach.settlePicture_raw (m : Mach) (n : Nat) : (m.settlePicture n).raw = m.raw := by
  unfold Mach.settlePicture
  dsimp only
  split <;> simp only [Mach.raw_setEncCtx]

@[simp] theorem Mach.takeRow_raw (m : Mach) (e n r : Nat) : (m.takeRow e n r).raw = m.raw := by
  unfold Mach.takeRow
  dsimp only
  split <;> simp only [Mach.raw_ite, ite_self, Mach.settlePicture_raw, Mach.raw_setEncCtx]

@[simp] theorem Mach.dispatchRows_raw (m : Mach) : m.dispatchRows.raw = m.raw := by
  rw [Mach.dispatchRows, Mach.showEncEngines_raw]
  refine Mach.raw_foldl (fun m e => ?_) _ _
  (repeat' split) <;> simp only [Mach.takeRow_raw]

@[simp] theorem Mach.freeRows_raw (m : Mach) (n : Nat) : (m.freeRows n).raw = m.raw := by
  simp only [Mach.freeRows, Mach.showEncEngines_raw]

@[simp] theorem Mach.rowCoded_raw (m : Mach) (e n r bytes : Nat) : (m.rowCoded e n r bytes).raw = m.raw := by
  unfold Mach.rowCoded
  dsimp only
  split <;> simp only [Mach.raw_ite, ite_self, Mach.count_raw, Mach.dispatchRows_raw, Mach.raw_setEncCtx]

@[simp] theorem Mach.rowLimitReached_raw (m : Mach) (n r : Nat) : (m.rowLimitReached n r).raw = m.raw := by
  unfold Mach.rowLimitReached
  dsimp only
  split <;> simp only [Mach.raw_ite, ite_self, Mach.dispatchRows_raw, Mach.raw_setEncCtx]

@[simp] theorem Mach.endFallback_raw (m : Mach) (n : Nat) (captureLost : Bool) :
    (m.endFallback n captureLost).raw = m.raw := by
  unfold Mach.endFallback
  dsimp only
  split <;> simp only [Mach.raw_ite, ite_self, Mach.raw_setEncCtx, Mach.freeRows_raw, Mach.encCause_raw,
    Mach.trouble_raw]

@[simp] theorem Mach.encSkip_raw (m : Mach) (n : Nat) : (m.encSkip n).raw = m.raw := by
  simp only [Mach.encSkip, Mach.encCause_raw, Mach.count_raw, Mach.raw_bump]

@[simp] theorem Mach.encEnd_raw (m : Mach) (n : Nat) (captureLost : Bool) : (m.encEnd n captureLost).raw = m.raw := by
  unfold Mach.encEnd
  dsimp only
  split <;> simp only [Mach.raw_ite, ite_self, Mach.raw_setEncCtx, Mach.endFallback_raw]

@[simp] theorem Mach.encFrameFailed_raw (m : Mach) (c num : Nat) : (m.encFrameFailed c num).raw = m.raw := by
  simp only [Mach.encFrameFailed, Mach.raw_foldl, implies_true, Mach.raw_ite, ite_self, Mach.raw_setEncCtx,
    Mach.encEnd_raw]

@[simp] theorem Mach.encFrameDone_raw (m : Mach) (c : Nat) (f : Pic) : (m.encFrameDone c f).raw = m.raw := by
  simp only [Mach.encFrameDone, Mach.raw_foldl, implies_true, Mach.raw_ite, ite_self, Mach.raw_setEncCtx]

@[simp] theorem Mach.encLate_raw (m : Mach) (c num : Nat) : (m.encLate c num).raw = m.raw := by
  refine Mach.raw_foldl (fun m n => ?_) _ _
  simp only
  (repeat' split) <;> simp only [Mach.encEnd_raw, Mach.encSkip_raw, Mach.raw_setEncCtx]

@[simp] theorem Mach.beginPicture_raw (m : Mach) (n : Nat) : (m.beginPicture n).raw = m.raw := by
  unfold Mach.beginPicture
  dsimp only
  split <;> simp only [Mach.raw_setEncCtx]

@[simp] theorem Mach.encFrameStart_raw (m : Mach) (n : Nat) (f : Pic) (repeats : Nat) (frozen : Bool) :
    (m.encFrameStart n f repeats frozen).raw = m.raw := by
  simp only [Mach.encFrameStart, Mach.raw_ite, ite_self, Mach.raw_setEncCtx, Mach.encSkip_raw, Mach.beginPicture_raw,
    Mach.setEncState_raw]

@[simp] theorem Mach.stats_raw (m : Mach) (n : Nat) (p : EncPic) (bytes : Nat) :
    (m.stats n p bytes).2.raw = m.raw := by
  simp only [Mach.stats, Mach.raw_ite, ite_self, Mach.encCause_raw, Mach.raw_bump, Mach.count_raw, Mach.raw_put,
    apply_ite Prod.snd]

@[simp] theorem Mach.sendRtp_raw (m : Mach) (id port capture : Nat) (w : Witness) (nals : List (List Nat)) (last :
    Bool) :
    (m.sendRtp id port capture w nals last).raw = m.raw := by
  unfold Mach.sendRtp
  dsimp only
  split <;> simp only [Mach.raw_foldl, implies_true, Mach.frameSent_raw, Mach.emit_raw]

@[simp] theorem Mach.encCtxPor_raw (m : Mach) (n : Nat) : (m.encCtxPor n).raw = m.raw := by
  simp only [Mach.encCtxPor, Mach.returnFields_raw]

@[simp] theorem Mach.encReap_raw (m : Mach) (n : Nat) : (m.encReap n).raw = m.raw := by
  simp only [Mach.encReap, Mach.raw_ite, ite_self, Mach.raw_put, Mach.raw_putB, Mach.setEncState_raw,
    Mach.raw_setEncCtx, Mach.encCtxPor_raw, Mach.showEncContexts_raw, Mach.encRequest_raw, Mach.encStart_raw]

@[simp] theorem Mach.encPictureDone_raw (m : Mach) (n : Nat) (p : EncPic) : (m.encPictureDone n p).2.raw = m.raw := by
  simp only [Mach.encPictureDone, Mach.raw_ite, ite_self, Mach.raw_setEncCtx, Mach.count_raw, Mach.raw_advance,
    Mach.raw_put, Mach.raw_putB, Mach.raw_bump, Mach.trouble_raw, Mach.encCause_raw, Mach.rateControl_raw,
    Mach.stats_raw, Mach.dispatchRows_raw, Mach.beginPicture_raw, Mach.encReap_raw]

@[simp] theorem Mach.sliceEmit_raw (m : Mach) (n : Nat) (nals : List (List Nat)) :
    (m.sliceEmit n nals).2.raw = m.raw := by
  simp only [Mach.sliceEmit]
  (repeat' split) <;> simp only [Mach.chkUnit_raw, Mach.count_raw, Mach.sendFlow_raw, Mach.sendRtp_raw,
    Mach.encCause_raw, Mach.raw_setEncCtx, Mach.encPictureDone_raw]

@[simp] theorem Mach.encRelease_raw (m : Mach) (n : Nat) : (m.encRelease n).raw = m.raw := by
  simp only [Mach.encRelease, Mach.raw_ite, ite_self, Mach.encEnd_raw, Mach.encReap_raw, Mach.raw_setEncCtx]

@[simp] theorem Mach.encRequestPicture_raw (m : Mach) (id : Nat) (refresh : Bool) :
    (m.encRequestPicture id refresh).raw = m.raw := by
  unfold Mach.encRequestPicture
  split <;> simp only [Mach.raw_ite, ite_self, Mach.raw_bump, Mach.raw_setEncCtx]

@[simp] theorem Mach.encStage_raw (m : Mach) (port : Nat) : (m.encStage port).raw = m.raw := by
  simp only [Mach.encStage, Mach.raw_foldl, implies_true, Mach.raw_ite, ite_self, Mach.encEnd_raw,
    Mach.setEncState_raw, Mach.raw_setEncCtx]

end Sys2Proof.Machine
end

section
/-! SUPPORT. The raw counter under ingest and capture (R60). -/

namespace Sys2Proof.Machine

@[simp] theorem Mach.capStart_raw (m : Mach) (c : Nat) : (m.capStart c).raw = m.raw := by
  simp only [Mach.capStart, Mach.raw_ite, ite_self, Mach.raw_put, Mach.raw_setCapPort]

@[simp] theorem Mach.capEnWrite_raw (m : Mach) (c : Nat) : (m.capEnWrite c).raw = m.raw := by
  simp only [Mach.capEnWrite, Mach.raw_ite, ite_self, Mach.raw_putB, Mach.capStart_raw]

@[simp] theorem Mach.trimStore_raw (m : Mach) (c : Nat) : (m.trimStore c).raw = m.raw := by
  simp only [Mach.trimStore, Mach.raw_setCapPort]

@[simp] theorem Mach.releaseFrames_raw (m : Mach) (c : Nat) : (m.releaseFrames c).raw = m.raw := by
  simp only [Mach.releaseFrames, Mach.trimStore_raw, Mach.raw_setCapPort]

@[simp] theorem Mach.dropFrame_raw (m : Mach) (c cause : Nat) : (m.dropFrame c cause).raw = m.raw := by
  simp only [Mach.dropFrame, Mach.count_raw, Mach.raw_bump, Mach.raw_ite, ite_self, Mach.trouble_raw, Mach.raise_raw]

@[simp] theorem Mach.csiFrameStart_raw (m : Mach) (c vc fnum : Nat) : (m.csiFrameStart c vc fnum).raw = m.raw := by
  simp only [Mach.csiFrameStart, Mach.raw_ite, ite_self, Mach.raw_setCapPort, Mach.releaseFrames_raw, Mach.raw_foldl,
    implies_true, Mach.encFrameStart_raw, Mach.dispatchRows_raw]
  (repeat' split) <;> simp only [Mach.count_raw, Mach.dropFrame_raw, Mach.encFrameFailed_raw, Mach.encLate_raw,
    Mach.encStage_raw]

@[simp] theorem Mach.showFrame_raw (m : Mach) (c : Nat) (f : Pic) : (m.showFrame c f).raw = m.raw := by
  simp only [Mach.showFrame, Mach.raw_setCapPort]

@[simp] theorem Mach.failFrame_raw (m : Mach) (c cause : Nat) : (m.failFrame c cause).raw = m.raw := by
  simp only [Mach.failFrame, Mach.raw_ite, ite_self, Mach.encFrameFailed_raw, Mach.raw_setCapPort]

@[simp] theorem Mach.csiLine_raw (m : Mach) (c vc dt : Nat) (data : List Nat) (good : Bool) :
    (m.csiLine c vc dt data good).raw = m.raw := by
  unfold Mach.csiLine
  dsimp only
  split <;> simp only [Mach.raw_ite, ite_self, Mach.failFrame_raw, Mach.raw_setCapPort, Mach.dispatchRows_raw,
    Mach.encLines_raw, Mach.count_raw, Mach.showFrame_raw]

@[simp] theorem Mach.frozenDetect_raw (m : Mach) (c crc : Nat) : (m.frozenDetect c crc).raw = m.raw := by
  simp only [Mach.frozenDetect, Mach.raw_ite, ite_self, Mach.raw_setCapPort, Mach.raw_putB, Mach.raw_put,
    Mach.count_raw, Mach.raise_raw]

@[simp] theorem Mach.csiFrameEnd_raw (m : Mach) (c vc : Nat) : (m.csiFrameEnd c vc).raw = m.raw := by
  unfold Mach.csiFrameEnd
  dsimp only
  split <;> simp only [Mach.raw_ite, ite_self, Mach.failFrame_raw, Mach.dropFrame_raw, Mach.raw_setCapPort,
    Mach.frozenDetect_raw, Mach.chkUnit_raw, Mach.showFrame_raw, Mach.count_raw, Mach.raw_put, Mach.raise_raw,
    Mach.trouble_raw, Mach.dispatchRows_raw, Mach.encFrameDone_raw]

@[simp] theorem Mach.capSilent_raw (m : Mach) (c : Nat) : (m.capSilent c).raw = m.raw := by
  simp only [Mach.capSilent, Mach.raw_ite, ite_self, Mach.raise_raw, Mach.stopFeeds_raw, Mach.raw_put]

@[simp] theorem Mach.setEnt_raw (m : Mach) (i st : Nat) : (m.setEnt i st).raw = m.raw := by
  simp only [Mach.setEnt, Mach.raw_ite, ite_self, Mach.raise_raw, Mach.raw_put]

@[simp] theorem Mach.ethDrop_raw (m : Mach) (p k : Nat) : (m.ethDrop p k).raw = m.raw := by
  simp only [Mach.ethDrop, Mach.raiseLimited_raw, Mach.count_raw, Mach.raw_bump]

@[simp] theorem Mach.showGroups_raw (m : Mach) (p : Nat) : (m.showGroups p).raw = m.raw := by
  simp only [Mach.showGroups, Mach.raw_put]

@[simp] theorem Mach.joinGroup_raw (m : Mach) (i : Nat) : (m.joinGroup i).2.raw = m.raw := by
  simp only [Mach.joinGroup, Mach.raw_ite, ite_self, Mach.trouble_raw, Mach.raw_setEthPort, Mach.frameSent_raw,
    Mach.emit_raw, Mach.showGroups_raw, apply_ite Prod.snd]

@[simp] theorem Mach.leaveGroup_raw (m : Mach) (i : Nat) : (m.leaveGroup i).raw = m.raw := by
  simp only [Mach.leaveGroup, Mach.raw_ite, ite_self, Mach.raw_setEthPort, Mach.frameSent_raw, Mach.emit_raw,
    Mach.showGroups_raw]

@[simp] theorem Mach.membershipReport_raw (m : Mach) (p group : Nat) : (m.membershipReport p group).raw = m.raw := by
  simp only [Mach.membershipReport, Mach.raw_setEthPort, Mach.raw_foldl, implies_true, Mach.frameSent_raw,
    Mach.emit_raw]

@[simp] theorem Mach.entUse_raw (m : Mach) (i : Nat) : (m.entUse i).2.raw = m.raw := by
  -- The function stands as a variable while its body is put in, so that neither side's counter is computed.
  obtain ⟨use, huse⟩ : ∃ use, use = Mach.entUse := ⟨_, rfl⟩
  rw [← huse]
  delta Mach.entUse at huse
  have h := congrFun (congrFun huse m) i
  beta_reduce at h
  rw [h]
  split
  · next k hk => rw [Mach.setEnt_raw, Mach.raw_of_snd hk, Mach.joinGroup_raw]
  · next k hk => rw [Mach.setEnt_raw, Mach.raw_setEthStream, Mach.raw_of_snd hk, Mach.joinGroup_raw]

@[simp] theorem Mach.entIdleNow_raw (m : Mach) (i : Nat) : (m.entIdleNow i).raw = m.raw := by
  simp only [Mach.entIdleNow, Mach.raw_ite, ite_self, Mach.leaveGroup_raw, Mach.raw_putB, Mach.raw_setEthStream,
    Mach.setEnt_raw]

@[simp] theorem Mach.streamSilent_raw (m : Mach) (i : Nat) : (m.streamSilent i).raw = m.raw := by
  simp only [Mach.streamSilent, Mach.raw_ite, ite_self, Mach.stopFeeds_raw, Mach.setEnt_raw]

@[simp] theorem Mach.endAu_raw (m : Mach) (i : Nat) (a : AuIn) : (m.endAu i a).raw = m.raw := by
  simp only [Mach.endAu, Mach.raw_setEthStream]

@[simp] theorem Mach.forwardAu_raw (m : Mach) (i : Nat) (au : Au) : (m.forwardAu i au).raw = m.raw := by
  simp only [Mach.forwardAu, Mach.raw_ite, ite_self, Mach.sendFlow_raw]

@[simp] theorem Mach.passAu_raw (m : Mach) (i : Nat) (au : Au) : (m.passAu i au).raw = m.raw := by
  unfold Mach.passAu
  dsimp only
  have hset : ((m.forwardAu i au).setEnt i entReceiving).raw = m.raw := by rw [Mach.setEnt_raw, Mach.forwardAu_raw]
  split
  · exact hset
  · split
    · next n h => rw [Mach.raw_of_snd h, Mach.auEnqueue_raw, hset]
    · next n h => 
      rw [Mach.raw_ite, Mach.ethDrop_raw, ite_self, Mach.raw_of_snd h, Mach.auEnqueue_raw, hset]

@[simp] theorem Mach.releaseAu_raw (m : Mach) (i : Nat) (a : AuIn) (loss : Bool) :
    (m.releaseAu i a loss).raw = m.raw := by
  unfold Mach.releaseAu
  dsimp only
  split <;> simp only [Mach.endAu_raw, Mach.witnessBad_raw, Mach.chkUnit_raw, Mach.raw_ite, ite_self,
    Mach.ethDrop_raw, Mach.raw_setEthStream, Mach.count_raw, Mach.raw_bump, Mach.raw_put, Mach.raise_raw,
    Mach.passAu_raw]

@[simp] theorem Mach.releaseComplete_raw (m : Mach) (i k : Nat) : (m.releaseComplete i k).raw = m.raw := by
  induction k generalizing m with
  | zero => rfl
  | succ k ih =>
    unfold Mach.releaseComplete
    dsimp only
    split <;> simp only [ih, Mach.releaseAu_raw]

@[simp] theorem Mach.acceptRtp_raw (m : Mach) (i : Nat) (pk : RtpPkt) (ts : Nat) :
    (m.acceptRtp i pk ts).raw = m.raw := by
  simp only [Mach.acceptRtp, Mach.releaseComplete_raw, Mach.raw_setEthStream]

@[simp] theorem Mach.ethResync_raw (m : Mach) (i seq ts : Nat) : (m.ethResync i seq ts).raw = m.raw := by
  simp only [Mach.ethResync, Mach.raw_ite, ite_self, Mach.raise_raw, Mach.raw_setEthStream]

@[simp] theorem Mach.auReleaseTimeout_raw (m : Mach) (i ts : Nat) : (m.auReleaseTimeout i ts).raw = m.raw := by
  unfold Mach.auReleaseTimeout
  dsimp only
  split <;> simp only [Mach.raw_ite, ite_self, Mach.releaseAu_raw]

@[simp] theorem Mach.rtp_raw (m : Mach) (i : Nat) (l : List Nat) : (m.rtp i l).raw = m.raw := by
  refine Mach.raw_of_eq fun n h => ?_
  rw [Mach.rtp] at h
  split at h
  · rw [← h, Mach.ethDrop_raw]
  · split at h
    · rw [← h, Mach.ethDrop_raw]
    · extract_lets b0 b1 cc hdr hasExt extLen profile pad seq ts ssrc want body h264 ty badTy x rate at h
      split at h
      · rw [← h, Mach.ethDrop_raw]
      · split at h
        · rw [← h, Mach.ethDrop_raw]
        · extract_lets src y m1 d inWindow farTs at h
          split at h
          · rw [← h, Mach.ethResync_raw, Mach.ethDrop_raw, Mach.raw_setEthStream]
          · split at h
            · rw [← h, Mach.ethResync_raw, Mach.ethDrop_raw, Mach.raw_setEthStream]
            · rw [← h, Mach.acceptRtp_raw, Mach.raw_setEthStream]

@[simp] theorem Mach.rtcp_raw (m : Mach) (i : Nat) (l : List Nat) : (m.rtcp i l).raw = m.raw := by
  simp only [Mach.rtcp, Mach.raw_ite, ite_self, Mach.ethDrop_raw, Mach.raw_putB, Mach.raw_setEthStream]

@[simp] theorem Mach.rtcpSrSend_raw (m : Mach) (id : Nat) : (m.rtcpSrSend id).raw = m.raw := by
  simp only [Mach.rtcpSrSend]
  (repeat' split) <;> simp only [Mach.frameSent_raw, Mach.emit_raw]

@[simp] theorem Mach.neighbourRequest_raw (m : Mach) (p addr : Nat) : (m.neighbourRequest p addr).raw = m.raw := by
  unfold Mach.neighbourRequest
  dsimp only
  split <;> simp only [Mach.ethDrop_raw, Mach.frameSent_raw, Mach.emit_raw, Mach.raw_setEthPort]

@[simp] theorem Mach.neighbourExpire_raw (m : Mach) (p addr : Nat) : (m.neighbourExpire p addr).raw = m.raw := by
  simp only [Mach.neighbourExpire, Mach.raw_setEthPort]

@[simp] theorem Mach.neighbourReply_raw (m : Mach) (p addr mac : Nat) :
    (m.neighbourReply p addr mac).raw = m.raw := by
  simp only [Mach.neighbourReply, Mach.raw_ite, ite_self, Mach.raw_setEthPort]

@[simp] theorem Mach.limitedReply_raw (m : Mach) (p : Nat) (echo : Bool) (t : EthTx) :
    (m.limitedReply p echo t).raw = m.raw := by
  unfold Mach.limitedReply
  dsimp only
  split <;> simp only [Mach.ethDrop_raw, Mach.frameSent_raw, Mach.emit_raw, Mach.raw_setEthPort]

@[simp] theorem Mach.showState_raw (m : Mach) (n st reason : Nat) : (m.showState n st reason).raw = m.raw := by
  simp only [Mach.showState, Mach.raw_put, Mach.raw_ite, ite_self, Mach.raise_raw, Mach.count_raw]

@[simp] theorem Mach.noteU_raw (m : Mach) (n u : Nat) : (m.noteU n u).raw = m.raw := by
  simp only [Mach.noteU, Mach.raw_ite, ite_self, Mach.raw_setLayer, Mach.trouble_raw, Mach.raise_raw]

@[simp] theorem Mach.noteBadges_raw (m : Mach) (n : Nat) (o : Offer) : (m.noteBadges n o).raw = m.raw := by
  simp only [Mach.noteBadges, Mach.raw_put, Mach.raw_putB, Mach.raw_setLayer]

@[simp] theorem Mach.hideBadges_raw (m : Mach) (n : Nat) : (m.hideBadges n).raw = m.raw := by
  simp only [Mach.hideBadges, Mach.raw_putB]

@[simp] theorem Mach.withdraw_raw (m : Mach) (n : Nat) (o : Offer) (age : Nat) :
    (m.withdraw n o age).2.raw = m.raw := by
  simp only [Mach.withdraw, Mach.raw_setLayer]

@[simp] theorem Mach.checkLayer_raw (m : Mach) (n b : Nat) : (m.checkLayer n b).raw = m.raw := by
  simp only [Mach.checkLayer, Mach.raw_setLayer, Mach.raw_ite, ite_self, Mach.showState_raw, Mach.hideBadges_raw]
  (repeat' split) <;> simp only [Mach.raw_setLayer, Mach.noteBadges_raw, Mach.raw_putB, Mach.withdraw_raw,
    Mach.noteU_raw, Mach.raise_raw, Mach.trouble_raw]

@[simp] theorem Mach.showAges_raw (m : Mach) : m.showAges.raw = m.raw := by
  simp only [Mach.showAges, Mach.raw_foldl, implies_true, Mach.raw_ite, ite_self, Mach.raw_put]

@[simp] theorem Mach.frameCarry_raw (m : Mach) : m.frameCarry.raw = m.raw := by
  simp only [Mach.frameCarry, Mach.raw_foldl, implies_true, Mach.raw_ite, ite_self, Mach.raw_bump, Mach.raw_setLayer]

@[simp] theorem Mach.fixLabel_raw (m : Mach) (n b : Nat) : (m.fixLabel n b).raw = m.raw := by
  simp only [Mach.fixLabel, Mach.raw_ite, ite_self, Mach.raw_setLayer, Mach.raise_raw, Mach.trouble_raw]

@[simp] theorem Mach.summary_raw (m : Mach) : m.summary.raw = m.raw := by
  simp only [Mach.summary, Mach.raw_put]

@[simp] theorem Mach.releasePics_raw (m : Mach) : m.releasePics.raw = m.raw := by
  unfold Mach.releasePics
  refine (Mach.raw_foldl (fun m e => ?_) _ _).trans (Mach.raw_foldl (fun m c => m.releaseFrames_raw c) _ _)
  dsimp only
  split
  · rw [Mach.raw_ite, Mach.raw_setDecCtx, ite_self]
  · rfl

@[simp] theorem Mach.markSpan_raw (m : Mach) (n b : Nat) : (m.markSpan n b).raw = m.raw := by
  unfold Mach.markSpan
  split <;> rfl

end Sys2Proof.Machine
end

section
/-! SUPPORT. The raw counter under composition, the LUTs and rendering (R60). -/

namespace Sys2Proof.Machine

@[simp] theorem Mach.setActive_raw (m : Mach) (t : List (Nat × DWord)) : (m.setActive t).raw = m.raw := by rfl

@[simp] theorem Mach.showLayers_raw (m : Mach) : m.showLayers.raw = m.raw := by
  simp only [Mach.showLayers, Mach.raw_foldl, implies_true, Mach.raw_put]

@[simp] theorem Mach.showContext_raw (m : Mach) (id i : Nat) : (m.showContext id i).raw = m.raw := by
  simp only [Mach.showContext, Mach.raw_put]

@[simp] theorem Mach.needContext_raw (m : Mach) (id : Nat) (eth : Option Nat) (flow : Option FlowKey) :
    (m.needContext id eth flow).2.raw = m.raw := by
  unfold Mach.needContext
  dsimp only
  split
  · cases eth <;> simp only [Mach.showContext_raw]
  · split
    · next n h =>
      have hn : n.raw = m.raw := by rw [Mach.raw_of_snd h, Mach.decRequest_raw]
      cases eth <;> simp only [Mach.showContext_raw, hn]
    · next n _ h =>
      have hn : n.raw = m.raw := by rw [Mach.raw_of_snd h, Mach.decRequest_raw]
      cases eth <;> simp only [Mach.setEnt_raw, hn]

@[simp] theorem Mach.askEth_raw (m : Mach) (src i : Nat) : (m.askEth src i).2.raw = m.raw := by
  simp only [Mach.askEth, Mach.raw_ite_snd, ite_self, Mach.entUse_raw, Mach.needContext_raw]

@[simp] theorem Mach.needFlow_raw (m : Mach) (key : FlowKey) (vc : Nat) : (m.needFlow key vc).raw = m.raw := by
  simp only [Mach.needFlow, Mach.raw_ite, ite_self, Mach.joinOwn_raw]

@[simp] theorem Mach.resolveStream_raw (m : Mach) (src : Nat) (ask : Bool) :
    (m.resolveStream src ask).2.raw = m.raw := by
  simp only [Mach.resolveStream]
  (repeat' split) <;> simp only [Mach.askEth_raw, Mach.decRequest_raw, Mach.needContext_raw, Mach.needFlow_raw]

@[simp] theorem Mach.spanRequest_raw (m : Mach) (id : Nat) : (m.spanRequest id).raw = m.raw := by
  simp only [Mach.spanRequest, Mach.raw_ite, ite_self, Mach.resolveStream_raw]

@[simp] theorem Mach.resolveSource_raw (m : Mach) (kind src : Nat) (ask : Bool) :
    (m.resolveSource kind src ask).2.raw = m.raw := by
  simp only [Mach.resolveSource]
  (repeat' split) <;> simp only [Mach.resolveStream_raw, Mach.spanRequest_raw, Mach.needFlow_raw]

@[simp] theorem Mach.resolveLayer_raw (m : Mach) (n : Nat) (ask : Bool) : (m.resolveLayer n ask).raw = m.raw := by
  simp only [Mach.resolveLayer, Mach.raw_ite, ite_self, Mach.raw_setLayer, Mach.resolveSource_raw]

@[simp] theorem Mach.spanContexts_raw (m : Mach) : m.spanContexts.raw = m.raw := by
  simp only [Mach.spanContexts, Mach.raw_foldl, implies_true, Mach.spanRequest_raw]

@[simp] theorem Mach.decAgain_raw (m : Mach) : m.decAgain.raw = m.raw := by
  unfold Mach.decAgain
  split
  · rfl
  · dsimp only
    rw [Mach.spanContexts_raw]
    refine Mach.raw_foldl (fun m n => ?_) _ _
    split <;> simp only [Mach.raw_setLayer, Mach.needContext_raw]

@[simp] theorem Mach.dropFeed_raw (m : Mach) (f : Feed) : (m.dropFeed f).raw = m.raw := by
  simp only [Mach.dropFeed]
  (repeat' split) <;> simp only [Mach.decRelease_raw, Mach.showContext_raw, Mach.entIdleNow_raw, Mach.leaveOwn_raw]

@[simp] theorem Mach.setLeases_raw (m : Mach) (ls : List (Nat × Lease)) : (m.setLeases ls).raw = m.raw := by rfl

@[simp] theorem Mach.showLeases_raw (m : Mach) : m.showLeases.raw = m.raw := by
  unfold Mach.showLeases
  dsimp only
  rw [Mach.raw_put]
  refine Mach.raw_foldl (fun m j => ?_) _ _
  split <;> simp only [Mach.raw_put, Mach.raw_putB]

theorem Mach.takeLeases_raw {m v n : Mach} {ns : List Nat} (h : m.takeLeases v ns = some n) : n.raw = m.raw := by
  unfold Mach.takeLeases at h
  obtain ⟨k, hk, hn⟩ : ∃ k, some m = some k ∧ n.raw = k.raw := by
    refine Mach.raw_foldl_option (fun acc k n h => ?_) h
    split at h
    · cases h
    · exact ⟨_, rfl, by rw [Option.some.inj h]⟩
    · split at h
      · exact ⟨_, rfl, by rw [← Option.some.inj h, Mach.setLeases_raw]⟩
      · obtain ⟨j, -, rfl⟩ := Option.map_eq_some_iff.mp h
        exact ⟨_, rfl, by rw [Mach.count_raw, Mach.setLeases_raw]⟩
  rw [hn, Option.some.inj hk]

@[simp] theorem Mach.writeReleases_raw (m : Mach) : m.writeReleases.raw = m.raw := by
  simp only [Mach.writeReleases, Mach.showLeases_raw, Mach.raw_foldl, implies_true, Mach.raw_ite, ite_self,
    Mach.raise_raw, Mach.raw_put, Mach.trouble_raw]

@[simp] theorem Mach.endLeases_raw (m : Mach) : m.endLeases.raw = m.raw := by
  simp only [Mach.endLeases, Mach.writeReleases_raw, Mach.setLeases_raw]

@[simp] theorem Mach.commitWaiters_raw (m : Mach) (g st w0 : Nat) : (m.commitWaiters g st w0).raw = m.raw := by
  simp only [Mach.commitWaiters, Mach.raw_foldl, implies_true, Mach.raw_ite, ite_self, Mach.raw_put]

@[simp] theorem Mach.receipt_raw (m : Mach) (g st defer_ frame tag merged done notDone : Nat) :
    (m.receipt g st defer_ frame tag merged done notDone).raw = m.raw := by
  simp only [Mach.receipt, Mach.raw_foldl, implies_true, Mach.raw_put, Mach.raw_ite, ite_self, Mach.trouble_raw,
    Mach.raw_bump, Mach.commitWaiters_raw, Mach.count_raw, Mach.raise_raw]

@[simp] theorem Mach.stage_raw (m : Mach) (g frame : Nat) (ns : List Nat) : (m.stage_ g frame ns).raw = m.raw := by
  simp only [Mach.stage_, Mach.raw_foldl, implies_true, Mach.raw_putB, Mach.raw_put, Mach.raw_ite, ite_self,
    Mach.raise_raw, Mach.trouble_raw]

@[simp] theorem Mach.setStragglers_raw (m : Mach) (g : Nat) (ns : List Nat) : (m.setStragglers g ns).raw = m.raw := by
  simp only [Mach.setStragglers, Mach.raw_putB]

@[simp] theorem Mach.endRequest_raw (m : Mach) (g : Nat) : (m.endRequest g).raw = m.raw := by
  simp only [Mach.endRequest, Mach.raw_put, Mach.raw_putB]

@[simp] theorem Mach.decideGroup_raw (m : Mach) (g : Nat) : (m.decideGroup g).raw = m.raw := by
  refine Mach.raw_of_eq fun n h => ?_
  rw [Mach.decideGroup] at h
  dsimp only at h
  obtain h | h := eq_or_eq_of_ite_eq h
  · rw [← h, Mach.count_raw, Mach.raise_raw, Mach.raw_put]
  obtain h | h := eq_or_eq_of_ite_eq h
  · rw [h]
  obtain h | h := eq_or_eq_of_ite_eq h
  · rw [← h, Mach.endRequest_raw, Mach.setStragglers_raw, Mach.receipt_raw]
  cases h1 : m.takeLeases ((m.setActive (m.unstage m.cmp.active
      (m.cmp.stagedLayers.flatMap fun n => layerRegs.map fun r => (r, n)))).ifCommitted 
        ((if m.isPending g then m.members g else m.stragglersOf g).filter m.ready)) 
        ((if m.isPending g then m.members g else m.stragglersOf g).filter m.ready) with
  | none => 
    rw [h1] at h
    rw [← h, Mach.endRequest_raw, Mach.setStragglers_raw, Mach.receipt_raw]
  | some m1 => 
    rw [h1] at h
    rw [← h, Mach.endRequest_raw, Mach.receipt_raw,
            Mach.raw_foldl_of_eq (fun m n k h => by rw [← h, Mach.raw_putB]), Mach.setStragglers_raw, Mach.stage_raw,
            Mach.showLeases_raw,
            Mach.takeLeases_raw h1]

@[simp] theorem Mach.evaluate_raw (m : Mach) (ask : Bool) : (m.evaluate ask).raw = m.raw := by
  simp only [Mach.evaluate, Mach.raw_foldl, implies_true, Mach.resolveLayer_raw]

@[simp] theorem Mach.decideGroups_raw (m : Mach) : m.decideGroups.raw = m.raw := by
  simp only [Mach.decideGroups, Mach.raw_foldl, implies_true, Mach.decideGroup_raw]

@[simp] theorem Mach.releaseBy_raw (m : Mach) (leave : List Nat) (trial : Mach) :
    (m.releaseBy leave trial).raw = m.raw := by
  simp only [Mach.releaseBy, Mach.raw_ite, ite_self, Mach.raw_foldl, implies_true, Mach.dropFeed_raw]

@[simp] theorem Mach.latchCommits_raw (m : Mach) : m.latchCommits.raw = m.raw := by
  simp only [Mach.latchCommits, Mach.raw_ite, ite_self, Mach.raw_put, Mach.decideGroups_raw, Mach.evaluate_raw,
    Mach.releaseBy_raw, Mach.raise_raw]

@[simp] theorem Mach.setSigRegion_raw (m : Mach) (r : Nat) (x : SigRegion) :
    (m.setSigRegion r x).raw = m.raw := by rfl

@[simp] theorem Mach.applyStaged_raw (m : Mach) : m.applyStaged.raw = m.raw := by
  simp only [Mach.applyStaged, Mach.raw_foldl, implies_true, Mach.raw_setLayer, Mach.setActive_raw,
    Mach.setSigRegion_raw, Mach.raise_raw, Mach.showLayers_raw]

@[simp] theorem Mach.applyPoint_raw (m : Mach) : m.applyPoint.raw = m.raw := by
  simp only [Mach.applyPoint, Mach.raw_ite, ite_self, Mach.raw_foldl, implies_true, Mach.setSigRegion_raw,
    Mach.endLeases_raw, Mach.applyStaged_raw, Mach.setLeases_raw]

@[simp] theorem Mach.groupCommit_raw (m : Mach) (g tag : Nat) : (m.groupCommit g tag).raw = m.raw := by
  simp only [Mach.groupCommit, Mach.raw_ite, ite_self, Mach.receipt_raw, Mach.raw_put, Mach.raw_putB]

@[simp] theorem Mach.fenceClr_raw (m : Mach) (mask : Nat) : (m.fenceClr mask).raw = m.raw := by
  simp only [Mach.fenceClr, Mach.raw_put]

@[simp] theorem Mach.popReceipt_raw (m : Mach) : m.popReceipt.2.raw = m.raw := by
  unfold Mach.popReceipt
  split <;> rfl

@[simp] theorem Mach.popRelease_raw (m : Mach) : m.popRelease.2.raw = m.raw := by
  unfold Mach.popRelease
  split <;> simp only [Mach.writeReleases_raw, Mach.raw_put]

@[simp] theorem Mach.setReadoutIn_raw (m : Mach) (t : List (Nat × List Nat × Nat)) :
    (m.setReadoutIn t).raw = m.raw := by rfl

@[simp] theorem Mach.readoutDrop_raw (m : Mach) : m.readoutDrop.raw = m.raw := by
  simp only [Mach.readoutDrop, Mach.raiseLimited_raw, Mach.trouble_raw, Mach.raw_bump]

@[simp] theorem Mach.installReadout_raw (m : Mach) (ws : List Nat) : (m.installReadout ws).raw = m.raw := by
  simp only [Mach.installReadout, Mach.chkUnit_raw, Mach.raw_ite, ite_self, Mach.readoutDrop_raw, Mach.count_raw]

@[simp] theorem Mach.readoutIn_raw (m : Mach) (master : Nat) (w : Width) (word : Nat) :
    (m.readoutIn master w word).raw = m.raw := by
  unfold Mach.readoutIn
  split <;> simp only [Mach.readoutDrop_raw, Mach.setReadoutIn_raw, Mach.raw_ite, ite_self, Mach.installReadout_raw]

@[simp] theorem Mach.readoutTimeout_raw (m : Mach) (master : Nat) : (m.readoutTimeout master).raw = m.raw := by
  unfold Mach.readoutTimeout
  split <;> simp only [Mach.readoutDrop_raw, Mach.setReadoutIn_raw]

@[simp] theorem Mach.bandSlot_raw (m : Mach) (b : Nat) : (m.bandSlot b).raw = m.raw := by
  simp only [Mach.bandSlot, Mach.raw_ite, ite_self, Mach.frameCarry_raw, Mach.raw_put, Mach.raw_putB, Mach.raise_raw,
    Mach.count_raw, Mach.releasePics_raw, Mach.raw_foldl, implies_true, Mach.fixLabel_raw, Mach.checkLayer_raw,
    Mach.markSpan_raw]

@[simp] theorem Mach.bandOverrun_raw (m : Mach) (k : Nat) (ns : List Nat) : (m.bandOverrun k ns).raw = m.raw := by
  simp only [Mach.bandOverrun, Mach.raw_ite, ite_self, Mach.raise_raw, Mach.trouble_raw, Mach.count_raw,
    Mach.raw_bump]

@[simp] theorem Mach.frameDone_raw (m : Mach) : m.frameDone.raw = m.raw := by
  simp only [Mach.frameDone, Mach.raw_ite, ite_self, Mach.raw_foldl, implies_true, Mach.releaseFrames_raw,
    Mach.showAges_raw, Mach.summary_raw, Mach.raw_put, Mach.raw_putB, Mach.raise_raw]

@[simp] theorem State.setByte_raw (s : State) (a : Nat) (b : Byte) : (s.setByte a b).mach.raw = s.mach.raw := by
  simp only [State.setByte]

@[simp] theorem State.setBytes_raw (s : State) (a : Nat) (l : List Nat) : (s.setBytes a l).mach.raw = s.mach.raw := by
  rw [State.setBytes_mach]

@[simp] theorem Mach.setRule_raw (m : Mach) (i : Nat) (g : GateRule) : (m.setRule i g).raw = m.raw := by
  simp only [Mach.setRule, Mach.raw_putB, Mach.raw_put]

@[simp] theorem Mach.pushGateRecord_raw (m : Mach) (r : List Nat) : (m.pushGateRecord r).raw = m.raw := by
  simp only [Mach.pushGateRecord, Mach.raw_ite, ite_self, Mach.raw_put, Mach.raise_raw, Mach.trouble_raw,
    Mach.raw_bump]

@[simp] theorem Mach.flagFault_raw (m : Mach) (q : Requester) : (m.flagFault q).raw = m.raw := by
  simp only [Mach.flagFault, Mach.raw_ite, ite_self]

@[simp] theorem Mach.fence_raw (m : Mach) (q : Requester) : (m.fence q).2.raw = m.raw := by rfl

@[simp] theorem Mach.gateFault_raw (m : Mach) (by_ : Master) (cause : GateCause) (x : Access) (wall node : Nat)
    (posted : Bool) :
    (m.gateFault by_ cause x wall node posted).raw = m.raw := by
  simp only [Mach.gateFault, Mach.trouble_raw, Mach.count_raw, Mach.raw_bump, Mach.pushGateRecord_raw, Mach.raw_ite,
    ite_self, Mach.raise_raw, Mach.flagFault_raw]

@[simp] theorem Mach.gateCheck_raw (m : Mach) (by_ : Master) (x : Access) (posted : Bool) :
    (m.gateCheck by_ x posted).2.raw = m.raw := by
  simp only [Mach.gateCheck]
  (repeat' split) <;> simp only [Mach.count_raw, Mach.fresh_raw, Mach.gateFault_raw]

@[simp] theorem State.renderColumns_raw (s : State) (b x0 x1 : Nat) :
    (s.renderColumns b x0 x1).mach.raw = s.mach.raw := by
  simp only [State.renderColumns, State.raw_foldl, implies_true, State.setBytes_raw]

@[simp] theorem State.renderBand_raw (s : State) (b : Nat) : (s.renderBand b).mach.raw = s.mach.raw := by
  simp only [State.renderBand, State.renderColumns_raw]

@[simp] theorem Mach.setWindow_raw (m : Mach) (r : Reg) (t : List (Nat × DWord)) : (m.setWindow r t).raw = m.raw := by
  simp only [Mach.setWindow, Mach.raw_foldl, implies_true, Mach.raw_wr]

@[simp] theorem Mach.lutSwap_raw (m : Mach) (tables : Nat) : (m.lutSwap tables).raw = m.raw := by
  simp only [Mach.lutSwap, Mach.raw_ite, ite_self, Mach.raw_put, Mach.raw_putB]

@[simp] theorem Mach.lutSwapChecked_raw (m : Mach) : m.lutSwapChecked.raw = m.raw := by
  simp only [Mach.lutSwapChecked, Mach.raw_ite, ite_self, Mach.chkUnit_raw, Mach.raw_putB, Mach.raw_put,
    Mach.raise_raw, Mach.trouble_raw]

@[simp] theorem Mach.lutLatch_raw (m : Mach) : m.lutLatch.raw = m.raw := by
  simp only [Mach.lutLatch, Mach.raw_ite, ite_self]

@[simp] theorem Mach.lutFrame_raw (m : Mach) : m.lutFrame.raw = m.raw := by
  simp only [Mach.lutFrame, Mach.raw_ite, ite_self, Mach.setWindow_raw, Mach.raw_put, Mach.raw_putB, Mach.count_raw,
    Mach.raise_raw]

@[simp] theorem Mach.lutWriteDrop_raw (m : Mach) : m.lutWriteDrop.raw = m.raw := by
  simp only [Mach.lutWriteDrop, Mach.trouble_raw, Mach.raw_bump]

@[simp] theorem Mach.lutEccFatal_raw (m : Mach) (t : Nat) : (m.lutEccFatal t).raw = m.raw := by
  simp only [Mach.lutEccFatal, Mach.raise_raw, Mach.trouble_raw, Mach.raw_putB]

end Sys2Proof.Machine
end

section
/-! SUPPORT. The raw counter under scan-out and the panel (R60). -/

namespace Sys2Proof.Machine

@[simp] theorem Mach.setPanel_raw (m : Mach) (st : Nat) : (m.setPanel st).raw = m.raw := by
  simp only [Mach.setPanel, Mach.raw_put]

@[simp] theorem Mach.showLink_raw (m : Mach) (rate lanes : Nat) (dsc : Bool) :
    (m.showLink rate lanes dsc).raw = m.raw := by
  simp only [Mach.showLink, Mach.raw_putB, Mach.raw_put]

@[simp] theorem Mach.linkAttempt_raw (m : Mach) (trains : List (Nat × Nat × Bool)) :
    (m.linkAttempt trains).raw = m.raw := by
  simp only [Mach.linkAttempt]
  (repeat' split) <;> simp only [Mach.setScn_raw, Mach.raise_raw, Mach.setPanel_raw, Mach.showLink_raw,
    Mach.trouble_raw]

@[simp] theorem Mach.pwm_raw (m : Mach) : m.pwm.raw = m.raw := by
  simp only [Mach.pwm, Mach.raw_ite, ite_self, Mach.emit_raw]

@[simp] theorem Mach.backlight_raw (m : Mach) (on : Bool) : (m.backlight on).raw = m.raw := by
  simp only [Mach.backlight, Mach.raw_ite, ite_self, Mach.pwm_raw, Mach.emit_raw]

@[simp] theorem Mach.linkLost_raw (m : Mach) : m.linkLost.raw = m.raw := by
  simp only [Mach.linkLost, Mach.raw_ite, ite_self, Mach.setScn_raw, Mach.backlight_raw, Mach.count_raw,
    Mach.raw_bump, Mach.showLink_raw, Mach.setPanel_raw, Mach.raise_raw, Mach.trouble_raw]

@[simp] theorem Mach.panelStartDown_raw (m : Mach) : m.panelStartDown.raw = m.raw := by
  simp only [Mach.panelStartDown, Mach.setScn_raw, Mach.setPanel_raw, Mach.backlight_raw]

@[simp] theorem Mach.panelStartUp_raw (m : Mach) : m.panelStartUp.raw = m.raw := by
  simp only [Mach.panelStartUp, Mach.setScn_raw, Mach.setPanel_raw, Mach.emit_raw]

@[simp] theorem Mach.panelUpdate_raw (m : Mach) : m.panelUpdate.raw = m.raw := by
  simp only [Mach.panelUpdate, Mach.raw_ite, ite_self, Mach.panelStartUp_raw, Mach.panelStartDown_raw]

@[simp] theorem Mach.linkTry_raw (m : Mach) (trains : List (Nat × Nat × Bool)) : (m.linkTry trains).raw = m.raw := by
  simp only [Mach.linkTry, Mach.linkAttempt_raw, Mach.raw_ite, ite_self, Mach.panelStartDown_raw]

@[simp] theorem Mach.panelStep_raw (m : Mach) (trains : List (Nat × Nat × Bool)) :
    (m.panelStep trains).raw = m.raw := by
  unfold Mach.panelStep
  split
  · rw [Mach.raw_ite, Mach.linkTry_raw, ite_self]
  · rw [Mach.raw_ite, Mach.linkTry_raw, ite_self]
  · rw [Mach.panelUpdate_raw, Mach.raise_raw, Mach.setScn_raw, Mach.setPanel_raw, Mach.backlight_raw]
  · rw [Mach.setScn_raw, Mach.showLink_raw]
  · rw [Mach.raise_raw, Mach.setScn_raw, Mach.setPanel_raw, Mach.emit_raw]
  · rw [Mach.panelUpdate_raw, Mach.setScn_raw]
  · rw [Mach.panelUpdate_raw, Mach.setScn_raw, Mach.setPanel_raw, Mach.backlight_raw]
  · rfl

@[simp] theorem Mach.noHpd_raw (m : Mach) : m.noHpd.raw = m.raw := by
  simp only [Mach.noHpd, Mach.raw_ite, ite_self, Mach.panelStartDown_raw, Mach.trouble_raw]

@[simp] theorem Mach.hpdPlug_raw (m : Mach) (s : Sink) (trains : List (Nat × Nat × Bool)) :
    (m.hpdPlug s trains).raw = m.raw := by
  rw [Mach.hpdPlug]
  extract_lets
  rw [Mach.raw_ite, Mach.linkTry_raw, ite_self]
  exact (Mach.raise_raw ..).trans ((Mach.setScn_raw ..).trans (Mach.raw_putB ..))

@[simp] theorem Mach.hpdUnplug_raw (m : Mach) : m.hpdUnplug.raw = m.raw := by
  simp only [Mach.hpdUnplug, Mach.linkLost_raw, Mach.raise_raw, Mach.raw_putB]

@[simp] theorem Mach.irqHpd_raw (m : Mach) (lost auxFails : Bool) (trains : List (Nat × Nat × Bool)) :
    (m.irqHpd lost auxFails trains).raw = m.raw := by
  simp only [Mach.irqHpd, Mach.count_raw, Mach.raise_raw, Mach.raw_ite, ite_self, Mach.trouble_raw, Mach.linkLost_raw,
    Mach.linkTry_raw]

@[simp] theorem Mach.dpRetry_raw (m : Mach) (trains : List (Nat × Nat × Bool)) : (m.dpRetry trains).raw = m.raw := by
  simp only [Mach.dpRetry, Mach.raw_ite, ite_self, Mach.linkTry_raw]

@[simp] theorem Mach.hpdShortPulse_raw (m : Mach) : m.hpdShortPulse.raw = m.raw := by
  simp only [Mach.hpdShortPulse, Mach.setScn_raw]

@[simp] theorem Mach.faultHoldEnd_raw (m : Mach) : m.faultHoldEnd.raw = m.raw := by
  simp only [Mach.faultHoldEnd, Mach.raw_ite, ite_self, Mach.panelUpdate_raw, Mach.setScn_raw]

@[simp] theorem Mach.auxStatus_raw (m : Mach) (result count_ : Nat) : (m.auxStatus result count_).raw = m.raw := by
  simp only [Mach.auxStatus, Mach.raw_put, Mach.raw_ite, ite_self, Mach.trouble_raw, Mach.raise_raw]

@[simp] theorem Mach.auxDone_raw (m : Mach) (result count_ : Nat) : (m.auxDone result count_).raw = m.raw := by
  simp only [Mach.auxDone, Mach.auxStatus_raw, Mach.raw_putB, Mach.setScn_raw]

@[simp] theorem Mach.auxGo_raw (m : Mach) : m.auxGo.raw = m.raw := by
  simp only [Mach.auxGo, Mach.count_raw, Mach.raw_ite, ite_self, Mach.auxStatus_raw, Mach.raw_putB, Mach.setScn_raw]

@[simp] theorem Mach.auxReplyTimeout_raw (m : Mach) : m.auxReplyTimeout.raw = m.raw := by
  unfold Mach.auxReplyTimeout
  split <;> simp only [Mach.raw_ite, ite_self, Mach.auxDone_raw, Mach.setScn_raw]

@[simp] theorem Mach.putAuxByte_raw (m : Mach) (i v : Nat) : (m.putAuxByte i v).raw = m.raw := by
  simp only [Mach.putAuxByte, Mach.raw_put]

@[simp] theorem Mach.auxReply_raw (m : Mach) (code : Nat) (data : List Nat) (fits : Bool) :
    (m.auxReply code data fits).raw = m.raw := by
  unfold Mach.auxReply
  split <;> simp only [Mach.raw_ite, ite_self, Mach.auxReplyTimeout_raw, Mach.auxDone_raw, Mach.setScn_raw,
    Mach.raw_foldl, implies_true, Mach.putAuxByte_raw]

@[simp] theorem Mach.dutyWrite_raw (m : Mach) (duty : Nat) : (m.dutyWrite duty).raw = m.raw := by
  simp only [Mach.dutyWrite, Mach.setScn_raw]

@[simp] theorem Mach.dutyLatch_raw (m : Mach) : m.dutyLatch.raw = m.raw := by
  unfold Mach.dutyLatch
  split <;> rfl

@[simp] theorem Mach.dutyFrame_raw (m : Mach) : m.dutyFrame.raw = m.raw := by
  unfold Mach.dutyFrame
  split <;> simp only [Mach.setScn_raw, Mach.raw_ite, ite_self, Mach.pwm_raw, Mach.raise_raw, Mach.raw_put]

@[simp] theorem Mach.cardFrame_raw (m : Mach) : m.cardFrame.raw = m.raw := by
  simp only [Mach.cardFrame, Mach.raw_ite, ite_self, Mach.raise_raw, Mach.raw_put]

@[simp] theorem Mach.scanFrameStart_raw (m : Mach) : m.scanFrameStart.raw = m.raw := by
  refine Mach.raw_of_eq fun n h => ?_
  unfold Mach.scanFrameStart at h
  extract_lets stamp p since free num ef m1 m2 aligned m3 ns lag m4 _ m5 m6 card off run trim _ m7 m8 video _ m9
    repeated _ m10 m11 at h
  have h2 : m2.raw = m.raw := by
    rw [Mach.count_raw, Mach.raise_raw, Mach.raw_put, Mach.raw_put, Mach.raw_put]
  have h3 : m3.raw = m.raw := Mach.raw_ite_eq h2 (by rw [Mach.raise_raw, Mach.raw_putB, h2])
  have h4 : m4.raw = m.raw := by rw [Mach.raw_put, Mach.raw_put, Mach.raw_put, h3]
  have h5 : m5.raw = m.raw := Mach.raw_ite_eq (by rw [Mach.raise_raw, Mach.setScn_raw, h4]) h4
  have h7 : m7.raw = m.raw := by rw [Mach.setScn_raw, Mach.cardFrame_raw, h5]
  have h8 : m8.raw = m.raw := Mach.raw_ite_eq (by rw [Mach.trouble_raw, h7]) h7
  have h9 : m9.raw = m.raw := Mach.raw_ite_eq (by rw [Mach.setScn_raw, Mach.setPanel_raw, h8]) h8
  have h10 : m10.raw = m.raw := Mach.raw_ite_eq h9 h9
  rw [← h]
  refine Mach.raw_ite_eq ?_ (Mach.raw_ite_eq h10 (Mach.raw_ite_eq ?_ (Mach.raw_ite_eq ?_ ?_)))
  · rw [Mach.count_raw, h10]
  · rw [Mach.count_raw, h10]
  · rw [Mach.raw_put, Mach.count_raw, h10]
  · rw [Mach.count_raw, h10]

@[simp] theorem Mach.vblank_raw (m : Mach) : m.vblank.raw = m.raw := by
  simp only [Mach.vblank, Mach.raw_ite, ite_self, Mach.raise_raw]

end Sys2Proof.Machine
end

section
/-! SUPPORT. The raw counter under touch (R60). -/

namespace Sys2Proof.Machine

@[simp] theorem Mach.pushReport_raw (m : Mach) (ws : List Nat) : (m.pushReport ws).raw = m.raw := by
  simp only [Mach.pushReport, Mach.raw_ite, ite_self, Mach.raw_put, Mach.setTch_raw, Mach.trouble_raw, Mach.raw_bump]

@[simp] theorem Mach.sendReports_raw (m : Mach) (rs : List (List Nat)) : (m.sendReports rs).raw = m.raw := by
  simp only [Mach.sendReports, Mach.raw_foldl, implies_true, Mach.pushReport_raw, Mach.count_raw, Mach.chkUnit_raw,
    Mach.raw_ite, ite_self, Mach.sendRouted_raw, Mach.raise_raw]

@[simp] theorem Mach.heartbeat_raw (m : Mach) : m.heartbeat.raw = m.raw := by
  simp only [Mach.heartbeat, Mach.raw_ite, ite_self, Mach.count_raw, Mach.sendRouted_raw, Mach.chkUnit_raw]

@[simp] theorem Mach.showContacts_raw (m : Mach) : m.showContacts.raw = m.raw := by
  unfold Mach.showContacts
  dsimp only
  rw [Mach.raw_put]
  refine Mach.raw_foldl (fun m s => ?_) _ _
  split <;> simp only [Mach.raw_put, Mach.raw_putB, Mach.raw_wr]

@[simp] theorem Mach.setCursor_raw (m : Mach) (node : Nat) (c : CursorCycle) : (m.setCursor node c).raw = m.raw := by
  simp only [Mach.setCursor, Mach.setTch_raw]

@[simp] theorem Mach.ownCursor_raw (m : Mach) : m.ownCursor.raw = m.raw := by
  simp only [Mach.ownCursor, Mach.setCursor_raw]

@[simp] theorem Mach.setRings_raw (m : Mach) (node : Nat) (rings : List (Nat × Nat × Nat × Bool)) :
    (m.setRings node rings).raw = m.raw := by
  unfold Mach.setRings
  split <;> rfl

@[simp] theorem Mach.cancelContacts_raw (m : Mach) (stamp : Nat × Nat) (slots : Nat → Bool) :
    (m.cancelContacts stamp slots).raw = m.raw := by
  simp only [Mach.cancelContacts, Mach.setTch_raw, Mach.sendReports_raw, Mach.setRings_raw, Mach.showContacts_raw]

@[simp] theorem Mach.adoptNode_raw (m : Mach) (n : Nat) : (m.adoptNode n).raw = m.raw := by
  simp only [Mach.adoptNode, Mach.setTch_raw]

@[simp] theorem Mach.adoptPin_raw (m : Mach) (k : Nat) : (m.adoptPin k).raw = m.raw := by
  simp only [Mach.adoptPin, Mach.setTch_raw]

@[simp] theorem Mach.showRegions_raw (m : Mach) : m.showRegions.raw = m.raw := by
  simp only [Mach.showRegions, Mach.raw_putB]

@[simp] theorem Mach.resolveRegion_raw (m : Mach) (g : TouchRegion) : (m.resolveRegion g).raw = m.raw := by
  simp only [Mach.resolveRegion, Mach.setTch_raw, Mach.raw_foldl, implies_true, Mach.adoptNode_raw,
    Mach.showRegions_raw, Mach.adoptPin_raw]

@[simp] theorem Mach.crossCheck_raw (m : Mach) : m.crossCheck.raw = m.raw := by
  simp only [Mach.crossCheck, Mach.raw_foldl, implies_true, Mach.setTch_raw, Mach.adoptNode_raw, Mach.showRegions_raw,
    Mach.adoptPin_raw]

@[simp] theorem Mach.watchRegions_raw (m : Mach) : m.watchRegions.raw = m.raw := by
  simp only [Mach.watchRegions, Mach.raw_foldl, implies_true, Mach.raw_ite, ite_self, Mach.resolveRegion_raw,
    Mach.setTch_raw]

@[simp] theorem Mach.baselineAdopted_raw (m : Mach) (n : Nat) : (m.baselineAdopted n).raw = m.raw := by
  unfold Mach.baselineAdopted
  split <;> simp only [Mach.raise_raw, Mach.trouble_raw, Mach.count_raw, Mach.raw_bump, Mach.resolveRegion_raw]

@[simp] theorem Mach.unconfAdopt_raw (m : Mach) (n : Nat) : (m.unconfAdopt n).raw = m.raw := by
  unfold Mach.unconfAdopt
  split <;> rfl

@[simp] theorem Mach.touchRebase_raw (m : Mach) (mask : Nat) : (m.touchRebase mask).raw = m.raw := by
  simp only [Mach.touchRebase, Mach.raw_ite, ite_self, Mach.cancelContacts_raw, Mach.raise_raw, Mach.trouble_raw,
    Mach.raw_foldl, implies_true, Mach.adoptNode_raw]

@[simp] theorem Mach.showNodes_raw (m : Mach) (d : Deltas) : (m.showNodes d).raw = m.raw := by
  simp only [Mach.showNodes, Mach.raw_foldl, implies_true, Mach.raw_putB, Mach.raw_put]

@[simp] theorem Mach.drifts_raw (m : Mach) (d : Deltas) (cands : List Cand) : (m.drifts d cands).raw = m.raw := by
  simp only [Mach.drifts, Mach.raw_ite, ite_self, Mach.raw_foldl, implies_true, Mach.setTch_raw]

@[simp] theorem Mach.touchCycleStart_raw (m : Mach) : m.touchCycleStart.raw = m.raw := by
  simp only [Mach.touchCycleStart]
  (repeat' split) <;> simp only [Mach.setTch_raw, Mach.raw_put, Mach.count_raw]

@[simp] theorem Mach.listenEnd_raw (m : Mach) (noise : List Nat) : (m.listenEnd noise).raw = m.raw := by
  unfold Mach.listenEnd
  split
  · rfl
  · have h1 : ((List.range 8).foldl (fun m i =>
        if m.on F.TCH_FREQ_EN i then m.put F.TCH_NOISE_NOISE (min 32767 (noise.getD i 0)) i else m) m).raw = m.raw :=
      Mach.raw_foldl (fun m i => by rw [Mach.raw_ite, Mach.raw_put, ite_self]) _ _
    generalize (List.range 8).foldl (fun m i =>
        if m.on F.TCH_FREQ_EN i then m.put F.TCH_NOISE_NOISE (min 32767 (noise.getD i 0)) i else m) m = n at h1 ⊢
    dsimp only
    split
    · exact h1
    · simp only [Mach.raw_ite, Mach.raise_raw, Mach.trouble_raw, Mach.raw_putB, Mach.raw_put, Mach.count_raw,
        Mach.setTch_raw, ite_self, h1]

@[simp] theorem Mach.waterState_raw (m : Mach) (d : Deltas) : (m.waterState d).raw = m.raw := by
  simp only [Mach.waterState, Mach.raw_ite, ite_self, Mach.setTch_raw, Mach.raise_raw, Mach.raw_putB]

@[simp] theorem Mach.dropScan_raw (m : Mach) (late : Bool) (out : List Nat) : (m.dropScan late out).raw = m.raw := by
  simp only [Mach.dropScan, Mach.raw_ite, ite_self, Mach.count_raw, Mach.setTch_raw, Mach.trouble_raw, Mach.raise_raw,
    Mach.raw_foldl, implies_true, Mach.raw_putB, Mach.cancelContacts_raw]

@[simp] theorem Mach.scanLate_raw (m : Mach) : m.scanLate.raw = m.raw := by
  simp only [Mach.scanLate, Mach.raw_ite, ite_self, Mach.dropScan_raw]

@[simp] theorem Mach.track_raw (m : Mach) (d : Deltas) (cands : List Cand) : (m.track d cands).raw = m.raw := by
  simp only [Mach.track, Mach.raw_ite, ite_self, Mach.setTch_raw, Mach.count_raw, Mach.raw_putB, Mach.raise_raw,
    Mach.trouble_raw, Mach.raw_bump, Mach.sendReports_raw, Mach.ownCursor_raw, Mach.showContacts_raw,
    Mach.heartbeat_raw]

@[simp] theorem Mach.testCycle_raw (m : Mach) : m.testCycle.raw = m.raw := by
  simp only [Mach.testCycle, Mach.heartbeat_raw, Mach.ownCursor_raw, Mach.setTch_raw]

@[simp] theorem Mach.scanEnd_raw (m : Mach) (s : ScanData) : (m.scanEnd s).raw = m.raw := by
  simp only [Mach.scanEnd, Mach.raw_ite, ite_self, Mach.testCycle_raw, Mach.dropScan_raw, Mach.raw_foldl,
    implies_true, Mach.raw_put, Mach.setTch_raw, Mach.crossCheck_raw, Mach.heartbeat_raw, Mach.ownCursor_raw,
    Mach.showNodes_raw, Mach.watchRegions_raw, Mach.waterState_raw, Mach.count_raw, Mach.raw_bump, Mach.track_raw,
    Mach.drifts_raw]

@[simp] theorem Mach.stuckContact_raw (m : Mach) (slot : Nat) : (m.stuckContact slot).raw = m.raw := by
  unfold Mach.stuckContact
  split <;> simp only [Mach.raw_ite, ite_self, Mach.setTch_raw, Mach.raise_raw, Mach.trouble_raw, Mach.raw_putB]

@[simp] theorem Mach.touchTestGo_raw (m : Mach) : m.touchTestGo.raw = m.raw := by
  simp only [Mach.touchTestGo, Mach.raw_putB, Mach.setTch_raw]

@[simp] theorem Mach.touchTestDone_raw (m : Mach) (raws coupled : List Nat) :
    (m.touchTestDone raws coupled).raw = m.raw := by
  simp only [Mach.touchTestDone, Mach.raw_foldl, implies_true, Mach.raw_put, Mach.raw_putB, Mach.setTch_raw,
    Mach.raise_raw, Mach.raw_ite, ite_self, Mach.trouble_raw]

@[simp] theorem Mach.touchRx_raw (m : Mach) (ws : List Nat) : (m.touchRx ws).raw = m.raw := by
  refine Mach.raw_of_eq fun n h => ?_
  rw [Mach.touchRx] at h
  dsimp only at h
  split at h
  · rw [← h, Mach.trouble_raw, Mach.count_raw, Mach.raw_bump, Mach.chkUnit_raw]
  · rw [← h, Mach.count_raw, Mach.raw_bump, Mach.chkUnit_raw]
  · rw [← h, Mach.raw_ite, Mach.count_raw, Mach.raise_raw, Mach.pushReport_raw, Mach.setCursor_raw, Mach.setTch_raw,
      Mach.raw_put, Mach.raw_put, Mach.raw_putB, Mach.raw_ite, Mach.raw_bump, ite_self, ite_self, Mach.chkUnit_raw]

@[simp] theorem Mach.touchRxSilent_raw (m : Mach) (node : Nat) : (m.touchRxSilent node).raw = m.raw := by
  unfold Mach.touchRxSilent
  split <;> simp only [Mach.raw_foldl, implies_true, Mach.count_raw, Mach.raise_raw, Mach.pushReport_raw,
    Mach.setRings_raw, Mach.setTch_raw, Mach.trouble_raw, Mach.raw_wr]

@[simp] theorem Mach.popReport_raw (m : Mach) : m.popReport.2.raw = m.raw := by
  unfold Mach.popReport
  split <;> rfl

@[simp] theorem Mach.touchStop_raw (m : Mach) : m.touchStop.raw = m.raw := by
  simp only [Mach.touchStop, Mach.setTch_raw, Mach.raw_putB, Mach.raw_put, Mach.showRegions_raw, Mach.setRings_raw,
    Mach.showContacts_raw]

@[simp] theorem Mach.proxSample_raw (m : Mach) (g count_ : Nat) : (m.proxSample g count_).2.raw = m.raw := by
  simp only [Mach.proxSample]
  (repeat' split) <;> simp only [Mach.count_raw, Mach.raw_put, Mach.setTch_raw, Mach.raise_raw]

end Sys2Proof.Machine
end

section
/-! SUPPORT. The raw counter under the modes, power and the check units (R60). -/

namespace Sys2Proof.Machine

@[simp] theorem Mach.stopLists_raw (m : Mach) : m.stopLists.raw = m.raw := by
  unfold Mach.stopLists
  dsimp only
  rw [Mach.setEvc_raw, Mach.raw_put, Mach.raw_foldl (fun m s => Mach.raw_putB ..),
    Mach.raw_foldl (fun m w => Mach.raw_wr ..),
    Mach.raw_foldl (fun m k => by rw [Mach.raw_ite, Mach.raw_put, ite_self])]

@[simp] theorem Mach.abortJobs_raw (m : Mach) : m.abortJobs.raw = m.raw := by
  rw [Mach.abortJobs, Mach.setChk_raw]
  refine Mach.raw_foldl_of_eq (fun m j n h => ?_) _ _
  rw [← h, Mach.raise_raw, Mach.count_raw, Mach.raw_bump, Mach.raw_putB, Mach.raw_put, Mach.raw_put]

@[simp] theorem Mach.capsOff_raw (m : Mach) : m.capsOff.raw = m.raw := by
  simp only [Mach.capsOff, Mach.raw_foldl, implies_true, Mach.raw_put]

@[simp] theorem Mach.portsDown_raw (m : Mach) : m.portsDown.raw = m.raw := by
  simp only [Mach.portsDown, Mach.raw_foldl, implies_true, Mach.portToDown_raw]

@[simp] theorem Mach.stopServices_raw (m : Mach) : m.stopServices.raw = m.raw := by
  simp only [Mach.stopServices, Mach.capsOff_raw, Mach.touchStop_raw, Mach.abortJobs_raw, Mach.stopLists_raw]

@[simp] theorem Mach.startServices_raw (m : Mach) : m.startServices.raw = m.raw := by
  simp only [Mach.startServices, Mach.setSys_raw, Mach.raw_foldl, implies_true, Mach.raw_put, Mach.raw_ite, ite_self,
    Mach.capStart_raw, Mach.entUse_raw, Mach.setEnt_raw, Mach.setActive_raw, Mach.groupCommit_raw]

@[simp] theorem Mach.modeContexts_raw (m : Mach) (old new : Mode) : (m.modeContexts old new).raw = m.raw := by
  simp only [Mach.modeContexts, Mach.raw_ite, ite_self, Mach.decShedNow_raw, Mach.raw_foldl, implies_true,
    Mach.encStage_raw]

@[simp] theorem Mach.enterMode_raw (m : Mach) (new : Mode) : (m.enterMode new).raw = m.raw := by
  simp only [Mach.enterMode, Mach.raw_ite, ite_self, Mach.raw_put, Mach.raw_putB, Mach.count_raw,
    Mach.stopServices_raw, Mach.portsDown_raw, Mach.startServices_raw, Mach.modeContexts_raw, Mach.panelUpdate_raw,
    Mach.stateFlood_raw, Mach.raise_raw, Mach.spanContexts_raw, Mach.encStart_raw]

@[simp] theorem State.burn_raw (s : State) : s.burn.mach.raw = s.mach.raw := by
  simp only [State.burn]

@[simp] theorem Mach.wakeUp_raw (m : Mach) (source index : Nat) : (m.wakeUp source index).raw = m.raw := by
  simp only [Mach.wakeUp, Mach.raw_ite, ite_self, Mach.raise_raw, Mach.enterMode_raw, Mach.raw_put]

@[simp] theorem Mach.timerWake_raw (m : Mach) : m.timerWake.raw = m.raw := by
  simp only [Mach.timerWake, Mach.raw_ite, ite_self, Mach.wakeUp_raw]

@[simp] theorem Mach.halt_raw (m : Mach) (cause detail : Nat) : (m.halt cause detail).raw = m.raw := by
  simp only [Mach.halt, Mach.raw_ite, ite_self, Mach.enterMode_raw, Mach.raw_put, Mach.setPwr_raw,
    Mach.troubleNoEntry_raw, Mach.trouble_raw]

@[simp] theorem Mach.quietPorts_raw (m : Mach) : m.quietPorts.raw = m.raw := by
  simp only [Mach.quietPorts, Mach.raw_foldl, implies_true, Mach.raw_setFabPort]

@[simp] theorem Mach.quarantine_raw (m : Mach) (cause : Nat) : (m.quarantine cause).raw = m.raw := by
  simp only [Mach.quarantine, Mach.quietPorts_raw, Mach.enterMode_raw, Mach.raw_put]

@[simp] theorem Mach.requestRefused_raw (m : Mach) : m.requestRefused.raw = m.raw := by
  simp only [Mach.requestRefused, Mach.raise_raw, Mach.raw_put, Mach.refuse_raw]

@[simp] theorem Mach.modeRequest_raw (m : Mach) (master target : Nat) : (m.modeRequest master target).raw = m.raw := by
  rw [Mach.modeRequest]
  split
  · exact Mach.raw_put ..
  · split
    · exact Mach.requestRefused_raw ..
    · extract_lets n
      have hn : n.raw = m.raw := Mach.raw_put ..
      split
      · rw [Mach.wakeUp_raw, hn]
      · rw [Mach.timerWake_raw, Mach.enterMode_raw, hn]
      · rw [Mach.enterMode_raw, Mach.setSys_raw, hn]
      · rw [Mach.enterMode_raw, hn]
      · rw [Mach.halt_raw, hn]

@[simp] theorem Mach.leaveJoin_raw (m : Mach) : m.leaveJoin.raw = m.raw := by
  simp only [Mach.leaveJoin, Mach.raw_ite, ite_self, Mach.enterMode_raw]

@[simp] theorem Mach.joinLimit_raw (m : Mach) : m.joinLimit.raw = m.raw := by
  simp only [Mach.joinLimit, Mach.raw_ite, ite_self, Mach.raise_raw, Mach.trouble_raw, Mach.quarantine_raw,
    Mach.leaveJoin_raw, Mach.setSys_raw]

@[simp] theorem Mach.wdtRestart_raw (m : Mach) : m.wdtRestart.raw = m.raw := by
  simp only [Mach.wdtRestart, Mach.setSys_raw]

@[simp] theorem Mach.wdtKick_raw (m : Mach) (value : Nat) : (m.wdtKick value).raw = m.raw := by
  simp only [Mach.wdtKick, Mach.raw_ite, ite_self, Mach.wdtRestart_raw, Mach.raw_advance, Mach.raw_bump]

@[simp] theorem Mach.wdtWarn_raw (m : Mach) : m.wdtWarn.raw = m.raw := by
  simp only [Mach.wdtWarn, Mach.raw_ite, ite_self, Mach.raise_raw, Mach.setSys_raw]

@[simp] theorem Mach.wdtExpire_raw (m : Mach) : m.wdtExpire.2.raw = m.raw := by
  simp only [Mach.wdtExpire, Mach.trouble_raw, Mach.raw_ite_snd, ite_self, Mach.halt_raw, Mach.raw_put]

@[simp] theorem Mach.wdtCountDrop_raw (m : Mach) : m.wdtCountDrop.raw = m.raw := by
  simp only [Mach.wdtCountDrop, Mach.raw_put]

@[simp] theorem Mach.setStage_raw (m : Mach) (new rail : Nat) : (m.setStage new rail).raw = m.raw := by
  simp only [Mach.setStage, Mach.raw_ite, ite_self, Mach.raw_put, Mach.raw_putB, Mach.count_raw, Mach.raise_raw,
    Mach.trouble_raw, Mach.encStart_raw, Mach.enterMode_raw]

@[simp] theorem Mach.stageFloor_raw (m : Mach) : m.stageFloor.raw = m.raw := by
  simp only [Mach.stageFloor, Mach.raw_ite, ite_self, Mach.setStage_raw]

@[simp] theorem Mach.showWatched_raw (m : Mach) : m.showWatched.raw = m.raw := by
  simp only [Mach.showWatched, Mach.raw_foldl, implies_true, Mach.raw_putB]

@[simp] theorem Mach.pwrRail_raw (m : Mach) (r mv : Nat) : (m.pwrRail r mv).raw = m.raw := by
  simp only [Mach.pwrRail, Mach.raw_ite, ite_self, Mach.raw_put, Mach.setPwr_raw, Mach.raise_raw, Mach.trouble_raw,
    Mach.setStage_raw, Mach.stageFloor_raw]

@[simp] theorem Mach.pwrStageUp_raw (m : Mach) : m.pwrStageUp.raw = m.raw := by
  unfold Mach.pwrStageUp
  split <;> simp only [Mach.raw_ite, ite_self, Mach.setStage_raw]

@[simp] theorem Mach.pwrStageDown_raw (m : Mach) : m.pwrStageDown.raw = m.raw := by
  simp only [Mach.pwrStageDown, Mach.raw_ite, ite_self, Mach.setStage_raw]

@[simp] theorem Mach.stageRestart_raw (m : Mach) : m.stageRestart.raw = m.raw := by
  simp only [Mach.stageRestart]
  (repeat' split) <;> simp only [Mach.raw_putB, Mach.raw_put, Mach.setStage_raw, Mach.stageFloor_raw]

@[simp] theorem Mach.s5Dwell_raw (m : Mach) : m.s5Dwell.raw = m.raw := by
  refine Mach.raw_of_eq fun n h => ?_
  rw [Mach.s5Dwell] at h
  split at h
  · rw [h]
  · split at h
    · rw [h]
    · dsimp only at h
      split at h
      · rw [← h, Mach.halt_raw, Mach.stopServices_raw, Mach.setStage_raw, Mach.troubleNoEntry_raw, Mach.setPwr_raw,
          Mach.raw_putB, Mach.raw_put, Mach.raw_put]
      · rw [← h, Mach.setPwr_raw, Mach.stopServices_raw, Mach.setStage_raw, Mach.troubleNoEntry_raw, Mach.setPwr_raw,
          Mach.raw_putB, Mach.raw_put, Mach.raw_put]

@[simp] theorem Mach.s5Frame_raw (m : Mach) : m.s5Frame.raw = m.raw := by
  unfold Mach.s5Frame
  split <;> simp only [Mach.halt_raw, Mach.setPwr_raw]

@[simp] theorem Mach.pwrThermal_raw (m : Mach) : m.pwrThermal.raw = m.raw := by
  simp only [Mach.pwrThermal, Mach.raw_ite, ite_self, Mach.stageFloor_raw, Mach.raise_raw, Mach.trouble_raw,
    Mach.setPwr_raw]

@[simp] theorem Mach.thermalClear_raw (m : Mach) : m.thermalClear.raw = m.raw := by
  simp only [Mach.thermalClear, Mach.raw_ite, ite_self, Mach.setPwr_raw]

@[simp] theorem Mach.thermalCrit_raw (m : Mach) : m.thermalCrit.raw = m.raw := by
  simp only [Mach.thermalCrit, Mach.raw_ite, ite_self, Mach.halt_raw]

@[simp] theorem Mach.blank_raw (m : Mach) (island : Nat) : (m.blank island).raw = m.raw := by
  simp only [Mach.blank, Mach.raw_ite, ite_self, Mach.setScn_raw, Mach.panelUpdate_raw, Mach.raise_raw, Mach.raw_put]

@[simp] theorem Mach.clockFault_raw (m : Mach) (island : Nat) : (m.clockFault island).raw = m.raw := by
  simp only [Mach.clockFault, Mach.raw_ite, ite_self, Mach.blank_raw, Mach.halt_raw, Mach.trouble_raw]

@[simp] theorem Mach.gateCommit_raw (m : Mach) (i : Nat) : (m.gateCommit i).raw = m.raw := by
  simp only [Mach.gateCommit, Mach.raw_ite, ite_self, Mach.raise_raw, Mach.trouble_raw, Mach.setRule_raw,
    Mach.setGate_raw]

@[simp] theorem Mach.gateSyncWrite_raw (m : Mach) : m.gateSyncWrite.raw = m.raw := by
  simp only [Mach.gateSyncWrite, Mach.setGate_raw]

@[simp] theorem Mach.gateSyncRead_raw (m : Mach) : m.gateSyncRead.2.raw = m.raw := by
  simp only [Mach.gateSyncRead, Mach.count_raw, Mach.raw_put, Mach.setGate_raw]

@[simp] theorem Mach.gateSync_raw (m : Mach) : m.gateSync.raw = m.raw := by
  simp only [Mach.gateSync, Mach.count_raw, Mach.setGate_raw]

@[simp] theorem Mach.popGateRecord_raw (m : Mach) : m.popGateRecord.2.raw = m.raw := by
  unfold Mach.popGateRecord
  split <;> rfl

end Sys2Proof.Machine
end

section
/-! SUPPORT. The raw counter under the flash, the image and the counters (R60). -/

namespace Sys2Proof.Machine

@[simp] theorem State.fprogram_raw (s : State) (a : Nat) (l : List Nat) : (s.fprogram a l).mach.raw = s.mach.raw := by
  induction l generalizing s a with
  | nil => rfl
  | cons b bs ih => rw [State.fprogram, ih, State.setFbyte_mach]

@[simp] theorem State.ferase_raw (s : State) (a : Nat) : (s.ferase a).mach.raw = s.mach.raw := by
  simp only [State.ferase]

@[simp] theorem State.logErase_raw (s : State) : s.logErase.mach.raw = s.mach.raw := by
  simp only [State.logErase, State.fprogram_raw, State.ferase_raw]

@[simp] theorem State.logHeader_raw (s : State) (k : Nat) : (s.logHeader k).mach.raw = s.mach.raw := by
  simp only [State.logHeader, State.raw_ite, ite_self, State.fprogram_raw, State.ferase_raw]

@[simp] theorem State.logWrite_raw (s : State) (pos seq : Nat) (e : TroubleEntry) :
    (s.logWrite pos seq e).1.mach.raw = s.mach.raw := by
  simp only [State.logWrite]
  (repeat' split) <;> simp only [State.fprogram_raw, State.logHeader_raw, State.logErase_raw]

@[simp] theorem Mach.applyLoad_raw (m : Mach) (cls : Nat) (x : RegLoad) : (m.applyLoad cls x).raw = m.raw := by
  unfold Mach.applyLoad
  split <;> rfl

@[simp] theorem Mach.returnLoads_raw (m : Mach) (cls : Nat) : (m.returnLoads cls).raw = m.raw := by
  refine Mach.raw_foldl (fun m e => ?_) _ _
  dsimp only
  split
  · rfl
  · rw [Mach.raw_ite, Mach.raw_wr, ite_self]

@[simp] theorem Mach.installRules_raw (m : Mach) (cls : Nat) (entries : List (Nat × GateRule)) :
    (m.installRules cls entries).raw = m.raw := by
  simp only [Mach.installRules, Mach.raw_foldl, implies_true, Mach.setRule_raw, Mach.raw_ite, ite_self]

@[simp] theorem Mach.loadLuts_raw (m : Mach) (l : List Nat) : (m.loadLuts l).raw = m.raw := by
  simp only [Mach.loadLuts, Mach.raw_ite, ite_self, Mach.setWindow_raw]

@[simp] theorem Mach.loadPins_raw (m : Mach) (cls : Nat) (l : List Nat) : (m.loadPins cls l).raw = m.raw := by
  simp only [Mach.loadPins, Mach.raw_foldl, implies_true, Mach.raw_wr, Mach.raw_put]

@[simp] theorem Mach.imaged_raw (m : Mach) (cls slot : Nat) (x : ImgHeader) (ts : List ImgTable) :
    (m.imaged cls slot x ts).raw = m.raw := by
  simp only [Mach.imaged, Mach.raw_foldl, implies_true, Mach.applyLoad_raw, Mach.returnLoads_raw, Mach.raw_put,
    Mach.raw_putB, Mach.raw_ite, ite_self, Mach.raise_raw, Mach.loadPins_raw, Mach.loadLuts_raw,
    Mach.installRules_raw]

@[simp] theorem Mach.noteWraps_raw (old m : Mach) :
    (old.noteWraps m).raw = m.raw :=
  (Mach.frame_noteWraps old m).rest.raw

@[simp] theorem Mach.pmcWrap_raw (m : Mach) (e : Nat) : (m.pmcWrap e).raw = m.raw := by
  simp only [Mach.pmcWrap, Mach.raw_ite, ite_self, Mach.count_raw]

@[simp] theorem Mach.snapNow_raw (m : Mach) : m.snapNow.raw = m.raw := by
  simp only [Mach.snapNow, settle_raw]

@[simp] theorem Mach.pmcSw_raw (m : Mach) (value : Nat) : (m.pmcSw value).raw = m.raw := by
  simp only [Mach.pmcSw, Mach.raw_foldl, implies_true, Mach.raw_ite, ite_self, Mach.count_raw]

@[simp] theorem Mach.nextPeriod_raw (m : Mach) (p : Nat) : (m.nextPeriod p).2.raw = m.raw := by
  simp only [Mach.nextPeriod, Mach.raw_ite_snd, ite_self, Mach.freeBits_raw]

@[simp] theorem Mach.selectMem_raw (m : Mach) (master : Nat) : (m.selectMem master).2.raw = m.raw := by
  simp only [Mach.selectMem, Mach.raw_ite_snd, ite_self, Mach.nextPeriod_raw, Mach.setPmc_raw]

@[simp] theorem Mach.selectAct_raw (m : Mach) (k : Nat) : (m.selectAct k).2.raw = m.raw := by
  simp only [Mach.selectAct, Mach.raw_ite_snd, ite_self, Mach.nextPeriod_raw, Mach.setPmc_raw]

@[simp] theorem Mach.sampLost_raw (m : Mach) : m.sampLost.raw = m.raw := by
  simp only [Mach.sampLost, Mach.trouble_raw, Mach.count_raw, Mach.raw_bump]

@[simp] theorem Mach.pushSample_raw (m : Mach) (r : List Nat) : (m.pushSample r).raw = m.raw := by
  simp only [Mach.pushSample, Mach.raw_ite, ite_self, Mach.count_raw, Mach.raw_put, Mach.setPmc_raw, Mach.raise_raw,
    Mach.sampLost_raw]

@[simp] theorem Mach.sampleMem_raw (m : Mach) (master : Nat) (write : Bool) (wall node len cause : Nat) :
    (m.sampleMem master write wall node len cause).raw = m.raw := by
  simp only [Mach.sampleMem, Mach.selectMem_raw, Mach.raw_ite, ite_self, Mach.freeBits_raw, Mach.pushSample_raw]

@[simp] theorem Mach.sampleIssue_raw (m : Mach) (k w0 w1 : Nat) (atEnd : Bool) :
    (m.sampleIssue k w0 w1 atEnd).raw = m.raw := by
  simp only [Mach.sampleIssue, Mach.count_raw, Mach.selectAct_raw, Mach.raw_ite, ite_self, Mach.setPmc_raw]

@[simp] theorem Mach.sampleEnd_raw (m : Mach) (k : Nat) (run : Bool) : (m.sampleEnd k run).raw = m.raw := by
  simp only [Mach.sampleEnd, Mach.setPmc_raw, Mach.raw_foldl, implies_true, Mach.freeBits_raw, Mach.pushSample_raw]

@[simp] theorem Mach.popSample_raw (m : Mach) : m.popSample.2.raw = m.raw := by
  unfold Mach.popSample
  split <;> rfl

@[simp] theorem Mach.sensor_raw (m : Mach) (i : Nat) (t : Int) : (m.sensor i t).raw = m.raw := by
  simp only [Mach.sensor, Mach.raw_put, Mach.setPmc_raw, Mach.raw_ite, ite_self, Mach.raise_raw, Mach.trouble_raw,
    Mach.count_raw, Mach.raw_putB]

@[simp] theorem Mach.sensorRead_raw (m : Mach) (readings : List Int) : (m.sensorRead readings).raw = m.raw := by
  simp only [Mach.sensorRead, Mach.raw_foldl, implies_true, Mach.sensor_raw, Mach.raw_put]

@[simp] theorem Mach.putTel_raw (m : Mach) (words : List Nat) : (m.putTel words).raw = m.raw := by
  simp only [Mach.putTel, Mach.raw_foldl, implies_true, Mach.raw_wr]

@[simp] theorem Mach.telRecord_raw (m : Mach) : m.telRecord.raw = m.raw := by
  simp only [Mach.telRecord, Mach.raw_ite, ite_self, Mach.putTel_raw, Mach.setPmc_raw, Mach.raise_raw, Mach.count_raw,
    Mach.raw_put]

@[simp] theorem Mach.logWritten_raw (m : Mach) (seq pos : Nat) (rest : List TroubleEntry) :
    (m.logWritten seq pos rest).raw = m.raw := by
  simp only [Mach.logWritten, Mach.raw_put, Mach.setPmc_raw, Mach.count_raw, Mach.raw_ite, ite_self, Mach.log_raw]

@[simp] theorem State.troubleLogWrite_raw (s : State) : s.troubleLogWrite.mach.raw = s.mach.raw := by
  unfold State.troubleLogWrite
  split <;> simp only [State.raw_ite, ite_self, State.logWrite_raw, Mach.logWritten_raw]

@[simp] theorem Mach.derive_raw (m : Mach) : m.derive.raw = m.raw := by
  simp only [Mach.derive, Mach.raw_ite, ite_self, Mach.raw_putB, Mach.raw_put, Mach.raw_foldl, implies_true,
    Mach.setPtpState_raw, Mach.setPtpPort_raw, Mach.pulseArm_raw]

@[simp] theorem Mach.tableCrcs_raw (m : Mach) (ts : List ImgTable) : (m.tableCrcs ts).2.raw = m.raw := by
  induction ts generalizing m with
  | nil => rfl
  | cons t ts ih => simp only [Mach.tableCrcs, Mach.raw_ite_snd, ih, Mach.chkUnit_raw, ite_self]

@[simp] theorem State.clear_raw (s : State) (a n : Nat) : (s.clear a n).mach.raw = s.mach.raw := by
  simp only [State.clear]

@[simp] theorem State.loadMemory_raw (s : State) (x : ImgHeader) (vendor : List Nat) (ts : List ImgTable) :
    (s.loadMemory x vendor ts).mach.raw = s.mach.raw := by
  simp only [State.loadMemory, State.setBytes_raw, State.clear_raw, State.raw_ite, ite_self]

@[simp] theorem State.applyImage_raw (s : State) (c : Mach) (x : ImgHeader) (vendor : List Nat) (ts : List ImgTable) :
    (s.applyImage c x vendor ts).mach.raw = c.raw := by
  rw [State.applyImage]
  dsimp only
  rw [Mach.derive_raw, Mach.raw_put, Mach.raw_put, Mach.setCfg_raw, State.loadMemory_raw]

@[simp] theorem State.trySlot_raw (s : State) (slot : Nat) (f : FlashIn) :
    (s.trySlot slot f).2.mach.raw = s.mach.raw := by
  unfold State.trySlot
  dsimp only
  (repeat' split) <;> simp only [Mach.imaged_raw, Mach.tableCrcs_raw, State.applyImage_raw]

@[simp] theorem State.flashUp_raw (s : State) (f : FlashIn) : (s.flashUp f).mach.raw = s.mach.raw := by
  simp only [State.flashUp, Mach.raw_ite, ite_self, Mach.raw_put, Mach.raw_putB, Mach.setCfg_raw]

@[simp] theorem State.findLog_raw (s : State) : s.findLog.mach.raw = s.mach.raw := by
  simp only [State.findLog, Mach.raw_put]

@[simp] theorem Mach.unload_raw (m : Mach) : m.unload.raw = m.raw := by
  simp only [Mach.unload, Mach.returnLoads_raw, Mach.raw_foldl, implies_true, Mach.setRule_raw, Mach.raw_ite,
    ite_self, Mach.raw_put, Mach.raw_putB, Mach.setCfg_raw]

@[simp] theorem Mach.slotTried_raw (m : Mach) (slot cause : Nat) : (m.slotTried slot cause).raw = m.raw := by
  simp only [Mach.slotTried, Mach.raw_put, Mach.raw_putB]

@[simp] theorem State.slotSeqs_raw (s : State) : s.slotSeqs.mach.raw = s.mach.raw := by
  simp only [State.slotSeqs]
  (repeat' split) <;> simp only [Mach.raw_put]

@[simp] theorem Mach.loadQuarantine_raw (m : Mach) (cause : Nat) : (m.loadQuarantine cause).raw = m.raw := by
  simp only [Mach.loadQuarantine, Mach.setScn_raw, Mach.quarantine_raw, Mach.raw_putB]

@[simp] theorem Mach.sagEntry_raw (m : Mach) : m.sagEntry.raw = m.raw := by
  simp only [Mach.sagEntry, Mach.raw_ite, ite_self, Mach.setPwr_raw, settle_raw]

@[simp] theorem Mach.loaded_raw (m : Mach) (slot : Nat) : (m.loaded slot).raw = m.raw := by
  simp only [Mach.loaded, Mach.sagEntry_raw, Mach.raw_put, Mach.raw_ite, ite_self, Mach.quarantine_raw,
    Mach.enterMode_raw]

@[simp] theorem Mach.fellBack_raw (m : Mach) (cause : Nat) : (m.fellBack cause).raw = m.raw := by
  simp only [Mach.fellBack, Mach.raise_raw, Mach.trouble_raw, Mach.raw_putB]

@[simp] theorem Mach.loadFailed_raw (m : Mach) (a : Nat) (ea eb : LoadFail) (fell : Bool) :
    (m.loadFailed a ea eb fell).raw = m.raw := by
  simp only [Mach.loadFailed, Mach.raw_put, Mach.slotTried_raw, Mach.raw_putB, Mach.loadQuarantine_raw,
    Mach.sagEntry_raw]

@[simp] theorem State.loadSlots_raw (s : State) (f : FlashIn) : (s.loadSlots f).mach.raw = s.mach.raw := by
  have hclear (s : State) : ({ s with mach := s.mach.unload }.slotSeqs).mach.raw = s.mach.raw := by
    rw [State.slotSeqs_raw, Mach.unload_raw]
  unfold State.loadSlots
  dsimp only
  split
  · next h =>
    rw [Mach.loaded_raw, Mach.slotTried_raw, State.slotSeqs_raw, State.raw_of_snd h, State.trySlot_raw, hclear]
  · next ea t h =>
    have ht : ({ t with mach := t.mach.unload }.slotSeqs).mach.raw = s.mach.raw := by
      rw [hclear, State.raw_of_snd h, State.trySlot_raw, hclear]
    have hfell (b : Bool) (u : State) (hu : u.mach.raw = s.mach.raw) :
        (if b then { u with mach := u.mach.fellBack ea.cause } else u).mach.raw = s.mach.raw := by
      rw [State.raw_ite, Mach.fellBack_raw, ite_self, hu]
    split
    · next h =>
      rw [Mach.loaded_raw, Mach.raw_putB, Mach.raw_put, Mach.raw_put, Mach.slotTried_raw, Mach.slotTried_raw,
        State.slotSeqs_raw, State.raw_of_snd h, State.trySlot_raw, hfell _ _ ht]
    · next h => rw [Mach.loadFailed_raw, State.clear_raw, hclear, State.raw_of_snd h, State.trySlot_raw, hfell _ _ ht]

@[simp] theorem State.load_raw (s : State) (f : FlashIn) : (s.load f).mach.raw = s.mach.raw := by
  simp only [State.load, State.clear_raw, State.flashUp_raw, State.raw_ite, ite_self, State.loadSlots_raw,
    State.findLog_raw, Mach.loadQuarantine_raw, Mach.sagEntry_raw, Mach.raw_put, Mach.unload_raw]

@[simp] theorem State.imageCheck_raw (s : State) (f : FlashIn) : (s.imageCheck f).mach.raw = s.mach.raw := by
  simp only [State.imageCheck, State.raw_ite, ite_self, State.flashUp_raw, Mach.raw_put, Mach.raw_putB,
    Mach.enterMode_raw, Mach.derive_raw, State.load_raw, Mach.trouble_raw]

@[simp] theorem State.loadCommand_raw (s : State) (f : FlashIn) : (s.loadCommand f).mach.raw = s.mach.raw := by
  simp only [State.loadCommand, State.raw_ite, ite_self, State.load_raw, Mach.trouble_raw]

@[simp] theorem State.imageCheckCommand_raw (s : State) (f : FlashIn) :
    (s.imageCheckCommand f).mach.raw = s.mach.raw := by
  simp only [State.imageCheckCommand, State.raw_ite, ite_self, State.imageCheck_raw]

@[simp] theorem Mach.setFlashByte_raw (m : Mach) (i v : Nat) : (m.setFlashByte i v).raw = m.raw := by
  simp only [Mach.setFlashByte, Mach.raw_wr]

@[simp] theorem Mach.setFlashBytes_raw (m : Mach) (i : Nat) (l : List Nat) : (m.setFlashBytes i l).raw = m.raw := by
  induction l generalizing m i with
  | nil => rfl
  | cons b bs ih => rw [Mach.setFlashBytes, ih, Mach.setFlashByte_raw]

@[simp] theorem Mach.flashEnd_raw (m : Mach) (result : Nat) : (m.flashEnd result).raw = m.raw := by
  simp only [Mach.flashEnd, Mach.setCfg_raw, Mach.raw_putB, Mach.raw_put, Mach.raw_ite, ite_self, Mach.trouble_raw,
    Mach.raise_raw]

@[simp] theorem Mach.flashGo_raw (m : Mach) : m.flashGo.raw = m.raw := by
  rw [Mach.flashGo]
  split
  · rw [Mach.flashEnd_raw, Mach.raw_putB]
  · split
    · rw [Mach.flashEnd_raw, Mach.trouble_raw, Mach.raw_putB]
    · split
      · rw [Mach.flashEnd_raw, Mach.raw_putB]
      · rw [Mach.setCfg_raw, Mach.raw_putB]

@[simp] theorem State.flashDone_raw (s : State) (verified : Bool) : (s.flashDone verified).mach.raw = s.mach.raw := by
  unfold State.flashDone
  split <;> simp only [State.raw_ite, ite_self, Mach.flashEnd_raw, Mach.setFlashBytes_raw, State.fprogram_raw,
    State.ferase_raw]

@[simp] theorem Mach.flashEraseTimeout_raw (m : Mach) : m.flashEraseTimeout.raw = m.raw := by
  unfold Mach.flashEraseTimeout
  split <;> simp only [Mach.raw_ite, ite_self, Mach.flashEnd_raw]

@[simp] theorem Mach.svcNew_raw (m : Mach) : m.svcNew.raw = m.raw := by
  simp only [Mach.svcNew, Mach.raw_foldl, implies_true, Mach.freeBits_raw, Mach.raw_put, Mach.setCfg_raw]

@[simp] theorem Mach.svcResult_raw (m : Mach) (result : Nat) : (m.svcResult result).raw = m.raw := by
  simp only [Mach.svcResult, Mach.setCfg_raw, Mach.raise_raw, Mach.raw_put]

@[simp] theorem Mach.svcVerify_raw (m : Mach) : m.svcVerify.raw = m.raw := by
  simp only [Mach.svcVerify, Mach.raw_ite, ite_self, Mach.svcResult_raw, Mach.raw_put, Mach.trouble_raw]

@[simp] theorem Mach.svcExpiry_raw (m : Mach) : m.svcExpiry.raw = m.raw := by
  simp only [Mach.svcExpiry, Mach.setCfg_raw]

end Sys2Proof.Machine
end

section
/-! SUPPORT. The raw counter under events, sessions, resets and tests (R60). -/

namespace Sys2Proof.Machine

@[simp] theorem Mach.doorbells_raw (m : Mach) (value : Nat) : (m.doorbells value).raw = m.raw := by
  simp only [Mach.doorbells, Mach.raw_foldl, implies_true, Mach.raise_raw]

@[simp] theorem Mach.doorbell_raw (m : Mach) (index : Nat) : (m.doorbell index).raw = m.raw := by
  simp only [Mach.doorbell, Mach.raise_raw]

@[simp] theorem Mach.holdoffEnd_raw (m : Mach) (g : Nat) : (m.holdoffEnd g).raw = m.raw := by
  simp only [Mach.holdoffEnd, Mach.raw_putB]

@[simp] theorem Mach.drivePins_raw (old m : Mach) :
    (old.drivePins m).raw = m.raw :=
  (Mach.frame_drivePins (rs := []) old m).rest.raw

@[simp] theorem Mach.gpioEdge_raw (m : Mach) (i : Nat) (level : Bool) : (m.gpioEdge i level).raw = m.raw := by
  simp only [Mach.gpioEdge, Mach.raw_ite, ite_self, Mach.raw_put, Mach.count_raw, Mach.raise_raw, Mach.wakeUp_raw]

@[simp] theorem Mach.i2cEnd_raw (m : Mach) (result count_ : Nat) : (m.i2cEnd result count_).raw = m.raw := by
  simp only [Mach.i2cEnd, Mach.raw_putB, Mach.setEvc_raw, Mach.raw_put, Mach.count_raw, Mach.raw_ite, ite_self,
    Mach.raise_raw, Mach.trouble_raw]

@[simp] theorem Mach.i2cGo_raw (m : Mach) : m.i2cGo.raw = m.raw := by
  simp only [Mach.i2cGo, Mach.raw_ite, ite_self, Mach.i2cEnd_raw, Mach.emit_raw, Mach.raw_putB, Mach.setEvc_raw]

@[simp] theorem Mach.i2cStore_raw (m : Mach) (data : List Nat) : (m.i2cStore data).raw = m.raw := by
  refine Mach.raw_foldl (fun m w => Mach.raw_foldl (fun m b => ?_) _ _) _ _
  split
  · exact Mach.raw_wr ..
  · rfl

@[simp] theorem Mach.i2cDone_raw (m : Mach) (ack : Nat) (data : List Nat) : (m.i2cDone ack data).raw = m.raw := by
  simp only [Mach.i2cDone, Mach.raw_ite, ite_self, Mach.i2cEnd_raw, Mach.i2cStore_raw]

@[simp] theorem Mach.i2cTimeout_raw (m : Mach) : m.i2cTimeout.raw = m.raw := by
  rw [Mach.i2cTimeout, Mach.raw_ite, Mach.emit_raw, Mach.i2cEnd_raw, ite_self]

@[simp] theorem Mach.logAction_raw (m : Mach) (k code : Nat) (persist : Bool) :
    (m.logAction k code persist).raw = m.raw := by
  simp only [Mach.logAction, Mach.raw_ite, ite_self, Mach.log_raw, Mach.setEvc_raw, Mach.raise_raw, Mach.count_raw,
    Mach.raw_put, Mach.trouble_raw, Mach.raw_bump]

@[simp] theorem Mach.popLog_raw (m : Mach) : m.popLog.2.raw = m.raw := by
  unfold Mach.popLog
  split <;> rfl

@[simp] theorem Mach.setSession_raw (m : Mach) (k : Nat) (x : MgmtSession) : (m.setSession k x).raw = m.raw := by
  simp only [Mach.setSession, Mach.setEth_raw]

@[simp] theorem Mach.showSession_raw (m : Mach) (k master : Nat) (x : MgmtSession) :
    (m.showSession k master x).raw = m.raw := by
  unfold Mach.showSession
  split <;> simp only [Mach.raw_put, Mach.raw_putB]

@[simp] theorem Mach.endSession_raw (m : Mach) (k : Nat) : (m.endSession k).raw = m.raw := by
  unfold Mach.endSession
  split <;> simp only [Mach.setEth_raw, Mach.setFab_raw, Mach.raise_raw, Mach.raw_wr]

@[simp] theorem Mach.endSessions_raw (m : Mach) (p : MgmtPeer → Bool) : (m.endSessions p).raw = m.raw := by
  refine Mach.raw_foldl (fun m k => ?_) _ _
  split
  · rw [Mach.raw_ite, Mach.endSession_raw, ite_self]
  · rfl

@[simp] theorem Mach.ethDown_raw (m : Mach) (p : Nat) : (m.ethDown p).raw = m.raw := by
  simp only [Mach.ethDown, Mach.raw_ite, ite_self, Mach.raw_putB, Mach.raw_foldl, implies_true, Mach.streamSilent_raw,
    Mach.raise_raw, Mach.endSessions_raw, Mach.trouble_raw]

@[simp] theorem Mach.ethLink_raw (m : Mach) (p : Nat) (up fecLock : Bool) : (m.ethLink p up fecLock).raw = m.raw := by
  simp only [Mach.ethLink, Mach.raw_ite, ite_self, Mach.ethDown_raw, Mach.raise_raw, Mach.raw_putB]

@[simp] theorem Mach.afterReset_raw (m : Mach) (cls : Nat) : (m.afterReset cls).raw = m.raw := by
  simp only [Mach.afterReset]

@[simp] theorem Mach.panelDark_raw (m : Mach) : m.panelDark.raw = m.raw := by
  simp only [Mach.panelDark, Mach.raw_ite, ite_self, Mach.emit_raw]

@[simp] theorem Mach.resetNode_raw (m : Mach) (cls byNode : Nat) : (m.resetNode cls byNode).raw = m.raw := by
  simp only [Mach.resetNode, Mach.panelDark_raw, Mach.raw_ite, ite_self, Mach.emit_raw, Mach.setSys_raw,
    Mach.returnFields_raw, Mach.afterReset_raw, Mach.raw_put]

@[simp] theorem State.por_raw (s : State) : s.por.mach.raw = 0 := rfl

@[simp] theorem Mach.resetN_raw (m : Mach) : m.resetN.raw = m.raw := by
  simp only [Mach.resetN, Mach.resetNode_raw, Mach.setSys_raw]

@[simp] theorem Mach.holdEnd_raw (m : Mach) : m.holdEnd.raw = m.raw := by
  simp only [Mach.holdEnd, Mach.raw_ite, ite_self, Mach.raw_put, Mach.setSys_raw, Mach.raw_foldl, implies_true,
    Mach.showWatched_raw, Mach.stageRestart_raw, Mach.enterMode_raw]

@[simp] theorem Mach.clockFaultCommand_raw (m : Mach) (island : Nat) : (m.clockFaultCommand island).raw = m.raw := by
  simp only [Mach.clockFaultCommand, Mach.raw_ite, ite_self, Mach.resetNode_raw, Mach.clockFault_raw]

@[simp] theorem Mach.wakeNow_raw (m : Mach) (source index : Nat) : (m.wakeNow source index).raw = m.raw := by
  simp only [Mach.wakeNow, Mach.raw_put, Mach.resetNode_raw, Mach.setSys_raw]

@[simp] theorem Mach.sleepWake_raw (m : Mach) (src : SleepSource) : (m.sleepWake src).raw = m.raw := by
  simp only [Mach.sleepWake, Mach.raw_ite, ite_self, Mach.setSys_raw, Mach.wakeNow_raw]

@[simp] theorem Mach.sleepEntryDone_raw (m : Mach) : m.sleepEntryDone.raw = m.raw := by
  rw [Mach.sleepEntryDone]
  split
  · rfl
  · extract_lets n wake src
    have hn : n.raw = m.raw :=
      (Mach.raw_foldl (fun m p => Mach.ethDown_raw ..) _ _).trans (Mach.portsFall_raw ..)
    clear_value wake
    cases wake with
    | some w => exact (Mach.wakeNow_raw ..).trans hn
    | none => rw [Mach.emit_raw, Mach.showWatched_raw, Mach.setSys_raw, hn]

@[simp] theorem Mach.wakeTimer_raw (m : Mach) : m.wakeTimer.raw = m.raw := by
  simp only [Mach.wakeTimer, Mach.raw_ite, ite_self, Mach.sleepWake_raw, Mach.timerWake_raw]

@[simp] theorem Mach.joinEntered_raw (m : Mach) : m.joinEntered.raw = m.raw := by
  simp only [Mach.joinEntered, Mach.raw_ite, ite_self, Mach.trouble_raw, Mach.raise_raw, Mach.setSys_raw]

@[simp] theorem Mach.softBlock_raw (m : Mach) (b : Block) (stay : List Field) : (m.softBlock b stay).raw = m.raw := by
  simp only [Mach.softBlock, Mach.returnFields_raw]

@[simp] theorem Mach.softEth_raw (m : Mach) : m.softEth.raw = m.raw := by
  rw [Mach.softEth, Mach.stopFeeds_raw, Mach.raw_foldl_of_eq (fun m i n h => by rw [← h, Mach.entUse_raw]),
    Mach.softBlock_raw, Mach.setEth_raw, Mach.raw_foldl_of_eq (fun m p n h => by rw [← h, Mach.raw_setEthPort]),
    Mach.endSessions_raw]

@[simp] theorem Mach.softCap_raw (m : Mach) : m.softCap.raw = m.raw := by
  simp only [Mach.softCap, Mach.softBlock_raw, Mach.raw_foldl, implies_true, Mach.capStart_raw, Mach.raw_ite,
    ite_self, Mach.raw_setCapPort]

@[simp] theorem Mach.softDec_raw (m : Mach) : m.softDec.raw = m.raw := by
  simp only [Mach.softDec, Mach.raw_foldl, implies_true, Mach.decRelease_raw, Mach.stopFeeds_raw, Mach.softBlock_raw]

@[simp] theorem Mach.softEnc_raw (m : Mach) : m.softEnc.raw = m.raw := by
  simp only [Mach.softEnc, Mach.returnFields_raw, Mach.raw_foldl, implies_true, Mach.raw_ite, ite_self,
    Mach.encCtxPor_raw, Mach.encRelease_raw, Mach.raw_setEncCtx]

@[simp] theorem Mach.softTch_raw (m : Mach) : m.softTch.raw = m.raw := by
  simp only [Mach.softTch, Mach.touchStop_raw, Mach.softBlock_raw, Mach.cancelContacts_raw]

@[simp] theorem Mach.softChk_raw (m : Mach) : m.softChk.raw = m.raw := by
  simp only [Mach.softChk, Mach.abortJobs_raw, Mach.returnFields_raw]

@[simp] theorem Mach.softDomain_raw (m : Mach) (k : Nat) : (m.softDomain k).raw = m.raw := by
  unfold Mach.softDomain
  split <;> simp only [Mach.softEth_raw, Mach.softCap_raw, Mach.softDec_raw, Mach.softEnc_raw, Mach.softTch_raw,
    Mach.softChk_raw]

@[simp] theorem Mach.softReset_raw (m : Mach) (domains : Nat) : (m.softReset domains).raw = m.raw := by
  simp only [Mach.softReset, Mach.raw_foldl, implies_true, Mach.raise_raw, Mach.softDomain_raw]

@[simp] theorem Mach.startReset_raw (m : Mach) : m.startReset.raw = m.raw := by
  unfold Mach.startReset
  split <;> simp only [Mach.resetNode_raw]

@[simp] theorem Mach.sampleEnds_raw (m : Mach) : m.sampleEnds.raw = m.raw := by
  refine Mach.raw_foldl (fun m e => ?_) _ _
  split
  · rw [Mach.raw_ite, Mach.sampleEnd_raw, ite_self]
  · rfl

@[simp] theorem Mach.finish_raw (old m : Mach) : (old.finish m).raw = m.raw := by
  rw [Mach.finish, Mach.drivePins_raw, Mach.startReset_raw, Mach.noteWraps_raw, Mach.sampleEnds_raw]

@[simp] theorem Mach.wdtExpiry_raw (m : Mach) : m.wdtExpiry.raw = m.raw := by
  simp only [Mach.wdtExpiry, Mach.raw_ite, ite_self, Mach.wdtExpire_raw, Mach.setSys_raw]

@[simp] theorem Mach.sagRestart_raw (m : Mach) : m.sagRestart.raw = m.raw := by
  simp only [Mach.sagRestart, Mach.raw_ite, ite_self, Mach.resetNode_raw]

@[simp] theorem Mach.pushResult_raw (m : Mach) (kind test unit observed expected : Nat) :
    (m.pushResult kind test unit observed expected).raw = m.raw := by
  simp only [Mach.pushResult, Mach.setTst_raw, Mach.raw_ite, ite_self, Mach.raw_put, Mach.trouble_raw, Mach.raw_bump]

@[simp] theorem Mach.popResult_raw (m : Mach) : m.popResult.2.raw = m.raw := by
  unfold Mach.popResult
  split <;> rfl

@[simp] theorem Mach.coverUnit_raw (m : Mach) (cls unit : Nat) : (m.coverUnit cls unit).raw = m.raw := by
  simp only [Mach.coverUnit, Mach.raw_ite, ite_self, Mach.setTst_raw, Mach.raw_put]

@[simp] theorem Mach.engineOut_raw (m : Mach) (dec : Bool) (e : Nat) : (m.engineOut dec e).raw = m.raw := by
  simp only [Mach.engineOut, Mach.raw_ite, ite_self, Mach.raw_put, Mach.raise_raw, Mach.pushResult_raw]

@[simp] theorem Mach.scrubFatal_raw (m : Mach) (dram : Bool) (addr : Nat) : (m.scrubFatal dram addr).raw = m.raw := by
  simp only [Mach.scrubFatal, Mach.raw_ite, ite_self, Mach.raise_raw, Mach.trouble_raw, Mach.raw_put, Mach.count_raw,
    Mach.raw_bump]

@[simp] theorem Mach.actionCrcOut_raw (m : Mach) : m.actionCrcOut.raw = m.raw := by
  simp only [Mach.actionCrcOut, Mach.raw_ite, ite_self, Mach.log_raw, Mach.setCfg_raw]

@[simp] theorem Mach.testAction_raw (m : Mach) (cls unit observed : Nat) :
    (m.testAction cls unit observed).raw = m.raw := by
  unfold Mach.testAction
  split <;> simp only [Mach.scrubFatal_raw, Mach.engineOut_raw, Mach.raw_put, Mach.raw_putB, Mach.lutEccFatal_raw,
    Mach.actionCrcOut_raw]

@[simp] theorem Mach.testFailed_raw (m : Mach) (cls unit observed expected : Nat) :
    (m.testFailed cls unit observed expected).raw = m.raw := by
  unfold Mach.testFailed
  split <;> simp only [Mach.troubleBit_raw, Mach.pushResult_raw, Mach.trouble_raw, Mach.raise_raw, Mach.raw_ite,
    ite_self]

@[simp] theorem Mach.testFail_raw (m : Mach) (cls unit observed expected : Nat) :
    (m.testFail cls unit observed expected).raw = m.raw := by
  simp only [Mach.testFail, Mach.testFailed_raw, Mach.setTst_raw, Mach.raw_ite, ite_self, Mach.testAction_raw]

@[simp] theorem Mach.slotCounts_raw (m : Mach) (r : SlotResult) : (m.slotCounts r).raw = m.raw := by
  simp only [Mach.slotCounts, Mach.raw_ite, ite_self, Mach.raw_bump, Mach.count_raw, Mach.raiseLimited_raw]

@[simp] theorem Mach.passCounts_raw (m : Mach) (r : SlotResult) : (m.passCounts r).raw = m.raw := by
  unfold Mach.passCounts
  split <;> simp only [Mach.count_raw, Mach.raw_put, Mach.raw_putB]

@[simp] theorem Mach.badgerSlot_raw (m : Mach) (r : SlotResult) : (m.badgerSlot r).raw = m.raw := by
  simp only [Mach.badgerSlot, Mach.raw_ite, ite_self, Mach.count_raw, Mach.slotCounts_raw, Mach.coverUnit_raw,
    Mach.passCounts_raw, Mach.setTst_raw, Mach.testFail_raw]

@[simp] theorem State.scrubbed_raw (s : State) (r : SlotResult) : (s.scrubbed r).mach.raw = s.mach.raw := by
  simp only [State.scrubbed, State.raw_ite, ite_self]

@[simp] theorem Mach.tstPeriod_raw (m : Mach) : m.tstPeriod.raw = m.raw := by
  simp only [Mach.tstPeriod, Mach.raw_ite, ite_self, Mach.raw_foldl, implies_true, Mach.raise_raw, Mach.trouble_raw,
    Mach.troubleBit_raw, Mach.pushResult_raw, Mach.raw_advance, Mach.setTst_raw, Mach.raw_put]

@[simp] theorem Mach.proveFail_raw (m : Mach) (f : Nat × Nat × Nat × Nat) : (m.proveFail f).raw = m.raw := by
  simp only [Mach.proveFail, Mach.testFailed_raw, Mach.raw_ite, ite_self, Mach.testAction_raw]

@[simp] theorem Mach.proveTouch_raw (m : Mach) (r : ProveIn) : (m.proveTouch r).1.raw = m.raw := by
  simp only [Mach.proveTouch, Mach.raw_ite_fst, ite_self, Mach.touchTestDone_raw]

@[simp] theorem Mach.proveCounts_raw (m : Mach) (fails : List (Nat × Nat × Nat × Nat)) :
    (m.proveCounts fails).raw = m.raw := by
  simp only [Mach.proveCounts, Mach.addCount_raw, Mach.raw_foldl, implies_true]

@[simp] theorem Mach.proveTests_raw (m : Mach) (r : ProveIn) : (m.proveTests r).raw = m.raw := by
  simp only [Mach.proveTests, Mach.raw_ite, ite_self, Mach.proveTouch_raw, Mach.raw_foldl, implies_true,
    Mach.proveFail_raw, Mach.proveCounts_raw, Mach.raw_putB, Mach.pushResult_raw, Mach.raise_raw, Mach.raw_put,
    Mach.halt_raw, Mach.joinEntered_raw, Mach.enterMode_raw]

@[simp] theorem State.proveMemory_raw (s : State) : s.proveMemory.mach.raw = s.mach.raw := by
  simp only [State.proveMemory, State.clear_raw, State.raw_ite, ite_self, State.setBytes_raw]

@[simp] theorem State.proveTests_raw (s : State) (r : ProveIn) : (s.proveTests r).mach.raw = s.mach.raw := by
  simp only [State.proveTests, State.raw_ite, ite_self, State.proveMemory_raw, Mach.proveTests_raw]

@[simp] theorem Mach.loadIr_raw (m : Mach) (ir : Nat) : (m.loadIr ir).raw = m.raw := by
  simp only [Mach.loadIr, Mach.raw_putB, Mach.raw_put]

@[simp] theorem Mach.capture_raw (m : Mach) (ir value : Nat) : (m.capture ir value).raw = m.raw := by
  simp only [Mach.capture, Mach.emit_raw, Mach.loadIr_raw]

@[simp] theorem Mach.tapReset_raw (m : Mach) : m.tapReset.raw = m.raw := by
  simp only [Mach.tapReset, Mach.loadIr_raw]

@[simp] theorem Mach.idcode_raw (m : Mach) : m.idcode.raw = m.raw := by
  simp only [Mach.idcode, Mach.capture_raw]

@[simp] theorem Mach.samplePreload_raw (m : Mach) : m.samplePreload.raw = m.raw := by
  simp only [Mach.samplePreload, Mach.fresh_raw, Mach.capture_raw]

@[simp] theorem Mach.takePins_raw (m : Mach) (ir : Nat) : (m.takePins ir).raw = m.raw := by
  simp only [Mach.takePins, Mach.raw_ite, ite_self, Mach.raw_putB, Mach.raw_put, Mach.raise_raw, Mach.trouble_raw,
    Mach.loadIr_raw]

@[simp] theorem State.fuseRead_raw (s : State) : s.fuseRead.mach.raw = s.mach.raw := by
  simp only [State.fuseRead, Mach.capture_raw]

@[simp] theorem Mach.fuseProg_raw (m : Mach) (digest crc : Nat) : (m.fuseProg digest crc).raw = m.raw := by
  simp only [Mach.fuseProg, Mach.loadIr_raw, Mach.raw_ite, ite_self, Mach.setTst_raw, Mach.trouble_raw]

@[simp] theorem State.dbgFuseDone_raw (s : State) (readback : Nat) :
    (s.dbgFuseDone readback).mach.raw = s.mach.raw := by
  unfold State.dbgFuseDone
  split <;> simp only [Mach.raise_raw, Mach.raw_putB, Mach.setTst_raw, Mach.raw_ite, ite_self, Mach.trouble_raw]

@[simp] theorem State.powerOn_raw (s : State) : s.powerOn.mach.raw = 0 := by
  rw [State.powerOn, State.raw_ite, Mach.fresh_raw, ite_self, State.por_raw]

end Sys2Proof.Machine
end

section
/-! SUPPORT. The raw counter under the register bus and the signatures (R60). -/

namespace Sys2Proof.Machine

@[simp] theorem Mach.chkEnd_raw (m : Mach) (c result : Nat) (value : Option Nat) :
    (m.chkEnd c result value).raw = m.raw := by
  unfold Mach.chkEnd
  split <;> simp only [Mach.setChk_raw, Mach.raw_putB, Mach.raw_put, Mach.raise_raw, Mach.count_raw, Mach.raw_bump]

@[simp] theorem Mach.chkGo_raw (m : Mach) (by_ : Master) (c : Nat) : (m.chkGo by_ c).raw = m.raw := by
  rw [Mach.chkGo]
  split
  · rw [Mach.chkEnd_raw, Mach.trouble_raw, Mach.raw_putB]
  · split
    · rw [Mach.raise_raw, Mach.raw_putB, Mach.raw_put, Mach.raw_putB]
    · split
      · rw [Mach.chkEnd_raw, Mach.trouble_raw, Mach.raw_putB]
      · rw [Mach.setChk_raw, Mach.raw_putB]

@[simp] theorem Mach.showSuspended_raw (m : Mach) : m.showSuspended.raw = m.raw := by
  simp only [Mach.showSuspended, Mach.raw_ite, ite_self, Mach.raise_raw, Mach.raw_putB]

@[simp] theorem Mach.guardFail_raw (m : Mach) (r cause : Nat) : (m.guardFail r cause).raw = m.raw := by
  simp only [Mach.guardFail, Mach.raw_bump, Mach.raw_put, Mach.count_raw, Mach.raise_raw, Mach.trouble_raw,
    Mach.troubleBit_raw, Mach.raw_ite, ite_self, Mach.ladder_raw, Mach.halt_raw]

@[simp] theorem Mach.guardPass_raw (m : Mach) (r : Nat) : (m.guardPass r).raw = m.raw := by
  simp only [Mach.guardPass, Mach.raw_put, Mach.count_raw, Mach.raw_ite, ite_self, Mach.raise_raw]

@[simp] theorem Mach.cmpSignature_raw (m : Mach) (r sig : Nat) : (m.cmpSignature r sig).raw = m.raw := by
  simp only [Mach.cmpSignature, Mach.raw_ite, ite_self, Mach.guardPass_raw]
  (repeat' split) <;> simp only [Mach.raw_put, Mach.chkUnit_raw, Mach.setSigRegion_raw, Mach.raw_putB,
    Mach.guardFail_raw]

@[simp] theorem State.cmpSignature_raw (s : State) (r : Nat) : (s.cmpSignature r).mach.raw = s.mach.raw := by
  simp only [State.cmpSignature, State.raw_ite, ite_self, Mach.cmpSignature_raw]

@[simp] theorem State.cmpSignatures_raw (s : State) (done : Nat → Bool) :
    (s.cmpSignatures done).mach.raw = s.mach.raw := by
  simp only [State.cmpSignatures, State.raw_ite, ite_self, State.raw_foldl, implies_true, State.cmpSignature_raw]

@[simp] theorem Mach.outSignature_raw (m : Mach) (r sig : Nat) : (m.outSignature r sig).raw = m.raw := by
  simp only [Mach.outSignature, Mach.raw_put, Mach.chkUnit_raw, Mach.setSig_raw, Mach.raw_ite, ite_self,
    Mach.raw_putB, Mach.guardFail_raw, Mach.guardPass_raw]

@[simp] theorem State.outSignature_raw (s : State) (r : Nat) (errors : List (Nat × Nat)) :
    (s.outSignature r errors).mach.raw = s.mach.raw := by
  simp only [State.outSignature, State.raw_ite, ite_self, Mach.outSignature_raw]

@[simp] theorem Mach.cisternFatal_raw (m : Mach) (addr : Nat) : (m.cisternFatal addr).raw = m.raw := by
  simp only [Mach.cisternFatal, Mach.raise_raw, Mach.trouble_raw, Mach.raw_bump, Mach.raw_ite, ite_self,
    Mach.setSig_raw]

@[simp] theorem Mach.fifoPop_raw (m : Mach) (r : Reg) : (m.fifoPop r).raw = m.raw := by
  unfold Mach.fifoPop
  split <;> simp only [Mach.popReceipt_raw, Mach.popRelease_raw, Mach.popReport_raw, Mach.popLog_raw,
    Mach.popGateRecord_raw, Mach.popSample_raw, Mach.popResult_raw]

@[simp] theorem Mach.setLatch_raw (m : Mach) (q : Requester) (ws : List (Nat × Nat)) :
    (m.setLatch q ws).raw = m.raw := by
  simp only [Mach.setLatch]

@[simp] theorem Mach.dropsRead_raw (m : Mach) (x : RegAt) : (m.dropsRead x).raw = m.raw := by
  simp only [Mach.dropsRead, Mach.raw_ite, ite_self, Mach.raw_setFabPort]

@[simp] theorem Mach.readEffect_raw (m : Mach) (x : RegAt) (a : Nat) : (m.readEffect x a).2.raw = m.raw := by
  unfold Mach.readEffect
  split <;> simp only [Mach.raw_ite_snd, ite_self, Mach.fifoPop_raw, Mach.popCapture_raw, Mach.dropsRead_raw]

theorem Mach.readOwn_raw {m n : Mach} {q : Requester} {r : Reg} {v : Nat} (h : m.readOwn q r = some (v, n)) :
    n.raw = m.raw := by
  unfold Mach.readOwn at h
  split at h
  · rw [Mach.raw_of_snd (Option.some.inj h), Mach.gateSyncRead_raw]
  · dsimp only at h
    obtain ⟨-, rfl⟩ := Prod.mk.inj (Option.some.inj h)
    exact Mach.fence_raw ..
  · cases h

@[simp] theorem Mach.readWord_raw (m : Mach) (q : Requester) (a : Nat) : (m.readWord q a).2.2.raw = m.raw := by
  unfold Mach.readWord
  split
  · rfl
  · split
    · next h => exact Mach.readOwn_raw h
    · exact Mach.readEffect_raw ..

@[simp] theorem Mach.read32_raw (m : Mach) (q : Requester) (a : Nat) : (m.read32 q a).2.raw = m.raw := by
  unfold Mach.read32
  split <;> simp only [Mach.setLatch_raw, Mach.readWord_raw, Mach.raw_ite, ite_self]

@[simp] theorem Mach.read64_raw (m : Mach) (q : Requester) (a : Nat) : (m.read64 q a).2.raw = m.raw := by
  simp only [Mach.read64]
  (repeat' split) <;> simp only [Mach.readWord_raw]

@[simp] theorem Mach.regRead_raw (m : Mach) (q : Requester) (w : Width) (a : Nat) :
    (m.regRead q w a).2.raw = m.raw := by
  unfold Mach.regRead
  split <;> simp only [Mach.read32_raw, Mach.read64_raw]

@[simp] theorem Mach.store_raw (m : Mach) (c : Cover) : (m.store c).raw = m.raw := by
  unfold Mach.store
  split <;> simp only [Mach.raw_wr, Mach.raw_ite, ite_self]

@[simp] theorem Mach.retimed_raw (m : Mach) : m.retimed.raw = m.raw := by
  simp only [Mach.retimed, Mach.raw_put]

@[simp] theorem Mach.wroteTime_raw (m old : Mach) (c : Cover) : (m.wroteTime old c).raw = m.raw := by
  unfold Mach.wroteTime
  split <;> simp only [Mach.raw_ite, ite_self, Mach.refSelected_raw, Mach.setPtpState_raw, Mach.setPtpPort_raw,
    Mach.pulseArm_raw, Mach.setPulse_raw, Mach.retimed_raw]

@[simp] theorem Mach.wroteStream_raw (m old : Mach) (i : Nat) : (m.wroteStream old i).raw = m.raw := by
  simp only [Mach.wroteStream, Mach.raw_ite, ite_self, Mach.setEnt_raw, Mach.entUse_raw, Mach.stopFeeds_raw,
    Mach.entIdleNow_raw]

@[simp] theorem Mach.wroteCap_raw (m old : Mach) (i : Nat) : (m.wroteCap old i).raw = m.raw := by
  simp only [Mach.wroteCap, Mach.raw_ite, ite_self, Mach.capStart_raw, Mach.stopFeeds_raw, Mach.raw_put]

@[simp] theorem Mach.wroteFab_raw (m old : Mach) (c : Cover) : (m.wroteFab old c).raw = m.raw := by
  simp only [Mach.wroteFab, Mach.raw_ite, ite_self, Mach.portDisable_raw, Mach.portEnable_raw, Mach.retrain_raw]

@[simp] theorem Mach.wroteInputs_raw (m old : Mach) (c : Cover) : (m.wroteInputs old c).raw = m.raw := by
  unfold Mach.wroteInputs
  split <;> simp only [Mach.wroteFab_raw, Mach.raw_ite, ite_self, Mach.ethDown_raw, Mach.wroteStream_raw,
    Mach.wroteCap_raw]

@[simp] theorem Mach.wroteDec_raw (m : Mach) (c : Cover) : (m.wroteDec c).raw = m.raw := by
  unfold Mach.wroteDec
  split <;> simp only [Mach.decAdvance_raw]

@[simp] theorem Mach.wroteEnc_raw (m : Mach) (c : Cover) : (m.wroteEnc c).raw = m.raw := by
  unfold Mach.wroteEnc
  split <;> simp only [Mach.encRequestPicture_raw, Mach.raw_ite, ite_self, Mach.raw_put]

@[simp] theorem Mach.wroteCmp_raw (m old : Mach) (by_ : Master) (c : Cover) : (m.wroteCmp old by_ c).raw = m.raw := by
  unfold Mach.wroteCmp
  split <;> simp only [Mach.showSuspended_raw, Mach.retimed_raw, Mach.fenceClr_raw, Mach.groupCommit_raw,
    Mach.readoutIn_raw, Mach.raw_ite, ite_self, Mach.lutSwap_raw, Mach.lutWriteDrop_raw, Mach.raw_putB]

@[simp] theorem Mach.wrotePanel_raw (m old : Mach) (c : Cover) : (m.wrotePanel old c).raw = m.raw := by
  unfold Mach.wrotePanel
  split <;> simp only [Mach.panelUpdate_raw, Mach.dutyWrite_raw, Mach.raw_ite, ite_self, Mach.pwm_raw, Mach.auxGo_raw,
    Mach.retimed_raw, Mach.touchStop_raw, Mach.touchTestGo_raw, Mach.touchRebase_raw]

@[simp] theorem Mach.wroteSeq_raw (m old : Mach) (k : Nat) : (m.wroteSeq old k).raw = m.raw := by
  simp only [Mach.wroteSeq, Mach.raw_ite, ite_self, Mach.raw_put]

@[simp] theorem Mach.wroteControl_raw (m old : Mach) (by_ : Master) (c : Cover) :
    (m.wroteControl old by_ c).raw = m.raw := by
  unfold Mach.wroteControl
  split <;> simp only [Mach.doorbells_raw, Mach.wroteSeq_raw, Mach.raw_ite, ite_self, Mach.i2cGo_raw,
    Mach.gateCommit_raw, Mach.gateSyncWrite_raw, Mach.chkGo_raw]

@[simp] theorem Mach.wroteWdt_raw (m old : Mach) : (m.wroteWdt old).raw = m.raw := by
  simp only [Mach.wroteWdt, Mach.raw_ite, ite_self, Mach.wdtRestart_raw, Mach.wdtExpiry_raw, Mach.wdtWarn_raw]

@[simp] theorem Mach.wroteSystem_raw (m old : Mach) (by_ : Master) (c : Cover) :
    (m.wroteSystem old by_ c).raw = m.raw := by
  unfold Mach.wroteSystem
  split <;> simp only [Mach.modeRequest_raw, Mach.raw_ite, ite_self, Mach.setSys_raw, Mach.softReset_raw,
    Mach.wdtKick_raw, Mach.wroteWdt_raw, Mach.timerWake_raw, Mach.stageFloor_raw, Mach.flashGo_raw, Mach.svcNew_raw,
    Mach.svcVerify_raw, Mach.pmcSw_raw, Mach.snapNow_raw]

@[simp] theorem Mach.wrote_raw (m old : Mach) (by_ : Master) (c : Cover) : (m.wrote old by_ c).raw = m.raw := by
  unfold Mach.wrote
  split <;> simp only [Mach.wroteTime_raw, Mach.wroteInputs_raw, Mach.wroteDec_raw, Mach.wroteEnc_raw,
    Mach.wroteCmp_raw, Mach.wrotePanel_raw, Mach.wroteControl_raw, Mach.wroteSystem_raw]

@[simp] theorem Mach.refuseWrite_raw (m : Mach) (c : Cover) : (m.refuseWrite c).raw = m.raw := by
  simp only [Mach.refuseWrite, Mach.raw_ite, ite_self, Mach.requestRefused_raw, Mach.refuse_raw]

@[simp] theorem Mach.regWrite_raw (m : Mach) (by_ : Master) (w : Width) (a v : Nat) :
    (m.regWrite by_ w a v).2.raw = m.raw := by
  simp only [Mach.regWrite]
  (repeat' split) <;> simp only [Mach.raw_foldl, implies_true, Mach.store_raw, Mach.refuseWrite_raw, Mach.wrote_raw,
    Mach.resummarise_raw]

@[simp] theorem Mach.readErrors_raw (m : Mach) (r : Region) (errs : List (Nat × Bool)) :
    (m.readErrors r errs).raw = m.raw := by
  simp only [Mach.readErrors]
  (repeat' split) <;> simp only [Mach.count_raw, Mach.raw_bump, Mach.raiseLimited_raw, Mach.raw_put, Mach.raise_raw,
    Mach.trouble_raw]

@[simp] theorem State.memRead_raw (s : State) (by_ : Master) (r : Region) (a n : Nat) :
    (s.memRead by_ r a n).2.mach.raw = s.mach.raw := by
  unfold State.memRead
  split <;> simp only [Mach.count_raw, State.raw_ite_snd, ite_self, Mach.readErrors_raw, Mach.gateFault_raw,
    Mach.freeBits_raw]

@[simp] theorem State.memWrite_raw (s : State) (r : Region) (a : Nat) (data : List Nat) :
    (s.memWrite r a data).mach.raw = s.mach.raw := by
  unfold State.memWrite
  split <;> simp only [Mach.count_raw, State.setBytes_raw]

@[simp] theorem State.localRead_raw (s : State) (by_ : Master) (a n : Nat) :
    (s.localRead by_ a n).2.mach.raw = s.mach.raw := by
  simp only [State.localRead]
  (repeat' split) <;> simp only [Mach.gateCheck_raw, Mach.sampleMem_raw, Mach.regRead_raw, State.memRead_raw]

@[simp] theorem State.localWrite_raw (s : State) (by_ : Master) (a : Nat) (data : List Nat) (posted : Bool) :
    (s.localWrite by_ a data posted).2.mach.raw = s.mach.raw := by
  simp only [State.localWrite]
  (repeat' split) <;> simp only [Mach.gateCheck_raw, Mach.sampleMem_raw, Mach.regWrite_raw, State.memWrite_raw]

@[simp] theorem Mach.remoteFault_raw (m : Mach) (by_ : Master) (write : Bool) (node a n : Nat) (posted : Bool) :
    (m.remoteFault by_ write node a n posted).raw = m.raw := by
  simp only [Mach.remoteFault, Mach.sampleMem_raw, Mach.gateFault_raw]

@[simp] theorem Mach.sendReq_raw (m : Mach) (x : RemoteReq) (data : List Nat) : (m.sendReq x data).raw = m.raw := by
  simp only [Mach.sendReq, Mach.sendRouted_raw, Mach.count_raw]

@[simp] theorem Mach.request_raw (m : Mach) (x : RemoteReq) (data : List Nat) : (m.request x data).raw = m.raw := by
  unfold Mach.request
  split <;> simp only [Mach.raw_ite, ite_self, Mach.sendReq_raw]

@[simp] theorem Mach.releaseHeld_raw (m : Mach) : m.releaseHeld.raw = m.raw := by
  simp only [Mach.releaseHeld, Mach.raw_foldl, implies_true, Mach.request_raw]

@[simp] theorem Mach.newRef_raw (m : Mach) : m.newRef.2.raw = m.raw := by rfl

@[simp] theorem Mach.sendRsp_raw (m : Mach) (origin tag status : Nat) (data : List Nat) :
    (m.sendRsp origin tag status data).raw = m.raw := by
  simp only [Mach.sendRsp, Mach.sendRouted_raw]

@[simp] theorem State.memReq_raw (s : State) (origin : Nat) (q : MemReq) :
    (s.memReq origin q).mach.raw = s.mach.raw := by
  simp only [State.memReq, Mach.count_raw, State.raw_ite, ite_self, Mach.sendRsp_raw, State.localWrite_raw,
    State.localRead_raw]

end Sys2Proof.Machine
end

section
/-! SUPPORT. The raw counter under the sequencer (R60). -/

namespace Sys2Proof.Machine

@[simp] theorem Mach.setSeqCore_raw (m : Mach) (k : Nat) (c : SeqCore) : (m.setSeqCore k c).raw = m.raw := by
  simp only [Mach.setSeqCore, Mach.setEvc_raw]

@[simp] theorem Mach.showRunning_raw (m : Mach) : m.showRunning.raw = m.raw := by
  simp only [Mach.showRunning, Mach.raw_put]

@[simp] theorem Mach.handOver_raw (m : Mach) (s k : Nat) : (m.handOver s k).raw = m.raw := by
  simp only [Mach.handOver, Mach.raw_ite, ite_self, Mach.raw_setBitOf, Mach.raw_clearBitOf, Mach.setEvc_raw,
    Mach.raw_putB, Mach.raw_put, Mach.setSeqCore_raw, Mach.count_raw, Mach.showRunning_raw]

@[simp] theorem Mach.countSkips_raw (m : Mach) (upTo : Nat) : (m.countSkips upTo).raw = m.raw := by
  simp only [Mach.countSkips, Mach.raw_ite, ite_self, Mach.count_raw]

@[simp] theorem Mach.delivery_raw (m : Mach) : m.delivery.raw = m.raw := by
  unfold Mach.delivery
  split <;> simp only [Mach.handOver_raw, Mach.countSkips_raw]

@[simp] theorem Mach.seqExit_raw (m : Mach) (k : Nat) : (m.seqExit k).raw = m.raw := by
  simp only [Mach.seqExit]
  (repeat' split) <;> simp only [Mach.raw_advance, Mach.sampleEnd_raw, Mach.raw_put, Mach.setEvc_raw,
    Mach.raw_clearBitOf, Mach.showRunning_raw, Mach.count_raw, Mach.handOver_raw, Mach.countSkips_raw]

@[simp] theorem Mach.seqFault_raw (m : Mach) (k code : Nat) : (m.seqFault k code).raw = m.raw := by
  simp only [Mach.seqFault, Mach.raw_putB, Mach.raw_put, settle_raw, Mach.seqExit_raw, Mach.raise_raw, Mach.count_raw,
    Mach.log_raw]

@[simp] theorem Mach.seqNext_raw (m : Mach) (k n : Nat) : (m.seqNext k n).raw = m.raw := by
  simp only [Mach.seqNext, Mach.raw_put, Mach.setSeqCore_raw]

@[simp] theorem Mach.seqDone_raw (m : Mach) (k st n : Nat) : (m.seqDone k st n).raw = m.raw := by
  simp only [Mach.seqDone, Mach.seqNext_raw, Mach.sampleEnd_raw, Mach.raw_put]

@[simp] theorem Mach.seqWaits_raw (m : Mach) (k : Nat) (w : SeqWait) : (m.seqWaits k w).raw = m.raw := by
  simp only [Mach.seqWaits, Mach.setSeqCore_raw, Mach.raw_put]

@[simp] theorem State.on_raw (s : State) (f : Mach → Mach) : (s.on f).mach.raw = (f s.mach).raw := by
  rw [State.on]

@[simp] theorem State.fetchCorrected_raw (s : State) (i n : Nat) : (s.fetchCorrected i n).mach.raw = s.mach.raw := by
  simp only [State.fetchCorrected, State.raw_ite, ite_self, State.on_mach, Mach.raw_bump]

@[simp] theorem State.postWrite_raw (s : State) (by_ : Master) (t : Target) (data : List Nat) :
    (s.postWrite by_ t data).2.mach.raw = s.mach.raw := by
  unfold State.postWrite
  split <;> simp only [State.localWrite_raw, Mach.raw_ite, ite_self, State.on_mach, Mach.request_raw,
    Mach.remoteFault_raw]

@[simp] theorem State.seqRead_raw (s : State) (k : Nat) (t : Target) (n : Nat) :
    (s.seqRead k t n).2.mach.raw = s.mach.raw := by
  unfold State.seqRead
  split <;> simp only [State.localRead_raw, State.raw_ite_snd, ite_self, Mach.newRef_raw, Mach.request_raw,
    State.on_mach, Mach.remoteFault_raw]

@[simp] theorem State.seqWrite_raw (s : State) (k : Nat) (t : Target) (data : List Nat) :
    (s.seqWrite k t data).2.mach.raw = s.mach.raw := by
  unfold State.seqWrite
  split <;> simp only [State.localWrite_raw, State.raw_ite_snd, ite_self, Mach.newRef_raw, Mach.request_raw,
    State.on_mach, Mach.remoteFault_raw]

@[simp] theorem State.actWrite_raw (s : State) (k n : Nat) (ws : List Nat) :
    (s.actWrite k n ws).mach.raw = s.mach.raw := by
  simp only [State.actWrite, State.raw_ite, ite_self, State.on_mach, Mach.seqDone_raw, State.postWrite_raw]

@[simp] theorem State.actRmw_raw (s : State) (k : Nat) (ws : List Nat) : (s.actRmw k ws).mach.raw = s.mach.raw := by
  unfold State.actRmw
  split <;> simp only [State.on_mach, Mach.seqDone_raw, State.raw_ite, ite_self, State.localRead_raw, Mach.raw_put,
    State.localWrite_raw]

@[simp] theorem Mach.pollReply_raw (m : Mach) (k : Nat) (ws : List Nat) (r : Reply) :
    (m.pollReply k ws r).raw = m.raw := by
  simp only [Mach.pollReply, Mach.raw_put, Mach.raw_ite, ite_self, Mach.seqDone_raw, Mach.seqWaits_raw]

@[simp] theorem State.actPoll_raw (s : State) (k : Nat) (ws : List Nat) (first : Bool) :
    (s.actPoll k ws first).mach.raw = s.mach.raw := by
  unfold State.actPoll
  dsimp only
  split
  · exact Mach.seqDone_raw ..
  · have h1 : (if first then s.on fun m => m.setSeqCore k { m.seqCore k with waitRaw := m.raw } else s).mach.raw =
        s.mach.raw := by
      rw [State.raw_ite, State.on, Mach.setSeqCore_raw, ite_self]
    split
    · next h => rw [State.on, Mach.pollReply_raw, State.raw_of_snd h, State.seqRead_raw, h1]
    · next h => rw [State.on, Mach.seqWaits_raw, State.raw_of_snd h, State.seqRead_raw, h1]

@[simp] theorem Mach.actWaitEvent_raw (m : Mach) (k : Nat) (ws : List Nat) : (m.actWaitEvent k ws).raw = m.raw := by
  simp only [Mach.actWaitEvent, Mach.raw_ite, ite_self, Mach.seqDone_raw, Mach.seqWaits_raw, Mach.setSeqCore_raw]

@[simp] theorem Mach.actWaitTime_raw (m : Mach) (k : Nat) (ws : List Nat) : (m.actWaitTime k ws).raw = m.raw := by
  simp only [Mach.actWaitTime, Mach.raw_ite, ite_self, Mach.seqDone_raw, Mach.seqWaits_raw, Mach.setSeqCore_raw]

@[simp] theorem State.ifBits_raw (s : State) (k : Nat) (ws : List Nat) (v : Nat) :
    (s.ifBits k ws v).mach.raw = s.mach.raw := by
  simp only [State.ifBits, State.on_mach, Mach.seqNext_raw, Mach.sampleEnd_raw]

@[simp] theorem State.ifBitsReply_raw (s : State) (k : Nat) (ws : List Nat) (r : Reply) :
    (s.ifBitsReply k ws r).mach.raw = s.mach.raw := by
  simp only [State.ifBitsReply, State.on_mach, Mach.raw_put, State.raw_ite, ite_self, State.ifBits_raw]

@[simp] theorem State.actIfBits_raw (s : State) (k : Nat) (ws : List Nat) :
    (s.actIfBits k ws).mach.raw = s.mach.raw := by
  unfold State.actIfBits
  dsimp only
  split
  · exact State.ifBits_raw ..
  · split
    · rw [State.ifBits_raw, State.on, Mach.raw_put, Mach.raw_put]
    · split
      · next h => rw [State.ifBitsReply_raw, State.raw_of_snd h, State.seqRead_raw]
      · next h => rw [State.on, Mach.seqWaits_raw, State.raw_of_snd h, State.seqRead_raw]

@[simp] theorem Mach.actJump_raw (m : Mach) (k : Nat) (ws : List Nat) : (m.actJump k ws).raw = m.raw := by
  simp only [Mach.actJump, Mach.raw_ite, ite_self, Mach.seqNext_raw, Mach.raw_put, Mach.seqFault_raw]

@[simp] theorem Mach.actFence_raw (m : Mach) (k : Nat) (ws : List Nat) : (m.actFence k ws).raw = m.raw := by
  simp only [Mach.actFence, Mach.fence_raw, Mach.raw_ite, ite_self, Mach.gateSync_raw, Mach.seqDone_raw]

@[simp] theorem State.actSignal_raw (s : State) (k : Nat) (ws : List Nat) :
    (s.actSignal k ws).mach.raw = s.mach.raw := by
  simp only [State.actSignal, Mach.fence_raw, State.raw_ite, ite_self, State.on_mach, Mach.seqDone_raw,
    Mach.sendRouted_raw, State.localWrite_raw]

@[simp] theorem State.actCommit_raw (s : State) (k : Nat) (ws : List Nat) :
    (s.actCommit k ws).mach.raw = s.mach.raw := by
  simp only [State.actCommit, Mach.fence_raw, State.raw_ite, ite_self, State.on_mach, Mach.seqDone_raw,
    Mach.seqWaits_raw, State.localWrite_raw]

@[simp] theorem Mach.actLog_raw (m : Mach) (k : Nat) (ws : List Nat) : (m.actLog k ws).raw = m.raw := by
  simp only [Mach.actLog, Mach.seqDone_raw, Mach.logAction_raw]

@[simp] theorem Mach.actYield_raw (m : Mach) (k : Nat) : (m.actYield k).raw = m.raw := by
  simp only [Mach.actYield, Mach.raw_putB, Mach.raw_put, Mach.seqExit_raw, Mach.count_raw, Mach.raw_setBitOf]

@[simp] theorem Mach.copyEnd_raw (m : Mach) (k st moved : Nat) : (m.copyEnd k st moved).raw = m.raw := by
  simp only [Mach.copyEnd, Mach.seqDone_raw, Mach.raw_put]

@[simp] theorem Mach.copyWrote_raw (m : Mach) (k i : Nat) (p : CopyPlan) (r : Reply) :
    (m.copyWrote k i p r).2.raw = m.raw := by
  simp only [Mach.copyWrote, Mach.raw_ite_snd, ite_self, Mach.copyEnd_raw]

@[simp] theorem State.copyStore_raw (s : State) (k i : Nat) (p : CopyPlan) (data : List Nat) :
    (s.copyStore k i p data).2.mach.raw = s.mach.raw := by
  unfold State.copyStore
  split
  · next h => exact (Mach.seqWaits_raw ..).trans (by rw [State.raw_of_snd h, State.seqWrite_raw])
  · next h => exact (Mach.copyWrote_raw ..).trans (by rw [State.raw_of_snd h, State.seqWrite_raw])

@[simp] theorem State.copyOne_raw (s : State) (k i : Nat) (p : CopyPlan) :
    (s.copyOne k i p).2.mach.raw = s.mach.raw := by
  unfold State.copyOne
  split
  · next h => exact (Mach.seqWaits_raw ..).trans (by rw [State.raw_of_snd h, State.seqRead_raw])
  · next h =>
    rw [State.raw_ite_snd, State.copyStore_raw, State.on, Mach.copyEnd_raw, ite_self, State.raw_of_snd h,
      State.seqRead_raw]

@[simp] theorem State.copyFrom_raw (s : State) (k : Nat) (p : CopyPlan) (fuel i : Nat) :
    (s.copyFrom k p fuel i).mach.raw = s.mach.raw := by
  induction fuel generalizing s i with
  | zero => rfl
  | succ fuel ih =>
    rw [State.copyFrom]
    split
    · exact Mach.copyEnd_raw ..
    · dsimp only
      split
      · rw [ih, State.copyOne_raw]
      · exact State.copyOne_raw ..

@[simp] theorem State.actCopy_raw (s : State) (k : Nat) (ws : List Nat) : (s.actCopy k ws).mach.raw = s.mach.raw := by
  simp only [State.actCopy, State.raw_ite, ite_self, State.on_mach, Mach.seqDone_raw, State.copyFrom_raw]

@[simp] theorem State.copyReply_raw (s : State) (k i : Nat) (writing : Bool) (ws : List Nat) (r : Reply) :
    (s.copyReply k i writing ws r).mach.raw = s.mach.raw := by
  simp only [State.copyReply, State.raw_ite, State.raw_ite_snd, ite_self, Mach.copyWrote_raw, State.on_mach,
    Mach.copyEnd_raw, State.copyStore_raw, State.copyFrom_raw]

@[simp] theorem State.actOrdered_raw (s : State) (k op : Nat) (ws : List Nat) :
    (s.actOrdered k op ws).mach.raw = s.mach.raw := by
  simp only [State.actOrdered]
  (repeat' split) <;> simp only [State.on_mach, Mach.seqWaits_raw, Mach.actFence_raw, State.actSignal_raw,
    State.actCommit_raw]

@[simp] theorem State.act_raw (s : State) (k op : Nat) (ws : List Nat) : (s.act k op ws).mach.raw = s.mach.raw := by
  unfold State.act
  split <;> simp only [State.on_mach, Mach.seqNext_raw, Mach.sampleEnd_raw, State.actWrite_raw, State.actRmw_raw,
    State.actPoll_raw, Mach.actWaitEvent_raw, Mach.actWaitTime_raw, State.actIfBits_raw, Mach.actJump_raw,
    State.actOrdered_raw, State.actCopy_raw, Mach.actLog_raw, Mach.actYield_raw, Mach.seqExit_raw]

@[simp] theorem State.seqIssue_raw (s : State) (k op : Nat) : (s.seqIssue k op).mach.raw = s.mach.raw := by
  simp only [State.seqIssue]
  (repeat' split) <;> simp only [State.on_mach, Mach.seqFault_raw, State.fetchCorrected_raw, Mach.sampleIssue_raw,
    Mach.raw_put, State.act_raw]

@[simp] theorem State.seqPoll_raw (s : State) (k : Nat) : (s.seqPoll k).mach.raw = s.mach.raw := by
  unfold State.seqPoll
  split <;> simp only [State.raw_ite, ite_self, State.actPoll_raw, State.seqIssue_raw]

@[simp] theorem State.seqPollTimeout_raw (s : State) (k : Nat) : (s.seqPollTimeout k).mach.raw = s.mach.raw := by
  unfold State.seqPollTimeout
  split <;> simp only [State.raw_ite, ite_self, State.on_mach, Mach.seqDone_raw]

@[simp] theorem State.seqWaitEventTimeout_raw (s : State) (k : Nat) :
    (s.seqWaitEventTimeout k).mach.raw = s.mach.raw := by
  unfold State.seqWaitEventTimeout
  split <;> simp only [State.raw_ite, ite_self, State.on_mach, Mach.seqDone_raw]

@[simp] theorem Mach.seqWaitTimeExpiry_raw (m : Mach) (k : Nat) : (m.seqWaitTimeExpiry k).raw = m.raw := by
  simp only [Mach.seqWaitTimeExpiry, Mach.raw_ite, ite_self, Mach.seqDone_raw]

@[simp] theorem Mach.seqRunLimit_raw (m : Mach) (k : Nat) : (m.seqRunLimit k).raw = m.raw := by
  simp only [Mach.seqRunLimit, Mach.raw_ite, ite_self, Mach.seqFault_raw]

@[simp] theorem State.seqReply_raw (s : State) (k ref : Nat) (r : Reply) :
    (s.seqReply k ref r).mach.raw = s.mach.raw := by
  unfold State.seqReply
  split <;> simp only [State.raw_ite, ite_self, State.on_mach, Mach.pollReply_raw, State.ifBitsReply_raw,
    State.copyReply_raw]

@[simp] theorem State.seqRetry_raw (s : State) (k : Nat) : (s.seqRetry k).mach.raw = s.mach.raw := by
  unfold State.seqRetry
  split <;> simp only [State.actOrdered_raw]

end Sys2Proof.Machine
end

section
/-! SUPPORT. The raw counter under the masters, management and what a packet carries (R60). -/

namespace Sys2Proof.Machine

@[simp] theorem Mach.spiDrop_raw (m : Mach) : m.spiDrop.raw = m.raw := by
  simp only [Mach.spiDrop, Mach.setGate_raw, Mach.raiseLimited_raw, Mach.trouble_raw, Mach.raw_bump]

@[simp] theorem Mach.spiResult_raw (m : Mach) (r : Nat) : (m.spiResult r).raw = m.raw := by
  simp only [Mach.spiResult, Mach.setGate_raw]

@[simp] theorem State.spiWrite_raw (s : State) (a : Nat) (data : List Nat) (whole : Bool) :
    (s.spiWrite a data whole).mach.raw = s.mach.raw := by
  simp only [State.spiWrite, State.raw_ite, ite_self, State.on_mach, Mach.count_raw, Mach.spiDrop_raw,
    Mach.spiResult_raw, State.postWrite_raw]

@[simp] theorem Mach.spiReadEnd_raw (m : Mach) (r : Reply) : (m.spiReadEnd r).raw = m.raw := by
  simp only [Mach.spiReadEnd, Mach.setGate_raw]

@[simp] theorem State.spiRetry_raw (s : State) : s.spiRetry.mach.raw = s.mach.raw := by
  simp only [State.spiRetry]
  (repeat' split) <;> simp only [State.localRead_raw, State.on_mach, Mach.spiReadEnd_raw]

@[simp] theorem State.spiReadReq_raw (s : State) (a n : Nat) (whole : Bool) :
    (s.spiReadReq a n whole).mach.raw = s.mach.raw := by
  unfold State.spiReadReq
  dsimp only
  (repeat' split) <;> simp only [State.on_mach, Mach.count_raw, Mach.spiDrop_raw, Mach.spiResult_raw,
    Mach.setGate_raw, State.localRead_raw, Mach.spiReadEnd_raw, Mach.request_raw, Mach.remoteFault_raw]

@[simp] theorem Mach.spiStatus_raw (m : Mach) : m.spiStatus.raw = m.raw := by
  simp only [Mach.spiStatus, Mach.raw_ite, ite_self, Mach.setGate_raw, Mach.emit_raw, Mach.count_raw]

@[simp] theorem Mach.spiReadData_raw (m : Mach) : m.spiReadData.raw = m.raw := by
  simp only [Mach.spiReadData, Mach.raw_ite, ite_self, Mach.emit_raw, Mach.count_raw]

@[simp] theorem Mach.spiAbort_raw (m : Mach) : m.spiAbort.raw = m.raw := by
  simp only [Mach.spiAbort, Mach.raw_ite, ite_self, Mach.spiDrop_raw, Mach.count_raw]

@[simp] theorem Mach.spiUnknown_raw (m : Mach) (code : Nat) : (m.spiUnknown code).raw = m.raw := by
  simp only [Mach.spiUnknown, Mach.raw_ite, ite_self, Mach.spiAbort_raw]

@[simp] theorem Mach.dbgStat_raw (m : Mach) (st : Nat) : (m.dbgStat st).raw = m.raw := by
  simp only [Mach.dbgStat, Mach.setTst_raw]

@[simp] theorem Mach.dbgNop_raw (m : Mach) : m.dbgNop.raw = m.raw := by
  simp only [Mach.dbgNop, Mach.capture_raw]

@[simp] theorem Mach.dbgBegin_raw (m : Mach) (op wall data : Nat) : (m.dbgBegin op wall data).raw = m.raw := by
  simp only [Mach.dbgBegin]
  (repeat' split) <;> simp only [Mach.setTst_raw, Mach.request_raw, Mach.remoteFault_raw]

@[simp] theorem Mach.dbgStart_raw (m : Mach) (op wall data : Nat) : (m.dbgStart op wall data).raw = m.raw := by
  simp only [Mach.dbgStart, Mach.dbgNop_raw, Mach.raw_ite, ite_self, Mach.dbgStat_raw, Mach.dbgBegin_raw]

@[simp] theorem Mach.dbgEnd_raw (m : Mach) (wall st data : Nat) : (m.dbgEnd wall st data).raw = m.raw := by
  simp only [Mach.dbgEnd, Mach.setTst_raw, Mach.raw_ite, ite_self, Mach.raise_raw, Mach.trouble_raw, Mach.raw_put,
    Mach.raw_bump]

@[simp] theorem State.dbgAccessDone_raw (s : State) : s.dbgAccessDone.mach.raw = s.mach.raw := by
  simp only [State.dbgAccessDone]
  (repeat' split) <;> simp only [State.localRead_raw, State.on_mach, Mach.dbgEnd_raw, State.localWrite_raw]

@[simp] theorem Mach.setMgmtSource_raw (m : Mach) (x : MgmtSource) : (m.setMgmtSource x).raw = m.raw := by
  simp only [Mach.setMgmtSource, Mach.setEth_raw]

@[simp] theorem Mach.mgmtDrop_raw (m : Mach) (p : MgmtPeer) (reason : Nat) : (m.mgmtDrop p reason).raw = m.raw := by
  simp only [Mach.mgmtDrop, Mach.ethDrop_raw]

@[simp] theorem Mach.mgmtSend_raw (m : Mach) (p : MgmtPeer) (type session seq status : Nat) (body : List Nat) (key :
    Option (List Nat)) :
    (m.mgmtSend p type session seq status body key).raw = m.raw := by
  simp only [Mach.mgmtSend]
  (repeat' split) <;> simp only [Mach.frameSent_raw, Mach.emit_raw, Mach.sendRouted_raw]

@[simp] theorem Mach.dropAttempt_raw (m : Mach) (p : MgmtPeer) : (m.dropAttempt p).raw = m.raw := by
  simp only [Mach.dropAttempt, Mach.setEth_raw]

@[simp] theorem Mach.openMgmt_raw (m : Mach) (p : MgmtPeer) (key : Nat) (nonce : List Nat) :
    (m.openMgmt p key nonce).raw = m.raw := by
  simp only [Mach.openMgmt]
  (repeat' split) <;> simp only [Mach.mgmtDrop_raw, Mach.setMgmtSource_raw, Mach.count_raw, Mach.mgmtSend_raw,
    Mach.freeBits_raw, Mach.dropAttempt_raw, Mach.setEth_raw]

@[simp] theorem Mach.mgmtProveFail_raw (m : Mach) (p : MgmtPeer) : (m.mgmtProveFail p).raw = m.raw := by
  simp only [Mach.mgmtProveFail, Mach.setMgmtSource_raw, Mach.raise_raw, Mach.trouble_raw, Mach.dropAttempt_raw]

@[simp] theorem Mach.openSession_raw (m : Mach) (p : MgmtPeer) (a : MgmtSession) (row : List Nat) :
    (m.openSession p a row).raw = m.raw := by
  unfold Mach.openSession
  split <;> simp only [Mach.mgmtSend_raw, Mach.dropAttempt_raw, Mach.setSession_raw, Mach.raise_raw,
    Mach.showSession_raw]

@[simp] theorem Mach.prove_raw (m : Mach) (p : MgmtPeer) (mac : List Nat) : (m.prove p mac).raw = m.raw := by
  simp only [Mach.prove]
  (repeat' split) <;> simp only [Mach.mgmtDrop_raw, Mach.dropAttempt_raw, Mach.count_raw, Mach.openSession_raw,
    Mach.mgmtProveFail_raw]

@[simp] theorem Mach.mgmtLockoutEnd_raw (m : Mach) (p : MgmtPeer) : (m.mgmtLockoutEnd p).raw = m.raw := by
  simp only [Mach.mgmtLockoutEnd, Mach.raw_ite, ite_self, Mach.setMgmtSource_raw]

@[simp] theorem Mach.mgmtAccept_raw (m : Mach) (k seq : Nat) (tagGood : Bool) (port : Nat) :
    (m.mgmtAccept k seq tagGood port).2.raw = m.raw := by
  simp only [Mach.mgmtAccept]
  (repeat' split) <;> simp only [Mach.ethDrop_raw, Mach.count_raw, Mach.setSession_raw]

@[simp] theorem Mach.mgmtRespond_raw (m : Mach) (k seq status : Nat) (data : List Nat) :
    (m.mgmtRespond k seq status data).raw = m.raw := by
  unfold Mach.mgmtRespond
  split <;> simp only [Mach.mgmtSend_raw, Mach.setSession_raw]

@[simp] theorem Mach.mgmtFlush1_raw (m : Mach) (k : Nat) : (m.mgmtFlush1 k).raw = m.raw := by
  simp only [Mach.mgmtFlush1]
  (repeat' split) <;> simp only [Mach.mgmtRespond_raw, Mach.setSession_raw]

@[simp] theorem Mach.mgmtFlush_raw (m : Mach) (k : Nat) : (m.mgmtFlush k).raw = m.raw := by
  simp only [Mach.mgmtFlush, Mach.raw_foldl, implies_true, Mach.mgmtFlush1_raw]

@[simp] theorem Mach.mgmtSet_raw (m : Mach) (k seq : Nat) (a : MgmtAnswer) : (m.mgmtSet k seq a).raw = m.raw := by
  unfold Mach.mgmtSet
  split <;> simp only [Mach.mgmtFlush_raw, Mach.setSession_raw]

@[simp] theorem Mach.mgmtDone_raw (m : Mach) (k seq status : Nat) (data : List Nat) :
    (m.mgmtDone k seq status data).raw = m.raw := by
  simp only [Mach.mgmtDone, Mach.mgmtSet_raw]

@[simp] theorem Mach.mgmtTake_raw (m : Mach) (k seq : Nat) (tagGood : Bool) (port : Nat) :
    (m.mgmtTake k seq tagGood port).2.raw = m.raw := by
  unfold Mach.mgmtTake
  split
  · rfl
  · split
    · next h => rw [Mach.raw_of_snd h, Mach.mgmtAccept_raw]
    · next h =>
      rw [Mach.raw_ite_snd, Mach.mgmtRespond_raw, ite_self, Mach.raw_of_snd h, Mach.mgmtAccept_raw]

@[simp] theorem Mach.mgmtFar_raw (m : Mach) (k seq : Nat) (write : Bool) (node a n : Nat) (data : List Nat) :
    (m.mgmtFar k seq write node a n data).raw = m.raw := by
  simp only [Mach.mgmtFar, Mach.raw_ite, ite_self, Mach.request_raw, Mach.mgmtSet_raw, Mach.mgmtDone_raw,
    Mach.remoteFault_raw]

@[simp] theorem State.mgmtReadNow_raw (s : State) (k seq addr len : Nat) :
    (s.mgmtReadNow k seq addr len).mach.raw = s.mach.raw := by
  simp only [State.mgmtReadNow]
  (repeat' split) <;> simp only [State.on_mach, Mach.mgmtDone_raw, Mach.mgmtSet_raw, State.localRead_raw,
    Mach.mgmtFar_raw]

@[simp] theorem State.mgmtReadFrom_raw (s : State) (port k seq : Nat) (tagGood : Bool) (addr len : Nat) :
    (s.mgmtReadFrom port k seq tagGood addr len).mach.raw = s.mach.raw := by
  unfold State.mgmtReadFrom
  split
  · next h => rw [State.mgmtReadNow_raw, Mach.raw_of_snd h, Mach.mgmtTake_raw]
  · next h => rw [Mach.raw_of_snd h, Mach.mgmtTake_raw]

@[simp] theorem State.mgmtWriteNow_raw (s : State) (k seq addr : Nat) (data : List Nat) :
    (s.mgmtWriteNow k seq addr data).mach.raw = s.mach.raw := by
  simp only [State.mgmtWriteNow]
  (repeat' split) <;> simp only [State.on_mach, Mach.mgmtDone_raw, State.localWrite_raw, Mach.mgmtFar_raw]

@[simp] theorem State.mgmtWriteFrom_raw (s : State) (port k seq : Nat) (tagGood : Bool) (addr : Nat) (data : List Nat) :
    (s.mgmtWriteFrom port k seq tagGood addr data).mach.raw = s.mach.raw := by
  unfold State.mgmtWriteFrom
  split
  · next h => rw [State.mgmtWriteNow_raw, Mach.raw_of_snd h, Mach.mgmtTake_raw]
  · next h => rw [Mach.raw_of_snd h, Mach.mgmtTake_raw]

@[simp] theorem Mach.mgmtFenceEnd_raw (m : Mach) (k seq : Nat) : (m.mgmtFenceEnd k seq).raw = m.raw := by
  simp only [Mach.mgmtFenceEnd, Mach.fence_raw, Mach.mgmtDone_raw]

@[simp] theorem Mach.mgmtFenceFrom_raw (m : Mach) (port k seq : Nat) (tagGood : Bool) :
    (m.mgmtFenceFrom port k seq tagGood).raw = m.raw := by
  unfold Mach.mgmtFenceFrom
  split
  · next h =>
    rw [Mach.raw_ite, Mach.mgmtSet_raw, Mach.mgmtFenceEnd_raw, ite_self, Mach.raw_of_snd h, Mach.mgmtTake_raw]
  · next h => rw [Mach.raw_of_snd h, Mach.mgmtTake_raw]

@[simp] theorem Mach.clearHostBits_raw (m : Mach) (data : List Nat) : (m.clearHostBits data).raw = m.raw := by
  simp only [Mach.clearHostBits, Mach.raw_foldl, implies_true, Mach.raw_wr]

@[simp] theorem Mach.mgmtPendingFrom_raw (m : Mach) (port k seq : Nat) (tagGood : Bool) (data : Option (List Nat)) :
    (m.mgmtPendingFrom port k seq tagGood data).raw = m.raw := by
  unfold Mach.mgmtPendingFrom
  split
  · next h => rw [Mach.mgmtDone_raw, Mach.raw_of_snd h, Mach.mgmtTake_raw]
  · next n l h =>
    have hn : n.raw = m.raw := by rw [Mach.raw_of_snd h, Mach.mgmtTake_raw]
    simp only [Mach.raw_ite, Mach.mgmtDone_raw, Mach.clearHostBits_raw, ite_self, hn]
  · next h => rw [Mach.raw_of_snd h, Mach.mgmtTake_raw]

@[simp] theorem Mach.closeFrom_raw (m : Mach) (port k seq : Nat) (tagGood : Bool) :
    (m.closeFrom port k seq tagGood).raw = m.raw := by
  unfold Mach.closeFrom
  split
  · rfl
  · split
    · next h => rw [Mach.endSession_raw, Mach.raw_of_snd h, Mach.mgmtAccept_raw]
    · next h => rw [Mach.raw_of_snd h, Mach.mgmtAccept_raw]

@[simp] theorem Mach.mgmtIdle_raw (m : Mach) (k : Nat) : (m.mgmtIdle k).raw = m.raw := by
  simp only [Mach.mgmtIdle, Mach.endSession_raw]

@[simp] theorem Mach.mgmtReply_raw (m : Mach) (k seq status : Nat) (data : List Nat) :
    (m.mgmtReply k seq status data).raw = m.raw := by
  unfold Mach.mgmtReply
  split <;> simp only [Mach.raw_ite, ite_self, Mach.mgmtDone_raw]

@[simp] theorem State.mgmtRetry1_raw (s : State) (k seq : Nat) (a : MgmtAnswer) :
    (s.mgmtRetry1 k seq a).mach.raw = s.mach.raw := by
  simp only [State.mgmtRetry1]
  (repeat' split) <;> simp only [State.on_mach, Mach.mgmtFenceEnd_raw, State.localRead_raw, Mach.mgmtDone_raw]

@[simp] theorem State.mgmtRetry_raw (s : State) : s.mgmtRetry.mach.raw = s.mach.raw := by
  unfold State.mgmtRetry
  refine State.raw_foldl (fun s k => ?_) _ _
  split
  · exact State.raw_foldl (fun s w => State.mgmtRetry1_raw ..) _ _
  · rfl

@[simp] theorem Mach.notePeer_raw (m : Mach) (k seq : Nat) (p : MgmtPeer) (tagGood : Bool) :
    (m.notePeer k seq p tagGood).raw = m.raw := by
  unfold Mach.notePeer
  split <;> simp only [Mach.raw_ite, ite_self, Mach.setSession_raw]

@[simp] theorem State.mgmtRequest_raw (s : State) (port k seq : Nat) (tagGood : Bool) (body : List Nat) :
    (s.mgmtRequest port k seq tagGood body).mach.raw = s.mach.raw := by
  simp only [State.mgmtRequest, State.raw_ite, ite_self, State.mgmtReadFrom_raw, State.mgmtWriteFrom_raw,
    State.on_mach, Mach.mgmtFenceFrom_raw, Mach.mgmtPendingFrom_raw, Mach.ethDrop_raw]

@[simp] theorem State.mgmtDatagram_raw (s : State) (p : MgmtPeer) (l : List Nat) :
    (s.mgmtDatagram p l).mach.raw = s.mach.raw := by
  simp only [State.mgmtDatagram]
  (repeat' split) <;> simp only [State.on_mach, Mach.mgmtDrop_raw, Mach.openMgmt_raw, Mach.prove_raw,
    State.mgmtRequest_raw, Mach.notePeer_raw, Mach.closeFrom_raw]

@[simp] theorem Mach.ptpBytes_raw (m : Mach) (p : Nat) (l : List Nat) : (m.ptpBytes p l).raw = m.raw := by
  unfold Mach.ptpBytes
  split <;> simp only [Mach.ptpMessage_raw, Mach.ethDrop_raw]

@[simp] theorem Mach.arpClass_raw (m : Mach) (e : EthIn) : (m.arpClass e).raw = m.raw := by
  simp only [Mach.arpClass, Mach.raw_ite, ite_self, Mach.ethDrop_raw, Mach.limitedReply_raw, Mach.neighbourReply_raw]

@[simp] theorem Mach.queryClass_raw (m : Mach) (p : Nat) (v6 : Bool) (group : Nat) :
    (m.queryClass p v6 group).raw = m.raw := by
  simp only [Mach.queryClass, Mach.raw_foldl, implies_true, Mach.frameSent_raw, Mach.emit_raw]

@[simp] theorem Mach.icmp6Class_raw (m : Mach) (e : EthIn) (src dst : Nat) (l : List Nat) :
    (m.icmp6Class e src dst l).raw = m.raw := by
  simp only [Mach.icmp6Class, Mach.raw_ite, ite_self, Mach.limitedReply_raw, Mach.neighbourReply_raw,
    Mach.queryClass_raw, Mach.ethDrop_raw]

@[simp] theorem Mach.icmp4Class_raw (m : Mach) (e : EthIn) (src dst : Nat) (l : List Nat) :
    (m.icmp4Class e src dst l).raw = m.raw := by
  simp only [Mach.icmp4Class, Mach.raw_ite, ite_self, Mach.limitedReply_raw, Mach.ethDrop_raw]

@[simp] theorem Mach.igmpClass_raw (m : Mach) (e : EthIn) (l : List Nat) : (m.igmpClass e l).raw = m.raw := by
  simp only [Mach.igmpClass, Mach.raw_ite, ite_self, Mach.queryClass_raw, Mach.ethDrop_raw]

@[simp] theorem State.udpClass_raw (s : State) (e : EthIn) (src dst : Nat) (l : List Nat) :
    (s.udpClass e src dst l).mach.raw = s.mach.raw := by
  simp only [State.udpClass]
  (repeat' split) <;> simp only [State.on_mach, Mach.ethDrop_raw, Mach.ptpBytes_raw, Mach.rtcp_raw, Mach.rtp_raw,
    State.mgmtDatagram_raw]

@[simp] theorem State.ipv4In_raw (s : State) (e : EthIn) : (s.ipv4In e).mach.raw = s.mach.raw := by
  simp only [State.ipv4In]
  (repeat' split) <;> simp only [State.on_mach, Mach.ethDrop_raw, State.udpClass_raw, Mach.icmp4Class_raw,
    Mach.igmpClass_raw]

@[simp] theorem State.ipv6In_raw (s : State) (e : EthIn) : (s.ipv6In e).mach.raw = s.mach.raw := by
  simp only [State.ipv6In]
  (repeat' split) <;> simp only [State.on_mach, Mach.ethDrop_raw, State.udpClass_raw, Mach.icmp6Class_raw]

@[simp] theorem State.etherType_raw (s : State) (e : EthIn) (type : Nat) :
    (s.etherType e type).mach.raw = s.mach.raw := by
  simp only [State.etherType]
  (repeat' split) <;> simp only [State.on_mach, Mach.ethDrop_raw, Mach.arpClass_raw, State.ipv4In_raw,
    State.ipv6In_raw, Mach.ptpBytes_raw]

@[simp] theorem State.ethTag_raw (s : State) (p : Nat) (l : List Nat) : (s.ethTag p l).mach.raw = s.mach.raw := by
  simp only [State.ethTag, State.raw_ite, ite_self, State.etherType_raw, State.on_mach, Mach.ethDrop_raw]

@[simp] theorem State.ethFrameReceive_raw (s : State) (p : Nat) (l : List Nat) (full : Bool) :
    (s.ethFrameReceive p l full).mach.raw = s.mach.raw := by
  unfold State.ethFrameReceive
  dsimp only
  (repeat' split) <;> simp only [State.on_mach, Mach.count_raw, Mach.ethDrop_raw, Mach.chkUnit_raw, State.ethTag_raw]

@[simp] theorem State.jobFold_raw {β : Type} (f : β → List Nat → β) (by_ : Master) (fuel a n : Nat) (x : β)
    (s : State) : (s.jobFold f by_ fuel a n x).2.mach.raw = s.mach.raw := by
  induction fuel generalizing a n x s with
  | zero => rfl
  | succ fuel ih =>
    rw [State.jobFold]
    split
    · rfl
    · dsimp only
      split
      · exact State.localRead_raw ..
      · rw [ih, State.localRead_raw]

@[simp] theorem State.jobWrite_raw (by_ : Master) (fuel a : Nat) (l : List Nat) (s : State) :
    (State.jobWrite by_ fuel a l s).2.mach.raw = s.mach.raw := by
  induction fuel generalizing a l s with
  | zero => rfl
  | succ fuel ih =>
    rw [State.jobWrite]
    split
    · rfl
    · dsimp only
      split
      · exact State.localWrite_raw ..
      · rw [ih, State.localWrite_raw]

@[simp] theorem Mach.jobFault_raw (m : Mach) (c : Nat) : (m.jobFault c).raw = m.raw := by
  simp only [Mach.jobFault, Mach.chkEnd_raw, Mach.trouble_raw]

@[simp] theorem Mach.jobCompare_raw (m : Mach) (c : Nat) (j : ChkJob) (value : Nat) (good : Bool) :
    (m.jobCompare c j value good).raw = m.raw := by
  simp only [Mach.jobCompare, Mach.raw_ite, ite_self, Mach.raw_put, Mach.chkEnd_raw, Mach.troubleBit_raw,
    Mach.count_raw, Mach.raw_bump, Mach.trouble_raw]

@[simp] theorem State.jobEnd_raw (s : State) (c : Nat) (j : ChkJob) (value : Nat) :
    (s.jobEnd c j value).mach.raw = s.mach.raw := by
  unfold State.jobEnd
  dsimp only
  split
  · rw [Mach.chkEnd_raw]
  · rw [Mach.jobCompare_raw]
  · rw [Mach.raw_ite, Mach.chkEnd_raw, Mach.jobFault_raw, ite_self, State.jobWrite_raw]
  · split
    · next h => rw [Mach.jobFault_raw, State.raw_of_snd h, State.jobFold_raw]
    · next h => rw [Mach.jobCompare_raw, State.raw_of_snd h, State.jobFold_raw]

@[simp] theorem State.chkJobDone_raw (s : State) (c : Nat) : (s.chkJobDone c).mach.raw = s.mach.raw := by
  unfold State.chkJobDone
  split
  · rfl
  · dsimp only
    split
    · next h => rw [Mach.jobFault_raw, State.raw_of_snd h, State.jobFold_raw]
    · next h => rw [State.jobEnd_raw, State.raw_of_snd h, State.jobFold_raw]

@[simp] theorem State.deliverReply_raw (s : State) (x : RemoteReq) (status : Nat) (r : Reply) (timeout : Bool) :
    (s.deliverReply x status r timeout).mach.raw = s.mach.raw := by
  unfold State.deliverReply
  split <;> simp only [State.raw_ite, ite_self, State.seqReply_raw, State.on_mach, Mach.mgmtReply_raw,
    Mach.spiReadEnd_raw, Mach.setTst_raw]

@[simp] theorem State.afterReply_raw (s : State) : s.afterReply.mach.raw = s.mach.raw := by
  simp only [State.afterReply, State.on_mach, Mach.releaseHeld_raw, State.raw_foldl, implies_true, State.seqRetry_raw,
    State.mgmtRetry_raw, State.spiRetry_raw]

@[simp] theorem State.endRequest_raw (s : State) (x : RemoteReq) (status : Nat) (data : List Nat) (timeout : Bool) :
    (s.endRequest x status data timeout).mach.raw = s.mach.raw := by
  simp only [State.endRequest, State.on_mach, Mach.setFab_raw, State.raw_ite, ite_self, Mach.remoteFault_raw,
    State.afterReply_raw, State.deliverReply_raw]

@[simp] theorem State.memRsp_raw (s : State) (tag status : Nat) (data : List Nat) :
    (s.memRsp tag status data).mach.raw = s.mach.raw := by
  unfold State.memRsp
  split <;> simp only [State.endRequest_raw]

@[simp] theorem State.memTimeout_raw (s : State) (tag : Nat) : (s.memTimeout tag).mach.raw = s.mach.raw := by
  unfold State.memTimeout
  split <;> simp only [State.endRequest_raw]

@[simp] theorem Mach.stateCommand_raw (m : Mach) (p : Nat) (c : StateMsg) : (m.stateCommand p c).raw = m.raw := by
  simp only [Mach.stateCommand, Mach.stateMsg_raw, Mach.raw_ite, ite_self, Mach.quarantine_raw]

@[simp] theorem Mach.ctrlFlit_raw (m : Mach) (p : Nat) (f : Flit) : (m.ctrlFlit p f).raw = m.raw := by
  unfold Mach.ctrlFlit
  split <;> simp only [Mach.config_raw, Mach.joinCommand_raw, Mach.acceptMsg_raw, Mach.refuseMsg_raw,
    Mach.leaveMsg_raw, Mach.flowDownMsg_raw, Mach.malformed_raw]

@[simp] theorem State.memReqPacket_raw (s : State) (p src : Nat) (l : List Nat) :
    (s.memReqPacket p src l).mach.raw = s.mach.raw := by
  simp only [State.memReqPacket, State.raw_ite, ite_self, State.on_mach, Mach.malformed_raw, Mach.fabDrop_raw,
    State.memReq_raw]

@[simp] theorem State.routedPacket_raw (s : State) (p type src : Nat) (l : List Nat) :
    (s.routedPacket p type src l).mach.raw = s.mach.raw := by
  unfold State.routedPacket
  split <;> simp only [State.on_mach, Mach.touchRx_raw, State.memReqPacket_raw, State.raw_ite, ite_self,
    Mach.malformed_raw, State.memRsp_raw, State.mgmtDatagram_raw, Mach.doorbell_raw]

@[simp] theorem Mach.flowPacket_raw (m : Mach) (e : FlowEntry) (l : List Flit) : (m.flowPacket e l).raw = m.raw := by
  simp only [Mach.flowPacket]
  (repeat' split) <;> simp only [Mach.sliceReceive_raw, Mach.spanBandRow_raw]

@[simp] theorem Mach.labelFlit_raw (m : Mach) (p : Nat) (f : Flit) : (m.labelFlit p f).raw = m.raw := by
  unfold Mach.labelFlit
  split
  · rfl
  · next e _ =>
    dsimp only
    have hn : ((m.noteHead e f).forwardLabel e f).raw = m.raw := by rw [Mach.forwardLabel_raw, Mach.noteHead_raw]
    split
    · exact hn
    · split
      · next h => rw [Mach.flowPacket_raw, Mach.raw_of_snd h, Mach.assemble_raw, hn]
      · next h => rw [Mach.raw_of_snd h, Mach.assemble_raw, hn]

@[simp] theorem State.routedFlit_raw (s : State) (p : Nat) (f : Flit) : (s.routedFlit p f).mach.raw = s.mach.raw := by
  unfold State.routedFlit
  split
  · exact Mach.forwardRouted_raw ..
  · split
    · next h => rw [State.routedPacket_raw, Mach.raw_of_snd h, Mach.assemble_raw]
    · next h => rw [Mach.raw_of_snd h, Mach.assemble_raw]

@[simp] theorem State.flitContent_raw (s : State) (p : Nat) (f : Flit) :
    (s.flitContent p f).mach.raw = s.mach.raw := by
  simp only [State.flitContent]
  (repeat' split) <;> simp only [State.on_mach, Mach.malformed_raw, Mach.ctrlFlit_raw, Mach.stateCommand_raw,
    Mach.labelFlit_raw, State.routedFlit_raw]

@[simp] theorem State.deliverHome_raw (s : State) : s.deliverHome.mach.raw = s.mach.raw := by
  simp only [State.deliverHome, State.raw_foldl, implies_true, State.routedPacket_raw, State.on_mach, Mach.setFab_raw]

@[simp] theorem State.flitReceive_raw (s : State) (p : Nat) (f : Flit) : (s.flitReceive p f).mach.raw = s.mach.raw := by
  unfold State.flitReceive
  split
  · rfl
  · split
    · split
      · rfl
      · split
        · rw [State.on, Mach.fabDrop_raw, Mach.chkUnit_raw, Mach.count_raw]
        · rw [State.on, Mach.config_raw, Mach.chkUnit_raw, Mach.count_raw]
    · split
      · next h => rw [Mach.raw_of_snd h, Mach.linkAccept_raw]
      · next h => rw [State.raw_ite, State.flitContent_raw, ite_self, Mach.raw_of_snd h, Mach.linkAccept_raw]

@[simp] theorem Mach.frameStart_raw (m : Mach) : m.frameStart.raw = m.raw := by
  simp only [Mach.frameStart, Mach.raw_ite, ite_self, Mach.showSuspended_raw, Mach.dutyFrame_raw, Mach.lutFrame_raw,
    Mach.decStage_raw, Mach.scanFrameStart_raw, Mach.s5Frame_raw]

@[simp] theorem Mach.latchLine_raw (m : Mach) : m.latchLine.raw = m.raw := by
  simp only [Mach.latchLine, Mach.dutyLatch_raw, Mach.lutLatch_raw, Mach.latchCommits_raw, Mach.decAgain_raw]

@[simp] theorem State.bandSlotStart_raw (s : State) (b : Nat) : (s.bandSlotStart b).mach.raw = s.mach.raw := by
  simp only [State.bandSlotStart, State.raw_ite, ite_self, State.cmpSignatures_raw, State.renderBand_raw,
    State.on_mach, Mach.bandSlot_raw]

@[simp] theorem State.bandOverrunAt_raw (s : State) (k : Nat) (ns : List Nat) :
    (s.bandOverrunAt k ns).mach.raw = s.mach.raw := by
  simp only [State.bandOverrunAt, State.raw_ite, ite_self, State.renderColumns_raw, State.on_mach,
    Mach.bandOverrun_raw]

@[simp] theorem State.frameDoneAt_raw (s : State) : s.frameDoneAt.mach.raw = s.mach.raw := by
  simp only [State.frameDoneAt, State.on_mach, State.cmpSignatures_raw, Mach.frameDone_raw]

end Sys2Proof.Machine
end

section
/-! SUPPORT. The raw counter under the tick and the end of a command (R60). -/

namespace Sys2Proof.Machine

@[simp] theorem Mach.freeEvents_raw (m : Mach) : m.freeEvents.2.raw = m.raw := by
  simp only [Mach.freeEvents, Mach.freeBits_raw]

@[simp] theorem Mach.freeTraffic_raw (m : Mach) : m.freeTraffic.raw = m.raw := by
  simp only [Mach.freeTraffic, Mach.freeBits_raw, Mach.count_raw]

@[simp] theorem Mach.edge_raw (m : Mach) : m.edge.raw = m.raw := by
  simp only [Mach.edge, Mach.freeEvents_raw, Mach.raw_foldl, implies_true, Mach.raw_ite, ite_self, Mach.count_raw,
    Mach.freeTraffic_raw]

@[simp] theorem Mach.tick_raw (m : Mach) : m.tick.raw = m.raw + 1 := by
  simp only [Mach.tick, Mach.raw_ite, Mach.edge_raw, Mach.slots_raw, ite_self]

@[simp] theorem State.done_raw (old s : State) : (old.done s).mach.raw = s.mach.raw := by
  simp only [State.done, State.burn_raw, State.on_raw, Mach.finish_raw]

@[simp] theorem State.hostWrite_raw (s : State) (by_ : Master) (a n v : Nat) :
    (s.hostWrite by_ a n v).mach.raw = s.mach.raw := by
  simp only [State.hostWrite, State.raw_ite, ite_self, State.localWrite_raw, State.on_mach, Mach.emit_raw]

@[simp] theorem State.hostRead_raw (s : State) (by_ : Master) (a n : Nat) :
    (s.hostRead by_ a n).mach.raw = s.mach.raw := by
  simp only [State.hostRead, State.raw_ite, ite_self, State.localRead_raw, State.on_mach, Mach.emit_raw]

@[simp] theorem State.sliceEmitAt_raw (s : State) (n : Nat) (nals : List (List Nat)) :
    (s.sliceEmitAt n nals).mach.raw = s.mach.raw := by
  simp only [State.sliceEmitAt, Mach.sliceEmit_raw, State.raw_foldl, implies_true, State.setByte_raw]

@[simp] theorem Mach.proxCommand_raw (m : Mach) (g n : Nat) : (m.proxCommand g n).raw = m.raw := by
  simp only [Mach.proxCommand, Mach.proxSample_raw, Mach.raw_ite, ite_self, Mach.sleepWake_raw]

@[simp] theorem Mach.bypassCode_raw (m : Mach) (code : Nat) : (m.bypassCode code).raw = m.raw := by
  simp only [Mach.bypassCode, Mach.raw_ite, ite_self, Mach.loadIr_raw]

end Sys2Proof.Machine
end

section
/-! SUPPORT. The raw counter under every command and under the tick (R60). -/

namespace Sys2Proof.Machine

/-- A next state that is answered has the raw counter n. -/
def RawIs (n : Nat) (r : Result) : Prop := ∀ t, r = .next t → t.mach.raw = n

theorem State.ends_raw {s t : State} {n : Nat} (h : t.mach.raw = n) : RawIs n (s.ends t) := by
  intro u hu
  rw [← Host.Outcome.next.inj hu, State.done_raw, h]

theorem State.ends_if_raw {s t : State} {b : Bool} (h : t.mach.raw = s.mach.raw) :
    RawIs s.mach.raw (s.ends (if b then t else s)) :=
  State.ends_raw (by rw [State.raw_ite, h, ite_self])

theorem State.always_raw {s : State} {f : Mach → Mach} (h : ∀ n, f s.mach = n → n.raw = s.mach.raw) :
    RawIs s.mach.raw (s.always f) := State.ends_raw (by rw [State.on_raw, h _ rfl])

theorem State.gated_raw {s : State} {b : Bool} {f : Mach → Mach} (h : ∀ n, f s.mach = n → n.raw = s.mach.raw) :
    RawIs s.mach.raw (s.gated b f) := State.ends_if_raw (by rw [State.on_raw, h _ rfl])

theorem exec_raw {c : Instr} (hc : c ≠ .por) (s : State) : RawIs s.mach.raw (exec c s) := by
  cases c
  case registerWrite | encKeyReq | encLtrReq | cmpGroupCommit | cmpFence | cmpFenceClr | cmpReadoutIn | lutSwap |
    lutWindowWrite | auxGo | scnBlWrite | tchRebase | tchTestGo | evcPendWrite | evcHostPendWrite | evcDoorbell | i2cGo
    | gateCommit | gateSyncWrite | chkCompute | chkCheck | chkAppend | chkCheckStrip | flashRead | flashProgram |
    flashErase | svcNew | svcVerify | requestLive | requestStandby | requestSleep | requestService | requestHalt |
    sysResetReq | softEth | softCap | softDec | softEnc | softTch | softChk | sysWdtKick | pmcSnap | pmcSw =>
    exact State.ends_raw (s.hostWrite_raw ..)
  case lowWordRead | capStampRead | cmpReceiptRead | cmpReleaseRead | tchReportRead | seqLogRead | gateSyncRead |
    gateRecordRead | pmcSampRead | tstResultRead =>
    exact State.ends_raw (s.hostRead_raw ..)
  case seqNop | seqWrite32 | seqWrite64 | seqRmw | seqWaitEvent | seqWaitTime | seqIfBits | seqJump | seqFence |
    seqSignal | seqCommit | seqCopy | seqLog | seqYield | seqEnd =>
    exact State.ends_raw (s.seqIssue_raw ..)
  case clockFault | panelStep | proxSample | delivery | seqWaitTimeExpiry | seqRunLimit | gpioEdge | spiStatus |
    spiReadData | spiCsLimit | spiUnknownCommand | resetN | holdEnd | leaveJoin | joinLimit | wakeTimer | sleepEntryDone
    | sleepWake | sysWdtWarn | wdtExpiry | wdtCountDrop | pwrRail | pwrStageUp | pwrStageDown | s5Dwell | sagRestart |
    tstPeriod | tapReset | idcode | samplePreload | extest | extestPulse | extestTrain | clamp | highz | bypass |
    fuseProg | dbgNop | dbgRead32 | dbgWrite32 | dbgRead64 | dbgWrite64 | dbgFence =>
    refine State.always_raw ?_
    rintro _ rfl
    simp
  case timeFlitSend | timeSettled | timeHoldover | rootLost | claim | timeParentChange | preemptClaim | refPpsEdge |
    refF10mGate | timeRefLost | ptpMessageTimer | join | accept | refuse | leave | flowDown | rejoin | resvCheck |
    state | peerUnknown | doorbell | streamSliceReceive | spanBandRowReceive | auReleaseTimeout | streamSilent |
    ethLink | neighbourRequest | neighbourExpire | membershipReport | rtcpSrSend | openMgmt | prove | mgmtFence |
    mgmtPending | close | mgmtIdle | csiFrameStart | csiLine | csiFrameEnd | capSilent | sliceDecoded | workLimit |
    contextResetEnd | rowCoded | rowLimitReached | latchLine | applyPoint | readoutTimeout | lutSwapChecked |
    tchCycleStart | listenEnd | scanEnd | scanLate | baselineAdopted | unconfAdopt | stuckContact | tchTestDone |
    tchRx | tchRxSilent | holdoffEnd | noRootSeen | ptpReferenceLost | flowSilent | timeFlitReceive | portTrain |
    trainFail | configSend | config | configTimeout | nak | idleLimit | retrain | portDisable | stateFlood | trainLock
    | pulseArm | pulseEdge | captureEdge | mgmtLockoutEnd | capEnWrite | i2cDone | i2cTimeout | flashEraseTimeout |
    svcChallengeExpiry | pwrThermal | thermalClear | thermalCrit | pmcWrap | sensorRead | telRecord | pulseReturn |
    frameStart | vblank | lutEccFatal | hpdPlug | hpdUnplug | irqHpd | dpRetry | auxReplyTimeout | auxReply | noHpd |
    faultHoldEnd | hpdShortPulse | eventArrival | cisternFatal =>
    refine State.gated_raw ?_
    rintro _ rfl
    simp [Mach.raw_ite]
  case bandSlotStart => exact State.ends_raw (s.bandSlotStart_raw ..)
  case bandOverrun => exact State.ends_raw (s.bandOverrunAt_raw ..)
  case cmpFrameDone => exact State.ends_raw (s.frameDoneAt_raw ..)
  case flitReceive => exact State.ends_raw (s.flitReceive_raw ..)
  case memReq => exact State.ends_if_raw (s.memReq_raw ..)
  case memRsp => exact State.ends_if_raw (s.memRsp_raw ..)
  case memTimeout => exact State.ends_if_raw (s.memTimeout_raw ..)
  case ethFrameReceive => exact State.ends_raw (s.ethFrameReceive_raw ..)
  case mgmtRead => exact State.ends_raw (s.mgmtReadFrom_raw ..)
  case mgmtWrite => exact State.ends_raw (s.mgmtWriteFrom_raw ..)
  case sliceEmit => exact State.ends_if_raw (s.sliceEmitAt_raw ..)
  case sigOutComplete => exact State.ends_if_raw (s.outSignature_raw ..)
  case seqPoll => exact State.ends_raw (s.seqPoll_raw ..)
  case seqPollTimeout => exact State.ends_raw (s.seqPollTimeout_raw ..)
  case seqWaitEventTimeout => exact State.ends_raw (s.seqWaitEventTimeout_raw ..)
  case sysFenceRead => exact State.ends_raw (by rw [State.raw_ite, State.hostRead_raw, ite_self])
  case spiWrite => exact State.ends_raw (s.spiWrite_raw ..)
  case spiReadReq => exact State.ends_raw (s.spiReadReq_raw ..)
  case chkJobDone => exact State.ends_raw (s.chkJobDone_raw ..)
  case load => exact State.ends_raw (s.loadCommand_raw ..)
  case imageCheck => exact State.ends_raw (s.imageCheckCommand_raw ..)
  case flashDone => exact State.ends_raw (s.flashDone_raw ..)
  case por => exact absurd rfl hc
  case troubleLogWrite => exact State.ends_raw (s.troubleLogWrite_raw ..)
  case badgerSlot => exact State.ends_raw (by simp)
  case proveTests => exact State.ends_raw (s.proveTests_raw ..)
  case fuseRead => exact State.ends_raw (by simp)
  case dbgFuseDone => exact State.ends_raw (s.dbgFuseDone_raw ..)
  case dbgAccessDone => exact State.ends_raw (s.dbgAccessDone_raw ..)

/-- Settles O44: every function that a command other than POR calls keeps the raw counter, POR begins it at 0, and the
tick counts one on. That a step on an empty queue is its tick is the model's choice (log entry 4). -/
theorem rawCounter : Obligations.RawCounter := by
  unfold Obligations.RawCounter
  refine ⟨fun c s t hc h => exec_raw hc s t h, fun s t h => State.ends_raw s.powerOn_raw t h, fun s t hp h => ?_⟩
  have hi : step s = s.idle := by simp only [step, hp]
  exact State.ends_raw (by rw [State.on_raw, Mach.tick_raw, State.deliverHome_raw]) t (hi ▸ h)

end Sys2Proof.Machine
end

section
/-! SUPPORT. Fabric ports: training, CONFIG, NAK and link down, and what each command does when its conditions hold. -/

namespace Sys2Proof.Machine

section
variable {m : Mach} {p : Nat}

theorem Mach.portTrain_down (h : m.portState p = portDown) (he : m.on F.FAB_PORT_CTL_EN p = true) :
    m.portTrain p = m.put F.FAB_PORT_STATUS_STATE portTrainSt p :=
  if_pos ⟨h, he⟩

theorem Mach.trainFail_training (h : m.portState p = portTrainSt) :
    m.trainFail p =
      let n := m.portToDown p portDown
      ((((n.setFabPort p { n.fabPort p with backoff := nextBackoff (n.fabPort p).backoff }).trouble
        F.FAB_PORT_TROUBLE_TRAIN_FAIL p).trouble F.FAB_PORT_TROUBLE_LINK_DOWN p).raise (34 + 8 * p)).raise (33 + 8 * p) :=
  if_pos h

/-- A lock on lanes and at a rate that the port allows leads to CONFIG (R94, R95). -/
theorem Mach.trainLock_allowed {lanes rate : Nat} (h : m.portState p = portTrainSt)
    (hl : lanes = 4 ∨ (lanes = 2 ∧ m.get F.FAB_PORT_CTL_WIDTH_MIN p = 2)) (h1 : 1 ≤ rate)
    (hr : rate ≤ m.get F.FAB_PORT_CTL_RATE_MAX p) :
    m.trainLock p lanes rate = ((m.put F.FAB_PORT_STATUS_STATE portConfig p).put F.FAB_PORT_STATUS_RATE rate p).put
      F.FAB_PORT_STATUS_WIDTH lanes p :=
  (if_neg (not_not_intro h)).trans (if_pos ⟨hl, h1, hr⟩)

theorem Mach.configSend_config (h : m.portState p = portConfig) :
    m.configSend p = (m.emit (.flit p (configFlit (m.ownConfig p).words))).flitSent p :=
  if_pos h

theorem Mach.configTimeout_config (h : m.portState p = portConfig) :
    m.configTimeout p =
      let n := m.portToDown p portDown
      (n.setFabPort p { n.fabPort p with backoff := nextBackoff (n.fabPort p).backoff }).raise (34 + 8 * p) :=
  if_pos h

/-- The peer's values are news unless each of them stands in its field already (R96). -/
theorem Mach.peerChanged_iff {c : ConfigBody} :
    (m.get F.FAB_PORT_STATUS_PEER_MODE p ≠ c.mode ∨ m.get F.FAB_PORT_STATUS_PEER_NODE p ≠ c.node ∨
      m.on F.FAB_PORT_STATUS_PEER_ID_VALID p ≠ c.idValid) ↔
    ¬ (m.get F.FAB_PORT_STATUS_PEER_MODE p = c.mode ∧ m.get F.FAB_PORT_STATUS_PEER_NODE p = c.node ∧
      m.on F.FAB_PORT_STATUS_PEER_ID_VALID p = c.idValid) := by
  rw [not_and_or, not_and_or]

/-- A port that carries flits copies the peer's values, and becomes ACTIVE or is DISABLED by them (R96, R114). -/
theorem Mach.config_up {c : ConfigBody} (h : m.portState p = portConfig ∨ m.portState p = portActiveSt) :
    m.config p c =
      let n := (((m.put F.FAB_PORT_STATUS_PEER_PORT c.port p).putB F.FAB_PORT_STATUS_PEER_ID_VALID c.idValid p).put
        F.FAB_PORT_STATUS_PEER_NODE c.node p).put F.FAB_PORT_STATUS_PEER_MODE c.mode p
      let n := if m.get F.FAB_PORT_STATUS_PEER_MODE p = c.mode ∧ m.get F.FAB_PORT_STATUS_PEER_NODE p = c.node ∧
        m.on F.FAB_PORT_STATUS_PEER_ID_VALID p = c.idValid then n else n.raise (38 + 8 * p)
      if n.topoMismatch p c then (n.portFell p portDisabled).trouble F.FAB_PORT_TROUBLE_TOPO_MISMATCH p
      else (if m.portState p = portConfig then n.portActivate p else n).walkId := by
  have hup : ¬ (m.portState p ≠ portConfig ∧ m.portState p ≠ portActiveSt) := fun ⟨hc, ha⟩ => h.elim hc ha
  simp only [Mach.config, if_neg hup, Mach.peerChanged_iff, ite_not]

theorem Mach.idleLimit_active (h : m.portActive p = true) :
    m.idleLimit p = m.linkDown p portDown (some F.FAB_PORT_TROUBLE_IDLE_LIMIT) :=
  if_pos h

/-- The event of a retraining leaves the port ACTIVE, so its link goes down (R95, R123). -/
theorem Mach.retrain_active (h : m.portActive p = true) :
    m.retrain p = ((m.raise (34 + 8 * p)).linkDown p portDown none).put F.FAB_PORT_STATUS_STATE portTrainSt p :=
  if_pos ((Mach.portActive_frame (Mach.frame_raise m _) (by decide) p).trans h)

theorem Mach.portDisable_enabled (h : m.on F.FAB_PORT_CTL_EN p = true) :
    m.portDisable p = (m.putB F.FAB_PORT_CTL_EN false p).linkDown p portDisabled none :=
  if_pos h

/-- A NAK has what it leaves unacknowledged sent again, until too many come in a row (R100, R102). -/
theorem Mach.nakMsg_active {a : Nat} (h : m.portActive p = true) :
    m.nakMsg p a =
      let x := (m.fabPort p).ack a
      let naks := if 0 < x.1 then 0 else x.2.naksInRow + 1
      let n := m.setFabPort p { x.2 with resend := x.2.replay, naksInRow := naks }
      if 0 < naks ∧ m.get F.FAB_PORT_LIMITS_REPLAY_LIMIT p ≤ naks then
        n.linkDown p portDown (some F.FAB_PORT_TROUBLE_REPLAY_LIMIT)
      else n := by
  simp only [Mach.nakMsg, h, Bool.and_eq_true, decide_eq_true_eq]
  rfl

end

/-- Settles O5: each command of a port acts while the links run, and each clause is the branch of the command that its
conditions choose. That CONFIG is sent under count 0 (log entry 65), and the credits that a port grants as it becomes ACTIVE
(log entry 19), are the model's choices. -/
theorem portCommands : Obligations.PortCommands := by
  unfold Obligations.PortCommands
  refine ⟨?train, ?fail, ?lock, ?configSend, ?configTimeout, ?config, ?idleLimit, ?retrain, ?disable, ?nak⟩
  case train => exact fun s p hl h he => exec_linked hl rfl (Mach.portTrain_down h he)
  case fail => exact fun s p hl h => exec_linked hl rfl (Mach.trainFail_training h)
  case lock => exact fun s p lanes rate hl h hw h1 hr => exec_linked hl rfl (Mach.trainLock_allowed h hw h1 hr)
  case configSend => exact fun s p hl h => exec_linked hl rfl (Mach.configSend_config h)
  case configTimeout => exact fun s p hl h => exec_linked hl rfl (Mach.configTimeout_config h)
  case config => exact fun s p c hl h => exec_linked hl rfl (Mach.config_up h)
  case idleLimit => exact fun s p hl h => exec_linked hl rfl (Mach.idleLimit_active h)
  case retrain => exact fun s p hl h => exec_linked hl rfl (Mach.retrain_active h)
  case disable => exact fun s p hl h => exec_linked hl rfl (Mach.portDisable_enabled h)
  case nak => exact fun s p a hl h => exec_linked hl rfl (Mach.nakMsg_active h)

end Sys2Proof.Machine
end

section
/-! SUPPORT. Flits that arrive on an ACTIVE port: accepted, a repeat, or answered with a NAK. -/

namespace Sys2Proof.Machine

section
variable {m : Mach} {p : Nat} {f : Flit}

/-! ### What the link layer makes of a flit (R100) -/

/-- A flit under the count expected is accepted. -/
theorem Mach.linkAccept_expected (ho : (m.fabPort p).crcOk f = true)
    (hc : (m.fabPort p).countOf f = (m.fabPort p).rxCount) :
    m.linkAccept p f =
      let x := m.fabPort p
      let y : FabPort := { x.granted f with rxCount := x.rxCount + 1, nakSent := false }
      (true, (((m.chkUnit p true).setFabPort p (if f.type = 0 then y else y.owes f.creditKey)).count (33 + 8 * p)).takeAck p f) := by
  simp [Mach.linkAccept, ho, hc]

/-- A flit under a count that has been accepted only acknowledges (log entry 15). -/
theorem Mach.linkAccept_repeated (ho : (m.fabPort p).crcOk f = true)
    (hc : (m.fabPort p).countOf f < (m.fabPort p).rxCount) :
    m.linkAccept p f = (false, (m.chkUnit p true).takeAck p f) := by
  simp [Mach.linkAccept, ho, hc, hc.ne]

/-- A flit that leaves a gap is answered with a NAK, unless one has been sent for the gap. -/
theorem Mach.linkAccept_gap (ho : (m.fabPort p).crcOk f = true)
    (hc : (m.fabPort p).rxCount < (m.fabPort p).countOf f) (hn : (m.fabPort p).nakSent = false) :
    m.linkAccept p f =
      (false, ((m.chkUnit p true).setFabPort p { m.fabPort p with nakSent := true, nakDue := true }).count (35 + 8 * p)) := by
  simp [Mach.linkAccept, ho, hc.ne', hc.not_gt, hn]

/-- A flit that fails its CRC is counted and answered in the same way. -/
theorem Mach.linkAccept_bad (ho : (m.fabPort p).crcOk f = false) (hn : (m.fabPort p).nakSent = false) :
    m.linkAccept p f = (false, (((m.chkUnit p false).count (34 + 8 * p)).setFabPort p
      { m.fabPort p with nakSent := true, nakDue := true }).count (35 + 8 * p)) := by
  simp [Mach.linkAccept, ho, hn]

/-- What accepts a flit without NAK leaves the port ACTIVE. -/
theorem Mach.portActive_accepted {x : FabPort} (ha : m.portActive p = true) (hn : f.nak = false) :
    ((((m.chkUnit p true).setFabPort p x).count (33 + 8 * p)).takeAck p f).portActive p = true := by
  have hframe : m.Frame (.CHK_CH_UNITS :: flagRegs)
      ((((m.chkUnit p true).setFabPort p x).count (33 + 8 * p)).takeAck p f) :=
    (((Mach.frame_chkUnit_good _ _).trans (Mach.frame_setFabPort _ p x)).trans
      ((Mach.frame_count _ _ _).mono (List.subset_cons_self _ _))).trans (Mach.frame_takeAck hn)
  exact (Mach.portActive_frame hframe (by decide) p).trans ha

theorem Mach.carries_active (hl : m.linksRun = true) (hp : p < 8) (ha : m.portActive p = true) :
    m.carries p = true := by
  have hst : m.portState p = portActiveSt := of_decide_eq_true ha
  simp [Mach.carries, Mach.portUp, hl, hp, hst]

/-- An IDLE flit on any channel, with no body, is well formed (R99). -/
theorem Mach.isMalformed_idleFlit (ht : f.type = 0) (hv : f.vc < 4) (hb : f.bodyLen = 0) : m.isMalformed p f = false := by
  have hvc : f.vc = 0 ∨ f.vc = 1 ∨ f.vc = 2 ∨ f.vc = 3 := by omega
  simp [Mach.isMalformed, flitRow, Flit.labelled, ht, hb, hvc]

end

section
variable {s : State} {p : Nat} {f : Flit} {n : Mach}

/-- An IDLE flit has no content that acts (R100). -/
theorem State.flitContent_idle (ht : f.type = 0) (hv : f.vc < 4) (hb : f.bodyLen = 0) : s.flitContent p f = s := by
  simp [State.flitContent, Mach.isMalformed_idleFlit ht hv hb, ht]

section
variable (hl : s.mach.linksRun = true) (hp : p < 8) (ha : s.mach.portActive p = true) (ht : f.type ≠ 1)
include hl hp ha ht

/-- A flit that the link layer does not accept changes the link alone. -/
theorem exec_flitReceive_rejected {g : Mach → Mach} (h : s.mach.linkAccept p f = (false, g s.mach)) :
    exec (.flitReceive p f) s = .next (s.after g) := by
  have hf : s.flitReceive p f = s.on g := by
    simp only [State.flitReceive, Mach.carries_active hl hp ha, ha, ht, h]
    rfl
  exact congrArg s.ends hf

/-- The content of one that it accepts acts, if the port is still ACTIVE. -/
theorem exec_flitReceive_accepted (h : s.mach.linkAccept p f = (true, n)) (hn : n.portActive p = true) :
    exec (.flitReceive p f) s = .next (s.done (State.flitContent { s with mach := n } p f)) := by
  have hf : s.flitReceive p f = State.flitContent { s with mach := n } p f := by
    simp only [State.flitReceive, Mach.carries_active hl hp ha, ha, ht, h, hn]
    rfl
  exact congrArg s.ends hf

end

end

/-- Settles O6: on an ACTIVE port the link layer's answer to the flit decides, and the acceptance of a flit without NAK
leaves the port ACTIVE for its content. That IDLE flits are counted, and that a flit under a count already accepted only
acknowledges, are the model's choices (log entry 15). -/
theorem flitReceiveCommand : Obligations.FlitReceiveCommand := by
  unfold Obligations.FlitReceiveCommand
  refine ⟨?accepted, ?idle, ?repeated, ?gap, ?bad⟩
  case accepted =>
    exact fun s p f hl hp ha ht hn ho hc =>
      exec_flitReceive_accepted hl hp ha ht (Mach.linkAccept_expected ho hc) (Mach.portActive_accepted ha hn)
  case idle =>
    intro s p f hl hp ha ht hv hb hn ho hc
    rw [exec_flitReceive_accepted hl hp ha (by rw [ht]; decide) (Mach.linkAccept_expected ho hc)
      (Mach.portActive_accepted ha hn), State.flitContent_idle ht hv hb, if_pos ht]
    rfl
  case repeated =>
    exact fun s p f hl hp ha ht ho hc => exec_flitReceive_rejected hl hp ha ht (Mach.linkAccept_repeated ho hc)
  case gap =>
    exact fun s p f hl hp ha ht ho hc hn => exec_flitReceive_rejected hl hp ha ht (Mach.linkAccept_gap ho hc hn)
  case bad => exact fun s p f hl hp ha ht ho hn => exec_flitReceive_rejected hl hp ha ht (Mach.linkAccept_bad ho hn)

end Sys2Proof.Machine
end

section
/-! SUPPORT. Remote accesses: requests of other nodes, and the end of this node's own (R107). -/

namespace Sys2Proof.Machine

/-- A command on the state ends, while the node serves, in its effect. -/
theorem exec_ends_serving {c : Instr} {s t u : State} (hs : s.mach.serves = true)
    (he : exec c s = s.ends (if s.mach.serves then t else s)) (h : t = u) : exec c s = .next (s.done u) := by
  rw [he, if_pos hs, h]
  rfl

section
variable {s : State} {x : RemoteReq}

/-- A write of another node within the length of a request is performed under master 29, and answered. -/
theorem State.memReq_write {o : Nat} {q : MemReq} (hw : q.write = true) (h0 : 0 < q.data.length)
    (hl : q.data.length ≤ 4096) :
    s.memReq o q =
      let r := (s.on fun m => m.count 11).localWrite ⟨.remote o, 29⟩ q.addr q.data false
      r.2.on fun m => m.sendRsp o q.tag r.1.status [] := by
  have hn : ¬ (q.data.length = 0 ∨ 4096 < q.data.length) := by omega
  simp only [State.memReq, hw, if_true, if_neg hn]
  rfl

/-- So is a read, whose response carries the data unless the access failed. -/
theorem State.memReq_read {o : Nat} {q : MemReq} (hw : q.write = false) (h0 : 0 < q.len) (hl : q.len ≤ 4096) :
    s.memReq o q =
      let r := (s.on fun m => m.count 11).localRead ⟨.remote o, 29⟩ q.addr q.len
      r.2.on fun m => m.sendRsp o q.tag r.1.status (if r.1.cause.isSome then [] else r.1.data) := by
  have hn : ¬ (q.len = 0 ∨ 4096 < q.len) := by omega
  simp only [State.memReq, hw, Bool.false_eq_true, if_false, if_neg hn]
  rfl

/-- A read that ends well has the data of its response, to its own length. -/
theorem State.endRequest_read {data : List Nat} (hw : x.write = false) :
    s.endRequest x 0 data false =
      ((s.on fun m => m.setFab { m.fab with remote := m.fab.remote.filter fun (y : RemoteReq) => y.tag ≠ x.tag }).deliverReply
        x 0 ⟨none, false, (data ++ List.replicate x.len 0).take x.len⟩ false).afterReply := by
  simp [State.endRequest, hw]

/-- A read without a response is a fault with cause REMOTE, and returns zero (R107, R351). -/
theorem State.endRequest_readTimeout (hw : x.write = false) :
    s.endRequest x 3 [] true =
      (((s.on fun m => m.setFab { m.fab with remote := m.fab.remote.filter fun (y : RemoteReq) => y.tag ≠ x.tag }).on
        fun m => m.remoteFault x.by_ false x.node x.addr x.len x.posted).deliverReply
          x 3 ⟨some .remote, false, List.replicate x.len 0⟩ true).afterReply := by
  simp [State.endRequest, hw]

theorem State.memRsp_found {tag status : Nat} {data : List Nat} (h : s.mach.remoteReq (tag % 256) = some x) :
    s.memRsp tag status data = s.endRequest x (status % 16) data false := by
  simp only [State.memRsp, h]

theorem State.memTimeout_found {tag : Nat} (h : s.mach.remoteReq (tag % 256) = some x) :
    s.memTimeout tag = s.endRequest x 3 [] true := by
  simp only [State.memTimeout, h]

end

/-- Settles O7: while the node serves, a request of another node within the limits of its length is one local access, and
the response or the timeout of a read of this node ends the request of its tag. -/
theorem remoteAccessCommands : Obligations.RemoteAccessCommands := by
  unfold Obligations.RemoteAccessCommands
  refine ⟨?write, ?read, ?response, ?timeout⟩
  case write => exact fun s o q hs hw h0 hl => exec_ends_serving hs rfl (State.memReq_write hw h0 hl)
  case read => exact fun s o q hs hw h0 hl => exec_ends_serving hs rfl (State.memReq_read hw h0 hl)
  case response =>
    exact fun s tag data x hs hx hw =>
      exec_ends_serving hs rfl ((State.memRsp_found hx).trans (State.endRequest_read hw))
  case timeout =>
    exact fun s tag x hs hx hw =>
      exec_ends_serving hs rfl ((State.memTimeout_found hx).trans (State.endRequest_readTimeout hw))

end Sys2Proof.Machine
end

section
/-! SUPPORT. Flow entries: the messages that make, accept and end them, their members and their reservations. -/

namespace Sys2Proof.Machine

/-- A message that arrives on an ACTIVE port ends, while the node serves, in any effect that agrees with its own on the
machine as it stands. -/
theorem exec_message {c : Instr} {s : State} {p : Nat} {f g : Mach → Mach} (hs : s.mach.serves = true)
    (hp : s.mach.portActive p = true) (he : exec c s = s.serving fun m => if m.portActive p then f m else m)
    (h : f s.mach = g s.mach) : exec c s = .next (s.after g) :=
  exec_serving hs he ((if_pos hp).trans h)

section
variable {m n : Mach} {p q : Nat} {c : CtrlMsg} {e : FlowEntry} {key : FlowKey} {x : Member}

/-! ### JOIN (R109) -/

theorem Mach.joinCommand_far (ho : c.key.origin ≠ m.nodeId) : m.joinCommand q c = m.joinMsg q c .accept := by
  simp [Mach.joinCommand, ho]

theorem Mach.joinCommand_held (he : m.entryOf c.key = some e) : m.joinCommand q c = m.joinMsg q c .accept := by
  simp [Mach.joinCommand, he]

/-- A JOIN for a flow that is not held makes an entry towards its origin with a branch, and goes on (R109). -/
theorem Mach.joinMsg_new {ans : OriginAns} {l : Nat} (ho : c.key.origin ≠ m.nodeId) (he : m.entryOf c.key = none)
    (ht : m.towards c.key.origin = .inl p) (hl : m.freeLabel p = some l)
    (hb : m.addBranch { key := c.key, origin := false, port := p, label := l, local_ := false, group := none, vc := c.vc,
                        resv := c.resv, pktSeq := 0, headVc := c.vc } q c false = (0, n)) :
    m.joinMsg q c ans = n.sendCtrl p cmdJoin { c with label := l } := by
  simp [Mach.joinMsg, he, ho, ht, hl, hb]

/-- A JOIN for a flow that is held adds a branch, and is accepted at once (R109). -/
theorem Mach.joinMsg_held {ans : OriginAns} (he : m.entryOf c.key = some e) (hb : m.addBranch e q c true = (0, n)) :
    m.joinMsg q c ans = n.sendCtrl q cmdAccept c := by
  simp only [Mach.joinMsg, he, hb]

/-! ### Messages for the entry of a label (R109, R112, R122) -/

section
variable (he : m.entryAt p c.label = some e) (hk : e.key = c.key)
include he hk

theorem Mach.acceptMsg_entry :
    m.acceptMsg p c =
      let n := (m.branchesOf e.key).foldl (fun m b =>
        if b.accepted then m else m.sendCtrl b.port cmdAccept { c with label := b.label }) m
      let n := n.setBranches (n.fab.branches.map fun (b : Branch) => if b.key = e.key then { b with accepted := true } else b)
      match n.member e.key with
      | some x => if e.local_ then n.setMember { x with accepted := true, status := 0 } else n
      | none => n := by
  rw [Mach.acceptMsg, he]
  exact if_neg (not_not_intro hk)

theorem Mach.refuseMsg_entry :
    m.refuseMsg p c =
      let n := if e.local_ then m.noteRefusal p c.status c.refuser false else m.bump F.FAB_NODE_REFUSALS_COUNT
      let n := (n.branchesOf e.key).foldl (fun m b => m.sendCtrl b.port cmdRefuse { c with label := b.label }) n
      match (n.freeEntry e).member e.key with
      | some x => (n.freeEntry e).setMember { x with accepted := false, status := c.status }
      | none => n.freeEntry e := by
  rw [Mach.refuseMsg, he]
  exact if_neg (not_not_intro hk)

theorem Mach.flowDownMsg_entry : m.flowDownMsg p c = m.cutEntry e := by
  simp only [Mach.flowDownMsg, he, hk, if_true]

end

/-- The branch of the port that leaves goes, and the entry with it if nothing is left of it (R112). -/
theorem Mach.leaveMsg_entry (he : m.entryOf c.key = some e) :
    m.leaveMsg q c =
      ((m.setBranches (m.fab.branches.filter fun b => !(b.key = c.key && b.port = q))).showEntry e).reapEntry c.key := by
  simp only [Mach.leaveMsg, he]

/-! ### Members (R112, R122, R196) -/

/-- A member that waits sends its JOIN again, or joins anew where it holds no entry (R112, R122). -/
theorem Mach.rejoin_waiting (hx : m.member key = some x) (ha : x.accepted = false)
    (hst : x.status = 0 ∨ x.status = stPathDown ∨ x.status = stOriginAbsent) :
    m.rejoin key =
      match m.entryOf key with
      | some e => m.sendCtrl e.port cmdJoin { key := key, vc := e.vc, label := e.label, member := m.nodeId, refuser := 0,
                                              resv := e.resv, status := 0 }
      | none => m.joinOwn key x.vc := by
  rw [Mach.rejoin, hx]
  exact (if_neg (by simp [ha])).trans (if_pos hst)

/-- The layers of an accepted flow that falls silent take the stop cause of its origin's mode and its kind (R122, R196). -/
theorem Mach.flowSilent_accepted (hx : m.member key = some x) (he : m.entryOf key = some e) (ha : x.accepted = true)
    (hl : e.local_ = true) :
    m.flowSilent key = m.stopFeeds (flowFeed key)
      (if m.peerMode key.origin = 6 ∨ m.peerMode key.origin = 7 then reasonShed
       else if key.span then reasonLinkDown else reasonNoSignal) := by
  simp [Mach.flowSilent, hx, he, ha, hl]

/-! ### Reservations (R113) -/

/-- One reserved unit allows 100 flits in a window of 100 µs (R109, R113). -/
theorem resvFlits_eq (resv : Nat) : resvFlits resv = 100 * resv := Nat.mul_comm resv 100

/-- A window ends and the next begins. A flow that always had flits waiting, and sent fewer than 100 flits for each unit it
reserves, breaks the reservations. -/
theorem Mach.resvCheck_eq :
    m.resvCheck p =
      let x := m.fabPort p
      let n := m.setFabPort p { x with sent := [], gaps := [], contacts := false }
      let short := m.fab.branches.any fun b => b.port = p && b.vc = 2 && 0 < b.resv && !x.gaps.contains b.label
        && (x.txq.any fun t => t.vc = 2 && t.flowLabel = some b.label) && tGet x.sent 0 b.label < 100 * b.resv
      if short then ((n.troubleNoEntry F.FAB_NODE_TROUBLE_RESV_BROKEN).raise 63).ladder (if x.contacts then 3 else 2) 6 .fab
      else n := by
  simp only [Mach.resvCheck, resvFlits_eq]

end

/-- Settles O8: each command acts while the node serves, on a message where its port is ACTIVE, and under its clause's
conditions has the clause's effect. That an entry which falls back to one port branch keeps its multicast group (log entry
74), and the stop cause of a span that falls silent (log entry 75), are the model's choices. -/
theorem flowCommands : Obligations.FlowCommands := by
  unfold Obligations.FlowCommands
  refine ⟨?joinNew, ?joinHeld, ?accept, ?refuse, ?leave, ?flowDown, ?rejoin, ?resvCheck, ?flowSilent⟩
  case joinNew =>
    exact fun s q p l c n hs hq ho he ht hl hb =>
      exec_message hs hq rfl ((Mach.joinCommand_far ho).trans (Mach.joinMsg_new ho he ht hl hb))
  case joinHeld =>
    exact fun s q c e n hs hq he hb =>
      exec_message hs hq rfl ((Mach.joinCommand_held he).trans (Mach.joinMsg_held he hb))
  case accept => exact fun s p c e hs hp he hk => exec_message hs hp rfl (Mach.acceptMsg_entry he hk)
  case refuse => exact fun s p c e hs hp he hk => exec_message hs hp rfl (Mach.refuseMsg_entry he hk)
  case leave => exact fun s q c e hs hq he => exec_message hs hq rfl (Mach.leaveMsg_entry he)
  case flowDown => exact fun s p c e hs hp he hk => exec_message hs hp rfl (Mach.flowDownMsg_entry he hk)
  case rejoin => exact fun s key x hs hx ha hst => exec_serving hs rfl (Mach.rejoin_waiting hx ha hst)
  case resvCheck => exact fun s p hs hp => exec_message hs hp rfl Mach.resvCheck_eq
  case flowSilent => exact fun s key x e hs hx he ha hl => exec_serving hs rfl (Mach.flowSilent_accepted hx he ha hl)

end Sys2Proof.Machine
end

section
/-! SUPPORT. STATE flits and doorbells: what each command does when its conditions hold. -/

namespace Sys2Proof.Machine

section
variable {m : Mach} {p : Nat} {c : StateMsg}

theorem Mach.stateFlood_valid (hv : m.on F.FAB_NODE_ID_VALID = true) :
    m.stateFlood =
      let seq := (m.fab.ownSeq + 1) % 65536
      ({ m with fab := { m.fab with ownSeq := seq, peerSeq := tIns m.fab.peerSeq m.nodeId seq } } : Mach).sendState none
        { origin := m.nodeId, mode := m.get F.SYS_MODE_MODE, seq := seq, serial := m.cfg.serial } :=
  if_neg (by simp [hv])

/-- The STATE of another node's ID brings no clash (R115). -/
theorem Mach.clash_other (ho : c.origin ≠ m.nodeId) : m.clash c = (false, m) :=
  if_neg fun ⟨h, _⟩ => ho h

/-- Outside QUARANTINE a newer STATE of another origin is passed on and recorded, and no node yields to it (R116). -/
theorem Mach.stateMsg_newer (ho : c.origin ≠ m.nodeId) (hm : m.mode ≠ .quarantine)
    (hn : ∀ q, tFind m.fab.peerSeq c.origin = some q → 0 < toSigned (ofSigned ((c.seq : Int) - q) 16) 16) :
    m.stateMsg p c = (false,
      (({ m with fab := { m.fab with peerSeq := tIns m.fab.peerSeq c.origin c.seq } } : Mach).sendState (some p) c).setPeerMode
        c.origin c.mode) := by
  have hm' : ({ m with fab := { m.fab with peerSeq := tIns m.fab.peerSeq c.origin c.seq } } : Mach).mode ≠ .quarantine := hm
  cases hf : tFind m.fab.peerSeq c.origin with
  | none => simp [Mach.stateMsg, Mach.clash_other ho, hf, hm']
  | some q => simp [Mach.stateMsg, Mach.clash_other ho, hf, hm', hn q hf]

theorem Mach.stateCommand_newer (ho : c.origin ≠ m.nodeId) (hm : m.mode ≠ .quarantine)
    (hn : ∀ q, tFind m.fab.peerSeq c.origin = some q → 0 < toSigned (ofSigned ((c.seq : Int) - q) 16) 16) :
    m.stateCommand p c =
      (({ m with fab := { m.fab with peerSeq := tIns m.fab.peerSeq c.origin c.seq } } : Mach).sendState (some p) c).setPeerMode
        c.origin c.mode := by
  rw [Mach.stateCommand, Mach.stateMsg_newer ho hm hn]
  rfl

end

/-- Settles O9: STATE floods while the links run, and the other commands act while the node serves, which is never in
QUARANTINE. That the first STATE of an origin without a stored SEQ is newer, and that the SEQ of one that is not heard is
forgotten (log entry 76), and the events of the doorbell bytes above 31 (log entry 57), are the model's choices. -/
theorem stateCommands : Obligations.StateCommands := by
  unfold Obligations.StateCommands
  refine ⟨?flood, ?state, ?unknown, ?doorbell⟩
  case flood => exact fun s hl hv => exec_linked hl rfl (Mach.stateFlood_valid hv)
  case state =>
    exact fun s p c hs hp ho hn =>
      exec_message hs hp rfl (Mach.stateCommand_newer ho (Mach.serves_not_quarantine hs) hn)
  case unknown => exact fun s o hs => exec_serving hs rfl rfl
  case doorbell => exact fun s i hs => exec_serving hs rfl rfl

end Sys2Proof.Machine
end

section
/-! SUPPORT. Ethernet frames, streams, neighbours and links: what each command does when its conditions hold. -/

namespace Sys2Proof.Machine

/-- A command that takes the block to t ends there. -/
theorem exec_ends {c : Instr} {s t u : State} (he : exec c s = s.ends t) (h : t = u) : exec c s = .next (s.done u) := by
  rw [he, h]
  rfl

section
variable {m : Mach} {s : State} {p i : Nat} {l : List Nat}

/-! ### Frames (R126, R127) -/

theorem State.ethFrameReceive_full (h : s.mach.ethReceives p = true) :
    s.ethFrameReceive p l true = s.on fun m => (m.count (96 + 4 * p)).ethDrop p 15 := by
  simp [State.ethFrameReceive, h, State.on]

/-- A frame too short for an FCS is a unit with a bad one. -/
theorem State.ethFrameReceive_runt (h : s.mach.ethReceives p = true) (hl : l.length < 4) :
    s.ethFrameReceive p l false =
      s.on fun m => ((m.count (96 + 4 * p)).chkUnit (16 + p) false).ethDrop p 0 := by
  simp [State.ethFrameReceive, h, hl.not_ge, State.on]

/-- What a frame with a good FCS changes before its tag is read (R127). -/
theorem Mach.frame_countUnit (m : Mach) (e ch : Nat) :
    m.Frame (.CHK_CH_UNITS :: flagRegs) ((m.count e).chkUnit ch true) :=
  ((Mach.frame_count _ e 1).mono (List.subset_cons_self _ _)).trans (Mach.frame_chkUnit_good _ ch)

theorem State.ethFrameReceive_whole (h : s.mach.ethReceives p = true) (hmin : 64 ≤ l.length)
    (hfcs : checkValue .crc32 none (l.take (l.length - 4)) = ofNatBytes (l.drop (l.length - 4)))
    (hmax : l.length ≤ s.mach.get F.ETH_PORT_CTL_MAX_FRAME p) :
    s.ethFrameReceive p l false = (s.on fun m => (m.count (96 + 4 * p)).chkUnit (16 + p) true).ethTag p l := by
  have hfour : 4 ≤ l.length := by omega
  have hlimit : ((s.mach.count (96 + 4 * p)).chkUnit (16 + p) true).get F.ETH_PORT_CTL_MAX_FRAME p =
      s.mach.get F.ETH_PORT_CTL_MAX_FRAME p := (s.mach.frame_countUnit _ _).get _ p (by decide)
  simp [State.ethFrameReceive, h, hfour, hfcs, State.on, hlimit, hmin.not_gt, hmax.not_gt]

/-! ### Streams (R132, R134, R137) -/

theorem Mach.auReleaseTimeout_later {ts : Nat} {a : AuIn}
    (ha : (m.ethStream i).aus.find? (fun a => a.ts = ts) = some a)
    (hl : ((m.ethStream i).aus.map (·.ts) ++ (m.ethStream i).released).any (fun t => 0 < tsDiff t ts) = true) :
    m.auReleaseTimeout i ts = m.releaseAu i a true := by
  simp only [Mach.auReleaseTimeout, ha]
  exact if_pos hl

/-- The state of an entry leaves its stream alone. -/
theorem Mach.entFeed_setEnt (m : Mach) (i st : Nat) : (m.setEnt i st).entFeed i = m.entFeed i := by
  have hframe : m.Frame (.ETH_STREAM_STATUS :: flagRegs) (m.setEnt i st) := by
    unfold Mach.setEnt
    split
    · exact .refl _ _
    · exact (m.frame_put _ _ _ (by decide)).trans ((Mach.frame_raise _ _).mono (List.subset_cons_self _ _))
  funext f
  simp only [Mach.entFeed, hframe.get F.ETH_STREAM_ID_ID i (by decide)]

theorem Mach.streamSilent_heard (h : m.entState i = entWaiting ∨ m.entState i = entReceiving) :
    m.streamSilent i =
      (m.setEnt i entSilent).stopFeeds ((m.setEnt i entSilent).entFeed i) reasonNoSignal := by
  rw [Mach.entFeed_setEnt]
  exact if_pos h

theorem Mach.rtcpSrSend_known {id mac : Nat} {e : List Nat} (he : m.encodeEntry id = some e)
    (hs : (b1 e 13).testBit 3 = true) (hc : (m.encCtxOf id).isSome = true)
    (hm : m.linkMac (b1 e 14) (Config.rtpDest id) = some mac) :
    m.rtcpSrSend id =
      (m.emit (.ethTx (b1 e 14) (.senderReport mac (Config.rtpDest id) id
        (m.now - m.getS F.TIME_UTC_OFFSET * 1000000000) (m.now * 9 / 100000 % 2 ^ 32)))).frameSent (b1 e 14) := by
  simp only [Mach.rtcpSrSend, he, hs, hc, hm, Bool.and_self, if_true]

/-! ### Links and neighbours (R128, R148) -/

theorem Mach.ethLink_up {fec : Bool} (he : m.on F.ETH_PORT_CTL_EN p = true)
    (hl : m.on F.ETH_PORT_STATUS_LINK p = false) :
    m.ethLink p true fec =
      ((m.putB F.ETH_PORT_STATUS_LINK true p).putB F.ETH_PORT_STATUS_FEC_LOCK
        (decide (m.get F.ETH_PORT_CTL_FEC p ≠ 0) && fec) p).raise (96 + 4 * p) :=
  (if_neg (by decide)).trans (if_neg (by simp [he, hl]))

theorem Mach.ethLink_down {fec : Bool} (hl : m.on F.ETH_PORT_STATUS_LINK p = true) :
    m.ethLink p false fec =
      let n := (m.putB F.ETH_PORT_STATUS_LINK false p).putB F.ETH_PORT_STATUS_FEC_LOCK false p
      let n := (List.range 64).foldl (fun (m : Mach) s => m.streamSilent (p * 64 + s)) n
      ((n.trouble F.ETH_TROUBLE_LINK_DOWN p).endSessions (MgmtPeer.onPort p)).raise (96 + 4 * p) :=
  (if_pos rfl).trans (if_neg (by simp [hl]))

theorem Mach.neighbourRequest_paid {a : Nat} {b : Nat × Nat}
    (hb : takeTokens (m.ethPort p).arp m.raw (m.get F.ETH_LIMITS_ARP_RATE p) (16 * 1562500000) 1562500000 = some b) :
    m.neighbourRequest p a =
      let x := m.ethPort p
      ((m.setEthPort p { x with
          arp := some b
          wanted := if x.neigh.any (fun n => n.addr = a) then x.wanted else tIns x.wanted a m.raw
          neigh := x.neigh.map fun (n : Neighbour) => if n.addr = a then { n with asked := true } else n }).emit
        (.ethTx p (if a / 2 ^ 32 = 0xFFFF then .arpRequest a else .ndSolicit a))).frameSent p := by
  simp only [Mach.neighbourRequest, hb]

end

/-- Settles O11: a frame takes the branch that its conditions choose, every other command acts while the node serves, and
each clause is the branch that its conditions choose. The destination of a stream (log entry 45) and the UTC and RTP times
of its sender report (log entry 117) are the model's choices. -/
theorem ethernetCommands : Obligations.EthernetCommands := by
  unfold Obligations.EthernetCommands
  refine ⟨?full, ?runt, ?whole, ?release, ?silent, ?up, ?down, ?request, ?expire, ?membership, ?report⟩
  case full => exact fun s p l h => exec_ends rfl (State.ethFrameReceive_full h)
  case runt => exact fun s p l h hl => exec_ends rfl (State.ethFrameReceive_runt h hl)
  case whole =>
    exact fun s p l h hmin hfcs hmax => exec_ends rfl (State.ethFrameReceive_whole h hmin hfcs hmax)
  case release => exact fun s p e ts a hs ha hl => exec_serving hs rfl (Mach.auReleaseTimeout_later ha hl)
  case silent => exact fun s p e hs h => exec_serving hs rfl (Mach.streamSilent_heard h)
  case up => exact fun s p fec hs he hl => exec_serving hs rfl (Mach.ethLink_up he hl)
  case down => exact fun s p fec hs hl => exec_serving hs rfl (Mach.ethLink_down hl)
  case request => exact fun s p a b hs hb => exec_serving hs rfl (Mach.neighbourRequest_paid hb)
  case expire => exact fun s p a hs => exec_serving hs rfl rfl
  case membership => exact fun s p g hs => exec_serving hs rfl rfl
  case report => exact fun s id mac e hs he hb hc hm => exec_serving hs rfl (Mach.rtcpSrSend_known he hb hc hm)

end Sys2Proof.Machine
end

section
/-! SUPPORT. Management sessions: what each datagram and timer does when its conditions hold. -/

namespace Sys2Proof.Machine

section
variable {m n : Mach} {s : State} {p : MgmtPeer} {k q a len port : Nat} {row : List Nat}

/-! ### Opening and proving (R138, R139) -/

/-- OPEN with a known key, from a source with a token and a free session, is answered with a nonce. -/
theorem Mach.openMgmt_challenge {key : Nat} {nonce : List Nat} {b : Nat × Nat} (hs : m.serves = true)
    (hl : (m.mgmtSource p).locked = none)
    (hb : takeTokens (m.mgmtSource p).bucket m.raw 8 (8 * second) second = some b) (hk : m.mgmtKey key = some row)
    (hn : nonce.length = 16) (hfree : m.eth.sessions.length < 4) :
    m.openMgmt p key nonce =
      let x := ((m.setMgmtSource { m.mgmtSource p with bucket := some b }).count 13).freeBits 128
      let n := x.2.dropAttempt p
      (n.setEth { n.eth with attempts := n.eth.attempts ++
        [⟨p, key, nonce, natBytes 16 x.1, [], 0, [0], 0, n.raw, none, [], []⟩] }).mgmtSend p 2 0 0 0
          (natBytes 16 x.1 ++ n.serialBytes) none := by
  have hroom : ¬ 4 ≤ ((m.setMgmtSource { m.mgmtSource p with bucket := some b }).count 13).eth.sessions.length := by
    rw [(Mach.frame_count _ 13 1).rest.eth]
    exact hfree.not_ge
  have hkey : (m.setMgmtSource { m.mgmtSource p with bucket := some b }).mgmtKey key = some row := hk
  simp only [Mach.openMgmt, hb]
  exact (if_neg (by simp [hs, hl])).trans ((if_neg (by simp [hkey, hn])).trans (if_neg hroom))

theorem Mach.serialBytes_count (m : Mach) (e : Nat) : (m.count e).serialBytes = m.serialBytes := by
  simp only [Mach.serialBytes, (Mach.frame_count m e 1).rest.cfg]

/-- A PROVE with the right MAC opens the session of its attempt. -/
theorem Mach.prove_right {x : MgmtSession} (hs : m.serves = true)
    (hx : m.eth.attempts.find? (fun (y : MgmtSession) => y.peer.same p) = some x) (hk : m.mgmtKey x.key = some row) :
    m.prove p (hmac (hostKey row) (x.hostNonce ++ x.nodeNonce ++ m.serialBytes)) = (m.count 13).openSession p x row := by
  simp [Mach.prove, hs, hx, hk, Mach.serialBytes_count]

/-! ### Requests of a session (R140) -/

/-- A READ of 1 to 1024 bytes of this node waits for earlier writes when it reads a fence, and else is answered. -/
theorem State.mgmtReadNow_own {l : Nat} (h1 : 1 ≤ len) (h2 : len ≤ 1024) (ha : s.mach.spiTarget a = .own l) :
    s.mgmtReadNow k q a len =
      if readsFence l len && s.mach.mgmtWritesOpen k q then s.on fun m => m.mgmtSet k q (.fenceRead l len)
      else
        let x := s.localRead (s.mach.mgmtBy k) l len
        x.2.on fun m => m.mgmtDone k q x.1.status x.1.data := by
  rw [State.mgmtReadNow, if_neg (by omega), if_neg (by omega), ha]

theorem State.mgmtReadNow_far {node l : Nat} (h1 : 1 ≤ len) (h2 : len ≤ 1024) (ha : s.mach.spiTarget a = .far node l) :
    s.mgmtReadNow k q a len = s.on fun m => m.mgmtFar k q false node l len [] := by
  rw [State.mgmtReadNow, if_neg (by omega), if_neg (by omega), ha]

section
variable {d : List Nat} (h1 : 1 ≤ d.length) (h2 : d.length ≤ 1024)
include h1 h2

theorem State.mgmtWriteNow_own {l : Nat} (ha : s.mach.spiTarget a = .own l) :
    s.mgmtWriteNow k q a d =
      let x := s.localWrite (s.mach.mgmtBy k) l d false
      x.2.on fun m => m.mgmtDone k q x.1.status [] := by
  have hd : d ≠ [] := List.ne_nil_of_length_pos h1
  rw [State.mgmtWriteNow, if_neg (by simp [hd]), if_neg (by omega), ha]

theorem State.mgmtWriteNow_far {node l : Nat} (ha : s.mach.spiTarget a = .far node l) :
    s.mgmtWriteNow k q a d = s.on fun m => m.mgmtFar k q true node l d.length d := by
  have hd : d ≠ [] := List.ne_nil_of_length_pos h1
  rw [State.mgmtWriteNow, if_neg (by simp [hd]), if_neg (by omega), ha]

end

theorem State.mgmtReadFrom_taken {good : Bool} (ht : s.mach.mgmtTake k q good port = (true, n)) :
    s.mgmtReadFrom port k q good a len = ({ s with mach := n } : State).mgmtReadNow k q a len := by
  rw [State.mgmtReadFrom, ht]

theorem State.mgmtWriteFrom_taken {good : Bool} {d : List Nat} (ht : s.mach.mgmtTake k q good port = (true, n)) :
    s.mgmtWriteFrom port k q good a d = ({ s with mach := n } : State).mgmtWriteNow k q a d := by
  rw [State.mgmtWriteFrom, ht]

section
variable {good : Bool} (ht : m.mgmtTake k q good port = (true, n))
include ht

theorem Mach.mgmtFenceFrom_taken :
    m.mgmtFenceFrom port k q good = if n.mgmtWritesOpen k q then n.mgmtSet k q .fence else n.mgmtFenceEnd k q := by
  rw [Mach.mgmtFenceFrom, ht]

theorem Mach.mgmtPendingFrom_read : m.mgmtPendingFrom port k q good none = n.mgmtDone k q sOk n.hostBits := by
  simp only [Mach.mgmtPendingFrom, ht]

theorem Mach.mgmtPendingFrom_clear {l : List Nat} (h1 : 1 ≤ l.length) (h2 : l.length ≤ 64) :
    m.mgmtPendingFrom port k q good (some l) = (n.clearHostBits l).mgmtDone k q sOk n.hostBits := by
  have hl : l ≠ [] := List.ne_nil_of_length_pos h1
  simp [Mach.mgmtPendingFrom, ht, hl, h2.not_gt]

end

/-! ### Ends (R139, R141) -/

theorem Mach.closeFrom_accepted {good : Bool} (hs : m.serves = true) (ha : m.mgmtAccept k q good port = (true, n)) :
    m.closeFrom port k q good = n.endSession k := by
  simp only [Mach.closeFrom, hs, ha, Bool.not_true, Bool.false_eq_true, if_false]

theorem Mach.mgmtLockoutEnd_locked (hl : (m.mgmtSource p).locked.isSome = true) :
    m.mgmtLockoutEnd p = m.setMgmtSource { m.mgmtSource p with locked := none, fails := [] } :=
  if_pos hl

end

/-- Settles O12: a READ or WRITE that is taken goes to this node or to another, every other datagram acts while the node
serves, and each clause is the branch that its conditions choose. That OPEN and PROVE carry no TAG, the SEQ of their
answers, the bits that PENDING returns before it clears them, and that only proved sessions count against the four, are
the model's choices (log entry 102). -/
theorem managementCommands : Obligations.ManagementCommands := by
  unfold Obligations.ManagementCommands
  refine ⟨?openMgmt, ?prove, ?read, ?write, ?fence, ?pendingRead, ?pendingClear, ?close, ?idle, ?lockoutEnd⟩
  case openMgmt =>
    exact fun s p key nonce row b hs hl hb hk hn hfree => exec_serving hs rfl (Mach.openMgmt_challenge hs hl hb hk hn hfree)
  case prove => exact fun s p a row hs ha hk => exec_serving hs rfl (Mach.prove_right hs ha hk)
  case read =>
    intro s k q a len n ht h1 h2
    refine exec_ends rfl ((State.mgmtReadFrom_taken ht).trans ?_)
    cases ha : n.spiTarget a with
    | own l => exact State.mgmtReadNow_own h1 h2 ha
    | far node l => exact State.mgmtReadNow_far h1 h2 ha
  case write =>
    intro s k q a d n ht h1 h2
    refine exec_ends rfl ((State.mgmtWriteFrom_taken ht).trans ?_)
    cases ha : n.spiTarget a with
    | own l => exact State.mgmtWriteNow_own h1 h2 ha
    | far node l => exact State.mgmtWriteNow_far h1 h2 ha
  case fence => exact fun s k q n hs ht => exec_serving hs rfl (Mach.mgmtFenceFrom_taken ht)
  case pendingRead => exact fun s k q n hs ht => exec_serving hs rfl (Mach.mgmtPendingFrom_read ht)
  case pendingClear => exact fun s k q l n hs ht h1 h2 => exec_serving hs rfl (Mach.mgmtPendingFrom_clear ht h1 h2)
  case close => exact fun s k q n hs ha => exec_serving hs rfl (Mach.closeFrom_accepted hs ha)
  case idle => exact fun s k hs => exec_serving hs rfl rfl
  case lockoutEnd => exact fun s p hc hl => exec_clocked hc rfl (Mach.mgmtLockoutEnd_locked hl)

end Sys2Proof.Machine
end

section
/-! SUPPORT. Camera lines and frames: what each command does when its conditions hold. -/

namespace Sys2Proof.Machine

section
variable {m : Mach} {c : Nat} {f : Pic}

/-- A good line of the right length joins the frame, its PIXEL_CRC and the pool (R143). -/
theorem Mach.csiLine_joins {d : List Nat} (hf : (m.capPort c).current = some f) (hok : (m.capPort c).failed = 0)
    (hd : d.length = (if m.get F.CAP_CTL_DT c = 0x1F then m.get F.CAP_GEOM_WIDTH c * 5 / 2
      else 2 * m.get F.CAP_GEOM_WIDTH c))
    (hroom : (m.capPort c).lineCount < m.get F.CAP_GEOM_HEIGHT c) :
    m.csiLine c (m.get F.CAP_CTL_VC c) (m.get F.CAP_CTL_DT c) d true =
      let x := m.capPort c
      let g := { f with lines := x.lineCount + 1 }
      let ten := decide (m.get F.CAP_CTL_DT c = 0x1F)
      (((((m.setCapPort c { x with
          crc := d.foldl CrcAlg.crc32c.step x.crc, lineCount := x.lineCount + 1, current := some g,
          store := x.store.map fun (y : CapStore) =>
            if y.frame = x.frameNum then y.addLine (m.get F.CAP_CTL_POOL_FMT c) ten d else y }).showFrame c g).count
        (133 + 8 * c)).encLines c x.frameNum (x.lineCount + 1)).dispatchRows) := by
  simp [Mach.csiLine, hf, hok, hd, hroom.not_ge]

/-- A frame end whose lines are all there completes the frame (R143, R144). -/
theorem Mach.csiFrameEnd_complete (hf : (m.capPort c).current = some f) (hok : (m.capPort c).failed = 0)
    (hall : (m.capPort c).lineCount = m.get F.CAP_GEOM_HEIGHT c) :
    m.csiFrameEnd c (m.get F.CAP_CTL_VC c) =
      let crc := (m.capPort c).crc ^^^ 0xFFFFFFFF
      let n := (m.chkUnit (8 + c) true).frozenDetect c crc
      let g := { f with wit := { f.wit with pixelCrc := crc, repeats := n.get F.CAP_STATUS_REPEATS c,
                                            frozen := n.on F.CAP_STATUS_FROZEN c },
                        last := true, lines := f.height }
      let n := n.showFrame c g
      let n := (((n.setCapPort c { n.capPort c with current := none, gap := false }).count (129 + 8 * c)).chkUnit 10 true).put
        F.CAP_FRAMES_FRAME_NUM f.wit.frameNum c
      let n := if f.wit.continuity then ((n.trouble F.CAP_TROUBLE_CONTINUITY c).count (135 + 8 * c)).raise (132 + 8 * c) else n
      let n := if n.capState c = capSilentSt then n.raise (134 + 8 * c) else n
      (((n.put F.CAP_STATUS_STATE capReceiving c).raise (128 + 8 * c)).encFrameDone c g).dispatchRows := by
  simp [Mach.csiFrameEnd, hf, hok, hall]

theorem Mach.capSilent_running (h : m.capState c = capWaiting ∨ m.capState c = capReceiving) :
    m.capSilent c =
      ((m.put F.CAP_STATUS_STATE capSilentSt c).stopFeeds (fun f => f = .cap c) reasonNoSignal).raise (133 + 8 * c) :=
  if_pos h

/-- EN starts a port in the modes that run (R145). -/
theorem Mach.capEnWrite_disabled (h : m.on F.CAP_CTL_EN c = false) :
    m.capEnWrite c =
      let n := m.putB F.CAP_CTL_EN true c
      if n.mode.runs then n.capStart c else n :=
  if_neg (by simp [h])

end

/-- Settles O13: each camera command acts while the node serves, EN on the interconnect clock, and each clause is the
branch that its conditions choose; a frame start finds a free slot of the pool or none, and a frame number before its own
or none. -/
theorem captureCommands : Obligations.CaptureCommands := by
  unfold Obligations.CaptureCommands
  refine ⟨?frameStart, ?line, ?frameEnd, ?silent, ?enable⟩
  case frameStart =>
    intro s c k hs hon hnone
    refine exec_serving hs rfl ?_
    by_cases hfree : (((s.mach.count (128 + 8 * c)).encStage c).encLate c ((s.mach.capPort c).frameNum + 1)).capSlots c < 4
    · cases hprev : (s.mach.capPort c).prevFnum <;>
        simp [Mach.csiFrameStart, hon, hnone, hprev, hfree, hfree.not_ge]
    · cases hprev : (s.mach.capPort c).prevFnum <;>
        simp [Mach.csiFrameStart, hon, hnone, hprev, hfree, not_lt.1 hfree]
  case line => exact fun s c d f hs hf hok hd hroom => exec_serving hs rfl (Mach.csiLine_joins hf hok hd hroom)
  case frameEnd => exact fun s c f hs hf hok hall => exec_serving hs rfl (Mach.csiFrameEnd_complete hf hok hall)
  case silent => exact fun s c hs h => exec_serving hs rfl (Mach.capSilent_running h)
  case enable => exact fun s c hc h => exec_clocked hc rfl (Mach.capEnWrite_disabled h)

end Sys2Proof.Machine
end

section
/-! SUPPORT. Decode work: what a slice that is done, a work limit and the end of a context's reset do when their conditions
hold. -/

namespace Sys2Proof.Machine

/-- A counted event is nothing of the decoder's state. -/
@[simp] theorem Mach.count_dec (m : Mach) (e k : Nat) : (m.count e k).dec = m.dec := (m.frame_count e k).rest.dec

@[simp] theorem Mach.showEngines_dec (m : Mach) : m.showEngines.dec = m.dec := rfl

/-- Engine e takes a slice no longer: it is shown free, and its slice counts as decoded (R163). -/
def Mach.releaseEngine (m : Mach) (e : Nat) : Mach :=
  ({ m with dec := { m.dec with engines := tDel m.dec.engines e } } : Mach).showEngines.count 176

@[simp] theorem Mach.releaseEngine_decCtx (m : Mach) (e n : Nat) : (m.releaseEngine e).decCtx n = m.decCtx n := by
  simp [Mach.releaseEngine, Mach.decCtx]

section
variable {m : Mach} {n : Nat} {d : DecPic} {r : SliceResult}

/-- An engine that ran for a context with a picture in decode hands its slice to that picture (R163). -/
theorem Mach.sliceDecoded_current {e : Nat} (hd : (m.decCtx n).cur = some d) (he : tFind m.dec.engines e = some n)
    (hn : n ≠ orphan) :
    m.sliceDecoded e n r = (((m.releaseEngine e).measureDec n r.samples).sliceDone n d r).decAdvance n := by
  have hcur : ((m.releaseEngine e).decCtx n).cur = some d := by rw [Mach.releaseEngine_decCtx, hd]
  unfold Mach.releaseEngine at hcur ⊢
  simp [Mach.sliceDecoded, he, hn, hcur]

/-! ### A slice that is done, by what it meets first (R166 to R171) -/

/-- A slice that reached beyond its regions faults the picture (R171). -/
theorem Mach.sliceDone_contained (hc : r.contain = true) : m.sliceDone n d r = m.decodeFault n 6 :=
  if_pos hc

section
variable (hc : r.contain = false)
include hc

/-- A slice that takes its picture beyond the bound faults the picture (R170). -/
theorem Mach.sliceDone_beyondWork
    (hw : m.workBound n { d with cycles := d.cycles + r.cycles, slices := d.slices + 1 } < d.cycles + r.cycles) :
    m.sliceDone n d r = m.decodeFault n 5 := by
  simp only [Mach.sliceDone, hc, hw, Bool.false_eq_true, if_false, if_true]

variable (hw : d.cycles + r.cycles ≤ m.workBound n { d with cycles := d.cycles + r.cycles, slices := d.slices + 1 })
include hw

/-- A slice with a bad header is dropped, and its picture is concealed (R169). -/
theorem Mach.sliceDone_badHeader (hf : r.fault = .header) :
    m.sliceDone n d r = (m.setDecCtx n { m.decCtx n with cur := some { d with
      cycles := d.cycles + r.cycles, slices := d.slices + 1, dropCode := 3,
      pic := { d.pic with concealed := true } } }).decDrop n 3 := by
  simp only [Mach.sliceDone, hc, hw.not_gt, hf, Bool.false_eq_true, if_false, if_true]

/-- Any other slice resolves its references, joins its data and leaves the context the references that it keeps (R162,
R166 to R169). -/
theorem Mach.sliceDone_data (hf : r.fault ≠ .header) :
    m.sliceDone n d r =
      let y := m.useRefs n { d with cycles := d.cycles + r.cycles, slices := d.slices + 1 } r
      let z := y.2.useData n y.1 r
      (z.2.setDecCtx n { z.2.decCtx n with
        refs := (z.2.decCtx n).refs.filter fun q => r.keep.contains q.poc }).issueRecord n z.1 := by
  simp only [Mach.sliceDone, hc, hw.not_gt, hf, Bool.false_eq_true, if_false]

end

/-- The limit is a fault 5 once an engine has taken a slice of the picture in decode (R170). -/
theorem Mach.workLimit_busy (h : (m.decCtx n).busy = true) : m.workLimit n = (m.decodeFault n 5).decAdvance n :=
  if_pos h

theorem Mach.contextResetEnd_reset (h : m.decState n = decReset) :
    m.contextResetEnd n = (m.setDecState n decWaitKey).decAdvance n :=
  if_pos h

end

/-- Settles O14: each command acts while the node serves, and each clause is the branch that its conditions choose; an
engine that is freed leaves the contexts as they were, so that its slice meets the picture in decode. That a context has one
picture in decode at a time, and that the pictures a slice does not keep are references no longer, are the model's choices
(log entry 122). -/
theorem decoderCommands : Obligations.DecoderCommands := by
  unfold Obligations.DecoderCommands
  refine ⟨?sliceDecoded, ?sliceDone, ?workLimit, ?contextResetEnd⟩
  case sliceDecoded =>
    exact fun s e n r d hs hd he hn => exec_serving hs rfl (Mach.sliceDecoded_current hd he hn)
  case sliceDone =>
    intro m n d r x
    exact ⟨Mach.sliceDone_contained, Mach.sliceDone_beyondWork, Mach.sliceDone_badHeader, Mach.sliceDone_data⟩
  case workLimit => exact fun s n hs h => exec_serving hs rfl (Mach.workLimit_busy h)
  case contextResetEnd => exact fun s n hs h => exec_serving hs rfl (Mach.contextResetEnd_reset h)

end Sys2Proof.Machine
end

section
/-! SUPPORT. Writes that ask the picture path for an action: each is one write of one register of ENC, CMP, LUT, SCN or
TCH, of 32 bits or of the 64 bits of a register pair. -/

namespace Sys2Proof.Machine

/-- A 64-bit write of a register pair covers the pair whole. -/
theorem coversOf_w64_pair {a : Nat} {x : RegAt} (h : findReg a = some x) (hp : x.desc.pair = true) (v : Nat) :
    coversOf .w64 a v = [⟨x.desc, x.i, 2 ^ 64 - 1, v % 2 ^ 64⟩] := by
  simp [coversOf, h, hp]

section
variable {s : State} {m : Mach} {c : Instr} {b : Master} {a v : Nat} {f : Mach → Mach}

/-- A 32-bit write of a register, known by its name, its block and its place and without W1C bits, ends in what the
write of that register does. -/
theorem writeEnds_w32 (r : Reg) (k : Block) (i : Nat) (he : exec c s = s.ends (s.hostWrite b a 4 v))
    (hr : (findReg a).map (fun y => (y.desc.reg, y.desc.block, y.desc.maskOf (·.ty = .w1c), y.i, y.high)) =
      some (r, k, 0, i, false))
    (hf : ∀ (n y : Mach) (d : RegDesc), d.reg = r → d.block = k →
      y.wrote n b ⟨d, i, 2 ^ 32 - 1, v % 2 ^ 32⟩ = f y) :
    s.WriteEnds m c ⟨b, .w32, a, v⟩ f :=
  fun hg ht => exec_write_one f he hg ht rfl hr fun n y d hd hk => by simpa using hf n y d hd hk

/-- The same for a 64-bit write of a register pair. -/
theorem writeEnds_pair (r : Reg) (k : Block) (i : Nat) (he : exec c s = s.ends (s.hostWrite b a 8 v))
    (hr : (findReg a).map (fun y => (y.desc.reg, y.desc.block, y.desc.maskOf (·.ty = .w1c), y.i, y.desc.pair)) =
      some (r, k, 0, i, true))
    (hf : ∀ (n y : Mach) (d : RegDesc), d.reg = r → d.block = k →
      y.wrote n b ⟨d, i, 2 ^ 64 - 1, v % 2 ^ 64⟩ = f y) :
    s.WriteEnds m c ⟨b, .w64, a, v⟩ f := by
  intro hg ht
  refine exec_write f he hg ht ?_
  obtain ⟨x, hx, he⟩ := Option.map_eq_some_iff.1 hr
  simp only [Prod.mk.injEq] at he
  obtain ⟨hreg, hblock, hw1c, hi, hp⟩ := he
  have hcovers : coversOf .w64 a v = [⟨x.desc, i, 2 ^ 64 - 1, v % 2 ^ 64⟩] := hi ▸ coversOf_w64_pair hx hp v
  simp [hcovers, Cover.bitsOf, hw1c, ← hf (s.sampled ⟨b, .w64, a, v⟩ true 0 m) _ x.desc hreg hblock]

/-! ### Group commits and readout words (R215, R225) -/

/-- CMP_GROUP_COMMIT has one register for each layer group, and no bit of it is W1C. -/
theorem findReg_groupCommit : ∀ g : Fin 8,
    (findReg (addrGroupCommit g)).map
        (fun y => (y.desc.reg, y.desc.block, y.desc.maskOf (·.ty = .w1c), y.i, y.high)) =
      some (Reg.CMP_GROUP_COMMIT, Block.cmp, 0, g.val, false) := by
  decide +kernel

/-- A write of a group's CMP_GROUP_COMMIT commits the group with its TAG. -/
theorem writeEnds_groupCommit {g : Nat} (hg : g < 8) (he : exec c s = s.ends (s.hostWrite b (addrGroupCommit g) 4 v)) :
    s.WriteEnds m c ⟨b, .w32, addrGroupCommit g, v⟩ fun y => y.groupCommit g (v % 2 ^ 32) :=
  writeEnds_w32 .CMP_GROUP_COMMIT .cmp g he (findReg_groupCommit ⟨g, hg⟩) fun n y d hd hk => by
    simp only [Mach.wrote, hk, Mach.wroteCmp, hd, Cover.field, bits_mod_two_pow_zero v le_rfl]

/-- A write of CMP_READOUT_IN hands a word over in the width of the write. -/
theorem writeEnds_readoutIn {w : Width} (he : exec c s = s.ends (s.hostWrite b addrReadoutIn w.bytes v)) :
    s.WriteEnds m c ⟨b, w, addrReadoutIn, v⟩ fun y => y.readoutIn b.id w (v % 2 ^ (8 * w.bytes)) := by
  cases w with
  | w32 =>
    exact writeEnds_w32 .CMP_READOUT_IN .cmp 0 he (by decide +kernel) fun n y d hd hk => by
      simp [Mach.wrote, hk, Mach.wroteCmp, hd, Width.bytes]
  | w64 =>
    exact writeEnds_pair .CMP_READOUT_IN .cmp 0 he (by decide +kernel) fun n y d hd hk => by
      simp [Mach.wrote, hk, Mach.wroteCmp, hd, Width.bytes]

end

/-- Settles O37: each command is a write of one register, or of one register pair, of the picture path, and so ends in
what that write does. -/
theorem pictureWrites : Obligations.PictureWrites := by
  unfold Obligations.PictureWrites
  intro s m b v g w c x f hc
  change s.WriteEnds m c x f
  simp only [List.mem_cons, Prod.mk.injEq, List.not_mem_nil, or_false] at hc
  rcases hc with ⟨rfl, rfl, rfl⟩ | ⟨rfl, rfl, rfl⟩ | ⟨rfl, rfl, rfl⟩ | ⟨rfl, rfl, rfl⟩ | ⟨rfl, rfl, rfl⟩ |
    ⟨rfl, rfl, rfl⟩ | ⟨rfl, rfl, rfl⟩ | ⟨rfl, rfl, rfl⟩ | ⟨rfl, rfl, rfl⟩ | ⟨rfl, rfl, rfl⟩ | ⟨rfl, rfl, rfl⟩
  · exact writeEnds_w32 .ENC_KEY_REQ .enc 0 rfl (by decide +kernel) fun n y d hd hk => by
      simp only [Mach.wrote, hk, Mach.wroteEnc, hd, Cover.field, bits_mod_two_pow_zero v le_rfl]
  · exact writeEnds_w32 .ENC_LTR_REQ .enc 0 rfl (by decide +kernel) fun n y d hd hk => by
      simp only [Mach.wrote, hk, Mach.wroteEnc, hd, Cover.field, bits_mod_two_pow_zero v le_rfl]
  · exact writeEnds_groupCommit (Nat.mod_lt g (by decide)) rfl
  · exact writeEnds_pair .CMP_FENCE .cmp 0 rfl (by decide +kernel) fun n y d hd hk => by
      simp [Mach.wrote, hk, Mach.wroteCmp, hd, lutWindow, layerRegs]
  · exact writeEnds_pair .CMP_FENCE_CLR .cmp 0 rfl (by decide +kernel) fun n y d hd hk => by
      simp only [Mach.wrote, hk, Mach.wroteCmp, hd, Nat.and_two_pow_sub_one_eq_mod, Nat.mod_mod]
  · exact writeEnds_readoutIn rfl
  · exact writeEnds_w32 .LUT_SWAP .lut 0 rfl (by decide +kernel) fun n y d hd hk => by
      simp only [Mach.wrote, hk, Mach.wroteCmp, hd, Cover.field, bits_mod_two_pow_zero v (by decide : 3 ≤ 32)]
  · exact writeEnds_w32 .SCN_BL .scn 0 rfl (by decide +kernel) fun n y d hd hk => by
      simp only [Mach.wrote, hk, Mach.wrotePanel, hd]
  · exact writeEnds_w32 .SCN_AUX_CTL .scn 0 rfl (by decide +kernel) fun n y d hd hk => by
      simp only [Mach.wrote, hk, Mach.wrotePanel, hd, Cover.field, bits_setBit_31, if_true]
  · exact writeEnds_w32 .TCH_REBASE .tch 0 rfl (by decide +kernel) fun n y d hd hk => by
      simp only [Mach.wrote, hk, Mach.wrotePanel, hd, Cover.field, bits_mod_two_pow_zero v (by decide : 10 ≤ 32)]
  · exact writeEnds_w32 .TCH_TEST .tch 0 rfl (by decide +kernel) fun n y d hd hk => by
      simp [Mach.wrote, hk, Mach.wrotePanel, hd, Cover.field, bits]

end Sys2Proof.Machine
end

section
/-! SUPPORT. Encode work: what a row that is coded, a row at its limit and a slice that leaves do when their conditions
hold. -/

namespace Sys2Proof.Machine

section
variable {m : Mach} {n r : Nat} {p : EncPic}

/-- An engine that ran for a row of the picture in progress is free again, and the row ends in that picture (R184). -/
theorem Mach.rowCoded_current {e bytes : Nat} (hp : (m.encCtx n).cur = some p)
    (he : tFind m.enc.engines e = some (n * 64 + r)) :
    m.rowCoded e n r bytes =
      let k : Mach := { m with enc := { m.enc with engines := tDel m.enc.engines e } }
      let k := if (p.rows.getD r encRow0).fallback then k.count 187 else k
      (k.setEncCtx n { m.encCtx n with cur := some (p.endRow r bytes) }).dispatchRows := by
  simp only [Mach.rowCoded, hp, he]
  exact if_neg (not_not.2 rfl)

/-- A row in coding that reaches its limit is coded again as fallback, and its picture counts as fallen (R192). -/
theorem Mach.rowLimitReached_coding (hp : (m.encCtx n).cur = some p) (hst : (p.rows.getD r encRow0).st = 1) :
    m.rowLimitReached n r =
      let c := m.encCtx n
      let x := p.rows.getD r encRow0
      (m.setEncCtx n { c with cur := some { p with
        fallen := true, starved := p.starved + (if x.fallback then 0 else 1),
        rows := p.rows.set r { x with
          fallback := true,
          content := if p.key then x.content
            else c.refStamp p.refresh (m.get F.ENC_CTX_LTR_REFRESH n) r x.content } } }).dispatchRows := by
  simp only [Mach.rowLimitReached, hp]
  exact if_neg (not_not.2 hst)

end

/-- The emission of a slice stores the bytes that its effect on the machine names. -/
theorem State.sliceEmitAt_of {s : State} {n : Nat} {nals : List (List Nat)} {x : List (Nat × Nat) × Mach}
    (h : s.mach.sliceEmit n nals = x) :
    s.sliceEmitAt n nals =
      x.1.foldl (fun (t : State) y => t.setByte y.1 (BitVec.ofNat 8 y.2)) { s with mach := x.2 } := by
  rw [State.sliceEmitAt, h]

/-- Settles O15: each command acts while the node serves, and each clause is the branch that its conditions choose: the
row's engine runs for that row, the row is in coding, and the slice has rows, all of them coded. That SLICE_BYTES counts
the slice's NAL units with their start codes is the model's choice (log entry 82). -/
theorem encoderCommands : Obligations.EncoderCommands := by
  unfold Obligations.EncoderCommands
  refine ⟨?rowCoded, ?rowLimitReached, ?sliceEmit⟩
  case rowCoded => exact fun s e n r b p hs hp he => exec_serving hs rfl (Mach.rowCoded_current hp he)
  case rowLimitReached => exact fun s n r p hs hp hst => exec_serving hs rfl (Mach.rowLimitReached_coding hp hst)
  case sliceEmit =>
    intro s n nals p hs hp hrows hcoded
    refine exec_ends_serving hs rfl (State.sliceEmitAt_of ?_)
    simp only [Mach.sliceEmit, hp]
    exact if_neg (by simp only [hrows, hcoded, Bool.or_false, Bool.false_eq_true, not_false_eq_true])

end Sys2Proof.Machine
end

section
/-! SUPPORT. Composition: what a band's slot, an overrun strip, the frame's end, the latch line, the apply point and a
readout record that waits too long do when their conditions hold. -/

namespace Sys2Proof.Machine

section
variable {s : State} {b k : Nat}

/-- In a mode that composes, unless the frame is repeated, the slot of a band of the frame signs and renders (R209). -/
theorem State.bandSlotStart_composes (hc : s.mach.mode.composes = true) (hskip : s.mach.cmp.skip = false)
    (hb : b < s.mach.bands) :
    s.bandSlotStart b =
      ((s.cmpSignatures fun l => decide (s.mach.cmp.band ≤ l) && decide (l < b)).on
        fun m => m.bandSlot b).renderBand b :=
  if_neg (by simp [hc, hskip, hb])

/-- A strip that overruns in a frame in composition is rendered again, under the band in progress (R211). -/
theorem State.bandOverrunAt_composing {ns : List Nat} (hc : s.mach.cmp.composing = true) (hk : k < 8) :
    s.bandOverrunAt k ns =
      (s.on fun m => m.bandOverrun k ns).renderColumns s.mach.cmp.band (512 * k) (512 * (k + 1)) :=
  if_neg (by simp [hc, hk])

end

section
variable {m : Mach} {k : Nat}

/-- An overrun is kept for its strip, counted, and told as a trouble and as event 246 (R211). -/
theorem Mach.bandOverrun_composing {ns : List Nat} (hc : m.cmp.composing = true) :
    m.bandOverrun k ns = ((((({ m with cmp := { m.cmp with overruns := tIns m.cmp.overruns k ns } } : Mach).bump
      F.CMP_OVERRUNS_COUNT).count 201).trouble F.CMP_TROUBLE_OVERRUN).raise 246) :=
  if_neg (by simp [hc])

/-- The end of a frame in composition gives back what the frame held and tells its load and event 264 (R229). -/
theorem Mach.frameDone_composing (hc : m.cmp.composing = true) :
    m.frameDone =
      let n := ({ m with cmp := { m.cmp with composing := false, overruns := [], bandPics := [] },
                         dec := { m.dec with lent := 0 } } : Mach)
      let n := (List.range 2).foldl (fun (n : Mach) c => n.releaseFrames c) n
      (((n.putB F.CMP_STATUS_COMPOSING false).put F.CMP_LOAD_PEAK_PEAK n.cmp.loadNow).summary.showAges).raise 264 :=
  if_neg (by simp [hc])

/-- From stage S3 on, the apply point between a frame and its repetition applies nothing (R52, R219). -/
theorem Mach.applyPoint_repeat (hc : m.mode.composes = true) (h3 : 3 ≤ m.dec.stage) (hr : m.cmp.repeatNext = true) :
    m.applyPoint = { m with cmp := { m.cmp with repeatNext := false, skip := true } } :=
  (if_neg (by simp [hc])).trans (if_pos ⟨h3, hr⟩)

/-- A readout record that has waited too long for its next word is dropped (R226). -/
theorem Mach.readoutTimeout_waiting {w : List Nat × Nat} (hw : tFind m.cmp.readoutIn k = some w) :
    m.readoutTimeout k = (m.setReadoutIn (tDel m.cmp.readoutIn k)).readoutDrop := by
  simp only [Mach.readoutTimeout, hw]

end

/-- Settles O16: each clause is the branch that its conditions choose. The latch line, the apply point and the readout
timeout act while the node serves; the band's slot, the overrun and the frame's end ask only for a frame to compose.
Which buffer the next frame goes to, that a band's pixels are those of its slot's start, and that nothing is applied
between a frame and its repetition at S3 are the model's choices (log entries 32, 33 and 94). -/
theorem composeCommands : Obligations.ComposeCommands := by
  unfold Obligations.ComposeCommands
  refine ⟨?bandSlot, ?overrun, ?overrunEffect, ?frameDone, ?frameDoneEffect, ?latchLine, ?apply, ?repeated, ?readout⟩
  case bandSlot => exact fun s b hc hskip hb => exec_ends rfl (State.bandSlotStart_composes hc hskip hb)
  case overrun => exact fun s k ns hc hk => exec_ends rfl (State.bandOverrunAt_composing hc hk)
  case overrunEffect => exact fun m k ns hc => Mach.bandOverrun_composing hc
  case frameDone => exact fun s _ => exec_ends rfl rfl
  case frameDoneEffect => exact fun m hc => Mach.frameDone_composing hc
  case latchLine => exact fun s hs => exec_serving hs rfl rfl
  case apply =>
    intro s hs hc hr
    have hnew : ¬(3 ≤ s.mach.dec.stage ∧ s.mach.cmp.repeatNext = true) := by
      rintro ⟨h3, ht⟩
      exact hr.elim h3.not_gt (by simp [ht])
    exact exec_serving hs rfl ((if_neg (by simp [hc])).trans (if_neg hnew))
  case repeated => exact fun s hs hc h3 hr => exec_serving hs rfl (Mach.applyPoint_repeat hc h3 hr)
  case readout => exact fun s k w hs hw => exec_serving hs rfl (Mach.readoutTimeout_waiting hw)

end Sys2Proof.Machine
end

section
/-! SUPPORT. The colour chain through its pre-LUT, and the commands of the tables and of the output signatures: what each
does when its conditions hold. -/

namespace Sys2Proof.Machine

/-! ### The chain (R233, R236) -/

/-- With no forced bypass and neither the cube nor the post-LUT on, the chain is its pre-LUT (R236). -/
theorem Mach.chain_preOnly {m : Mach} {t : Tables} (c : Rgb) (hb : t.bypass = false) (hc : m.on F.LUT_CTL_CUBE_EN = false)
    (hp : m.on F.LUT_CTL_POST_EN = false) :
    m.chain t c =
      if m.on F.LUT_CTL_PRE_EN then ⟨lut1 t.pre 1024 0 c.r, lut1 t.pre 1024 1 c.g, lut1 t.pre 1024 2 c.b⟩
      else c.map (4 * ·) := by
  simp only [Mach.chain, hb, hc, hp, Bool.false_eq_true, if_false]

/-- Settles O54: the chain is its pre-LUT alone, whose tables of 1,024 entries stand one after another, red, green and
blue. What a stage that is off passes on is of R236. -/
theorem lutChain : Obligations.LutChain := by
  unfold Obligations.LutChain
  intro m t c hb hcube hpost
  have hchain := Mach.chain_preOnly c hb hcube hpost
  refine ⟨fun hoff => ?off, fun hon _ _ _ => ?on⟩
  case off => rw [hchain, hoff]; rfl
  case on => rw [hchain, hon]; simp only [lut1, if_true, Nat.zero_mul, Nat.zero_add, Nat.one_mul, Nat.reduceMul]

/-! ### Swaps (R238) -/

/-- The check of a swap counts one unit of channel 15, good or bad with the CRCs of the requested tables (R362). -/
def Mach.swapCounted (m : Mach) : Mach := m.chkUnit 15 (m.swapCrcOk m.lut.checking)

/-- Both checks of R238 hold for the requested tables. -/
def Mach.swapPasses (m : Mach) : Bool :=
  m.swapCrcOk m.lut.checking && m.swapCounted.contrastOk (m.swapCounted.tablesAfter m.lut.checking)

section
variable {m : Mach}

/-- A swap that passes is pending until its latch line (R238). -/
theorem Mach.lutSwapChecked_passes (ht : m.lut.checking ≠ 0) (h : m.swapPasses = true) :
    m.lutSwapChecked =
      let n := m.swapCounted
      (({ n with lut := { n.lut with checking := 0, passed := m.lut.checking, latched := false } } : Mach).putB
        F.LUT_SWAP_STATUS_CHECKING false).putB F.LUT_SWAP_STATUS_PENDING true := by
  simp only [Mach.swapPasses, Mach.swapCounted] at h
  simp only [Mach.lutSwapChecked, Mach.swapCounted, if_neg ht, h, if_true]

/-- A swap that fails is refused whole, with the first check that it fails as its status, a trouble and event 292 (R238,
R239). -/
theorem Mach.lutSwapChecked_refused (ht : m.lut.checking ≠ 0) (h : m.swapPasses = false) :
    m.lutSwapChecked =
      let n := m.swapCounted
      ((((({ n with lut := { n.lut with checking := 0, passed := 0, latched := false } } : Mach).putB
        F.LUT_SWAP_STATUS_CHECKING false).putB F.LUT_SWAP_STATUS_PENDING false).put F.LUT_SWAP_STATUS_LAST
          (if m.swapCrcOk m.lut.checking then swContrast else swBadCrc)).trouble F.LUT_TROUBLE_SWAP_REFUSED).raise 292 := by
  simp only [Mach.swapPasses, Mach.swapCounted] at h
  simp only [Mach.lutSwapChecked, Mach.swapCounted, if_neg ht, h, Bool.false_eq_true, if_false]

end

/-! ### How these commands end -/

/-- A command of logic that works outside HOLD and SLEEP ends there in any effect that agrees with its own on the machine
as it stands. -/
theorem exec_awake {c : Instr} {s : State} {f g : Mach → Mach} (hh : s.mach.mode ≠ .hold) (hs : s.mach.mode ≠ .sleep)
    (he : exec c s = s.awake f) (h : f s.mach = g s.mach) : exec c s = .next (s.after g) := by
  rw [he, State.awake_eq hh hs, State.after_congr h]

/-- The serializer signature of a region that is on is complete when its last pixel has passed, while the panel is
scanned (R245). -/
theorem State.outSignature_scans {s : State} {r : Nat} {l : List (Nat × Nat)} (hm : s.mach.mode.scans = true)
    (hr : s.mach.sigOn r = true) :
    s.outSignature r l = s.on fun m => m.outSignature r (m.regionSig r (fun x y => s.outPixel x y) l) :=
  if_pos (by simp [hm, hr])

/-- Settles O17: the swap splits on whether both of its checks hold; an uncorrectable error and the end of an output
signature each take the branch that their conditions choose. The pairs that the contrast check compares and how the
outcomes at the two points of a frame are counted are the model's choices (log entries 27 and 25). -/
theorem tableCommands : Obligations.TableCommands := by
  unfold Obligations.TableCommands
  refine ⟨?swap, ?eccFatal, ?signature⟩
  case swap =>
    intro s hs ht
    refine exec_serving hs rfl ?_
    cases h : s.mach.swapPasses with
    | true => exact (Mach.lutSwapChecked_passes ht h).trans (if_pos h).symm
    | false => exact (Mach.lutSwapChecked_refused ht h).trans (if_neg (Bool.eq_false_iff.mp h)).symm
  case eccFatal => exact fun s t hh hs => exec_awake hh hs rfl rfl
  case signature =>
    intro s r l hm hr
    exact exec_ends rfl ((if_pos hm).trans (State.outSignature_scans hm hr))

end Sys2Proof.Machine
end

section
/-! SUPPORT. Scan-out: what the frame's start, a link attempt, the AUX channel and the panel's steps do when their
conditions hold. -/

namespace Sys2Proof.Machine

section
variable {m : Mach} {l : List (Nat × Nat × Bool)}

/-! ### Frames (R255, R275) -/

theorem Mach.frameStart_running (h : m.timingRuns = true) :
    m.frameStart = m.s5Frame.scanFrameStart.decStage.lutFrame.dutyFrame.showSuspended :=
  if_neg (by simp [h])

theorem Mach.vblank_running (h : m.timingRuns = true) : m.vblank = m.raise 273 := if_pos h

/-! ### The link (R263) -/

/-- The first candidate of the sink that trains is used, and event 274 tells it. -/
theorem Mach.linkAttempt_trains {k : Sink} {r w : Nat} {d : Bool} (hk : m.scn.sink = some k)
    (hf : (m.linkCandidates k).find? l.contains = some (r, w, d)) :
    m.linkAttempt l =
      let n := m.setScn { m.scn with linkUp := true, retryMs := 100, step := if m.scn.step = 7 then 8 else 2 }
      ((n.showLink (r + 1) w d).setPanel panelLink).raise 274 := by
  simp only [Mach.linkAttempt, hk, hf]

/-- When no candidate trains, the wait for the next attempt doubles, up to 5 s. -/
theorem Mach.linkAttempt_fails {k : Sink} (hk : m.scn.sink = some k)
    (hf : (m.linkCandidates k).find? l.contains = none) :
    m.linkAttempt l = (m.setScn { m.scn with retryMs := min 5000 (2 * m.scn.retryMs) }).trouble
      (if (m.linkCandidates k).isEmpty then F.SCN_TROUBLE_NO_FIT else F.SCN_TROUBLE_TRAIN_FAIL) := by
  simp only [Mach.linkAttempt, hk, hf]

theorem Mach.dpRetry_due (hw : m.linkWaits = true) (hp : m.on F.SCN_STATUS_HPD = true) (hu : m.scn.linkUp = false) :
    m.dpRetry l = m.linkTry l :=
  if_pos ⟨hw, hp, by simp [hu]⟩

/-! ### AUX (R266) -/

section
variable {q : AuxReq} {d : List Nat} (hq : m.scn.aux = some q)
include hq

theorem Mach.auxReplyTimeout_running :
    m.auxReplyTimeout =
      if q.noReply = 0 then m.auxDone auxTimeout 0
      else m.setScn { m.scn with aux := some { q with noReply := q.noReply - 1 } } := by
  simp only [Mach.auxReplyTimeout, hq]

theorem Mach.auxReply_ack_write (ho : q.op % 2 = 1) : m.auxReply 0 d true = m.auxDone auxOk q.len := by
  simp [Mach.auxReply, hq, ho]

theorem Mach.auxReply_ack_read (ho : q.op % 2 = 0) :
    m.auxReply 0 d true =
      (((d.take q.len).zip (List.range 16)).foldl (fun m e => m.putAuxByte e.2 (e.1 % 256)) m).auxDone auxOk
        (d.take q.len).length := by
  simp [Mach.auxReply, hq, ho]

theorem Mach.auxReply_nack : m.auxReply 1 d true = m.auxDone auxNack 0 := by
  simp [Mach.auxReply, hq]

theorem Mach.auxReply_defer :
    m.auxReply 2 d true =
      if q.defers = 0 then m.auxDone auxDefer 0
      else m.setScn { m.scn with aux := some { q with defers := q.defers - 1 } } := by
  simp [Mach.auxReply, hq]

end

/-! ### The panel sequence (R267, R274) -/

theorem Mach.linkWaits_iff : m.linkWaits = true ↔ m.scn.step = 1 ∨ m.scn.step = 7 := by
  simp [Mach.linkWaits]

theorem Mach.panelStep_waits (hw : m.linkWaits = true) (hp : m.on F.SCN_STATUS_HPD = true) :
    m.panelStep l = m.linkTry l := by
  rcases Mach.linkWaits_iff.mp hw with h | h <;> simp only [Mach.panelStep, h, hp, if_true]

theorem Mach.panelStep_light (h : m.scn.step = 3) :
    m.panelStep l =
      ((((m.backlight true).setPanel panelLit).setScn { m.scn with step := 0 }).raise 280).panelUpdate := by
  simp only [Mach.panelStep, h]

theorem Mach.panelStep_linkOff (h : m.scn.step = 4) :
    m.panelStep l = (m.showLink 0 0 false).setScn { m.scn with step := 5, linkUp := false } := by
  simp only [Mach.panelStep, h]

theorem Mach.panelStep_supplyOff (h : m.scn.step = 5) :
    m.panelStep l =
      (((m.emit (.pin .panelVdd false)).setPanel panelOff).setScn { m.scn with step := 6 }).raise 280 := by
  simp only [Mach.panelStep, h]

theorem Mach.panelStep_restEnd (h : m.scn.step = 6) :
    m.panelStep l = (m.setScn { m.scn with step := 0 }).panelUpdate := by
  simp only [Mach.panelStep, h]

theorem Mach.panelStep_relight (h : m.scn.step = 9) :
    m.panelStep l = (((m.backlight true).setPanel panelLit).setScn { m.scn with step := 0 }).panelUpdate := by
  simp only [Mach.panelStep, h]

theorem Mach.noHpd_unplugged (h : m.scn.step = 1) (hp : m.on F.SCN_STATUS_HPD = false) :
    m.noHpd = (m.trouble F.SCN_TROUBLE_NO_HPD).panelStartDown :=
  if_pos ⟨h, by simp [hp]⟩

theorem Mach.faultHoldEnd_halt (h : m.mode = .halt) :
    m.faultHoldEnd = (m.setScn { m.scn with faultOff := true }).panelUpdate := if_pos h

end

/-- Settles O18: each clause is the branch that its conditions choose. The panel's steps act in every mode, every other
command outside HOLD and SLEEP, and the end of the fault hold in HALT; an attempt uses the first candidate that trains,
or fails when none does. That a short pulse advances a count that no register shows, what PANEL shows while a lost link
is trained again, that relighting raises no event 280, and that a failed attempt of a sequence that is wanted no longer
runs down are the model's choices (log entries 31 and 23). -/
theorem scanCommands : Obligations.ScanCommands := by
  unfold Obligations.ScanCommands
  refine ⟨?frameStart, ?vblank, ?plug, ?unplug, ?irq, ?shortPulse, ?retry, ?attempt, ?auxTimeout, ?auxReply, ?panel,
    ?noHpd, ?faultHoldEnd⟩
  case frameStart => exact fun s hh hs ht => exec_awake hh hs rfl (Mach.frameStart_running ht)
  case vblank => exact fun s hh hs ht => exec_awake hh hs rfl (Mach.vblank_running ht)
  case plug => exact fun s k l hh hs => exec_awake hh hs rfl rfl
  case unplug => exact fun s hh hs => exec_awake hh hs rfl rfl
  case irq => exact fun s lost fails l hh hs => exec_awake hh hs rfl rfl
  case shortPulse => exact fun s hh hs => exec_awake hh hs rfl rfl
  case retry => exact fun s l hh hs hw hp hu => exec_awake hh hs rfl (Mach.dpRetry_due hw hp hu)
  case attempt =>
    intro m k l hk
    cases hf : (m.linkCandidates k).find? l.contains with
    | some c => exact Mach.linkAttempt_trains hk hf
    | none => exact Mach.linkAttempt_fails hk hf
  case auxTimeout => exact fun s q hh hs hq => exec_awake hh hs rfl (Mach.auxReplyTimeout_running hq)
  case auxReply =>
    intro s q d hh hs hq
    refine ⟨fun ho => ?write, fun ho => ?read, ?nack, ?defer⟩
    case write => exact exec_awake hh hs rfl (Mach.auxReply_ack_write hq ho)
    case read => exact exec_awake hh hs rfl (Mach.auxReply_ack_read hq ho)
    case nack => exact exec_awake hh hs rfl (Mach.auxReply_nack hq)
    case defer => exact exec_awake hh hs rfl (Mach.auxReply_defer hq)
  case panel =>
    intro s l
    exact ⟨fun hw hp => exec_always rfl (Mach.panelStep_waits hw hp),
      fun h => exec_always rfl (Mach.panelStep_light h),
      fun h => exec_always rfl (Mach.panelStep_linkOff h),
      fun h => exec_always rfl (Mach.panelStep_supplyOff h),
      fun h => exec_always rfl (Mach.panelStep_restEnd h),
      fun h => exec_always rfl (Mach.panelStep_relight h)⟩
  case noHpd => exact fun s hh hs hst hp => exec_awake hh hs rfl (Mach.noHpd_unplugged hst hp)
  case faultHoldEnd =>
    exact fun s hm => exec_awake (by simp [hm]) (by simp [hm]) rfl (Mach.faultHoldEnd_halt hm)

end Sys2Proof.Machine
end

section
/-! SUPPORT. Steps and runs: a step runs the front command, keeps the memories in canonical form, and always answers. -/

namespace Sys2Proof.Machine

/-- Settles O39: the two branches of a step. That an empty queue is a tick is the model's choice (log entry 4). -/
theorem stepRunsFront : Obligations.StepRunsFront := by
  unfold Obligations.StepRunsFront
  refine ⟨fun s c q h => ?_, fun s h => ?_⟩
  · simp only [step, h]
  · simp only [step, h]
    rfl

/-- Settles O41: nothing is listed in the memories or the flash after reset. -/
theorem resetInForm : Obligations.ResetInForm := State.memoryWf_reset

/-! ### The canonical form (R332, R384) -/

/-- Every elementary change keeps the canonical form. -/
theorem State.Leads.memoryWf {s t : State} (h : s.Leads t) (hs : s.memoryWf = true) : t.memoryWf = true := by
  induction h with
  | refl => exact hs
  | trans _ _ ih1 ih2 => exact ih2 (ih1 hs)
  | mach s m => exact memoryWf_of_eq rfl rfl hs
  | byte s a b => exact memoryWf_setByte a b hs
  | flash s a v => exact memoryWf_setFbyte a v hs
  | erase s a => exact memoryWf_ferase a hs
  | clear s a n => exact memoryWf_clear a n hs
  | ecc s l => exact memoryWf_of_eq rfl rfl hs
  | customerKey s k => exact memoryWf_of_eq rfl rfl hs
  | por s => exact memoryWf_por hs

theorem State.memoryWf_done {s t : State} (h : t.memoryWf = true) : (s.done t).memoryWf = true :=
  memoryWf_of_eq (State.done_mem s t) (State.done_flash s t) h

theorem State.Completes.memoryWf {s t : State} {r : Result} (h : s.Completes r) (hs : s.memoryWf = true)
    (hr : r = .next t) : t.memoryWf = true := by
  obtain ⟨u, hu, he⟩ := h
  rw [← Host.Outcome.next.inj (he.symm.trans hr)]
  exact memoryWf_done (hu.memoryWf hs)

/-- The delivery of what the node has sent to its own ID is made of elementary changes. -/
theorem State.leads_deliverHome (s : State) : s.Leads s.deliverHome :=
  .foldl (fun t _ => leads_routedPacket t _ _ _ _) _ (.mach s _)

/-- Every step ends as a command does: it runs one, or delivers and ticks. -/
theorem step_completes (s : State) : ∃ u : State, u.mem = s.mem ∧ u.flash = s.flash ∧ u.Completes (step s) := by
  unfold step
  split
  · exact ⟨s, rfl, rfl, ((State.leads_deliverHome s).on _).completes⟩
  · next c q _ => exact ⟨{ s with pending := q }, rfl, rfl, exec_completes c _⟩

/-- Settles O43: every step is made of elementary changes, and each of them keeps the canonical form. -/
theorem stepKeepsMemoryForm : Obligations.StepKeepsMemoryForm := by
  unfold Obligations.StepKeepsMemoryForm
  intro s t hs ht
  obtain ⟨u, hm, hf, hc⟩ := step_completes s
  exact hc.memoryWf (State.memoryWf_of_eq hm hf hs) ht

/-! ### Runs -/

theorem step_next (s : State) : s.steps := by
  obtain ⟨u, -, -, t, -, he⟩ := step_completes s
  exact ⟨_, he⟩

/-- Settles O55: by induction on the steps of the run, each of which answers and keeps the canonical form. That no command
stops the block rests on commands whose conditions fail answering an unchanged state (log entry 5), and that an empty
queue is a tick is the model's choice too (log entry 4). -/
theorem everyRunIsSafe : Obligations.EveryRunIsSafe := by
  unfold Obligations.EveryRunIsSafe
  intro k
  induction k with
  | zero => exact fun s hs => hs
  | succ k ih =>
    intro s hs
    obtain ⟨t, ht⟩ := step_next s
    exact ⟨hs, t, ht, ih t (stepKeepsMemoryForm s t hs ht)⟩

end Sys2Proof.Machine
end

section
/-! SUPPORT. What an arrival at an event source reaches, register by register: its count rises by one (R421), and a pending
bit, once set, stays through all that it leads to (R310). -/

namespace Sys2Proof.Machine

/-! ### The registers of a counter, of waiting sequencers and of the host sets -/

theorem Mach.addCount_rd (m : Mach) (e n : Nat) {r : Reg} (i : Nat) (hc : r ≠ .PMC_CNT) (hw : r ≠ .PMC_WRAPPED) :
    (m.addCount e n).rd r i = m.rd r i := by
  simp only [Mach.addCount]
  split <;> simp [Mach.setBitOf, Mach.rd_put, hc, hw]

theorem Mach.count_rd (m : Mach) (e n : Nat) {r : Reg} (i : Nat) (hc : r ≠ .PMC_CNT) (hw : r ≠ .PMC_WRAPPED) :
    (m.count e n).rd r i = m.rd r i := m.addCount_rd e _ i hc hw

theorem Mach.rd_foldl {α : Type} {f : Mach → α → Mach} {r : Reg} {i : Nat} (h : ∀ (m : Mach) a, (f m a).rd r i = m.rd r i)
    (l : List α) (m : Mach) : (l.foldl f m).rd r i = m.rd r i := by
  induction l generalizing m with
  | nil => rfl
  | cons a l ih => rw [List.foldl_cons, ih, h]

theorem Mach.level2_rd (m : Mach) (s : Nat) {r : Reg} (i : Nat) (hc : r ≠ .PMC_CNT) (hw : r ≠ .PMC_WRAPPED)
    (hp : r ≠ .EVC_HOST_PEND) : (m.level2 s).rd r i = m.rd r i := by
  refine Mach.rd_foldl (fun m h => ?_) _ m
  split
  · simp [Mach.count_rd _ _ _ i hc hw, hp]
  · rfl

theorem Mach.wakeWaiters_rd (m : Mach) (s : Nat) {r : Reg} (i : Nat) (hs : r ≠ .SEQ_ST) (ht : r ≠ .SEQ_STATE) :
    (m.wakeWaiters s).rd r i = m.rd r i := by
  refine Mach.rd_foldl (fun m e => ?_) _ m
  split
  · simp only [Mach.rd_put, hs, ht, false_and, if_false]
    rfl
  · rfl

/-! ### The arrival counters (R421) -/

/-- A bumped field rises by n, and stops at its top. -/
theorem Mach.get_bump_same (m : Mach) (f : Field) (i n : Nat) (h : f.lo + f.width ≤ 64) :
    (m.bump f i n).get f i = min (2 ^ f.width - 1) (m.get f i + n) := by
  have hlt : min (2 ^ f.width - 1) (m.get f i + n) < 2 ^ f.width :=
    lt_of_le_of_lt (Nat.min_le_left _ _) (Nat.sub_lt (Nat.two_pow_pos _) Nat.one_pos)
  rw [Mach.bump, Mach.get_put_same _ _ _ _ h, satAdd, Nat.mod_eq_of_lt hlt]

/-- Where an arrival is taken, it leaves its count in the counter of its source. -/
theorem Mach.arrive_arrivals {m : Mach} (n : Nat) (trigger : Bool) (hh : m.mode ≠ .hold) (hs : m.mode ≠ .sleep) :
    (m.arrive n trigger).1.rd .PMC_ARRIVALS n = (m.bump F.PMC_ARRIVALS_ARRIVALS n).rd .PMC_ARRIVALS n := by
  have h1 : (((m.bump F.PMC_ARRIVALS_ARRIVALS n).wakeWaiters n).level2 n).rd .PMC_ARRIVALS n =
      (m.bump F.PMC_ARRIVALS_ARRIVALS n).rd .PMC_ARRIVALS n := by
    rw [Mach.level2_rd _ _ _ (by decide) (by decide) (by decide), Mach.wakeWaiters_rd _ _ _ (by decide) (by decide)]
  have hm (k : Mach) : ((k.bump F.EVC_MERGES_COUNT).count 257).rd .PMC_ARRIVALS n = k.rd .PMC_ARRIVALS n := by
    rw [Mach.count_rd _ _ _ _ (by decide) (by decide)]
    simp [Mach.bump, Mach.rd_put]
  rw [← h1]
  simp only [Mach.arrive, hh, hs, or_self, if_false]
  generalize ((m.bump F.PMC_ARRIVALS_ARRIVALS n).wakeWaiters n).level2 n = k
  split
  · split
    · split
      · exact hm k
      · exact hm k
    · simp [Mach.setBitOf]
  · rfl

/-- Settles O48: the arrival counts first, and nothing else that an arrival does touches the arrival counters. -/
theorem arrivalsCounted : Obligations.ArrivalsCounted := by
  unfold Obligations.ArrivalsCounted
  intro m n trigger hh hs
  have hr := Mach.arrive_arrivals n trigger hh hs
  calc (m.arrive n trigger).1.get F.PMC_ARRIVALS_ARRIVALS n
      = (m.bump F.PMC_ARRIVALS_ARRIVALS n).get F.PMC_ARRIVALS_ARRIVALS n := by simp only [Mach.get, hr]
    _ = min (2 ^ 32 - 1) (m.get F.PMC_ARRIVALS_ARRIVALS n + 1) := Mach.get_bump_same _ _ _ _ (by decide)

/-! ### Pending bits (R310) -/

/-- Every pending bit of m is pending in n. -/
def Mach.PendKept (m n : Mach) : Prop := ∀ k, m.bitOf .EVC_PEND k = true → n.bitOf .EVC_PEND k = true

theorem Mach.PendKept.refl (m : Mach) : m.PendKept m := fun _ h => h

theorem Mach.PendKept.trans {a b c : Mach} (h : a.PendKept b) (k : b.PendKept c) : a.PendKept c :=
  fun n hn => k n (h n hn)

theorem Mach.PendKept.of_rd {m n : Mach} (h : ∀ i, n.rd .EVC_PEND i = m.rd .EVC_PEND i) : m.PendKept n := by
  intro k hk
  rwa [Mach.bitOf, h]

theorem Mach.PendKept.foldl {α : Type} {f : Mach → α → Mach} (h : ∀ (m : Mach) a, m.PendKept (f m a)) (l : List α)
    (m : Mach) : m.PendKept (l.foldl f m) := by
  induction l generalizing m with
  | nil => exact .refl m
  | cons a l ih => exact (h m a).trans (ih _)

theorem Mach.pendKept_put (m : Mach) {f : Field} (v i : Nat) (h : f.reg ≠ .EVC_PEND) : m.PendKept (m.put f v i) :=
  .of_rd fun _ => m.rd_wr_ne _ (.inl h.symm)

theorem Mach.pendKept_count (m : Mach) (e n : Nat) : m.PendKept (m.count e n) :=
  .of_rd fun i => m.count_rd e n i (by decide) (by decide)

theorem Mach.PendKept.of_regs {m n : Mach} (h : n.regs = m.regs) : m.PendKept n :=
  .of_rd fun i => by rw [Mach.rd, Mach.rd, h]

/-- A word that gains a bit keeps the others. -/
theorem testBit_toNat_setBit {x : DWord} {b j : Nat} (h : x.toNat.testBit j = true ∨ (b = j ∧ j < 64)) :
    (BitVec.ofNat 64 (setBit x.toNat b)).toNat.testBit j = true := by
  have hj : j < 64 := h.elim (fun h => Nat.lt_of_not_le fun hj => by
    rw [Nat.testBit_lt_two_pow (x.isLt.trans_le (Nat.pow_le_pow_right (by decide) hj))] at h
    exact Bool.noConfusion h) And.right
  rw [BitVec.toNat_ofNat, Nat.testBit_mod_two_pow, testBit_setBit]
  rcases h with h | ⟨rfl, -⟩ <;> simp [*]

theorem Mach.pendKept_setRegBit (m : Mach) (r : Reg) (i b : Nat) : m.PendKept (m.setRegBit r i b) := by
  intro k hk
  by_cases h : Reg.EVC_PEND = r ∧ k / 32 = i
  · obtain ⟨rfl, rfl⟩ := h
    simpa [Mach.bitOf, Mach.setRegBit] using testBit_toNat_setBit (.inl hk)
  · simpa [Mach.bitOf, Mach.setRegBit, h] using hk

/-- Setting the bit of a source, in any register of 32 bits each, keeps every pending bit. -/
theorem Mach.pendKept_setBitOf (m : Mach) (r : Reg) (n : Nat) : m.PendKept (m.setBitOf r n) :=
  m.pendKept_setRegBit r (n / 32) (n % 32)

theorem Mach.bitOf_setBitOf_same (m : Mach) (r : Reg) (n : Nat) : (m.setBitOf r n).bitOf r n = true := by
  have h : n % 32 < 64 := (Nat.mod_lt n (by decide)).trans (by decide)
  simpa [Mach.bitOf, Mach.setBitOf] using testBit_toNat_setBit (x := m.rd r (n / 32)) (.inr ⟨rfl, h⟩)

theorem Mach.pendKept_arrive (m : Mach) (s : Nat) (t : Bool) : m.PendKept (m.arrive s t).1 := by
  have hb : m.PendKept (((m.bump F.PMC_ARRIVALS_ARRIVALS s).wakeWaiters s).level2 s) :=
    ((m.pendKept_put _ _ (by decide)).trans (.of_rd fun i => Mach.wakeWaiters_rd _ _ i (by decide) (by decide))).trans
      (.of_rd fun i => Mach.level2_rd _ _ i (by decide) (by decide) (by decide))
  simp only [Mach.arrive]
  split
  · exact .refl m
  · generalize ((m.bump F.PMC_ARRIVALS_ARRIVALS s).wakeWaiters s).level2 s = k at hb ⊢
    have hm : k.PendKept ((k.bump F.EVC_MERGES_COUNT).count 257) :=
      (k.pendKept_put _ _ (by decide)).trans (Mach.pendKept_count _ _ _)
    split
    · split
      · split
        · exact (hb.trans hm).trans (.of_regs rfl)
        · exact hb.trans hm
      · exact hb.trans (k.pendKept_setBitOf _ _)
    · exact hb

theorem Mach.pendKept_summarise (m : Mach) (b : Block) : m.PendKept (m.summarise b).1 := by
  unfold Mach.summarise
  split
  · exact .refl m
  · split
    · exact .refl m
    · exact m.pendKept_put _ _ (by decide)

theorem Mach.pendKept_rise (m : Mach) (r : Reg) (i bit code detail : Nat) (log : Bool) :
    m.PendKept (m.rise r i bit code detail log).1 := by
  unfold Mach.rise
  split
  · exact .refl m
  · have hs := (m.pendKept_setRegBit r i bit).trans (Mach.pendKept_summarise _ r.block)
    dsimp only
    split
    · exact hs.trans (Mach.pendKept_put _ _ _ (by decide))
    · split
      · exact hs.trans (Mach.pendKept_put _ _ _ (by decide))
      · exact hs

theorem Mach.pendKept_queueEntry (m : Mach) (x : TroubleEntry) : m.PendKept (m.queueEntry x).1 := by
  unfold Mach.queueEntry
  split
  · exact Mach.PendKept.trans (.of_regs rfl) (Mach.pendKept_put _ _ _ (by decide))
  · exact (m.pendKept_put _ _ (by decide)).trans (Mach.pendKept_count _ _ _)

theorem Mach.pendKept_snapshot (m : Mach) : m.PendKept m.snapshot :=
  ((Mach.PendKept.foldl (fun m _ => m.pendKept_put _ _ (by decide)) _ m).trans
    (Mach.pendKept_put _ _ _ (by decide))).trans (Mach.pendKept_put _ _ _ (by decide))

/-- A packet that the node sends changes no register. -/
theorem Mach.pendKept_dispatch (m : Mach) (type vc dest : Nat) (words : List Nat) (len : Nat) :
    m.PendKept (m.dispatch type vc dest words len).1 := by
  have hf (k : Mach) (h : m.Frame [] k) : m.PendKept k := .of_rd fun i => h.regs _ i List.not_mem_nil
  unfold Mach.dispatch
  split
  · exact hf _ (m.frame_sendHome _ _ _)
  · split
    · exact hf _ (m.frame_sendOn _ _ _ _ _ _)
    · exact hf _ (m.frame_countDrop _).1

theorem Mach.pendKept_effect (m : Mach) (x : Eff) : m.PendKept (m.effect x).1 := by
  cases x with
  | arrive s t => exact m.pendKept_arrive s t
  | sticky r i b c d => exact m.pendKept_rise r i b c d true
  | quietSticky r i b => exact m.pendKept_rise r i b 0 0 false
  | entry x => exact m.pendKept_queueEntry x
  | snap => exact m.pendKept_snapshot
  | bell => exact m.pendKept_dispatch _ _ _ _ _

theorem pendKept_settle (n : Nat) (es : List Eff) (m : Mach) : m.PendKept (settle n es m) := by
  induction n generalizing es m with
  | zero => exact .refl m
  | succ n ih =>
    cases es with
    | nil => exact .refl m
    | cons e es => exact (m.pendKept_effect e).trans (ih _ _)

/-- An arrival at an enabled source merges with the pending one, or sets the bit. -/
theorem Mach.arrive_pending {m : Mach} {n : Nat} (t : Bool) (hh : m.mode ≠ .hold) (hs : m.mode ≠ .sleep)
    (he : m.on F.EVC_SRC_0_EN n = true) : (m.arrive n t).1.bitOf .EVC_PEND n = true := by
  have hf : m.Frame flagRegs (((m.bump F.PMC_ARRIVALS_ARRIVALS n).wakeWaiters n).level2 n) :=
    ((m.frame_bump _ _ _ (by decide)).trans (Mach.frame_wakeWaiters _ _)).trans (Mach.frame_level2 _ _)
  have hk : (((m.bump F.PMC_ARRIVALS_ARRIVALS n).wakeWaiters n).level2 n).on F.EVC_SRC_0_EN n = true := by
    rwa [Mach.on, hf.get _ _ (by decide)]
  simp only [Mach.arrive, hh, hs, or_self, if_false, hk, if_true]
  generalize ((m.bump F.PMC_ARRIVALS_ARRIVALS n).wakeWaiters n).level2 n = k
  split
  · next hp =>
    have hm : k.PendKept ((k.bump F.EVC_MERGES_COUNT).count 257) :=
      (k.pendKept_put _ _ (by decide)).trans (Mach.pendKept_count _ _ _)
    split
    · exact hm n hp
    · exact hm n hp
  · exact k.bitOf_setBitOf_same _ n

/-- A raised event is one arrival, and then what it leads to. -/
theorem Mach.raise_eq (m : Mach) (n : Nat) : m.raise n = settle 63 (m.arrive n true).2 (m.arrive n true).1 := by
  have hs (k : Nat) : settle (k + 1) [.arrive n true] m = settle k (m.arrive n true).2 (m.arrive n true).1 := rfl
  exact hs 63

/-- Settles O49: the arrival leaves its bit pending, and nothing that it leads to clears a pending bit. -/
theorem raiseSetsPending : Obligations.RaiseSetsPending := by
  unfold Obligations.RaiseSetsPending
  intro m n hh hs _ he
  rw [Mach.raise_eq]
  exact pendKept_settle _ _ _ n (Mach.arrive_pending true hh hs he)

end Sys2Proof.Machine
end

section
/-! SUPPORT. The gate's decision (R344): its order, and what each of its bars leaves. -/

namespace Sys2Proof.Machine

section
variable {m : Mach} {old : Bool} {k : Nat} {x : Access}

/-- The debug master at a page of a locked rule is stopped at the lock, or before it (R349). -/
theorem Mach.gateDecide_locked (h : m.lockedAt x.addr = true ∨ m.lockedAt (x.addr + x.len - 1) = true) :
    m.gateDecide old 2 x ≠ none := by
  have hq : ¬(m.mode = .quarantine ∧ 2 = 28) := fun e => absurd e.2 (by decide)
  simp only [Mach.gateDecide, if_neg hq, true_and, h, if_true]
  split_ifs <;> exact Option.some_ne_none _

/-- Outside QUARANTINE, and for a master that no lock stops, the default map decides an access that is mapped, aligned in
register space, not leased and without a rule (R344). -/
theorem Mach.gateDecide_default {r : Region} (hq : m.mode ≠ .quarantine) (hk : k ≠ 2) (h1 : m.region x.addr = some r)
    (h2 : m.region (x.addr + x.len - 1) = some r) (ha : r = .regs → alignedReg x = true)
    (hs : ∀ a, a = x.addr ∨ a = x.addr + x.len - 1 → m.leasedAt a = false ∧ m.ruleAt old k a = none) :
    m.gateDecide old k x = if m.privileged k then none else some .noMatch := by
  obtain ⟨hl1, hr1⟩ := hs x.addr (.inl rfl)
  obtain ⟨hl2, hr2⟩ := hs _ (.inr rfl)
  have hsrc : m.gateSource old k x.addr = ⟨false, none, some r⟩ := by simp only [Mach.gateSource, hl1, hr1, h1]
  have hend : m.gateSource old k (x.addr + x.len - 1) = ⟨false, none, some r⟩ := by
    simp only [Mach.gateSource, hl2, hr2, h2]
  simpa [Mach.gateDecide, h1, h2, hq, hk, hsrc, hend] using ha

/-- No master writes a leased page outside QUARANTINE (R350). -/
theorem Mach.gateDecide_leased (hw : x.write = true) (hq : m.mode ≠ .quarantine)
    (h : m.leasedAt x.addr = true ∨ m.leasedAt (x.addr + x.len - 1) = true) : m.gateDecide old k x ≠ none := by
  have hsame (hc : ¬ m.gateSource old k x.addr ≠ m.gateSource old k (x.addr + x.len - 1)) :
      (m.gateSource old k x.addr).leased = true := by
    have he : m.leasedAt x.addr = m.leasedAt (x.addr + x.len - 1) :=
      congrArg GateSource.leased (Decidable.not_not.mp hc)
    rwa [← he, or_self] at h
  simp only [Mach.gateDecide, hq, false_and, if_false, hw, true_and]
  split_ifs with halign hmap hlock hcross hlease
  · exact Option.some_ne_none _
  · exact Option.some_ne_none _
  · exact Option.some_ne_none _
  · exact Option.some_ne_none _
  · exact Option.some_ne_none _
  · exact absurd (hsame hcross) hlease
  · exact absurd (hsame hcross) hlease

end

/-- Settles O51: a lock and a lease are looked at before the rules, and where neither they nor a rule speak the default map
decides. -/
theorem gateBars : Obligations.GateBars := by
  unfold Obligations.GateBars
  exact ⟨fun _ _ _ => Mach.gateDecide_locked, fun _ _ _ _ => Mach.gateDecide_leased,
    fun _ _ _ _ _ hq hk h1 h2 ha hs => Mach.gateDecide_default hq hk h1 h2 ha hs⟩

end Sys2Proof.Machine
end

section
/-! SUPPORT. The boot image, the configuration flash and the service challenge: what each command does when its conditions
hold, and the bytes that an erase leaves. -/

namespace Sys2Proof.Machine

/-! ### The image (R380, R381) -/

section
variable {s : State} {f : FlashIn}

theorem State.loadCommand_load (hm : s.mach.mode = .load) (hc : s.mach.checksImage = false) :
    s.loadCommand f = s.load f := if_pos ⟨hm, by simp [hc]⟩

theorem State.imageCheckCommand_load (hm : s.mach.mode = .load) (hc : s.mach.checksImage = true) :
    s.imageCheckCommand f = s.imageCheck f := if_pos ⟨hm, hc⟩

end

/-! ### The flash (R384) -/

section
variable {s : State} {v : Bool} {x : FlashOp}

theorem State.flashDone_running (h : s.mach.cfg.flashOp = some x) :
    s.flashDone v =
      if x.op = 0 then s.on fun m => (m.setFlashBytes 0 (s.fbytes x.addr x.len)).flashEnd 0
      else
        let t := if x.op = 1 then s.fprogram x.addr x.data else s.ferase x.addr
        let same : Bool := x.op ≠ 1 || (v && t.fbytes x.addr x.len = x.data)
        t.on fun m => m.flashEnd (if same then 0 else 5) := by
  simp only [State.flashDone, h]
  rfl

/-- An erase is one erase of the sector in the flash. -/
theorem State.flashDone_erase (h : s.mach.cfg.flashOp = some x) (he : x.op = 2) :
    s.flashDone v = (s.ferase x.addr).on fun m => m.flashEnd 0 := by
  simp [State.flashDone_running h, he]

end

theorem Mach.flashEraseTimeout_erasing {m : Mach} {x : FlashOp} (h : m.cfg.flashOp = some x) (he : x.op = 2) :
    m.flashEraseTimeout = m.flashEnd 4 := by
  simp only [Mach.flashEraseTimeout, h, he, if_true]

/-- Settles O46: an erase takes from the flash's list the bytes of its sector, which then read as erased. -/
theorem flashEraseClears : Obligations.FlashEraseClears := by
  unfold Obligations.FlashEraseClears
  intro s v x hx he
  have hd : exec (.flashDone v) s = .next (s.done ((s.ferase x.addr).on fun m => m.flashEnd 0)) := by
    rw [← State.flashDone_erase hx he]
    rfl
  have hb (a : Nat) : (s.done ((s.ferase x.addr).on fun m => m.flashEnd 0)).fbyte a =
      if a / 65536 = x.addr / 65536 then 0xFF else s.fbyte a := State.fbyte_ferase s x.addr a
  exact ⟨_, hd, fun a ha => by rw [hb, if_pos ha], fun a ha => by rw [hb, if_neg ha], rfl⟩

/-- Settles O25: LOAD and the image check are what runs in LOAD, an operation of the flash has its effect as it is done, and
the timeouts act on the interconnect clock. That an erase that times out leaves its sector as it was, and that DRAM after a
LOAD reads as memory that nothing has written, are the model's choices (log entries 110 and 113). -/
theorem imageCommands : Obligations.ImageCommands := by
  unfold Obligations.ImageCommands
  refine ⟨?load, ?imageCheck, ?flashDone, ?eraseTimeout, ?challenge⟩
  case load =>
    intro s f hm hc
    exact exec_ends rfl (State.loadCommand_load hm hc)
  case imageCheck =>
    intro s f hm hc
    exact exec_ends rfl (State.imageCheckCommand_load hm hc)
  case flashDone =>
    intro s v x hx
    exact exec_ends rfl (State.flashDone_running hx)
  case eraseTimeout => exact fun s x hc hx he => exec_clocked hc rfl (Mach.flashEraseTimeout_erasing hx he)
  case challenge => exact fun s hc => exec_clocked hc rfl rfl

end Sys2Proof.Machine
end

section
/-! SUPPORT. The touch front end: cycles, contacts, baselines, self-test, proximity and remote reports, each as the branch
that its command's conditions choose. -/

namespace Sys2Proof.Machine

section
variable {m : Mach}

/-! ### The end of a scan (R295, R303, R304) -/

/-- A scan that is awaited is a cycle of the self-test, or is dropped whole, or is checked and tracked. -/
theorem Mach.scanEnd_awaited {d : ScanData} (h : m.tch.phase = 2) :
    m.scanEnd d =
      let out := (List.range 128).filter fun k => m.usedPin k && !m.on F.TCH_PIN_FAULT k &&
        (d.raws.getD k 0 < m.get F.TCH_TEST_LIMITS_OPEN_MIN || m.get F.TCH_TEST_LIMITS_SHORT_MAX < d.raws.getD k 0)
      if 0 < m.tch.testLeft then
        (m.setTch { m.tch with phase := 0, testLeft := m.tch.testLeft - 1 }).ownCursor.heartbeat
      else if out ≠ [] then m.dropScan false out
      else
        let n := (List.range 128).foldl (fun (m : Mach) k =>
          if m.usedPin k then m.put F.TCH_PIN_SELF_RAW (min 65535 (d.raws.getD k 0)) k else m) m
        let n := n.setTch { n.tch with
          phase := 0, dropRun := 0, dropPins := [], live := n.gridNodes.zip d.mutual_,
          livePin := (List.range 128).zip d.self_ }
        if n.tch.first then
          (n.crossCheck.showNodes (n.crossCheck.deltas (n.crossCheck.get F.TCH_STATUS_FREQ))).ownCursor.heartbeat
        else
          let n := n.watchRegions
          let e := n.deltas (n.get F.TCH_STATUS_FREQ)
          let n := n.waterState e
          let c := n.candidates e
          ((((n.bump F.TCH_REJECTS_COUNT 0 c.2).count 229 c.2).track e c.1).drifts e c.1).showNodes e := by
  unfold Mach.scanEnd
  rw [if_neg (not_not.mpr h)]
  dsimp only
  refine if_congr Iff.rfl rfl (if_congr ?_ rfl rfl)
  simp

/-! ### Baselines and contacts (R291 to R293) -/

theorem Mach.baselineAdopted_region {n : Nat} {g : TouchRegion}
    (h : m.tch.regions.find? (fun g => g.nodes.contains n) = some g) :
    m.baselineAdopted n =
      ((((m.resolveRegion g).bump F.TCH_ADOPTIONS_COUNT).count 238).trouble F.TCH_TROUBLE_ADOPTED).raise 309 := by
  simp only [Mach.baselineAdopted, h]

theorem Mach.unconfAdopt_waiting {n t : Nat} (h : tFind m.tch.unconf n = some t) : m.unconfAdopt n = m.adoptNode n := by
  simp only [Mach.unconfAdopt, h]

theorem Mach.stuckContact_held {k : Nat} {c : Contact} (h : m.tch.contacts.find? (fun c => c.slot = k) = some c)
    (hs : c.stuck = false) (hd : c.stuckDue = false) (hh : m.get F.TCH_HOLD_MINUTES ≠ 0) :
    m.stuckContact k =
      (((m.setTch { m.tch with contacts := m.tch.contacts.map fun (x : Contact) =>
        if x.slot = k then { x with stuckDue := true } else x }).putB F.TCH_CONTACT_0_STUCK true k).trouble
          F.TCH_TROUBLE_STUCK).raise 310 := by
  simp [Mach.stuckContact, h, hs, hd, hh]

/-! ### Proximity (R305) -/

@[simp] theorem Mach.count_tch (m : Mach) (e k : Nat) : (m.count e k).tch = m.tch := (m.frame_count e k).rest.tch

section
variable {g : Nat} (hm : m.mode = .sleep) (hg : (m.get F.TCH_PROX_CFG_GROUP_EN).testBit g = true)
  (hp : (List.range 128).any (fun k => m.on F.TCH_PIN_PROX_EN k && m.get F.TCH_PIN_PROX_GROUP k = g) = true)
include hm hg hp

omit hm hg hp in
/-- A sample that asks for a wake when c holds wakes the node then. -/
theorem Mach.proxCommand_ite {n : Nat} {c : Prop} [Decidable c] {a b : Mach}
    (h : m.proxSample g n = if c then (true, a) else (false, b)) :
    m.proxCommand g n = if c then a.sleepWake (.proximity g) else b := by
  by_cases hc : c <;> simp [Mach.proxCommand, h, hc]

/-- A group that is on and has no baseline learns it from the sample. -/
theorem Mach.proxCommand_learns (n : Nat) (hb : (tGet m.tch.prox { base := none, run := 0 } g).base = none) :
    m.proxCommand g n =
      let x := (m.put F.TCH_PROX_COUNT_COUNT n g).count 237
      x.setTch { x.tch with prox := tIns x.tch.prox g { base := some (64 * n), run := 0 } } := by
  simp [Mach.proxCommand, Mach.proxSample, hm, hg, hp, hb]

/-- A group with a baseline detects, which wakes the node, or lets the baseline follow the sample. -/
theorem Mach.proxCommand_samples (n : Nat) {b : Nat}
    (hb : (tGet m.tch.prox { base := none, run := 0 } g).base = some b) :
    m.proxCommand g n =
      let x := tGet m.tch.prox { base := none, run := 0 } g
      let k := (m.put F.TCH_PROX_COUNT_COUNT n g).count 237
      let run := if b * (10000 + k.get F.TCH_PROX_CFG_THRESH) < 64 * n * 10000 then x.run + 1 else 0
      let d := k.get F.TCH_PROX_STATUS_DETECT
      if k.get F.TCH_PROX_CFG_DEBOUNCE ≤ run then
        let k := (k.setTch { k.tch with prox := tIns k.tch.prox g { x with run := run } }).put F.TCH_PROX_STATUS_DETECT
          (setBit d g)
        (if d.testBit g then k else k.raise (315 + g)).sleepWake (.proximity g)
      else
        let k := k.put F.TCH_PROX_STATUS_DETECT (clearBit d g)
        k.setTch { k.tch with prox := tIns k.tch.prox g { base := some (roundOpen (63 * b + 64 * n) 64), run := run } } := by
  refine Mach.proxCommand_ite ?_
  unfold Mach.proxSample
  dsimp only
  rw [if_neg (by simp [hm, hg, hp]), Mach.count_tch, Mach.put_tch, hb]

end

end

/-- Settles O19: each command acts while the node serves, and each clause is the branch that its conditions choose; the
samples of the proximity groups act in SLEEP. The widths in which drift and a proximity baseline are kept, the number of a
cycle and how scanning starts again, and when DETECT clears are the model's choices (log entries 38, 39 and 40). -/
theorem touchCommands : Obligations.TouchCommands := by
  unfold Obligations.TouchCommands
  refine ⟨?cycleStart, ?listenEnd, ?scanEnd, ?scanLate, ?adopted, ?unconf, ?stuck, ?testDone, ?proxLearns, ?proxSamples⟩
  case cycleStart => exact fun s hs ht he => exec_serving hs rfl (if_neg (by simp [ht, he]))
  case listenEnd => exact fun s l hs hp => exec_serving hs rfl (if_neg (not_not.mpr hp))
  case scanEnd => exact fun s d hs hp => exec_serving hs rfl (Mach.scanEnd_awaited hp)
  case scanLate => exact fun s hs hp => exec_serving hs rfl (if_pos hp)
  case adopted => exact fun s n g hs hg => exec_serving hs rfl (Mach.baselineAdopted_region hg)
  case unconf => exact fun s n t hs ht => exec_serving hs rfl (Mach.unconfAdopt_waiting ht)
  case stuck => exact fun s k c hs hc h1 h2 h3 => exec_serving hs rfl (Mach.stuckContact_held hc h1 h2 h3)
  case testDone => exact fun s a b hs ht => exec_serving hs rfl (if_pos ht)
  case proxLearns => exact fun s g n hm hg hp hb => exec_always rfl (Mach.proxCommand_learns hm hg hp n hb)
  case proxSamples => exact fun s g n b hm hg hp hb => exec_always rfl (Mach.proxCommand_samples hm hg hp n hb)

/-! ### Remote reports (R301) -/

section
variable {m : Mach}

section
variable {ws : List Nat}

theorem Mach.touchRx_bad
    (h : reportCrc (ws.getD 0 0) (ws.getD 1 0) (ws.getD 2 0) (ws.getD 3 0 % 2 ^ 32) ≠ bits (ws.getD 3 0) 32 32) :
    m.touchRx ws = (((m.chkUnit 12 false).bump F.TCH_RX_BAD_COUNT).count 235).trouble F.TCH_TROUBLE_RX_BAD := by
  unfold Mach.touchRx
  dsimp only
  rw [decide_eq_false h]

/-- A good report is recorded in the entry of its origin, the first free one for a new origin, and enters the FIFO. -/
theorem Mach.touchRx_good
    (h : reportCrc (ws.getD 0 0) (ws.getD 1 0) (ws.getD 2 0) (ws.getD 3 0 % 2 ^ 32) = bits (ws.getD 3 0) 32 32) :
    m.touchRx ws =
      let m := m.chkUnit 12 true
      let w1 := ws.getD 1 0
      let src := bits w1 20 12
      let known := (List.range 8).find? fun o => m.on F.TCH_RX_0_VALID o && m.get F.TCH_RX_0_ORIGIN o = src
      match known.orElse fun _ => (List.range 8).find? fun o => !m.on F.TCH_RX_0_VALID o with
      | none => (m.bump F.TCH_RX_BAD_COUNT).count 235
      | some o =>
        let cyc := bits w1 0 16
        let step := (cyc + 65536 - m.get F.TCH_RX_0_CYCLE o) % 65536
        let n := if known.isSome ∧ step ≠ 1 ∧ step ≠ 0 then m.bump F.TCH_RX_1_GAPS o else m
        let n := ((n.putB F.TCH_RX_0_VALID true o).put F.TCH_RX_0_ORIGIN src o).put F.TCH_RX_0_CYCLE cyc o
        let x := tGet n.tch.origins { node := src, lastRaw := 0, held := [] } o
        let ev := bits w1 48 4
        let held := if ev = evUp ∨ ev = evCancel then tDel x.held (bits w1 52 4) else if ev = evNone then x.held
          else tIns x.held (bits w1 52 4) ws
        let n := n.setTch { n.tch with origins := tIns n.tch.origins o { node := src, lastRaw := n.raw, held := held } }
        let n := n.setCursor src { sample := ws.getD 0 0, u := ws.getD 3 0 % 2 ^ 32, contacts := held.map fun e =>
          (e.1, bits (e.2.getD 2 0) 48 16, bits (e.2.getD 2 0) 32 16, (e.2.getD 1 0).testBit 44) }
        if ev = evNone then n else ((n.pushReport ws).raise 307).count 234 := by
  unfold Mach.touchRx
  dsimp only
  rw [decide_eq_true h]
  generalize Option.orElse _ _ = slot
  cases slot with
  | none => rfl
  | some o => rfl

end

/-- An origin that has an entry and falls silent ends its held contacts. -/
theorem Mach.touchRxSilent_known {k o : Nat}
    (h : (List.range 8).find? (fun o => m.on F.TCH_RX_0_VALID o && m.get F.TCH_RX_0_ORIGIN o = k) = some o) :
    m.touchRxSilent k =
      let x := tGet m.tch.origins { node := k, lastRaw := 0, held := [] } o
      let n := x.held.foldl (fun (m : Mach) e =>
        let w1 := e.2.getD 1 0
        let w2 := e.2.getD 2 0
        ((m.pushReport (reportWords m.now (bits w1 56 8) (bits w1 52 4) evCancel (bits w1 40 8) k (bits w1 0 16)
          (bits w2 48 16) (bits w2 32 16) (bits w2 16 16) (bits w2 8 8) m.uStamp)).raise 306).count 228) m
      let n := (n.setTch { n.tch with origins := tIns n.tch.origins o { x with held := [] } }).setRings k []
      (((n.wr .TCH_RX_0 o 0).wr .TCH_RX_1 o 0).trouble F.TCH_TROUBLE_RX_SILENT).raise 321 := by
  unfold Mach.touchRxSilent
  rw [h]

end

/-- Settles O20: a report is counted and dropped, or finds or takes the entry of its origin, and an origin that is silent
has an entry. What a CANCEL report of a silent origin carries beyond its stamp, and that each of them raises event 306, are
the model's choices (log entries 34 and 95). -/
theorem remoteTouchCommands : Obligations.RemoteTouchCommands := by
  unfold Obligations.RemoteTouchCommands
  refine ⟨?bad, ?good, ?silent⟩
  case bad => exact fun s _ _ _ _ hs h => exec_serving hs rfl (Mach.touchRx_bad h)
  case good => exact fun s _ _ _ _ hs h => exec_serving hs rfl (Mach.touchRx_good h)
  case silent => exact fun s k o hs h => exec_serving hs rfl (Mach.touchRxSilent_known h)

end Sys2Proof.Machine
end

section
/-! SUPPORT. Arrivals, deliveries, pins and the serial bus: each command as the branch that its conditions choose. -/

namespace Sys2Proof.Machine

section
variable {m : Mach}

theorem Mach.delivery_picked {n k : Nat} (h : m.pickDelivery none = some (n, k)) :
    m.delivery = (m.countSkips n).handOver n k := by
  simp only [Mach.delivery, h]

/-- A transfer that runs ends with its bytes, or with the code of what the target did not acknowledge (R328). -/
theorem Mach.i2cDone_running {ack : Nat} {d : List Nat} (h : m.evc.i2cBusy = true) :
    m.i2cDone ack d =
      let r := m.get F.SEQ_I2C_CTL_RLEN
      if ack = 1 then m.i2cEnd 2 0
      else if ack ≠ 0 then m.i2cEnd 3 0
      else if m.on F.SEQ_I2C_CTL_BLOCK ∧ r ≠ 0 then
        if r - 1 < d.headD 0 then m.i2cEnd 5 0
        else (m.i2cStore (d.take (d.headD 0 + 1))).i2cEnd 0 (d.headD 0 + 1)
      else (m.i2cStore (d.take r)).i2cEnd 0 r := by
  unfold Mach.i2cDone
  dsimp only
  rw [if_neg (by simp [h])]
  by_cases h0 : ack = 0
  · rw [if_neg (not_not.mpr h0), if_neg (by omega : ¬ ack = 1), if_neg (not_not.mpr h0)]
  · rw [if_pos h0, apply_ite (fun r => m.i2cEnd r 0), if_pos h0]

end

/-- Settles O21: an arrival is raised outside HOLD and SLEEP, a delivery is the one picked, and a pin's edge and a transfer's
end are the branches that their conditions choose. That an output's level shows in IN and raises no event is the model's
choice (log entry 119). -/
theorem eventCommands : Obligations.EventCommands := by
  unfold Obligations.EventCommands
  refine ⟨?arrival, ?delivery, ?holdoff, ?gpio, ?i2cDone, ?i2cTimeout⟩
  case arrival => exact fun s n hh hs hn => exec_awake hh hs rfl (if_pos hn)
  case delivery => exact fun s n k h => exec_always rfl (Mach.delivery_picked h)
  case holdoff => exact fun s g hs => exec_serving hs rfl rfl
  case gpio =>
    intro s i level hr hi hl
    exact exec_always rfl (if_neg (by simp [hr, hl, Nat.not_le.2 hi]))
  case i2cDone => exact fun s ack d hc hb => exec_clocked hc rfl (Mach.i2cDone_running hb)
  case i2cTimeout => exact fun s hc hb => exec_clocked hc rfl (if_pos hb)

end Sys2Proof.Machine
end

section
/-! SUPPORT. What a sequencer does with the action it stands at, action by action (R321). -/

namespace Sys2Proof.Machine

section
variable {s t : State} {k op : Nat} {ws : List Nat}

/-- A sequencer that may run and stands at a sound action issues it. -/
theorem State.seqIssue_stands (h : s.standsAt k op ws) : s.seqIssue k op = (s.issued k op ws).act k op ws := by
  obtain ⟨hm, hf, ho, hb⟩ := h
  simp only [State.seqIssue, hf]
  rw [if_neg (by simp [hm]), if_neg (not_not.mpr ho), if_neg (by simp [hb])]
  rfl

/-- A command of an action ends in what the action does in the state that issued it. -/
theorem exec_action {c : Instr} (he : exec c s = s.ends (s.seqIssue k op)) (h : s.standsAt k op ws)
    (ha : (s.issued k op ws).act k op ws = t) : exec c s = .next (s.done t) :=
  exec_ends he ((State.seqIssue_stands h).trans ha)

/-- The same for an action on the block alone, whose effect agrees with g on the machine as it stands. -/
theorem exec_action_on {c : Instr} {f g : Mach → Mach} (he : exec c s = s.ends (s.seqIssue k op))
    (h : s.standsAt k op ws) (ha : (s.issued k op ws).act k op ws = (s.issued k op ws).on f)
    (hg : f (s.issued k op ws).mach = g (s.issued k op ws).mach) :
    exec c s = .next (s.done ((s.issued k op ws).on g)) :=
  exec_action he h (by simp only [ha, State.on, hg])

/-- A sequencer that may run does not wait. -/
theorem State.waitingAction_stands (h : s.standsAt k op ws) : s.waitingAction k = none := by
  obtain ⟨hm, -⟩ := h
  simp only [Mach.seqMay, Bool.and_eq_true, decide_eq_true_eq] at hm
  simp [State.waitingAction, Mach.seqMay, hm.2, seqRun, seqWait]

/-- So its POLL is the first read. -/
theorem State.seqPoll_stands (h : s.standsAt k 4 ws) : s.seqPoll k = (s.issued k 4 ws).act k 4 ws := by
  rw [← State.seqIssue_stands h, State.seqPoll, State.waitingAction_stands h]

/-! ### Reads and writes -/

theorem State.actWrite_aligned {n : Nat} (h : (s.mach.target (ws.getD 0 0)).addr % n = 0) :
    s.actWrite k n ws =
      let x := s.postWrite (s.mach.seqBy k) (s.mach.target (ws.getD 0 0)) (natBytes n (ws.getD 1 0))
      x.2.on fun m => m.seqDone k x.1 2 := if_neg (not_not.mpr h)

theorem State.actRmw_own {a : Nat} (ht : s.mach.target (ws.getD 0 0) = .own a) (ha : a % 4 = 0)
    (hc : (s.localRead (s.mach.seqBy k) a 4).1.cause = none) :
    s.actRmw k ws =
      let x := s.localRead (s.mach.seqBy k) a 4
      let old := ofNatBytes x.1.data
      let j := x.2.on fun m => m.put F.SEQ_LAST_LAST old k
      let new := (old &&& (2 ^ 32 - 1 - ws.getD 1 0 / 2 ^ 32)) ||| ws.getD 1 0 % 2 ^ 32
      let y := j.localWrite (j.mach.seqBy k) a (natBytes 4 new) false
      y.2.on fun m => m.seqDone k y.1.status 2 := by
  unfold State.actRmw
  rw [ht]
  dsimp only
  rw [if_neg (not_not.mpr ha), if_neg (by simp [hc])]

theorem State.actPoll_first {r : Reply} (ha : (s.mach.target (ws.getD 0 0)).addr % 4 = 0)
    (hr : (s.on fun m => m.setSeqCore k { m.seqCore k with waitRaw := m.raw }).seqRead k (s.mach.target (ws.getD 0 0)) 4 =
      (.inr r, t)) :
    s.actPoll k ws true = t.on fun m => m.pollReply k ws r := by
  simp only [State.actPoll, if_neg (not_not.mpr ha), if_true, hr]

/-- A COPY of a sound length with aligned addresses moves its beats. -/
theorem State.actCopy_sound (h0 : bits (ws.getD 2 0) 0 13 ≠ 0) (h1 : bits (ws.getD 2 0) 0 13 ≤ 4096)
    (h4 : bits (ws.getD 2 0) 0 13 % 4 = 0)
    (hs : (s.mach.target (ws.getD 0 0)).addr % copyBeat (s.mach.target (ws.getD 0 0)).addr
      (s.mach.target (ws.getD 1 0)).addr (bits (ws.getD 2 0) 0 13) = 0)
    (hd : (s.mach.target (ws.getD 1 0)).addr % copyBeat (s.mach.target (ws.getD 0 0)).addr
      (s.mach.target (ws.getD 1 0)).addr (bits (ws.getD 2 0) 0 13) = 0) :
    s.actCopy k ws = s.copyFrom k (s.mach.copyPlan ws) 1026 0 := by
  unfold State.actCopy
  dsimp only
  rw [if_neg h0, if_neg]
  simp only [h4, hs, hd, Nat.not_lt.2 h1, ne_eq, not_true_eq_false, decide_false, Bool.or_self, Bool.false_eq_true,
    not_false_eq_true]

end

section
variable {s : State} {k : Nat} {ws : List Nat} (hw : s.waitingAction k = some ws)
include hw

/-- The time of a POLL runs out between its reads, or while a read of another node is out. -/
theorem State.seqPollTimeout_polling (hp : (s.mach.seqCore k).wait = .poll) :
    s.seqPollTimeout k = s.on fun m => m.seqDone k sTimeout 3 := by
  simp only [State.seqPollTimeout, hw, hp, if_true]

theorem State.seqPollTimeout_reading {n : Nat} (hr : (s.mach.seqCore k).wait = .remote n)
    (ho : ws.getD 0 0 / 2 ^ 60 = 4) : s.seqPollTimeout k = s.on fun m => m.seqDone k sTimeout 3 := by
  simp only [State.seqPollTimeout, hw, hr, ho, decide_true, if_true]

theorem State.seqWaitEventTimeout_waiting {n : Nat} (he : (s.mach.seqCore k).wait = .event n)
    (hf : (ws.getD 0 0).testBit 59 = false) :
    s.seqWaitEventTimeout k = s.on fun m => m.seqDone k sTimeout 1 := by
  simp only [State.seqWaitEventTimeout, hw, he, hf, Bool.false_eq_true, if_false]

end

/-- Settles O22: a sequencer that stands at an action issues it, and each clause is the branch of the action that its
conditions choose. Where an RMW of another node leads, where a COPY ends, and that NOP leaves ST are the model's choices
(log entry 107). -/
theorem sequencerAccessActions : Obligations.SequencerAccessActions := by
  unfold Obligations.SequencerAccessActions
  refine ⟨?nop, ?write32, ?write64, ?rmw, ?poll, ?pollTimeout, ?readTimeout, ?copy, ?log⟩
  case nop => exact fun s k ws h => exec_action rfl h rfl
  case write32 => exact fun s k ws h ha => exec_action rfl h (State.actWrite_aligned ha)
  case write64 => exact fun s k ws h ha => exec_action rfl h (State.actWrite_aligned ha)
  case rmw => exact fun s k a ws h ht ha hc => exec_action rfl h (State.actRmw_own ht ha hc)
  case poll =>
    exact fun s k ws r t h ha hr => exec_ends rfl ((State.seqPoll_stands h).trans (State.actPoll_first ha hr))
  case pollTimeout => exact fun s k ws hw hp => exec_ends rfl (State.seqPollTimeout_polling hw hp)
  case readTimeout => exact fun s k n ws hw hr ho => exec_ends rfl (State.seqPollTimeout_reading hw hr ho)
  case copy => exact fun s k ws h h0 h1 h4 hs hd => exec_action rfl h (State.actCopy_sound h0 h1 h4 hs hd)
  case log => exact fun s k ws h => exec_action rfl h rfl

/-! ### Control -/

section
variable {s : State} {m : Mach} {k : Nat} {ws : List Nat}

theorem Mach.actWaitEvent_waits (h : (ws.getD 0 0).testBit 59 = true ∨ ws.getD 0 0 % 2 ^ 32 ≠ 0) :
    m.actWaitEvent k ws =
      (m.setSeqCore k { m.seqCore k with waitRaw := m.raw }).seqWaits k (.event (bits (ws.getD 0 0) 32 9)) := by
  refine if_neg fun hn => ?_
  simp only [Bool.and_eq_true, Bool.not_eq_true', decide_eq_true_eq] at hn
  exact h.elim (fun h => Bool.noConfusion (hn.1.symm.trans h)) fun h => h hn.2

/-- An absolute time that lies ahead, or a time that is not 0, is waited for. -/
theorem Mach.actWaitTime_waits
    (h : if (ws.getD 0 0).testBit 59 then 0 < stampDiff (ws.getD 0 0 % 2 ^ 32) (m.now % 2 ^ 32)
      else ws.getD 0 0 % 2 ^ 32 ≠ 0) :
    m.actWaitTime k ws = (m.setSeqCore k { m.seqCore k with waitRaw := m.raw }).seqWaits k .time := by
  unfold Mach.actWaitTime
  cases hb : (ws.getD 0 0).testBit 59 with
  | true =>
    rw [hb, if_pos rfl] at h
    simp only [hb, Bool.not_true, Bool.false_and, Bool.false_eq_true, if_false, Bool.true_and, decide_eq_true_eq,
      if_neg (not_le.2 h)]
  | false =>
    rw [hb, if_neg Bool.false_ne_true] at h
    simp only [hb, Bool.not_false, Bool.true_and, decide_eq_true_eq, if_neg h, Bool.false_and, Bool.false_eq_true, if_false]

theorem Mach.seqWaitTimeExpiry_waiting (hm : m.seqMay k seqWait = true) (hw : (m.seqCore k).wait = .time) :
    m.seqWaitTimeExpiry k = m.seqDone k sOk 1 := if_pos (by simp [hm, hw])

/-- A read for a sequencer at an address of this node has its reply at once. -/
theorem State.seqRead_own (s : State) (k a n : Nat) :
    s.seqRead k (.own a) n = (.inr (s.localRead (s.mach.seqBy k) a n).1, (s.localRead (s.mach.seqBy k) a n).2) := rfl

theorem State.actIfBits_register (h : (ws.getD 0 0).testBit 58 = true) :
    s.actIfBits k ws =
      s.ifBits k ws (if bits (ws.getD 0 0) 0 52 = 0 then s.mach.get F.SEQ_ST_ST k else s.mach.get F.SEQ_LAST_LAST k % 2 ^ 32) :=
  if_pos h

theorem State.actIfBits_own {a : Nat} (hb : (ws.getD 0 0).testBit 58 = false)
    (ht : s.mach.target (ws.getD 0 0) = .own a) (ha : a % 4 = 0) :
    s.actIfBits k ws =
      (s.localRead (s.mach.seqBy k) a 4).2.ifBitsReply k ws (s.localRead (s.mach.seqBy k) a 4).1 := by
  simp only [State.actIfBits, hb, Bool.false_eq_true, if_false, ht, Target.addr, if_neg (not_not.mpr ha),
    State.seqRead_own]

theorem Mach.actJump_eq (m : Mach) (k : Nat) (ws : List Nat) :
    m.actJump k ws =
      let c := bits (ws.getD 0 0) 58 2
      let to_ := bits (ws.getD 0 0) 0 17
      if c = 0 ∨ (c = 1 ∧ m.get F.SEQ_ST_ST k = sOk) ∨ (c = 2 ∧ m.get F.SEQ_ST_ST k ≠ sOk) then
        if m.inRegion k to_ then m.put F.SEQ_STATE_PC to_ k else m.seqFault k 2
      else m.seqNext k 1 := by
  unfold Mach.actJump
  dsimp only
  by_cases h : bits (ws.getD 0 0) 58 2 = 0 ∨ (bits (ws.getD 0 0) 58 2 = 1 ∧ m.get F.SEQ_ST_ST k = sOk) ∨
      (bits (ws.getD 0 0) 58 2 = 2 ∧ m.get F.SEQ_ST_ST k ≠ sOk)
  · rw [if_pos h, if_neg]
    simpa only [Bool.not_eq_true, Bool.not_eq_false', Bool.or_eq_true, Bool.and_eq_true, decide_eq_true_eq, or_assoc]
  · rw [if_neg h, if_pos]
    rw [Bool.not_eq_true', ← Bool.not_eq_true]
    simpa only [Bool.or_eq_true, Bool.and_eq_true, decide_eq_true_eq, or_assoc]

section
variable (h : s.mach.writesOpen (.seq k) = false)
include h

/-- FENCE, SIGNAL and COMMIT act when no earlier write of the sequencer is open (R340). -/
theorem State.act_fence : s.act k 9 ws = s.on fun m => m.actFence k ws := by
  simp [State.act, State.actOrdered, h]

theorem State.act_signal : s.act k 10 ws = s.actSignal k ws := by
  simp [State.act, State.actOrdered, h]

theorem State.act_commit : s.act k 11 ws = s.actCommit k ws := by
  simp [State.act, State.actOrdered, h]

end

/-- After a fence without a fault SIGNAL rings another node's doorbell with a flit, and its own ones with a write. -/
theorem State.actSignal_sound (h : (s.mach.fence (.seq k)).1 = false) :
    s.actSignal k ws =
      let j := s.on fun m => (m.fence (.seq k)).2
      let w := ws.getD 0 0
      if bits w 58 2 = 0 ∧ w.testBit 57 = true ∧ bits w 40 12 ≠ j.mach.nodeId then
        j.on fun m => (m.sendRouted 12 1 (bits w 40 12) [bits w 0 6] 1).seqDone k sOk 1
      else
        let x := if bits w 58 2 = 0 then j.localWrite (j.mach.seqBy k) addrDoorbell (natBytes 4 (2 ^ bits w 0 6)) false
          else j.localWrite (j.mach.seqBy k) addrCmpFence (natBytes 8 (2 ^ bits w 0 6)) false
        x.2.on fun m => m.seqDone k x.1.status 1 := by
  unfold State.actSignal
  dsimp only
  rw [if_neg (by simp [h])]
  refine if_congr (by simp [and_assoc]) rfl ?_
  split <;> rfl

/-- After a fence without a fault COMMIT writes the group's commit, and waits for its apply where it is asked to. -/
theorem State.actCommit_sound (h : (s.mach.fence (.seq k)).1 = false) :
    s.actCommit k ws =
      let g := bits (ws.getD 0 0) 32 3
      let waits := (ws.getD 0 0).testBit 59
      let j := s.on fun m => if waits then (m.fence (.seq k)).2.seqWaits k (.commit g) else (m.fence (.seq k)).2
      let x := j.localWrite (j.mach.seqBy k) (addrGroupCommit g) (natBytes 4 (ws.getD 0 0 % 2 ^ 32)) false
      if x.1.status = sOk ∧ waits = true then x.2 else x.2.on fun m => m.seqDone k x.1.status 1 := by
  unfold State.actCommit
  dsimp only
  rw [if_neg (by simp [h])]
  cases (ws.getD 0 0).testBit 59
  · simp [State.on]
  · simp [State.on]

theorem Mach.seqRunLimit_running (h : m.seqMay k seqRun = true ∨ m.seqMay k seqWait = true) :
    m.seqRunLimit k = m.seqFault k 4 := if_pos (by simpa using h)

end

/-- Settles O23: a sequencer that stands at an action issues it, and each clause is the branch of the action that its
conditions choose; the ends of its waits and of its run find it waiting or running. That a SIGNAL to the node's own ID rings
here is the model's choice (log entry 53). -/
theorem sequencerControlActions : Obligations.SequencerControlActions := by
  unfold Obligations.SequencerControlActions
  refine ⟨?waitEvent, ?waitEventTimeout, ?waitTime, ?waitTimeExpiry, ?ifBitsRegister, ?ifBitsOwn, ?jump, ?fence, ?signal,
    ?commit, ?yields, ?ends, ?runLimit⟩
  case waitEvent => exact fun s k ws h hw => exec_action_on (f := fun m => m.actWaitEvent k ws) rfl h rfl (Mach.actWaitEvent_waits hw)
  case waitEventTimeout => exact fun s k n ws hw he hf => exec_ends rfl (State.seqWaitEventTimeout_waiting hw he hf)
  case waitTime => exact fun s k ws h hw => exec_action_on (f := fun m => m.actWaitTime k ws) rfl h rfl (Mach.actWaitTime_waits hw)
  case waitTimeExpiry => exact fun s k hm hw => exec_always rfl (Mach.seqWaitTimeExpiry_waiting hm hw)
  case ifBitsRegister => exact fun s k ws h hb => exec_action rfl h (State.actIfBits_register hb)
  case ifBitsOwn => exact fun s k a ws h hb ht ha => exec_action rfl h (State.actIfBits_own hb ht ha)
  case jump => exact fun s k ws h => exec_action_on (f := fun m => m.actJump k ws) rfl h rfl (Mach.actJump_eq _ k ws)
  case fence => exact fun s k ws h ho => exec_action rfl h (State.act_fence ho)
  case signal =>
    exact fun s k ws h ho hf => exec_action rfl h ((State.act_signal ho).trans (State.actSignal_sound hf))
  case commit =>
    exact fun s k ws h ho hf => exec_action rfl h ((State.act_commit ho).trans (State.actCommit_sound hf))
  case yields => exact fun s k ws h => exec_action rfl h rfl
  case ends => exact fun s k ws h => exec_action rfl h rfl
  case runLimit => exact fun s k h => exec_always rfl (Mach.seqRunLimit_running h)

end Sys2Proof.Machine
end

section
/-! SUPPORT. Writes of the control blocks that ask for an action: each is one 32-bit write of one register of EVC, SEQ,
GATE or CHK. -/

namespace Sys2Proof.Machine

section
variable {s : State} {m : Mach} {c : Instr} {b : Master} {v : Nat}

/-- EVC_PEND has one register for each word of pending bits, whose bits are all W1C. -/
theorem findReg_evcPend : ∀ g : Fin 16,
    (findReg (addrEvcPend g)).map (fun y => (y.desc.reg, y.desc.block, y.desc.maskOf (·.ty = .w1c), y.i, y.high)) =
      some (Reg.EVC_PEND, Block.evc, 2 ^ 32 - 1, g.val, false) := by
  decide +kernel

/-- EVC_HOST_PEND has one register for each host and each word of pending bits, whose bits are all W1C. -/
theorem findReg_hostPend : ∀ (h : Fin 4) (g : Fin 16),
    (findReg (addrHostPend h g)).map (fun y => (y.desc.reg, y.desc.block, y.desc.maskOf (·.ty = .w1c), y.i, y.high)) =
      some (Reg.EVC_HOST_PEND, Block.evc, 2 ^ 32 - 1, h.val * 16 + g.val, false) := by
  decide +kernel

/-- CHK_CH_CTL has one register for each check channel, and no bit of it is W1C. -/
theorem findReg_chkCtl : ∀ g : Fin 32,
    (findReg (addrChkCtl g)).map (fun y => (y.desc.reg, y.desc.block, y.desc.maskOf (·.ty = .w1c), y.i, y.high)) =
      some (Reg.CHK_CH_CTL, Block.chk, 0, g.val, false) := by
  decide +kernel

/-- A write of a register of EVC whose bits are all W1C, and which does nothing else, is counted out of the summaries. -/
theorem writeEnds_w1c {a i : Nat} {r : Reg} (he : exec c s = s.ends (s.hostWrite b a 4 v))
    (hr : (findReg a).map (fun y => (y.desc.reg, y.desc.block, y.desc.maskOf (·.ty = .w1c), y.i, y.high)) =
      some (r, Block.evc, 2 ^ 32 - 1, i, false))
    (hf : ∀ (n y : Mach) (d : RegDesc), d.reg = r → y.wroteControl n b ⟨d, i, 2 ^ 32 - 1, v % 2 ^ 32⟩ = y) :
    s.WriteEnds m c ⟨b, .w32, a, v⟩ Mach.resummarise :=
  fun hg ht => exec_write_one _ he hg ht rfl hr fun n y d hd hk => by
    have hw : y.wrote n b ⟨d, i, 2 ^ 32 - 1, v % 2 ^ 32⟩ = y := by simp only [Mach.wrote, hk, hf n y d hd]
    exact (if_pos (by decide)).trans (congrArg Mach.resummarise hw)

/-- A write of a channel's CHK_CH_CTL with GO starts its job (R365). -/
theorem writeEnds_chkGo {i mode : Nat} (hi : i < 32)
    (he : exec c s = s.ends (s.hostWrite b (addrChkCtl i) 4 (chkGo v mode))) :
    s.WriteEnds m c ⟨b, .w32, addrChkCtl i, chkGo v mode⟩ fun y => y.chkGo b i :=
  writeEnds_w32 .CHK_CH_CTL .chk i he (findReg_chkCtl ⟨i, hi⟩) fun n y d hd hk => by
    simp only [Mach.wrote, hk, Mach.wroteControl, hd, Cover.field, chkGo, bits_setBit_31, if_true]

end

/-- Settles O36: each command is a write of one register of EVC, SEQ, GATE or CHK, and so ends in what that write does;
the registers of pending bits are the ones whose bits are W1C. -/
theorem controlWrites : Obligations.ControlWrites := by
  unfold Obligations.ControlWrites
  intro s m b v i h c x f hc
  change s.WriteEnds m c x f
  simp only [List.mem_cons, Prod.mk.injEq, List.not_mem_nil, or_false] at hc
  rcases hc with ⟨rfl, rfl, rfl⟩ | ⟨rfl, rfl, rfl⟩ | ⟨rfl, rfl, rfl⟩ | ⟨rfl, rfl, rfl⟩ | ⟨rfl, rfl, rfl⟩ |
    ⟨rfl, rfl, rfl⟩ | ⟨rfl, rfl, rfl⟩ | ⟨rfl, rfl, rfl⟩ | ⟨rfl, rfl, rfl⟩ | ⟨rfl, rfl, rfl⟩
  · exact writeEnds_w1c rfl (findReg_evcPend ⟨i % 16, Nat.mod_lt i (by decide)⟩) fun n y d hd => by
      simp only [Mach.wroteControl, hd]
  · exact writeEnds_w1c rfl (findReg_hostPend ⟨h % 4, Nat.mod_lt h (by decide)⟩ ⟨i % 16, Nat.mod_lt i (by decide)⟩)
      fun n y d hd => by simp only [Mach.wroteControl, hd]
  · exact writeEnds_w32 .EVC_DOORBELL .evc 0 rfl (by decide +kernel) fun n y d hd hk => by
      simp only [Mach.wrote, hk, Mach.wroteControl, hd, Cover.field, bits_mod_two_pow_zero v le_rfl]
  · exact writeEnds_w32 .SEQ_I2C_CTL .seq 0 rfl (by decide +kernel) fun n y d hd hk => by
      simp only [Mach.wrote, hk, Mach.wroteControl, hd, Cover.field, bits_setBit_31, if_true]
  · exact writeEnds_w32 .GATE_COMMIT .gate 0 rfl (by decide +kernel) fun n y d hd hk => by
      simp only [Mach.wrote, hk, Mach.wroteControl, hd, Cover.field, bits_mod_two_pow_zero v (by decide : 8 ≤ 32)]
  · exact writeEnds_w32 .GATE_SYNC .gate 0 rfl (by decide +kernel) fun n y d hd hk => by
      simp only [Mach.wrote, hk, Mach.wroteControl, hd]
  iterate 4 exact writeEnds_chkGo (Nat.mod_lt i (by decide)) rfl

end Sys2Proof.Machine
end

section
/-! SUPPORT. Power supervision, counters, sensors, telemetry and the trouble log: each command as the branch that its
conditions choose. -/

namespace Sys2Proof.Machine

section
variable {m : Mach} {r : Nat}

/-! ### Rails and stages (R406 to R408, R413) -/

/-- A rail that stays LOW, with none in CRIT, takes the stages up by one below stage 4. -/
theorem Mach.pwrStageUp_low (h1 : m.railIn 1 = some r) (h2 : m.railIn 2 = none) (hs : m.stage < 4) :
    m.pwrStageUp = m.setStage (m.stage + 1) r := by
  unfold Mach.pwrStageUp
  rw [h1]
  exact if_pos ⟨by simp [h2], hs⟩

/-- A rail that is in CRIT is what the dwell of S5 records. -/
theorem Mach.s5Dwell_crit (hr : m.railIn 2 = some r) (ht : m.mode ≠ .halt) (hh : m.mode ≠ .hold) (h5 : m.stage ≠ 5) :
    m.s5Dwell =
      let low := (tFind m.pwr.sagMin r).getD (m.get F.PWR_RAIL_STATUS_MV r)
      let n := ((m.put F.PWR_SAG_RECORD_RAIL r).put F.PWR_SAG_RECORD_MIN_MV low).putB F.PWR_SAG_RECORD_VALID true
      let n := n.setPwr { n.pwr with sagTime := n.now, sagTv := n.get F.TIME_STATUS_STATE ≠ 0, sagLog := true }
      let n := ((n.troubleNoEntry F.PWR_TROUBLE_POWER_HALT).setStage 5 r).stopServices
      if n.mode = .load ∨ n.mode = .prove ∨ n.mode = .sleep ∨ n.panel = panelOff then n.halt 2 r
      else n.setPwr { n.pwr with s5 := 2 } := by
  unfold Mach.s5Dwell
  split
  next hn => exact absurd (hn.symm.trans hr) nofun
  next r' hr' =>
    obtain rfl := Option.some.inj (hr'.symm.trans hr)
    exact if_neg (by simp [ht, hh, h5])

end

/-- Settles O27: each clause is the branch of its command that the conditions choose; temperature acts while the
interconnect clock runs. That the dwell of S5 keeps the time of the sag, and whether the servo knew it, for an entry that is
queued after the restart is the model's choice (log entry 97). -/
theorem powerCommands : Obligations.PowerCommands := by
  unfold Obligations.PowerCommands
  refine ⟨?rail, ?stageUp, ?stageDown, ?dwell, ?restart, ?warn, ?clear, ?crit⟩
  case rail => exact fun s r mv hw => exec_always rfl (if_neg (by simp [hw]))
  case stageUp => exact fun s r h1 h2 hs => exec_always rfl (Mach.pwrStageUp_low h1 h2 hs)
  case stageDown => exact fun s h1 hw hs => exec_always rfl (if_pos ⟨by simp [h1], hw, hs⟩)
  case dwell => exact fun s r hr ht hh h5 => exec_always rfl (Mach.s5Dwell_crit hr ht hh h5)
  case restart => exact fun s hm hc h1 => exec_always rfl (if_pos ⟨hm, hc, by simp [h1]⟩)
  case warn => exact fun s hc hw h0 => exec_clocked hc rfl (if_pos ⟨hw, h0⟩)
  case clear => exact fun s hc hw => exec_clocked hc rfl (if_pos hw)
  case crit => exact fun s hc hw => exec_clocked hc rfl (if_pos hw)

section
variable {m : Mach}

/-! ### Counters and records (R418, R426, R431) -/

/-- A counter at its top wraps with its next event, in EDGE and in LEVEL mode. -/
theorem Mach.pmcWrap_top {e : Nat} (he : e < 320) (hc : m.get F.PMC_CNT_COUNT e = 2 ^ 48 - 1) :
    m.pmcWrap e = (m.put F.PMC_CNT_COUNT (2 ^ 48) e).setBitOf .PMC_WRAPPED e := by
  have hn : (if m.bitOf .PMC_MODE e then min 1 1 else 1) = 1 := ite_self 1
  rw [Mach.pmcWrap, if_pos ⟨he, hc⟩, Mach.count, hn, Mach.addCount, hc]
  rfl

/-- A record is due, and is full when it is the one in FULL_EVERY and no stage sheds. -/
theorem Mach.telRecord_due (he : m.on F.TEL_CFG_EN = true) (hm : m.mode.runs = true) (h5 : m.stage ≠ 5) :
    m.telRecord =
      let q := (m.get F.TEL_STATUS_SEQ + 1) % 65536
      let every := m.get F.TEL_CFG_FULL_EVERY
      let full : Bool := every ≠ 0 ∧ m.stage = 0 ∧ (m.pmc.telCount + 1) % every = 0
      let n := m.putTel (m.telMinimum full q ++ (if full then m.telRest else []))
      ((((n.setPmc { n.pmc with
        telCount := m.pmc.telCount + 1,
        telBase := telEvents.foldl (fun t e => tIns t e (n.telCounter e)) n.pmc.telBase }).put F.TEL_STATUS_SEQ q).count
          297).raise 448) := by
  unfold Mach.telRecord
  rw [if_neg (by simp [he, hm, h5])]
  simp only [Bool.decide_and, Bool.and_assoc]

end

theorem State.troubleLogWrite_queued {s : State} {e : TroubleEntry} {l : List TroubleEntry}
    (hq : s.mach.pmc.logQueue = e :: l) (hl : s.mach.mayLog = true) :
    s.troubleLogWrite =
      let q := (s.mach.get F.TEL_LOG_SEQ_SEQ + 1) % 2 ^ 32
      let x := s.logWrite (s.mach.get F.TEL_LOG_POS_POS) q e
      x.1.on fun m => m.logWritten q x.2 l := by
  unfold State.troubleLogWrite
  rw [hq]
  exact if_neg (by simp [hl])

/-- Settles O28: each clause is the branch of its command that the conditions choose; a counter at its top wraps in both
of its modes. That FULL is counted from the first record is the model's choice (log entry 120). -/
theorem observeCommands : Obligations.ObserveCommands := by
  unfold Obligations.ObserveCommands
  refine ⟨?wrap, ?sensors, ?record, ?log⟩
  case wrap => exact fun s e hc he h => exec_clocked hc rfl (Mach.pmcWrap_top he h)
  case sensors => exact fun s l hc => exec_clocked hc rfl rfl
  case record => exact fun s hc he hm h5 => exec_clocked hc rfl (Mach.telRecord_due he hm h5)
  case log => exact fun s e l hq hl => exec_ends rfl (State.troubleLogWrite_queued hq hl)

end Sys2Proof.Machine
end

section
/-! SUPPORT. The Badger, the self-test of PROVE, the TAP, the customer key fuse and the debug port: each command as the
branch that its conditions choose. -/

namespace Sys2Proof.Machine

/-! ### The Badger (R436) -/

section
variable {m : Mach} {r : SlotResult}

/-- A slot that yields is counted as one that started and one that yielded. -/
theorem Mach.badgerSlot_yielded (ht : m.slotTaken r = true) (hy : r.yielded = true) :
    m.badgerSlot r = (m.count 288).count 289 := by
  unfold Mach.badgerSlot
  rw [if_neg (by simp [ht])]
  exact if_pos hy

/-- A slot that runs to its end counts, and one that ends a pass covers its unit and passes or fails it. -/
theorem Mach.badgerSlot_run (ht : m.slotTaken r = true) (hy : r.yielded = false) :
    m.badgerSlot r =
      let n := (m.count 288).slotCounts r
      if r.ends = false then n
      else
        let n := (n.passCounts r).coverUnit r.cls r.unit
        if r.passes then n.setTst { n.tst with fails := tDel n.tst.fails (r.cls * 64 + r.unit) }
        else n.testFail r.cls r.unit r.observed r.expected := by
  unfold Mach.badgerSlot
  rw [if_neg (by simp [ht])]
  refine (if_neg (by simp [hy])).trans (if_congr ?_ rfl rfl)
  simp

/-- A slot that has yielded corrects nothing. -/
theorem State.scrubbed_yielded (s : State) (hy : r.yielded = true) : s.scrubbed r = s :=
  if_pos (by simp [hy])

end

/-! ### The self-test of PROVE (R442) -/

/-- MARCH and FONT touch the Cistern alone. -/
@[simp] theorem State.proveMemory_mach (s : State) : s.proveMemory.mach = s.mach := by
  unfold State.proveMemory
  dsimp only
  split
  · rfl
  · rw [State.setBytes_mach]
    rfl

theorem Mach.proveTests_prove {m : Mach} (r : ProveIn) (hm : m.mode = .prove) :
    m.proveTests r =
      let run := m.proveClasses
      let x := m.proveTouch r
      let fails := r.fails.filter (fun f => run.testBit f.1) ++ x.2
      let n := fails.foldl Mach.proveFail (x.1.proveCounts fails)
      let passed := fails.foldl (fun a f => clearBit a f.1) run
      let first := fails.find? fun f => x.1.terminal f.1 f.2.2.1
      let detail := match first with
        | some (c, u, _, _) => c * 64 + u % 64
        | none => 0
      let n := (n.pushResult 4 0 0 passed run).putB F.TST_PROVE_PASSED first.isNone
      let n := ((n.put F.TST_PROVE_DETAIL detail).put F.TST_PROVE_MS r.ms).raise 421
      if first.isSome then n.halt 5 detail else (n.enterMode .join).joinEntered :=
  if_neg (not_not.mpr hm)

/-- In PROVE the memories are tested first, and then the classes run on the machine as it stands. -/
theorem State.proveTests_prove {s : State} (r : ProveIn) (hm : s.mach.mode = .prove) :
    s.proveTests r = s.proveMemory.on fun m => m.proveTests r :=
  if_neg (not_not.mpr hm)

/-! ### The customer key fuse (R447) -/

/-- An instruction that is loaded shows in DBG_STATUS alone. -/
theorem Mach.frame_loadIr (m : Mach) (ir : Nat) : m.Frame [.DBG_STATUS] (m.loadIr ir) :=
  (m.frame_put F.DBG_STATUS_IR ir 0 (by decide)).trans (Mach.frame_put _ F.DBG_STATUS_SCAN_HOLD _ 0 (by decide))

/-- A digest under a good CRC is burned in QUARANTINE of its cause, where no key is set and no burn runs. -/
theorem Mach.fuseProg_allowed {m : Mach} {d c : Nat} (hm : m.mode = .quarantine) (hq : m.get F.CFG_STATUS_CAUSE = 6)
    (hs : m.on F.CFG_SVN_CUSTOMER_SET = false) (hb : m.tst.burning = none)
    (hk : crc32c (natBytes 48 d) = c % 2 ^ 32) :
    m.fuseProg d c = (m.loadIr irFuseProg).setTst { (m.loadIr irFuseProg).tst with burning := some (d % 2 ^ 384) } := by
  have h := m.frame_loadIr irFuseProg
  have hset : (m.loadIr irFuseProg).on F.CFG_SVN_CUSTOMER_SET = false := by
    simpa only [Mach.on, h.get F.CFG_SVN_CUSTOMER_SET 0 (by decide)] using hs
  refine if_pos ?_
  simp [(Mach.mode_frame h (by decide)).trans hm, (h.get F.CFG_STATUS_CAUSE 0 (by decide)).trans hq, hset,
    (congrArg TstSt.burning h.rest.tst).trans hb, hk]

/-- The digest that a burn runs for is what its readback is compared with. -/
theorem State.dbgFuseDone_burning {s : State} {d v : Nat} (h : s.mach.tst.burning = some d) :
    s.dbgFuseDone v =
      let good : Bool := v % 2 ^ 384 = d
      let m := ((s.mach.setTst { s.mach.tst with burning := none }).putB F.CFG_SVN_CUSTOMER_SET true).raise 441
      { s with
        mach := if good then m else m.trouble F.DBG_TROUBLE_FUSE_FAIL
        fuses := { s.fuses with customerKey := some (if good then d else deadKey v) } } := by
  unfold State.dbgFuseDone
  split
  next hn => exact absurd (hn.symm.trans h) nofun
  next e he =>
    obtain rfl := Option.some.inj (he.symm.trans h)
    rfl

/-- Settles O29: each clause is the branch of its command that the conditions choose; the instructions of the TAP act in
every mode. That the classes of PROVE are run by one command with what each finds as its operand, and that what a capture of
the boundary register holds is a free value, are the model's choices (log entries 112, 6 and 124). -/
theorem testCommands : Obligations.TestCommands := by
  unfold Obligations.TestCommands
  refine ⟨?yielded, ?run, ?period, ?prove, ?tapReset, ?idcode, ?sample, ?held, ?refused, ?bypass, ?fuseRead, ?fuseProg,
    ?fuseDone, ?nop⟩
  case yielded =>
    intro s r ht hy
    refine exec_ends rfl ((State.scrubbed_yielded _ hy).trans ?_)
    exact congrArg (fun m => { s with mach := m }) (Mach.badgerSlot_yielded ht hy)
  case run =>
    intro s r ht hy
    exact exec_ends rfl (congrArg (fun m => State.scrubbed { s with mach := m } r) (Mach.badgerSlot_run ht hy))
  case period => exact fun s hb => exec_always rfl (if_neg (by simp [hb]))
  case prove =>
    intro s r hm
    refine exec_ends rfl ((State.proveTests_prove r hm).trans ?_)
    exact congrArg (fun m => { s.proveMemory with mach := m })
      (Mach.proveTests_prove r ((congrArg Mach.mode s.proveMemory_mach).trans hm))
  case tapReset => exact fun s => exec_always rfl rfl
  case idcode => exact fun s => exec_always rfl rfl
  case sample => exact fun s => exec_always rfl rfl
  case held =>
    intro s c ir hl hc
    simp only [List.mem_cons, Prod.mk.injEq, List.not_mem_nil, or_false] at hc
    rcases hc with ⟨rfl, rfl⟩ | ⟨rfl, rfl⟩ | ⟨rfl, rfl⟩ | ⟨rfl, rfl⟩ | ⟨rfl, rfl⟩
    iterate 5 exact exec_always rfl (if_pos hl)
  case refused =>
    intro s c hl hc
    simp only [List.mem_cons, List.not_mem_nil, or_false] at hc
    rcases hc with rfl | rfl | rfl | rfl | rfl
    iterate 5 exact exec_always rfl (if_neg (by simp [hl]))
  case bypass => exact fun s code hc => exec_always rfl (if_neg (by simpa only [List.contains_iff_mem] using hc))
  case fuseRead => exact fun s => rfl
  case fuseProg => exact fun s d c hm hq hs hb hk => exec_always rfl (Mach.fuseProg_allowed hm hq hs hb hk)
  case fuseDone => exact fun s d v hb => exec_ends rfl (State.dbgFuseDone_burning hb)
  case nop => exact fun s => exec_always rfl rfl

/-! ### Debug accesses (R446) -/

section
variable {m : Mach} {op a d : Nat}

/-- An access to another node goes out as it begins, or is a fault where no route leads there. -/
theorem Mach.dbgBegin_access (h : op ≠ 5) :
    m.dbgBegin op a d =
      let n := m.setTst { m.tst with dbgRun := some (op, a, d), dbgRsp := none }
      match n.spiTarget a with
      | .own _ => n
      | .far node l =>
        if n.reaches node then
          n.request ⟨0, dbgMaster, dbgWrites op, node, l, dbgLen op, false, 0⟩
            (if dbgWrites op then natBytes (dbgLen op) d else [])
        else
          let n := n.remoteFault dbgMaster (dbgWrites op) node l (dbgLen op) false
          n.setTst { n.tst with dbgRsp := some (3, 0) } := by
  unfold Mach.dbgBegin
  dsimp only
  generalize Mach.spiTarget _ a = t
  cases t with
  | own l => rfl
  | far node l => exact if_neg h

/-- An access is refused outside SERVICE, while one runs, and misaligned, and begins otherwise. -/
theorem Mach.dbgStart_access {t : Mach} (h : op ≠ 5) (hb : (m.capture irDbgAccess m.dbgWord).dbgBegin op a d = t) :
    m.dbgStart op a d =
      let n := m.capture irDbgAccess m.dbgWord
      if n.mode ≠ .service then n.dbgStat 3
      else if n.tst.dbgRun.isSome then n.dbgStat 4
      else if a % dbgLen op ≠ 0 then n.dbgStat 5
      else t := by
  refine if_congr Iff.rfl rfl (if_congr Iff.rfl rfl (if_congr ?_ rfl hb))
  simp [h]

/-- A FENCE has no address to be misaligned. -/
theorem Mach.dbgStart_fence :
    m.dbgStart 5 0 0 =
      let n := m.capture irDbgAccess m.dbgWord
      if n.mode ≠ .service then n.dbgStat 3
      else if n.tst.dbgRun.isSome then n.dbgStat 4
      else n.dbgBegin 5 0 0 :=
  if_congr Iff.rfl rfl (if_congr Iff.rfl rfl (if_neg (by simp)))

end

section
variable {s : State} {op w d : Nat}

/-- In SERVICE the access that runs ends by its target: here, or with the response of another node. -/
theorem State.dbgAccessDone_access (hm : s.mach.mode = .service) (hr : s.mach.tst.dbgRun = some (op, w, d)) (h : op ≠ 5) :
    s.dbgAccessDone =
      match s.mach.spiTarget w, s.mach.tst.dbgRsp with
      | .own a, _ =>
        if dbgWrites op then
          let x := s.localWrite dbgMaster a (natBytes (dbgLen op) d) false
          x.2.on fun m => m.dbgEnd w x.1.dbgStat 0
        else
          let x := s.localRead dbgMaster a (dbgLen op)
          x.2.on fun m => m.dbgEnd w x.1.dbgStat (ofNatBytes x.1.data)
      | .far _ _, some (st, v) => s.on fun m => m.dbgEnd w (if st = 0 then 0 else if st = 2 then 5 else 1) v
      | .far _ _, none => s := by
  unfold State.dbgAccessDone
  split
  next hn => exact absurd (hn.symm.trans hr) nofun
  next op' w' d' he =>
    obtain ⟨rfl, rfl, rfl⟩ : op' = op ∧ w' = w ∧ d' = d := by simpa using he.symm.trans hr
    refine (if_neg (not_not.mpr hm)).trans ((if_neg h).trans ?_)
    generalize s.mach.spiTarget w' = t
    generalize s.mach.tst.dbgRsp = q
    cases t with
    | own a => rfl
    | far node a =>
      cases q with
      | none => rfl
      | some y => rfl

/-- A FENCE ends with the local read of SYS_FENCE. -/
theorem State.dbgAccessDone_fence (hm : s.mach.mode = .service) (hr : s.mach.tst.dbgRun = some (5, w, d)) :
    s.dbgAccessDone =
      let x := s.localRead dbgMaster 0x40 4
      x.2.on fun m => m.dbgEnd (m.wallAddr 0x40) x.1.dbgStat (ofNatBytes x.1.data) := by
  unfold State.dbgAccessDone
  split
  next hn => exact absurd (hn.symm.trans hr) nofun
  next op' w' d' he =>
    obtain ⟨rfl, rfl, rfl⟩ : op' = 5 ∧ w' = w ∧ d' = d := by simpa using he.symm.trans hr
    exact (if_neg (not_not.mpr hm)).trans (if_pos rfl)

end

/-- Settles O30: an access other than FENCE is refused by its first test that fails, or begins; it ends by its target. The
codes of STAT outside SERVICE, while one runs and misaligned, and that FENCE is local, are the model's choices (log
entry 108). -/
theorem debugCommands : Obligations.DebugCommands := by
  unfold Obligations.DebugCommands
  refine ⟨?start, ?fence, ?accessDone, ?fenceDone⟩
  case start =>
    intro s c op a d hc
    simp only [List.mem_cons, Prod.mk.injEq, List.not_mem_nil, or_false] at hc
    rcases hc with ⟨rfl, rfl, rfl⟩ | ⟨rfl, rfl, -⟩ | ⟨rfl, rfl, rfl⟩ | ⟨rfl, rfl, -⟩
    iterate 4 exact exec_always rfl (Mach.dbgStart_access (by decide) (Mach.dbgBegin_access (by decide)))
  case fence => exact fun s => exec_always rfl Mach.dbgStart_fence
  case accessDone => exact fun s op w d hm hr h => exec_ends rfl (State.dbgAccessDone_access hm hr h)
  case fenceDone => exact fun s w d hm hr => exec_ends rfl (State.dbgAccessDone_fence hm hr)

end Sys2Proof.Machine
end

section
/-! SUPPORT. The transactions of the SPI target, check jobs and errors of the Cistern: each command as the branch that its
conditions choose. -/

namespace Sys2Proof.Machine

section
variable {s : State}

/-! ### SPI transactions (R353, R354) -/

@[simp] theorem Mach.count_gate (m : Mach) (e k : Nat) : (m.count e k).gate = m.gate := (m.frame_count e k).rest.gate

/-- A whole WRITE of 1 to 64 words is one posted access, whose status is kept. -/
theorem State.spiWrite_whole {a : Nat} {d : List Nat} (ho : s.mach.spiOn = true) (h4 : d.length % 4 = 0)
    (h0 : 0 < d.length) (hl : d.length ≤ 256) :
    s.spiWrite a d true =
      let i := s.on fun m => m.count 12
      let x := i.postWrite spiMaster (i.mach.spiTarget a) d
      x.2.on fun m => m.spiResult x.1 := by
  have hne : d.isEmpty = false := by simpa [List.length_pos_iff] using h0
  unfold State.spiWrite
  rw [if_neg (by simp [ho])]
  exact (if_neg (by simp [h4, hl])).trans (if_neg (by simp [hne]))

/-- A whole READ_REQ of 1 to 64 words, with no read outstanding, is a read of its target. -/
theorem State.spiReadReq_whole {a n : Nat} (ho : s.mach.spiOn = true) (h4 : n % 4 = 0) (h0 : 0 < n) (hl : n ≤ 256)
    (hb : (s.mach.count 12).gate.spiBusy = none) :
    s.spiReadReq a n true =
      let i := (s.on fun m => m.count 12).on fun m => m.setGate { m.gate with spiReady := none, spiResult := sOk }
      match i.mach.spiTarget a with
      | .own l =>
        if readsFence l n && i.mach.writesOpen .spi then
          i.on fun m => m.setGate { m.gate with spiBusy := some (a % 2 ^ 52, n) }
        else
          let x := i.localRead spiMaster l n
          x.2.on fun m => m.spiReadEnd x.1
      | .far node l =>
        if i.mach.reaches node then
          i.on fun m => (m.setGate { m.gate with spiBusy := some (a % 2 ^ 52, n) }).request
            ⟨0, spiMaster, false, node, l, n, false, 0⟩ []
        else i.on fun m => (m.remoteFault spiMaster false node l n false).spiReadEnd (Reply.fault .remote n) := by
  have hbusy : (s.on fun m => m.count 12).mach.gate.spiBusy.isSome = false :=
    congrArg Option.isSome hb
  unfold State.spiReadReq
  rw [if_neg (by simp [ho])]
  exact (if_neg (by simp [h4, hl])).trans ((if_neg (Bool.eq_false_iff.1 hbusy)).trans ((if_neg h0.ne').trans rfl))

/-! ### Check jobs (R363 to R365) -/

/-- A job reads its bytes and ends by its mode, or with a fault. -/
theorem State.chkJobDone_job {c : Nat} {j : ChkJob} (hj : tFind s.mach.chk.jobs c = some j) :
    s.chkJobDone c =
      let alg := CrcAlg.ofPoly j.poly
      let n := if j.mode = 3 then j.len - alg.bytes else j.len
      let start := if j.foldEn then alg.fold alg.init j.fold else alg.init
      match s.jobFold (fun (x : Nat) d => d.foldl alg.step x) j.by_ (n + 1) j.addr n start with
      | (none, t) => t.on fun m => m.jobFault c
      | (some x, t) => t.jobEnd c j (x ^^^ alg.xorout) := by
  unfold State.chkJobDone
  split
  next hn => exact absurd (hn.symm.trans hj) nofun
  next i hi =>
    obtain rfl := Option.some.inj (hi.symm.trans hj)
    dsimp only
    generalize State.jobFold _ _ _ _ _ _ s = y
    obtain ⟨_ | x, t⟩ := y
    · rfl
    · rfl

/-- Once its value is computed, a job shows it, compares it, appends it, or compares it with the bytes that follow. -/
theorem State.jobEnd_eq (c : Nat) (j : ChkJob) (v : Nat) :
    s.jobEnd c j v =
      let alg := CrcAlg.ofPoly j.poly
      match j.mode with
      | 0 => s.on fun m => m.chkEnd c 0 (some v)
      | 1 => s.on fun m => m.jobCompare c j v (v = j.expect)
      | 2 =>
        let w := State.jobWrite j.by_ 9 (j.addr + j.len) (crcBytes alg j.msbFirst v) s
        w.2.on fun m => if w.1 then m.chkEnd c 0 (some v) else m.jobFault c
      | _ =>
        match s.jobFold (fun (l : List Nat) d => l ++ d) j.by_ (alg.bytes + 1) (j.addr + j.len - alg.bytes)
            alg.bytes [] with
        | (none, u) => u.on fun m => m.jobFault c
        | (some l, u) => u.on fun m => m.jobCompare c j v (v = ofCrcBytes j.msbFirst l) := by
  unfold State.jobEnd
  dsimp only
  generalize j.mode = q
  match q with
  | 0 => rfl
  | 1 => rfl
  | 2 => rfl
  | _ + 3 =>
    generalize State.jobFold _ _ _ _ _ _ s = y
    obtain ⟨_ | l, u⟩ := y
    · rfl
    · rfl

end

/-- Settles O24: the transactions act while the port works, and each clause is the branch that its conditions choose; a
job splits on the outcome of its reads and on its mode. The size of a job's accesses, that the bytes of a completed read stay
ready until the next READ_REQ, and that bits 63 to 52 of an address are ignored, are the model's choices (log entries 52, 55
and 108). -/
theorem spiAndCheckCommands : Obligations.SpiAndCheckCommands := by
  unfold Obligations.SpiAndCheckCommands
  refine ⟨?write, ?readReq, ?status, ?readData, ?csLimit, ?unknown, ?job, ?compare, ?fatal⟩
  case write => exact fun s a d ho h4 h0 hl => exec_ends rfl (State.spiWrite_whole ho h4 h0 hl)
  case readReq => exact fun s a n ho h4 h0 hl hb => exec_ends rfl (State.spiReadReq_whole ho h4 h0 hl hb)
  case status => exact fun s ho => exec_always rfl (if_neg (by simp [ho]))
  case readData =>
    intro s ho
    refine exec_always rfl ((if_neg (by simp [ho])).trans ?_)
    simp only [Mach.count_gate]
  case csLimit => exact fun s ho => exec_always rfl (if_pos ho)
  case unknown => exact fun s c ho hc => exec_always rfl ((if_neg (by simpa using hc)).trans (if_pos ho))
  case job =>
    intro s c j hj
    refine exec_ends rfl ((State.chkJobDone_job hj).trans ?_)
    dsimp only
    generalize State.jobFold _ _ _ _ _ _ s = y
    obtain ⟨_ | x, t⟩ := y
    · rfl
    · exact t.jobEnd_eq c j _
  case compare => exact fun m c v j good => rfl
  case fatal => exact fun s a hh hs => exec_awake hh hs rfl rfl

end Sys2Proof.Machine
end

section
/-! SUPPORT. What the effects of commands leave alone: the fuses, and where they store no byte the memories and the
flash. -/

namespace Sys2Proof.Machine

/-- The fuses, and the memories and the flash unless b says that bytes are stored. -/
def State.kept (b : Bool) (s : State) : Fuses × List Host.Cell × List Host.Cell :=
  (s.fuses, if b then ([], []) else (s.mem, s.flash))

namespace State

variable {b : Bool}

@[simp] theorem kept_on (s : State) (f : Mach → Mach) : (s.on f).kept b = s.kept b := by
  cases s
  rfl

@[simp] theorem kept_mach (s : State) (m : Mach) : State.kept b { s with mach := m } = s.kept b := by
  cases s
  rfl

@[simp] theorem kept_ecc (s : State) (l : List (Nat × Bool)) : State.kept b { s with ecc := l } = s.kept b := rfl

theorem kept_ite (c : Prop) [Decidable c] (x y : State) :
    (if c then x else y).kept b = if c then x.kept b else y.kept b := apply_ite (kept b) ..

theorem kept_ite_snd {α : Type} (c : Prop) [Decidable c] (x y : α × State) :
    (if c then x else y).2.kept b = if c then x.2.kept b else y.2.kept b := apply_ite (fun z : α × State => z.2.kept b) ..

/-- The state that a step answers beside a value. -/
theorem kept_of_snd {α : Type} {x : α × State} {a : α} {s : State} (h : x = (a, s)) : s.kept b = x.2.kept b := by
  rw [h]

theorem kept_foldl {α : Type} {f : State → α → State} (h : ∀ s a, (f s a).kept b = s.kept b) (l : List α)
    (s : State) : (l.foldl f s).kept b = s.kept b := by
  induction l generalizing s with
  | nil => rfl
  | cons a l ih => exact (ih _).trans (h s a)

/-! ### Bytes -/

@[simp] theorem kept_setByte (s : State) (a : Nat) (v : Byte) : (s.setByte a v).kept true = s.kept true := rfl

@[simp] theorem kept_setBytes (s : State) (a : Nat) (l : List Nat) : (s.setBytes a l).kept true = s.kept true := by
  induction l generalizing s a with
  | nil => rfl
  | cons v l ih => exact ih _ _

@[simp] theorem kept_clear (s : State) (a n : Nat) : (s.clear a n).kept true = s.kept true := rfl

@[simp] theorem kept_ferase (s : State) (a : Nat) : (s.ferase a).kept true = s.kept true := rfl

@[simp] theorem kept_fprogram (s : State) (a : Nat) (l : List Nat) : (s.fprogram a l).kept true = s.kept true := by
  induction l generalizing s a with
  | nil => rfl
  | cons v l ih => exact ih _ _

/-! ### Accesses (R332, R335, R338) -/

section
variable (s : State) (y : Master) (a n : Nat)

@[simp] theorem kept_memRead (r : Region) : (s.memRead y r a n).2.kept b = s.kept b := by
  rw [memRead_state, kept_on]

@[simp] theorem kept_memWrite (r : Region) (l : List Nat) : (s.memWrite r a l).kept true = s.kept true := by
  simp only [memWrite, kept_setBytes]
  rfl

@[simp] theorem kept_localRead : (s.localRead y a n).2.kept b = s.kept b := by
  unfold localRead
  dsimp only
  split
  · rfl
  · split
    · rfl
    · exact kept_memRead ..
    · rfl

@[simp] theorem kept_localWrite (l : List Nat) (p : Bool) : (s.localWrite y a l p).2.kept true = s.kept true := by
  unfold localWrite
  dsimp only
  split
  · rfl
  · split
    · rfl
    · exact kept_memWrite ..
    · rfl

/-- A write of register space stores no byte of a memory. -/
theorem kept_localWrite_regs (l : List Nat) (p : Bool) (h : a < 0x10000000) :
    (s.localWrite y a l p).2.kept b = s.kept b := by
  unfold localWrite
  dsimp only
  split
  · rfl
  · rw [Mach.region_regs _ h]
    rfl

@[simp] theorem kept_hostRead : (s.hostRead y a n).kept b = s.kept b := by
  simp only [hostRead, kept_ite, ite_self, kept_on, kept_localRead]

@[simp] theorem kept_hostWrite (v : Nat) : (s.hostWrite y a n v).kept true = s.kept true := by
  simp only [hostWrite, kept_ite, ite_self, kept_on, kept_localWrite]

theorem kept_hostWrite_regs (v : Nat) (h : a < 0x10000000) : (s.hostWrite y a n v).kept b = s.kept b := by
  simp only [hostWrite, kept_ite, ite_self, kept_on, s.kept_localWrite_regs y a _ _ h]

@[simp] theorem kept_memReq (q : MemReq) : (s.memReq n q).kept true = s.kept true := by
  simp only [memReq, kept_ite, ite_self, kept_mach, kept_localWrite, kept_localRead]

end

/-! ### Sequencers -/

section
variable (s : State) (k : Nat) (ws : List Nat)

@[simp] theorem kept_fetchCorrected (i n : Nat) : (s.fetchCorrected i n).kept b = s.kept b := by
  simp only [fetchCorrected, kept_ite, ite_self, kept_on]

@[simp] theorem kept_postWrite (y : Master) (t : Target) (l : List Nat) :
    (s.postWrite y t l).2.kept true = s.kept true := by
  cases t with
  | own a => exact kept_localWrite ..
  | far node a => rfl

@[simp] theorem kept_seqRead (t : Target) (n : Nat) : (s.seqRead k t n).2.kept b = s.kept b := by
  cases t with
  | own a => exact kept_localRead ..
  | far node a => simp only [seqRead, kept_ite_snd, kept_mach, kept_on, ite_self]

@[simp] theorem kept_seqWrite (t : Target) (l : List Nat) : (s.seqWrite k t l).2.kept true = s.kept true := by
  cases t with
  | own a => exact kept_localWrite ..
  | far node a => simp only [seqWrite, kept_ite_snd, kept_mach, kept_on, ite_self]

@[simp] theorem kept_actWrite (n : Nat) : (s.actWrite k n ws).kept true = s.kept true := by
  simp only [actWrite, kept_ite, ite_self, kept_on, kept_postWrite]

@[simp] theorem kept_actRmw : (s.actRmw k ws).kept true = s.kept true := by
  unfold actRmw
  split <;> simp only [kept_ite, ite_self, kept_on, kept_localRead, kept_localWrite]

@[simp] theorem kept_actPoll (first : Bool) : (s.actPoll k ws first).kept b = s.kept b := by
  have h (f : Mach → Mach) : (if first then s.on f else s).kept b = s.kept b := by
    rw [kept_ite, kept_on, ite_self]
  unfold actPoll
  dsimp only
  split
  · exact kept_on ..
  · split
    · next e => rw [kept_on, kept_of_snd e, kept_seqRead, h]
    · next e => rw [kept_on, kept_of_snd e, kept_seqRead, h]

@[simp] theorem kept_ifBits (v : Nat) : (s.ifBits k ws v).kept b = s.kept b := by
  simp only [ifBits, kept_on]

@[simp] theorem kept_ifBitsReply (r : Reply) : (s.ifBitsReply k ws r).kept b = s.kept b := by
  simp only [ifBitsReply, kept_ifBits, kept_ite, kept_on, ite_self]

@[simp] theorem kept_actIfBits : (s.actIfBits k ws).kept b = s.kept b := by
  unfold actIfBits
  dsimp only
  split
  · exact kept_ifBits ..
  · split
    · rw [kept_ifBits, kept_on]
    · split
      · next e => rw [kept_ifBitsReply, kept_of_snd e, kept_seqRead]
      · next e => rw [kept_on, kept_of_snd e, kept_seqRead]

@[simp] theorem kept_actSignal : (s.actSignal k ws).kept true = s.kept true := by
  simp only [actSignal, kept_ite, ite_self, kept_on, kept_mach, kept_localWrite]

/-- A COMMIT writes CMP_GROUP_COMMIT, which lies in register space. -/
@[simp] theorem kept_actCommit : (s.actCommit k ws).kept b = s.kept b := by
  have h : addrGroupCommit (bits (ws.getD 0 0) 32 3) < 0x10000000 := by
    simp only [addrGroupCommit, bits]
    omega
  simp only [actCommit, kept_ite, ite_self, kept_on, kept_mach, kept_localWrite_regs _ _ _ _ _ h]

@[simp] theorem kept_copyStore (i : Nat) (p : CopyPlan) (l : List Nat) :
    (s.copyStore k i p l).2.kept true = s.kept true := by
  unfold copyStore
  split
  · next e => rw [kept_on, kept_of_snd e, kept_seqWrite]
  · next e => rw [kept_mach, kept_of_snd e, kept_seqWrite]

@[simp] theorem kept_copyOne (i : Nat) (p : CopyPlan) : (s.copyOne k i p).2.kept true = s.kept true := by
  unfold copyOne
  split
  · next e => rw [kept_on, kept_of_snd e, kept_seqRead]
  · next e => rw [kept_ite_snd, kept_on, kept_copyStore, ite_self, kept_of_snd e, kept_seqRead]

@[simp] theorem kept_copyFrom (p : CopyPlan) (fuel i : Nat) : (s.copyFrom k p fuel i).kept true = s.kept true := by
  induction fuel generalizing s i with
  | zero => rfl
  | succ fuel ih => simp only [copyFrom, kept_ite, kept_on, ih, kept_copyOne, ite_self]

@[simp] theorem kept_actCopy : (s.actCopy k ws).kept true = s.kept true := by
  simp only [actCopy, kept_ite, ite_self, kept_on, kept_copyFrom]

@[simp] theorem kept_copyReply (i : Nat) (writing : Bool) (r : Reply) :
    (s.copyReply k i writing ws r).kept true = s.kept true := by
  simp only [copyReply, kept_ite, kept_ite_snd, ite_self, kept_mach, kept_on, kept_copyStore, kept_copyFrom]

/-- Of the actions that wait for earlier writes, FENCE and COMMIT store no byte. -/
theorem kept_actOrdered {op : Nat} (h : op = 10 → b = true) : (s.actOrdered k op ws).kept b = s.kept b := by
  unfold actOrdered
  split
  · exact kept_on ..
  · split
    · exact kept_on ..
    · rw [h rfl, kept_actSignal]
    · rw [kept_actCommit]

/-- Of the actions, WRITE32, WRITE64, RMW, SIGNAL and COPY may store bytes. -/
theorem kept_act {op : Nat} (h : op ∈ [1, 2, 3, 10, 12] → b = true) : (s.act k op ws).kept b = s.kept b := by
  unfold act
  split
  case h_2 | h_3 => rw [h (by simp), kept_actWrite]
  case h_4 => rw [h (by simp), kept_actRmw]
  case h_5 => rw [kept_actPoll]
  case h_8 => rw [kept_actIfBits]
  case h_10 | h_11 | h_12 => exact kept_actOrdered _ _ _ fun e => h (by simp [e])
  case h_13 => rw [h (by simp), kept_actCopy]
  all_goals exact kept_on ..

theorem kept_seqIssue {op : Nat} (h : op ∈ [1, 2, 3, 10, 12] → b = true) : (s.seqIssue k op).kept b = s.kept b := by
  unfold seqIssue
  split
  · rfl
  · split
    · rfl
    · simp only [kept_ite, kept_on, kept_fetchCorrected, kept_act _ _ _ h, ite_self]

@[simp] theorem kept_seqPoll : (s.seqPoll k).kept b = s.kept b := by
  unfold seqPoll
  split
  · rw [kept_ite, kept_actPoll, ite_self]
  · exact s.kept_seqIssue k (by simp)

@[simp] theorem kept_seqPollTimeout : (s.seqPollTimeout k).kept b = s.kept b := by
  unfold seqPollTimeout
  split <;> simp only [kept_ite, kept_on, ite_self]

@[simp] theorem kept_seqWaitEventTimeout : (s.seqWaitEventTimeout k).kept b = s.kept b := by
  unfold seqWaitEventTimeout
  split <;> simp only [kept_ite, kept_on, ite_self]

@[simp] theorem kept_seqReply (ref : Nat) (r : Reply) : (s.seqReply k ref r).kept true = s.kept true := by
  unfold seqReply
  split <;> simp only [kept_ite, kept_on, ite_self, kept_ifBitsReply, kept_copyReply]

@[simp] theorem kept_seqRetry : (s.seqRetry k).kept true = s.kept true := by
  unfold seqRetry
  split
  · exact kept_actOrdered _ _ _ fun _ => rfl
  · rfl

end

end State

end Sys2Proof.Machine
end

section
/-! SUPPORT. The fuses, and the bytes, under the masters, management, Ethernet, the fabric and check jobs. -/

namespace Sys2Proof.Machine.State

variable {b : Bool} (s : State)

/-! ### The SPI target and the debug master (R353, R446) -/

@[simp] theorem kept_spiWrite (a : Nat) (l : List Nat) (w : Bool) : (s.spiWrite a l w).kept true = s.kept true := by
  simp only [spiWrite, kept_ite, ite_self, kept_on, kept_postWrite]

@[simp] theorem kept_spiRetry : s.spiRetry.kept b = s.kept b := by
  unfold spiRetry
  split
  · split
    · simp only [kept_ite, ite_self, kept_on, kept_localRead]
    · rfl
  · rfl

@[simp] theorem kept_spiReadReq (a n : Nat) (w : Bool) : (s.spiReadReq a n w).kept b = s.kept b := by
  unfold spiReadReq
  dsimp only
  (repeat' split) <;> simp only [kept_on, kept_localRead]

@[simp] theorem kept_dbgAccessDone : s.dbgAccessDone.kept true = s.kept true := by
  unfold dbgAccessDone
  split
  · rfl
  · dsimp only
    (repeat' split) <;> simp only [kept_on, kept_localRead, kept_localWrite]

/-! ### Management (R138 to R141) -/

section
variable (k seq a n : Nat)

@[simp] theorem kept_mgmtReadNow : (s.mgmtReadNow k seq a n).kept b = s.kept b := by
  unfold mgmtReadNow
  dsimp only
  (repeat' split) <;> simp only [kept_on, kept_localRead]

@[simp] theorem kept_mgmtReadFrom (p : Nat) (g : Bool) : (s.mgmtReadFrom p k seq g a n).kept b = s.kept b := by
  unfold mgmtReadFrom
  split <;> simp only [kept_mgmtReadNow, kept_mach]

@[simp] theorem kept_mgmtWriteNow (l : List Nat) : (s.mgmtWriteNow k seq a l).kept true = s.kept true := by
  unfold mgmtWriteNow
  dsimp only
  (repeat' split) <;> simp only [kept_on, kept_localWrite]

@[simp] theorem kept_mgmtWriteFrom (p : Nat) (g : Bool) (l : List Nat) :
    (s.mgmtWriteFrom p k seq g a l).kept true = s.kept true := by
  unfold mgmtWriteFrom
  split <;> simp only [kept_mgmtWriteNow, kept_mach]

@[simp] theorem kept_mgmtRetry1 (x : MgmtAnswer) : (s.mgmtRetry1 k seq x).kept b = s.kept b := by
  unfold mgmtRetry1
  dsimp only
  (repeat' split) <;> simp only [kept_on, kept_localRead]

@[simp] theorem kept_mgmtRetry : s.mgmtRetry.kept b = s.kept b := by
  refine kept_foldl (fun t k => ?_) _ s
  split
  · exact kept_foldl (fun t w => kept_mgmtRetry1 ..) _ t
  · rfl

@[simp] theorem kept_mgmtRequest (p : Nat) (g : Bool) (l : List Nat) :
    (s.mgmtRequest p k seq g l).kept true = s.kept true := by
  simp only [mgmtRequest, kept_ite, ite_self, kept_on, kept_mgmtReadFrom, kept_mgmtWriteFrom]

end

@[simp] theorem kept_mgmtDatagram (p : MgmtPeer) (l : List Nat) : (s.mgmtDatagram p l).kept true = s.kept true := by
  unfold mgmtDatagram
  dsimp only
  (repeat' split) <;> simp only [kept_on, kept_mgmtRequest]

/-! ### Ethernet (R126 to R134) -/

section
variable (e : EthIn)

@[simp] theorem kept_udpClass (src dst : Nat) (l : List Nat) : (s.udpClass e src dst l).kept true = s.kept true := by
  unfold udpClass
  dsimp only
  (repeat' split) <;> simp only [kept_on, kept_mgmtDatagram]

@[simp] theorem kept_ipv4In : (s.ipv4In e).kept true = s.kept true := by
  unfold ipv4In
  dsimp only
  (repeat' split) <;> simp only [kept_on, kept_udpClass]

@[simp] theorem kept_ipv6In : (s.ipv6In e).kept true = s.kept true := by
  unfold ipv6In
  dsimp only
  (repeat' split) <;> simp only [kept_on, kept_udpClass]

@[simp] theorem kept_etherType (type : Nat) : (s.etherType e type).kept true = s.kept true := by
  unfold etherType
  (repeat' split) <;> simp only [kept_on, kept_ipv4In, kept_ipv6In]

end

section
variable (p : Nat) (l : List Nat)

@[simp] theorem kept_ethTag : (s.ethTag p l).kept true = s.kept true := by
  simp only [ethTag, kept_ite, ite_self, kept_on, kept_etherType]

@[simp] theorem kept_ethFrameReceive (full : Bool) : (s.ethFrameReceive p l full).kept true = s.kept true := by
  simp only [ethFrameReceive, kept_ite, ite_self, kept_on, kept_ethTag]

end

/-! ### Check jobs (R363 to R365) -/

@[simp] theorem kept_jobFold {β : Type} (f : β → List Nat → β) (y : Master) (fuel a n : Nat) (x : β) :
    (s.jobFold f y fuel a n x).2.kept b = s.kept b := by
  induction fuel generalizing a n x s with
  | zero => rfl
  | succ fuel ih => simp only [jobFold, kept_ite_snd, kept_localRead, ih, ite_self]

@[simp] theorem kept_jobWrite (y : Master) (fuel a : Nat) (l : List Nat) :
    (State.jobWrite y fuel a l s).2.kept true = s.kept true := by
  induction fuel generalizing a l s with
  | zero => rfl
  | succ fuel ih => simp only [jobWrite, kept_ite_snd, kept_localWrite, ih, ite_self]

@[simp] theorem kept_jobEnd (c : Nat) (j : ChkJob) (v : Nat) : (s.jobEnd c j v).kept true = s.kept true := by
  unfold jobEnd
  dsimp only
  split
  · exact kept_mach ..
  · exact kept_mach ..
  · rw [kept_mach, kept_jobWrite]
  · split
    · next h => rw [kept_mach, kept_of_snd h, kept_jobFold]
    · next h => rw [kept_mach, kept_of_snd h, kept_jobFold]

@[simp] theorem kept_chkJobDone (c : Nat) : (s.chkJobDone c).kept true = s.kept true := by
  unfold chkJobDone
  split
  · rfl
  · dsimp only
    split
    · next h => rw [kept_mach, kept_of_snd h, kept_jobFold]
    · next h => rw [kept_jobEnd, kept_of_snd h, kept_jobFold]

/-! ### The fabric (R97 to R107) -/

@[simp] theorem kept_deliverReply (x : RemoteReq) (st : Nat) (r : Reply) (o : Bool) :
    (s.deliverReply x st r o).kept true = s.kept true := by
  unfold deliverReply
  split <;> simp only [kept_ite, ite_self, kept_on, kept_seqReply]

@[simp] theorem kept_afterReply : s.afterReply.kept true = s.kept true := by
  unfold afterReply
  dsimp only
  rw [kept_mgmtRetry, kept_spiRetry, kept_foldl fun t k => kept_seqRetry t k, kept_on]

@[simp] theorem kept_endRequest (x : RemoteReq) (st : Nat) (l : List Nat) (o : Bool) :
    (s.endRequest x st l o).kept true = s.kept true := by
  simp only [endRequest, kept_afterReply, kept_deliverReply, kept_ite, ite_self, kept_on]

@[simp] theorem kept_memRsp (tag st : Nat) (l : List Nat) : (s.memRsp tag st l).kept true = s.kept true := by
  unfold memRsp
  split
  · exact kept_endRequest ..
  · rfl

@[simp] theorem kept_memTimeout (tag : Nat) : (s.memTimeout tag).kept true = s.kept true := by
  unfold memTimeout
  split
  · exact kept_endRequest ..
  · rfl

section
variable (p : Nat)

@[simp] theorem kept_memReqPacket (src : Nat) (l : List Nat) : (s.memReqPacket p src l).kept true = s.kept true := by
  simp only [memReqPacket, kept_ite, ite_self, kept_on, kept_memReq]

@[simp] theorem kept_routedPacket (type src : Nat) (l : List Nat) :
    (s.routedPacket p type src l).kept true = s.kept true := by
  unfold routedPacket
  split <;> simp only [kept_on, kept_memReqPacket, kept_ite, ite_self, kept_memRsp, kept_mgmtDatagram]

@[simp] theorem kept_routedFlit (f : Flit) : (s.routedFlit p f).kept true = s.kept true := by
  unfold routedFlit
  (repeat' split) <;> simp only [kept_on, kept_routedPacket, kept_mach]

@[simp] theorem kept_flitContent (f : Flit) : (s.flitContent p f).kept true = s.kept true := by
  unfold flitContent
  (repeat' split) <;> simp only [kept_on, kept_routedFlit]

@[simp] theorem kept_flitReceive (f : Flit) : (s.flitReceive p f).kept true = s.kept true := by
  unfold flitReceive
  (repeat' split) <;> simp only [kept_on, kept_flitContent, kept_mach]

end

end Sys2Proof.Machine.State
end

section
/-! SUPPORT. The fuses, and the bytes, under pictures, boot, the flash and the tests. -/

namespace Sys2Proof.Machine.State

variable {b : Bool} (s : State)

/-! ### Pictures, signatures and statistics -/

@[simp] theorem kept_renderColumns (n x y : Nat) : (s.renderColumns n x y).kept true = s.kept true := by
  unfold renderColumns
  dsimp only
  rw [kept_mach]
  exact kept_foldl (fun t _ => kept_foldl (fun u _ => kept_setBytes ..) _ t) _ s

@[simp] theorem kept_cmpSignatures (p : Nat → Bool) : (s.cmpSignatures p).kept b = s.kept b := by
  unfold cmpSignatures
  split
  · rfl
  · refine kept_foldl (fun t r => ?_) _ s
    simp only [cmpSignature, kept_ite, kept_mach, ite_self]

@[simp] theorem kept_outSignature (r : Nat) (e : List (Nat × Nat)) : (s.outSignature r e).kept b = s.kept b := by
  simp only [outSignature, kept_ite, kept_mach, ite_self]

@[simp] theorem kept_bandSlotStart (n : Nat) : (s.bandSlotStart n).kept true = s.kept true := by
  simp only [bandSlotStart, renderBand, kept_ite, ite_self, kept_renderColumns, kept_on, kept_cmpSignatures]

@[simp] theorem kept_bandOverrunAt (k : Nat) (l : List Nat) : (s.bandOverrunAt k l).kept true = s.kept true := by
  simp only [bandOverrunAt, kept_ite, ite_self, kept_renderColumns, kept_on]

@[simp] theorem kept_frameDoneAt : s.frameDoneAt.kept b = s.kept b := by
  simp only [frameDoneAt, kept_on, kept_cmpSignatures]

@[simp] theorem kept_sliceEmitAt (n : Nat) (l : List (List Nat)) : (s.sliceEmitAt n l).kept true = s.kept true := by
  unfold sliceEmitAt
  dsimp only
  rw [kept_foldl (fun t x => kept_setByte ..), kept_mach]

/-! ### The flash, the image and PROVE -/

@[simp] theorem kept_logErase : s.logErase.kept true = s.kept true := by
  simp only [logErase, kept_fprogram, kept_ferase]

@[simp] theorem kept_logHeader (k : Nat) : (s.logHeader k).kept true = s.kept true := by
  simp only [logHeader, kept_ite, ite_self, kept_fprogram, kept_ferase]

@[simp] theorem kept_logWrite (pos seq : Nat) (e : TroubleEntry) : (s.logWrite pos seq e).1.kept true = s.kept true := by
  unfold logWrite
  dsimp only
  (repeat' split) <;> simp only [kept_logErase, kept_fprogram, kept_logHeader]

@[simp] theorem kept_troubleLogWrite : s.troubleLogWrite.kept true = s.kept true := by
  unfold troubleLogWrite
  split
  · rfl
  · simp only [kept_ite, ite_self, kept_mach, kept_logWrite]

@[simp] theorem kept_loadMemory (x : ImgHeader) (vendor : List Nat) (ts : List ImgTable) :
    (s.loadMemory x vendor ts).kept true = s.kept true := by
  simp only [loadMemory, kept_ite, ite_self, kept_setBytes, kept_clear]

@[simp] theorem kept_applyImage (m : Mach) (x : ImgHeader) (vendor : List Nat) (ts : List ImgTable) :
    (s.applyImage m x vendor ts).kept true = s.kept true := by
  simp only [applyImage, kept_mach, kept_loadMemory]

@[simp] theorem kept_trySlot (slot : Nat) (f : FlashIn) : (s.trySlot slot f).2.kept true = s.kept true := by
  unfold trySlot
  cases s.imgHeader slot with
  | none => rfl
  | some x =>
    dsimp only
    (repeat' split) <;> simp only [kept_applyImage, kept_mach]

/-- The start of a slot's load. -/
theorem kept_unload : ({ s with mach := s.mach.unload } : State).slotSeqs.kept true = s.kept true := by
  simp only [slotSeqs, kept_mach]

@[simp] theorem kept_loadSlots (f : FlashIn) : (s.loadSlots f).kept true = s.kept true := by
  unfold loadSlots
  dsimp only
  split
  · next h => rw [kept_mach, kept_of_snd h, kept_trySlot, kept_unload]
  · next h =>
    split
    · next g => rw [kept_mach, kept_of_snd g, kept_trySlot, kept_ite, kept_mach, ite_self, kept_unload, kept_of_snd h,
        kept_trySlot, kept_unload]
    · next g => rw [kept_mach, kept_clear, kept_unload, kept_of_snd g, kept_trySlot, kept_ite, kept_mach, ite_self,
        kept_unload, kept_of_snd h, kept_trySlot, kept_unload]

@[simp] theorem kept_flashUp (f : FlashIn) : (s.flashUp f).kept b = s.kept b := by
  simp only [flashUp, kept_mach]

@[simp] theorem kept_load (f : FlashIn) : (s.load f).kept true = s.kept true := by
  unfold load
  dsimp only
  rw [kept_mach]
  split <;> simp only [kept_loadSlots, findLog, kept_clear, kept_mach, kept_flashUp]

@[simp] theorem kept_loadCommand (f : FlashIn) : (s.loadCommand f).kept true = s.kept true := by
  simp only [loadCommand, kept_ite, kept_load, kept_mach, ite_self]

@[simp] theorem kept_imageCheckCommand (f : FlashIn) : (s.imageCheckCommand f).kept true = s.kept true := by
  simp only [imageCheckCommand, imageCheck, kept_ite, kept_load, kept_mach, ite_self]

@[simp] theorem kept_flashDone (v : Bool) : (s.flashDone v).kept true = s.kept true := by
  unfold flashDone
  split
  · rfl
  · simp only [kept_ite, kept_mach, kept_fprogram, kept_ferase, ite_self]

@[simp] theorem kept_scrubbed (r : SlotResult) : (s.scrubbed r).kept b = s.kept b := by
  simp only [scrubbed, kept_ite, kept_ecc, ite_self]

@[simp] theorem kept_proveTests (r : ProveIn) : (s.proveTests r).kept true = s.kept true := by
  simp only [proveTests, proveMemory, kept_ite, kept_mach, kept_setBytes, kept_clear, ite_self]

end Sys2Proof.Machine.State
end

section
/-! SUPPORT. The fuses, and the bytes, under every command. -/

namespace Sys2Proof.Machine

/-- The command ends from a state that keeps the fuses of s, and its bytes unless b says that bytes are stored. -/
def State.Keeps (s : State) (b : Bool) (r : Result) : Prop := ∃ t : State, t.kept b = s.kept b ∧ r = .next (s.done t)

theorem State.keeps_ends {s t : State} {b : Bool} (h : t.kept b = s.kept b) : s.Keeps b (s.ends t) := ⟨t, h, rfl⟩

theorem State.keeps_if {s t : State} {b : Bool} {c : Prop} [Decidable c] (h : t.kept b = s.kept b) :
    s.Keeps b (s.ends (if c then t else s)) :=
  State.keeps_ends (by rw [State.kept_ite, h, ite_self])

theorem State.keeps_always {s : State} {b : Bool} (f : Mach → Mach) : s.Keeps b (s.always f) :=
  State.keeps_ends (State.kept_on s f)

theorem State.keeps_gated {s : State} {b g : Bool} (f : Mach → Mach) : s.Keeps b (s.gated g f) :=
  State.keeps_if (State.kept_on s f)

theorem State.keeps_hostWrite {s : State} {b : Bool} {y : Master} {a n v : Nat} (h : a < 0x10000000) :
    s.Keeps b (s.ends (s.hostWrite y a n v)) :=
  State.keeps_ends (s.kept_hostWrite_regs y a n v h)

/-- Every command but a power-on and the end of a burn keeps the fuses, and its bytes where it stores none. -/
theorem exec_keeps {c : Instr} (hp : c ≠ .por) (hf : ∀ v, c ≠ .dbgFuseDone v) (s : State) :
    s.Keeps (storesBytes c) (exec c s) := by
  cases c
  case por => exact absurd rfl hp
  case dbgFuseDone v => exact absurd rfl (hf v)
  case encKeyReq | encLtrReq | cmpFence | cmpFenceClr | cmpReadoutIn | lutSwap | auxGo | scnBlWrite | tchRebase |
    tchTestGo | evcDoorbell | i2cGo | gateCommit | gateSyncWrite | flashRead | flashProgram | flashErase | svcNew |
    svcVerify | requestLive | requestStandby | requestSleep | requestService | requestHalt | sysResetReq | softEth |
    softCap | softDec | softEnc | softTch | softChk | sysWdtKick | pmcSnap | pmcSw =>
    exact State.keeps_hostWrite (by decide)
  case cmpGroupCommit => exact State.keeps_hostWrite (by simp only [addrGroupCommit]; omega)
  case evcPendWrite => exact State.keeps_hostWrite (by simp only [addrEvcPend]; omega)
  case evcHostPendWrite => exact State.keeps_hostWrite (by simp only [addrHostPend]; omega)
  case chkCompute | chkCheck | chkAppend | chkCheckStrip =>
    exact State.keeps_hostWrite (by simp only [addrChkCtl]; omega)
  case registerWrite | lutWindowWrite => exact State.keeps_ends (s.kept_hostWrite _ _ _ _)
  case lowWordRead | capStampRead | cmpReceiptRead | cmpReleaseRead | tchReportRead | seqLogRead | gateSyncRead |
    gateRecordRead | pmcSampRead | tstResultRead =>
    exact State.keeps_ends (s.kept_hostRead _ _ _)
  case seqNop | seqWaitEvent | seqWaitTime | seqIfBits | seqJump | seqFence | seqCommit | seqLog | seqYield | seqEnd =>
    exact State.keeps_ends (s.kept_seqIssue _ (by simp))
  case seqWrite32 | seqWrite64 | seqRmw | seqSignal | seqCopy =>
    exact State.keeps_ends (s.kept_seqIssue _ fun _ => rfl)
  case clockFault | panelStep | proxSample | delivery | seqWaitTimeExpiry | seqRunLimit | gpioEdge | spiStatus |
    spiReadData | spiCsLimit | spiUnknownCommand | resetN | holdEnd | leaveJoin | joinLimit | wakeTimer | sleepEntryDone
    | sleepWake | sysWdtWarn | wdtExpiry | wdtCountDrop | pwrRail | pwrStageUp | pwrStageDown | s5Dwell | sagRestart |
    tstPeriod | tapReset | idcode | samplePreload | extest | extestPulse | extestTrain | clamp | highz | bypass |
    fuseProg | dbgNop | dbgRead32 | dbgWrite32 | dbgRead64 | dbgWrite64 | dbgFence =>
    exact State.keeps_always _
  case timeFlitSend | timeSettled | timeHoldover | rootLost | claim | timeParentChange | preemptClaim | refPpsEdge |
    refF10mGate | timeRefLost | ptpMessageTimer | join | accept | refuse | leave | flowDown | rejoin | resvCheck |
    state | peerUnknown | doorbell | streamSliceReceive | spanBandRowReceive | auReleaseTimeout | streamSilent |
    ethLink | neighbourRequest | neighbourExpire | membershipReport | rtcpSrSend | openMgmt | prove | mgmtFence |
    mgmtPending | close | mgmtIdle | csiFrameStart | csiLine | csiFrameEnd | capSilent | sliceDecoded | workLimit |
    contextResetEnd | rowCoded | rowLimitReached | latchLine | applyPoint | readoutTimeout | lutSwapChecked |
    tchCycleStart | listenEnd | scanEnd | scanLate | baselineAdopted | unconfAdopt | stuckContact | tchTestDone |
    tchRx | tchRxSilent | holdoffEnd | noRootSeen | ptpReferenceLost | flowSilent | timeFlitReceive | portTrain |
    trainFail | configSend | config | configTimeout | nak | idleLimit | retrain | portDisable | stateFlood | trainLock
    | pulseArm | pulseEdge | captureEdge | mgmtLockoutEnd | capEnWrite | i2cDone | i2cTimeout | flashEraseTimeout |
    svcChallengeExpiry | pwrThermal | thermalClear | thermalCrit | pmcWrap | sensorRead | telRecord | pulseReturn |
    frameStart | vblank | lutEccFatal | hpdPlug | hpdUnplug | irqHpd | dpRetry | auxReplyTimeout | auxReply | noHpd |
    faultHoldEnd | hpdShortPulse | eventArrival | cisternFatal =>
    exact State.keeps_gated _
  case bandSlotStart => exact State.keeps_ends (s.kept_bandSlotStart _)
  case bandOverrun => exact State.keeps_ends (s.kept_bandOverrunAt _ _)
  case cmpFrameDone => exact State.keeps_ends s.kept_frameDoneAt
  case flitReceive => exact State.keeps_ends (s.kept_flitReceive _ _)
  case memReq => exact State.keeps_if (s.kept_memReq _ _)
  case memRsp => exact State.keeps_if (s.kept_memRsp _ _ _)
  case memTimeout => exact State.keeps_if (s.kept_memTimeout _)
  case ethFrameReceive => exact State.keeps_ends (s.kept_ethFrameReceive _ _ _)
  case mgmtRead => exact State.keeps_ends (s.kept_mgmtReadFrom _ _ _ _ _ _)
  case mgmtWrite => exact State.keeps_ends (s.kept_mgmtWriteFrom _ _ _ _ _ _)
  case sliceEmit => exact State.keeps_if (s.kept_sliceEmitAt _ _)
  case sigOutComplete => exact State.keeps_if (s.kept_outSignature _ _)
  case seqPoll => exact State.keeps_ends (s.kept_seqPoll _)
  case seqPollTimeout => exact State.keeps_ends (s.kept_seqPollTimeout _)
  case seqWaitEventTimeout => exact State.keeps_ends (s.kept_seqWaitEventTimeout _)
  case sysFenceRead b =>
    refine State.keeps_ends ?_
    rw [State.kept_ite, State.kept_hostRead, ite_self]
  case spiWrite => exact State.keeps_ends (s.kept_spiWrite _ _ _)
  case spiReadReq => exact State.keeps_ends (s.kept_spiReadReq _ _ _)
  case chkJobDone => exact State.keeps_ends (s.kept_chkJobDone _)
  case load => exact State.keeps_ends (s.kept_loadCommand _)
  case imageCheck => exact State.keeps_ends (s.kept_imageCheckCommand _)
  case flashDone => exact State.keeps_ends (s.kept_flashDone _)
  case troubleLogWrite => exact State.keeps_ends s.kept_troubleLogWrite
  case badgerSlot => exact State.keeps_ends ((State.kept_scrubbed _ _).trans (State.kept_on _ _))
  case proveTests => exact State.keeps_ends (s.kept_proveTests _)
  case fuseRead => exact State.keeps_ends (State.kept_mach _ _)
  case dbgAccessDone => exact State.keeps_ends s.kept_dbgAccessDone

/-- The end of a burn changes the customer key alone, and nothing while no burn runs. -/
theorem State.dbgFuseDone_keys (s : State) (v : Nat) :
    let t := s.dbgFuseDone v
    t.mem = s.mem ∧ t.flash = s.flash ∧ t.fuses.vendorKey = s.fuses.vendorKey ∧ t.fuses.serial = s.fuses.serial ∧
      t.fuses.svn = s.fuses.svn ∧ (s.mach.tst.burning = none → t = s) := by
  unfold State.dbgFuseDone
  split
  · exact ⟨rfl, rfl, rfl, rfl, rfl, fun _ => rfl⟩
  · next d h => exact ⟨rfl, rfl, rfl, rfl, rfl, fun h' => absurd (h'.symm.trans h) nofun⟩

/-- A power-on keeps every fuse but a customer key whose burn it cuts short. -/
theorem State.powerOn_keys (s : State) :
    let t := s.powerOn
    t.fuses.vendorKey = s.fuses.vendorKey ∧ t.fuses.serial = s.fuses.serial ∧ t.fuses.svn = s.fuses.svn ∧
      (s.mach.tst.burning = none → t.fuses = s.fuses) := by
  by_cases h : s.mach.tst.burning = none
  · have ht : s.powerOn = s.por := if_pos (by simp [h])
    rw [ht]
    exact ⟨rfl, rfl, rfl, fun _ => rfl⟩
  · have ht : s.powerOn.fuses =
        { s.fuses with customerKey := some (deadKey (Config.freeWord s.por.mach.freeIdx)) } :=
      congrArg State.fuses (if_neg (by simpa using h))
    simp only [ht]
    exact ⟨trivial, trivial, trivial, fun hn => absurd hn h⟩

/-- Settles O45: the list holds every command whose effect can store a byte; the effects of the others are made of accesses
to registers, reads, and changes of the block. That an erase which times out leaves its sector as it was is the model's
choice (log entry 110). -/
theorem bytesKept : Obligations.BytesKept := by
  unfold Obligations.BytesKept
  intro c s t a hc ht
  have bytes {u : State} (he : exec c s = .next (s.done u)) (hm : u.mem = s.mem) (hf : u.flash = s.flash) :
      t.byte a = s.byte a ∧ t.fbyte a = s.fbyte a := by
    obtain rfl : s.done u = t := Host.Outcome.next.inj (he.symm.trans ht)
    simp only [State.byte, State.fbyte, State.done_mem, State.done_flash, hm, hf, and_self]
  by_cases hf : ∃ v, c = .dbgFuseDone v
  · obtain ⟨v, rfl⟩ := hf
    obtain ⟨hm, hfl, -⟩ := s.dbgFuseDone_keys v
    exact bytes rfl hm hfl
  · obtain ⟨u, hu, he⟩ := exec_keeps (by rintro rfl; exact absurd hc (by decide)) (fun v e => hf ⟨v, e⟩) s
    rw [hc] at hu
    obtain ⟨hm, hfl⟩ := Prod.mk.inj (Prod.mk.inj hu).2
    exact bytes he hm hfl

/-- Settles O47: the commands other than a power-on and the end of a burn keep the fuses, and these two change the customer
key alone, of a burn that runs; the end of a command then only blows bits of the SVN. -/
theorem fusesOnlyGrow : Obligations.FusesOnlyGrow := by
  unfold Obligations.FusesOnlyGrow
  intro c s t ht
  have keys {u : State} (he : exec c s = .next (s.done u)) (hv : u.fuses.vendorKey = s.fuses.vendorKey)
      (hs : u.fuses.serial = s.fuses.serial) (hn : u.fuses.svn = s.fuses.svn)
      (hk : s.mach.tst.burning = none → u.fuses.customerKey = s.fuses.customerKey) :
      t.fuses.vendorKey = s.fuses.vendorKey ∧ t.fuses.serial = s.fuses.serial ∧ s.fuses.svn ≤ t.fuses.svn ∧
        (s.mach.tst.burning = none → t.fuses.customerKey = s.fuses.customerKey) := by
    obtain rfl : s.done u = t := Host.Outcome.next.inj (he.symm.trans ht)
    exact ⟨hv, hs, hn.symm.le.trans (le_max_left _ _), hk⟩
  by_cases hp : c = .por
  · subst hp
    obtain ⟨hv, hs, hn, hk⟩ := s.powerOn_keys
    exact keys rfl hv hs hn fun h => congrArg Fuses.customerKey (hk h)
  by_cases hf : ∃ v, c = .dbgFuseDone v
  · obtain ⟨v, rfl⟩ := hf
    obtain ⟨-, -, hv, hs, hn, hk⟩ := s.dbgFuseDone_keys v
    exact keys rfl hv hs hn fun h => congrArg (fun u => u.fuses.customerKey) (hk h)
  obtain ⟨u, hu, he⟩ := exec_keeps hp (fun v e => hf ⟨v, e⟩) s
  have hfuses : u.fuses = s.fuses := (Prod.mk.inj hu).1
  exact keys he (by rw [hfuses]) (by rw [hfuses]) (by rw [hfuses]) fun _ => by rw [hfuses]

end Sys2Proof.Machine
end
